-- ==== Sys2Proof/Word.lean ====
section
/-!
DEFINITION. Sys2Proof/Word.lean: the word types of the machine (spec/00_scope R5, R6).
-/

namespace Sys2Proof

/-- A byte; memory is byte addressed (R6). -/
abbrev Byte := BitVec 8

/-- A 64-bit word: scalar registers, virtual addresses, CSRs (R145, R174). -/
abbrev Word := BitVec 64

/-- A register number field (R32). -/
abbrev Reg := BitVec 5

/-- A bit as a natural number. -/
def bitNat (b : Bool) : Nat := if b then 1 else 0

@[simp] theorem bitNat_true : bitNat true = 1 := rfl

@[simp] theorem bitNat_false : bitNat false = 0 := rfl

end Sys2Proof
end

