-- ==== Sys2Proof/Syntax.lean ====
section
/-!
DEFINITION. Sys2Proof/Syntax.lean: the instructions and events of the FZ4, one constructor per row of
spec/opcode_table.json, with the types of their operands. An event row has no words; its constructor
carries what the event itself brings (which agent, what another party found or answered).
-/

namespace Sys2Proof

/-- The sixteen element tags (R51, R54, R57). -/
inductive Tag where
  | s8 | s16 | s32 | s64 | n8 | n16 | n32 | n64
  | e2m1 | e4m3 | e5m2 | f16 | bf16 | f32 | f64 | q32
  deriving DecidableEq, Repr

/-- Token requests of the engine extension word: the FIFO popped before issue and the one pushed at
retirement (R31). `none` is POPE = 0 or PUSHE = 0. -/
structure TokenReq where
  pop : Option (BitVec 4)
  push : Option (BitVec 4)
  deriving DecidableEq, Repr

/-- The short form's token requests: none. -/
def TokenReq.idle : TokenReq := { pop := none, push := none }

/-- How many lanes of a link trained (R403): all after sparing, at least half, fewer than half. -/
inductive Lanes where
  | full | half | fewer
  deriving DecidableEq, Repr

/-- A kernel descriptor's fields (R113). -/
structure KernelDesc where
  entry : Word
  lmul : Nat
  tiles : Nat
  accs : Nat
  chans : Nat
  cstore : Nat
  bstore : Nat
  deriving DecidableEq, Repr

/-- One valid aperture entry of a context (R400). -/
structure Aperture where
  index : Nat
  modn : Nat
  set : Nat
  ctx : Nat
  deriving DecidableEq, Repr

/-- The conductor that `.conductor` names, with its ARGS and completion word (R123): the virtual address,
0 for none. -/
structure Conductor where
  desc : KernelDesc
  args : Word
  cword : Word
  deriving DecidableEq, Repr

/-- A mapping of a part of the context that has no window (R230): the physical address of the leaf's table entry, the place it maps, as
it would be in slot set 0, and the leaf's flags. -/
structure PartMap where
  entry : Nat
  place : Nat
  flags : Nat
  deriving DecidableEq, Repr

/-- What a context image says (R79 to R82, R488, R90, R100, R123, R228, R353, R360, R375, R400, R403,
R413, R434, R436, R447). An absent value takes its default; the quotas CQUOTA and DQUOTA and the spill area's size are lists by die, 0 for
a die that they do not reach; `parts` are the mappings of R230; `shared` is the device memory that firmware maps in BAR 2 for the context. The manual
gives no byte format, so the firmware's reading of the image is plain data
here (notes/assumptions/11). -/
structure Image where
  num : Nat
  root : Nat
  hostWalk : Bool
  trapvec : Word
  xmod : Option Nat
  lim : Option Nat
  wdog : Option Nat
  qCell : Nat
  qB : Nat
  cpool : Nat
  dpool : Nat
  cquota : List Nat
  dquota : List Nat
  spillBase : Nat
  spillStep : Nat
  spillSize : List Nat
  hostSpill : Bool
  hostSpillAddr : Nat
  hostSpillSize : Nat
  apertures : List Aperture
  window : Option Nat
  shared : List (Nat × Nat)
  loadable : List Nat
  queues : List (Nat × Nat)
  conductor : Option Conductor
  hostRetrain : Bool
  saveArea : Bool
  parts : List PartMap
  cells : List Host.Cell
  deriving DecidableEq, Repr

/-- CQUOTA, DQUOTA and the size of the spill area on a die (R375, R434). -/
def Image.cquotaOn (im : Image) (die : Nat) : Nat := im.cquota[die]?.getD 0
def Image.dquotaOn (im : Image) (die : Nat) : Nat := im.dquota[die]?.getD 0
def Image.spillOn (im : Image) (die : Nat) : Nat := im.spillSize[die]?.getD 0

/-- What another module has answered to the reads of an engine: the bytes, and those among them that came with bad data (R486). -/
structure FarData where
  cells : List Host.Cell
  poor : List Nat
  deriving DecidableEq, Repr

/-- Nothing answered. -/
def FarData.none : FarData := { cells := [], poor := [] }

/-- What firmware found when it verified an image before Loading ends (R82, R451, R459). -/
inductive LoadFinding where
  | badSignature
  | belowRelease
  | hostReadFailed
  | image (im : Image)
  | saved
  deriving DecidableEq, Repr

/-- A write of a register of BAR 0: 4 bytes or 8 (R447). -/
inductive RegWrite where
  | four (v : BitVec 32)
  | eight (v : BitVec 64)
  deriving DecidableEq, Repr

/-- A write among those that routers have merged into one packet (R407). -/
inductive WritePart where
  | data (l : List Byte)
  | marked (l : List Byte)
  | nibble (hi : Bool) (v : Nat)
  deriving DecidableEq, Repr

/-- A request packet that reaches this module from another one (R406, R408): `bytes` is what routers have merged of the writes
of a line, each with its address (R407), `marked` a write that carries the poison marker (R486), `multicast` one of MCST (R411), `ordered`
one of element-ordered mode (R336), `update` an update of a completion word by a kernel unit (R118): bits cleared, bits set, and a sum. -/
inductive RemoteKind where
  | read (n : Nat)
  | write (data : List Byte)
  | bytes (parts : List (Nat × WritePart))
  | marked (data : List Byte)
  | multicast (data : List Byte)
  | ordered (data : List Byte)
  | nibble (hi : Bool) (v : Nat)
  | atomic (op : BitVec 3) (uns : Bool) (operand expect : Word)
  | scatter (op : BitVec 2) (tag : Tag) (x : Nat)
  | update (clear set add : Word)
  | ticketGet (set disp : Nat)
  | ticketDone (set disp : Nat)
  | ticketWait (set disp : Nat) (num : BitVec 32)
  deriving DecidableEq, Repr

/-- The address and kind of such a request, with the source field of its header (R406). -/
structure RemoteRequest where
  pa : Nat
  kind : RemoteKind
  src : Nat
  deriving DecidableEq, Repr

/-- A collective contribution of a rank on another module (R417 to R421). `fate` tells that the contribution failed: 0 since its
group was terminated, 1 or 2 by a lost link with its sub-code (R423). -/
structure RemoteContribution where
  cid : Nat
  nrm1 : Nat
  rank : Nat
  op : Nat
  kind : Nat
  base : Nat
  stride : Nat
  tag : Tag
  set : Nat
  elems : List Nat
  fate : Option Nat
  deriving DecidableEq, Repr

/-- A message that reaches this module from another one (R425, R430, R438). -/
structure RemoteMessage where
  die : Nat
  set : Nat
  ctx : Nat
  src : Nat
  tag : Nat
  payload : List Byte
  deriving DecidableEq, Repr

/-- What a module reset finds (R446, R453): the stacks that trained, the host link's width, and whether the
host has enabled ATS. -/
structure ResetReport where
  hbm : BitVec 16
  pciw : BitVec 5
  ats : Bool
  deriving DecidableEq, Repr

/-- The rows of spec/opcode_table.json. -/
inductive Instr where
  /-- ADD (R151). -/
  | add (d : Reg) (a : Reg) (b : Reg)
  /-- SUB (R151). -/
  | sub (d : Reg) (a : Reg) (b : Reg)
  /-- AND (R151). -/
  | and (d : Reg) (a : Reg) (b : Reg)
  /-- OR (R151). -/
  | or (d : Reg) (a : Reg) (b : Reg)
  /-- XOR (R151). -/
  | xor (d : Reg) (a : Reg) (b : Reg)
  /-- SHL (R151). -/
  | shl (d : Reg) (a : Reg) (b : Reg)
  /-- SHR (R151). -/
  | shr (d : Reg) (a : Reg) (b : Reg)
  /-- SHRA (R151). -/
  | shra (d : Reg) (a : Reg) (b : Reg)
  /-- MUL (R151). -/
  | mul (d : Reg) (a : Reg) (b : Reg)
  /-- MULH (R151). -/
  | mulh (d : Reg) (a : Reg) (b : Reg)
  /-- MULHN (R151). -/
  | mulhn (d : Reg) (a : Reg) (b : Reg)
  /-- DIV (R152). -/
  | div (d : Reg) (a : Reg) (b : Reg)
  /-- DIVN (R152). -/
  | divn (d : Reg) (a : Reg) (b : Reg)
  /-- REM (R152). -/
  | rem (d : Reg) (a : Reg) (b : Reg)
  /-- REMN (R152). -/
  | remn (d : Reg) (a : Reg) (b : Reg)
  /-- ROL (R151). -/
  | rol (d : Reg) (a : Reg) (b : Reg)
  /-- CLZ (R151). -/
  | clz (d : Reg) (a : Reg)
  /-- CTZ (R151). -/
  | ctz (d : Reg) (a : Reg)
  /-- POPC (R151). -/
  | popc (d : Reg) (a : Reg)
  /-- MIN (R151). -/
  | min (d : Reg) (a : Reg) (b : Reg)
  /-- MAX (R151). -/
  | max (d : Reg) (a : Reg) (b : Reg)
  /-- MINN (R151). -/
  | minn (d : Reg) (a : Reg) (b : Reg)
  /-- MAXN (R151). -/
  | maxn (d : Reg) (a : Reg) (b : Reg)
  /-- SLT (R151). -/
  | slt (d : Reg) (a : Reg) (b : Reg)
  /-- SLTN (R151). -/
  | sltn (d : Reg) (a : Reg) (b : Reg)
  /-- SEL (R153). -/
  | sel (d : Reg) (a : Reg) (b : Reg)
  /-- ADDI (R154). -/
  | addi (d : Reg) (a : Reg) (i : BitVec 14)
  /-- ADDI_LONG (R154). -/
  | addiLong (d : Reg) (a : Reg) (v : BitVec 32)
  /-- ANDI (R154). -/
  | andi (d : Reg) (a : Reg) (i : BitVec 14)
  /-- ANDI_LONG (R154). -/
  | andiLong (d : Reg) (a : Reg) (v : BitVec 32)
  /-- ORI (R154). -/
  | ori (d : Reg) (a : Reg) (i : BitVec 14)
  /-- ORI_LONG (R154). -/
  | oriLong (d : Reg) (a : Reg) (v : BitVec 32)
  /-- XORI (R154). -/
  | xori (d : Reg) (a : Reg) (i : BitVec 14)
  /-- XORI_LONG (R154). -/
  | xoriLong (d : Reg) (a : Reg) (v : BitVec 32)
  /-- SLTI (R154). -/
  | slti (d : Reg) (a : Reg) (i : BitVec 14)
  /-- SLTI_LONG (R154). -/
  | sltiLong (d : Reg) (a : Reg) (v : BitVec 32)
  /-- SHLI (R155). -/
  | shli (d : Reg) (a : Reg) (n : BitVec 6)
  /-- SHRI (R155). -/
  | shri (d : Reg) (a : Reg) (n : BitVec 6)
  /-- SHRAI (R155). -/
  | shrai (d : Reg) (a : Reg) (n : BitVec 6)
  /-- LDI (R156). -/
  | ldi (d : Reg) (i : BitVec 14)
  /-- LDI_LONG (R156). -/
  | ldiLong (d : Reg) (v : BitVec 32)
  /-- LDIH (R156). -/
  | ldih (d : Reg) (v : BitVec 32)
  /-- ADDPC (R156). -/
  | addpc (d : Reg) (i : BitVec 14)
  /-- ADDPC_LONG (R156). -/
  | addpcLong (d : Reg) (v : BitVec 32)
  /-- LD (R157). -/
  | ld (w : BitVec 3) (d : Reg) (a : Reg) (n : BitVec 11)
  /-- LD_LONG (R157). -/
  | ldLong (w : BitVec 3) (d : Reg) (a : Reg) (v : BitVec 32)
  /-- ST (R157). -/
  | st (w : BitVec 2) (d : Reg) (a : Reg) (n : BitVec 11)
  /-- ST_LONG (R157). -/
  | stLong (w : BitVec 2) (d : Reg) (a : Reg) (v : BitVec 32)
  /-- BEQ (R160). -/
  | beq (d : Reg) (a : Reg) (o : BitVec 14)
  /-- BEQ_LONG (R160). -/
  | beqLong (d : Reg) (a : Reg) (v : BitVec 32)
  /-- BNE (R160). -/
  | bne (d : Reg) (a : Reg) (o : BitVec 14)
  /-- BNE_LONG (R160). -/
  | bneLong (d : Reg) (a : Reg) (v : BitVec 32)
  /-- BLT (R160). -/
  | blt (d : Reg) (a : Reg) (o : BitVec 14)
  /-- BLT_LONG (R160). -/
  | bltLong (d : Reg) (a : Reg) (v : BitVec 32)
  /-- BGE (R160). -/
  | bge (d : Reg) (a : Reg) (o : BitVec 14)
  /-- BGE_LONG (R160). -/
  | bgeLong (d : Reg) (a : Reg) (v : BitVec 32)
  /-- BLTN (R160). -/
  | bltn (d : Reg) (a : Reg) (o : BitVec 14)
  /-- BLTN_LONG (R160). -/
  | bltnLong (d : Reg) (a : Reg) (v : BitVec 32)
  /-- BGEN (R160). -/
  | bgen (d : Reg) (a : Reg) (o : BitVec 14)
  /-- BGEN_LONG (R160). -/
  | bgenLong (d : Reg) (a : Reg) (v : BitVec 32)
  /-- JAL (R161). -/
  | jal (d : Reg) (i : BitVec 14)
  /-- JAL_LONG (R161). -/
  | jalLong (d : Reg) (v : BitVec 32)
  /-- JALR (R161). -/
  | jalr (d : Reg) (a : Reg) (i : BitVec 14)
  /-- JALR_LONG (R161). -/
  | jalrLong (d : Reg) (a : Reg) (v : BitVec 32)
  /-- LOOP (R162). -/
  | loop (d : Reg) (o : BitVec 14)
  /-- LOOP_LONG (R162). -/
  | loopLong (d : Reg) (v : BitVec 32)
  /-- FADD (R165). -/
  | fadd (p : Bool) (d : Reg) (a : Reg) (b : Reg)
  /-- FSUB (R165). -/
  | fsub (p : Bool) (d : Reg) (a : Reg) (b : Reg)
  /-- FMUL (R165). -/
  | fmul (p : Bool) (d : Reg) (a : Reg) (b : Reg)
  /-- FDIV (R165). -/
  | fdiv (p : Bool) (d : Reg) (a : Reg) (b : Reg)
  /-- FSQRT (R165). -/
  | fsqrt (p : Bool) (d : Reg) (a : Reg)
  /-- FMIN (R166). -/
  | fmin (p : Bool) (d : Reg) (a : Reg) (b : Reg)
  /-- FMAX (R166). -/
  | fmax (p : Bool) (d : Reg) (a : Reg) (b : Reg)
  /-- FFMA (R165). -/
  | ffma (p : Bool) (d : Reg) (a : Reg) (b : Reg)
  /-- FCMP (R167). -/
  | fcmp (p : Bool) (c : BitVec 2) (d : Reg) (a : Reg) (b : Reg)
  /-- FCVT (R168). -/
  | fcvt (d : Reg) (a : Reg) (cvs : Reg)
  /-- CSRR (R170). -/
  | csrr (d : Reg) (n : BitVec 11)
  /-- CSRW (R170). -/
  | csrw (d : Reg) (a : Reg) (n : BitVec 11)
  /-- CSRS (R170). -/
  | csrs (d : Reg) (a : Reg) (n : BitVec 11)
  /-- CSRC (R170). -/
  | csrc (d : Reg) (a : Reg) (n : BitVec 11)
  /-- AMOADD (R252). -/
  | amoadd (d : Reg) (a : Reg) (b : Reg)
  /-- AMOMIN (R252). -/
  | amomin (u : Bool) (d : Reg) (a : Reg) (b : Reg)
  /-- AMOMAX (R252). -/
  | amomax (u : Bool) (d : Reg) (a : Reg) (b : Reg)
  /-- AMOAND (R252). -/
  | amoand (d : Reg) (a : Reg) (b : Reg)
  /-- AMOOR (R252). -/
  | amoor (d : Reg) (a : Reg) (b : Reg)
  /-- AMOXOR (R252). -/
  | amoxor (d : Reg) (a : Reg) (b : Reg)
  /-- AMOSWAP (R252). -/
  | amoswap (d : Reg) (a : Reg) (b : Reg)
  /-- AMOCAS (R252). -/
  | amocas (d : Reg) (a : Reg) (b : Reg)
  /-- VSETL (R184). -/
  | vsetl (d : Reg) (a : Reg) (t : Tag)
  /-- VCFG (R185). -/
  | vcfg (d : Reg) (a : Reg) (b : Reg)
  /-- VMV (R200). -/
  | vmv (p : Bool) (ce : Bool) (k : Option (BitVec 3)) (d : Reg) (a : Reg)
  /-- VMV_LONG (R200). -/
  | vmvLong (p : Bool) (ce : Bool) (k : Option (BitVec 3)) (d : Reg) (a : Reg) (tk : TokenReq)
  /-- VMVX (R200). -/
  | vmvx (p : Bool) (ce : Bool) (k : Option (BitVec 3)) (d : Reg) (a : Reg)
  /-- VMVX_LONG (R200). -/
  | vmvxLong (p : Bool) (ce : Bool) (k : Option (BitVec 3)) (d : Reg) (a : Reg) (tk : TokenReq)
  /-- VXMV (R202). -/
  | vxmv (p : Bool) (ce : Bool) (d : Reg) (a : Reg) (b : Reg)
  /-- VXMV_LONG (R202). -/
  | vxmvLong (p : Bool) (ce : Bool) (d : Reg) (a : Reg) (b : Reg) (tk : TokenReq)
  /-- VID (R200). -/
  | vid (p : Bool) (ce : Bool) (k : Option (BitVec 3)) (d : Reg)
  /-- VID_LONG (R200). -/
  | vidLong (p : Bool) (ce : Bool) (k : Option (BitVec 3)) (d : Reg) (tk : TokenReq)
  /-- VTAG (R200). -/
  | vtag (p : Bool) (ce : Bool) (d : Reg) (t : Tag)
  /-- VTAG_LONG (R200). -/
  | vtagLong (p : Bool) (ce : Bool) (d : Reg) (t : Tag) (tk : TokenReq)
  /-- VMERGE (R201). -/
  | vmerge (p : Bool) (ce : Bool) (mk : BitVec 3) (d : Reg) (a : Reg) (b : Reg)
  /-- VMERGE_LONG (R201). -/
  | vmergeLong (p : Bool) (ce : Bool) (mk : BitVec 3) (d : Reg) (a : Reg) (b : Reg) (tk : TokenReq)
  /-- VADD (R203). -/
  | vadd (p : Bool) (ce : Bool) (k : Option (BitVec 3)) (d : Reg) (a : Reg) (b : Reg)
  /-- VADD_LONG (R203). -/
  | vaddLong (p : Bool) (ce : Bool) (k : Option (BitVec 3)) (d : Reg) (a : Reg) (b : Reg) (tk : TokenReq)
  /-- VSUB (R203). -/
  | vsub (p : Bool) (ce : Bool) (k : Option (BitVec 3)) (d : Reg) (a : Reg) (b : Reg)
  /-- VSUB_LONG (R203). -/
  | vsubLong (p : Bool) (ce : Bool) (k : Option (BitVec 3)) (d : Reg) (a : Reg) (b : Reg) (tk : TokenReq)
  /-- VMUL (R203). -/
  | vmul (p : Bool) (ce : Bool) (k : Option (BitVec 3)) (d : Reg) (a : Reg) (b : Reg)
  /-- VMUL_LONG (R203). -/
  | vmulLong (p : Bool) (ce : Bool) (k : Option (BitVec 3)) (d : Reg) (a : Reg) (b : Reg) (tk : TokenReq)
  /-- VMULH (R204). -/
  | vmulh (p : Bool) (ce : Bool) (k : Option (BitVec 3)) (d : Reg) (a : Reg) (b : Reg)
  /-- VMULH_LONG (R204). -/
  | vmulhLong (p : Bool) (ce : Bool) (k : Option (BitVec 3)) (d : Reg) (a : Reg) (b : Reg) (tk : TokenReq)
  /-- VMIN (R203). -/
  | vmin (p : Bool) (ce : Bool) (k : Option (BitVec 3)) (d : Reg) (a : Reg) (b : Reg)
  /-- VMIN_LONG (R203). -/
  | vminLong (p : Bool) (ce : Bool) (k : Option (BitVec 3)) (d : Reg) (a : Reg) (b : Reg) (tk : TokenReq)
  /-- VMAX (R203). -/
  | vmax (p : Bool) (ce : Bool) (k : Option (BitVec 3)) (d : Reg) (a : Reg) (b : Reg)
  /-- VMAX_LONG (R203). -/
  | vmaxLong (p : Bool) (ce : Bool) (k : Option (BitVec 3)) (d : Reg) (a : Reg) (b : Reg) (tk : TokenReq)
  /-- VABS (R203). -/
  | vabs (p : Bool) (ce : Bool) (k : Option (BitVec 3)) (d : Reg) (a : Reg)
  /-- VABS_LONG (R203). -/
  | vabsLong (p : Bool) (ce : Bool) (k : Option (BitVec 3)) (d : Reg) (a : Reg) (tk : TokenReq)
  /-- VNEG (R203). -/
  | vneg (p : Bool) (ce : Bool) (k : Option (BitVec 3)) (d : Reg) (a : Reg)
  /-- VNEG_LONG (R203). -/
  | vnegLong (p : Bool) (ce : Bool) (k : Option (BitVec 3)) (d : Reg) (a : Reg) (tk : TokenReq)
  /-- VFMA (R205). -/
  | vfma (p : Bool) (ce : Bool) (k : Option (BitVec 3)) (d : Reg) (a : Reg) (b : Reg)
  /-- VFMA_LONG (R205). -/
  | vfmaLong (p : Bool) (ce : Bool) (k : Option (BitVec 3)) (d : Reg) (a : Reg) (b : Reg) (tk : TokenReq)
  /-- VFMS (R205). -/
  | vfms (p : Bool) (ce : Bool) (k : Option (BitVec 3)) (d : Reg) (a : Reg) (b : Reg)
  /-- VFMS_LONG (R205). -/
  | vfmsLong (p : Bool) (ce : Bool) (k : Option (BitVec 3)) (d : Reg) (a : Reg) (b : Reg) (tk : TokenReq)
  /-- VNFMA (R205). -/
  | vnfma (p : Bool) (ce : Bool) (k : Option (BitVec 3)) (d : Reg) (a : Reg) (b : Reg)
  /-- VNFMA_LONG (R205). -/
  | vnfmaLong (p : Bool) (ce : Bool) (k : Option (BitVec 3)) (d : Reg) (a : Reg) (b : Reg) (tk : TokenReq)
  /-- VDIV (R204). -/
  | vdiv (p : Bool) (ce : Bool) (k : Option (BitVec 3)) (d : Reg) (a : Reg) (b : Reg)
  /-- VDIV_LONG (R204). -/
  | vdivLong (p : Bool) (ce : Bool) (k : Option (BitVec 3)) (d : Reg) (a : Reg) (b : Reg) (tk : TokenReq)
  /-- VREM (R204). -/
  | vrem (p : Bool) (ce : Bool) (k : Option (BitVec 3)) (d : Reg) (a : Reg) (b : Reg)
  /-- VREM_LONG (R204). -/
  | vremLong (p : Bool) (ce : Bool) (k : Option (BitVec 3)) (d : Reg) (a : Reg) (b : Reg) (tk : TokenReq)
  /-- VSQRT (R205). -/
  | vsqrt (p : Bool) (ce : Bool) (k : Option (BitVec 3)) (d : Reg) (a : Reg)
  /-- VSQRT_LONG (R205). -/
  | vsqrtLong (p : Bool) (ce : Bool) (k : Option (BitVec 3)) (d : Reg) (a : Reg) (tk : TokenReq)
  /-- VSCALE (R207). -/
  | vscale (p : Bool) (ce : Bool) (k : Option (BitVec 3)) (d : Reg) (a : Reg) (b : Reg)
  /-- VSCALE_LONG (R207). -/
  | vscaleLong (p : Bool) (ce : Bool) (k : Option (BitVec 3)) (d : Reg) (a : Reg) (b : Reg) (tk : TokenReq)
  /-- VAND (R208). -/
  | vand (p : Bool) (ce : Bool) (k : Option (BitVec 3)) (d : Reg) (a : Reg) (b : Reg)
  /-- VAND_LONG (R208). -/
  | vandLong (p : Bool) (ce : Bool) (k : Option (BitVec 3)) (d : Reg) (a : Reg) (b : Reg) (tk : TokenReq)
  /-- VOR (R208). -/
  | vor (p : Bool) (ce : Bool) (k : Option (BitVec 3)) (d : Reg) (a : Reg) (b : Reg)
  /-- VOR_LONG (R208). -/
  | vorLong (p : Bool) (ce : Bool) (k : Option (BitVec 3)) (d : Reg) (a : Reg) (b : Reg) (tk : TokenReq)
  /-- VXOR (R208). -/
  | vxor (p : Bool) (ce : Bool) (k : Option (BitVec 3)) (d : Reg) (a : Reg) (b : Reg)
  /-- VXOR_LONG (R208). -/
  | vxorLong (p : Bool) (ce : Bool) (k : Option (BitVec 3)) (d : Reg) (a : Reg) (b : Reg) (tk : TokenReq)
  /-- VNOT (R208). -/
  | vnot (p : Bool) (ce : Bool) (k : Option (BitVec 3)) (d : Reg) (a : Reg)
  /-- VNOT_LONG (R208). -/
  | vnotLong (p : Bool) (ce : Bool) (k : Option (BitVec 3)) (d : Reg) (a : Reg) (tk : TokenReq)
  /-- VCLZ (R208). -/
  | vclz (p : Bool) (ce : Bool) (k : Option (BitVec 3)) (d : Reg) (a : Reg)
  /-- VCLZ_LONG (R208). -/
  | vclzLong (p : Bool) (ce : Bool) (k : Option (BitVec 3)) (d : Reg) (a : Reg) (tk : TokenReq)
  /-- VPOPC (R208). -/
  | vpopc (p : Bool) (ce : Bool) (k : Option (BitVec 3)) (d : Reg) (a : Reg)
  /-- VPOPC_LONG (R208). -/
  | vpopcLong (p : Bool) (ce : Bool) (k : Option (BitVec 3)) (d : Reg) (a : Reg) (tk : TokenReq)
  /-- VADC (R209). -/
  | vadc (p : Bool) (ce : Bool) (mk : BitVec 3) (d : Reg) (a : Reg) (b : Reg)
  /-- VADC_LONG (R209). -/
  | vadcLong (p : Bool) (ce : Bool) (mk : BitVec 3) (d : Reg) (a : Reg) (b : Reg) (tk : TokenReq)
  /-- VSBC (R209). -/
  | vsbc (p : Bool) (ce : Bool) (mk : BitVec 3) (d : Reg) (a : Reg) (b : Reg)
  /-- VSBC_LONG (R209). -/
  | vsbcLong (p : Bool) (ce : Bool) (mk : BitVec 3) (d : Reg) (a : Reg) (b : Reg) (tk : TokenReq)
  /-- VSHL (R210). -/
  | vshl (p : Bool) (ce : Bool) (k : Option (BitVec 3)) (d : Reg) (a : Reg) (b : Reg)
  /-- VSHL_LONG (R210). -/
  | vshlLong (p : Bool) (ce : Bool) (k : Option (BitVec 3)) (d : Reg) (a : Reg) (b : Reg) (tk : TokenReq)
  /-- VSHR (R210). -/
  | vshr (p : Bool) (ce : Bool) (k : Option (BitVec 3)) (d : Reg) (a : Reg) (b : Reg)
  /-- VSHR_LONG (R210). -/
  | vshrLong (p : Bool) (ce : Bool) (k : Option (BitVec 3)) (d : Reg) (a : Reg) (b : Reg) (tk : TokenReq)
  /-- VSHRA (R210). -/
  | vshra (p : Bool) (ce : Bool) (k : Option (BitVec 3)) (d : Reg) (a : Reg) (b : Reg)
  /-- VSHRA_LONG (R210). -/
  | vshraLong (p : Bool) (ce : Bool) (k : Option (BitVec 3)) (d : Reg) (a : Reg) (b : Reg) (tk : TokenReq)
  /-- VROL (R210). -/
  | vrol (p : Bool) (ce : Bool) (k : Option (BitVec 3)) (d : Reg) (a : Reg) (b : Reg)
  /-- VROL_LONG (R210). -/
  | vrolLong (p : Bool) (ce : Bool) (k : Option (BitVec 3)) (d : Reg) (a : Reg) (b : Reg) (tk : TokenReq)
  /-- VFSHL (R210). -/
  | vfshl (p : Bool) (ce : Bool) (k : Option (BitVec 3)) (d : Reg) (a : Reg) (b : Reg)
  /-- VFSHL_LONG (R210). -/
  | vfshlLong (p : Bool) (ce : Bool) (k : Option (BitVec 3)) (d : Reg) (a : Reg) (b : Reg) (tk : TokenReq)
  /-- VFSHR (R210). -/
  | vfshr (p : Bool) (ce : Bool) (k : Option (BitVec 3)) (d : Reg) (a : Reg) (b : Reg)
  /-- VFSHR_LONG (R210). -/
  | vfshrLong (p : Bool) (ce : Bool) (k : Option (BitVec 3)) (d : Reg) (a : Reg) (b : Reg) (tk : TokenReq)
  /-- VCMP (R211). -/
  | vcmp (p : Bool) (ce : Bool) (k : Option (BitVec 3)) (c : BitVec 3) (d : BitVec 3) (a : Reg) (b : Reg)
  /-- VCMP_LONG (R211). -/
  | vcmpLong (p : Bool) (ce : Bool) (k : Option (BitVec 3)) (c : BitVec 3) (d : BitVec 3) (a : Reg) (b : Reg) (tk : TokenReq)
  /-- VCVT (R212). -/
  | vcvt (p : Bool) (ce : Bool) (k : Option (BitVec 3)) (d : Reg) (a : Reg) (t : Tag)
  /-- VCVT_LONG (R212). -/
  | vcvtLong (p : Bool) (ce : Bool) (k : Option (BitVec 3)) (d : Reg) (a : Reg) (t : Tag) (tk : TokenReq)
  /-- VRCP (R213). -/
  | vrcp (p : Bool) (ce : Bool) (k : Option (BitVec 3)) (d : Reg) (a : Reg)
  /-- VRCP_LONG (R213). -/
  | vrcpLong (p : Bool) (ce : Bool) (k : Option (BitVec 3)) (d : Reg) (a : Reg) (tk : TokenReq)
  /-- VRSQRT (R213). -/
  | vrsqrt (p : Bool) (ce : Bool) (k : Option (BitVec 3)) (d : Reg) (a : Reg)
  /-- VRSQRT_LONG (R213). -/
  | vrsqrtLong (p : Bool) (ce : Bool) (k : Option (BitVec 3)) (d : Reg) (a : Reg) (tk : TokenReq)
  /-- VEXP2 (R213). -/
  | vexp2 (p : Bool) (ce : Bool) (k : Option (BitVec 3)) (d : Reg) (a : Reg)
  /-- VEXP2_LONG (R213). -/
  | vexp2Long (p : Bool) (ce : Bool) (k : Option (BitVec 3)) (d : Reg) (a : Reg) (tk : TokenReq)
  /-- VLOG2 (R213). -/
  | vlog2 (p : Bool) (ce : Bool) (k : Option (BitVec 3)) (d : Reg) (a : Reg)
  /-- VLOG2_LONG (R213). -/
  | vlog2Long (p : Bool) (ce : Bool) (k : Option (BitVec 3)) (d : Reg) (a : Reg) (tk : TokenReq)
  /-- VEXP (R213). -/
  | vexp (p : Bool) (ce : Bool) (k : Option (BitVec 3)) (d : Reg) (a : Reg)
  /-- VEXP_LONG (R213). -/
  | vexpLong (p : Bool) (ce : Bool) (k : Option (BitVec 3)) (d : Reg) (a : Reg) (tk : TokenReq)
  /-- VLOG (R213). -/
  | vlog (p : Bool) (ce : Bool) (k : Option (BitVec 3)) (d : Reg) (a : Reg)
  /-- VLOG_LONG (R213). -/
  | vlogLong (p : Bool) (ce : Bool) (k : Option (BitVec 3)) (d : Reg) (a : Reg) (tk : TokenReq)
  /-- VTANH (R213). -/
  | vtanh (p : Bool) (ce : Bool) (k : Option (BitVec 3)) (d : Reg) (a : Reg)
  /-- VTANH_LONG (R213). -/
  | vtanhLong (p : Bool) (ce : Bool) (k : Option (BitVec 3)) (d : Reg) (a : Reg) (tk : TokenReq)
  /-- MAND (R214). -/
  | mand (p : Bool) (ce : Bool) (d : BitVec 3) (a : BitVec 3) (b : BitVec 3)
  /-- MAND_LONG (R214). -/
  | mandLong (p : Bool) (ce : Bool) (d : BitVec 3) (a : BitVec 3) (b : BitVec 3) (tk : TokenReq)
  /-- MOR (R214). -/
  | mor (p : Bool) (ce : Bool) (d : BitVec 3) (a : BitVec 3) (b : BitVec 3)
  /-- MOR_LONG (R214). -/
  | morLong (p : Bool) (ce : Bool) (d : BitVec 3) (a : BitVec 3) (b : BitVec 3) (tk : TokenReq)
  /-- MXOR (R214). -/
  | mxor (p : Bool) (ce : Bool) (d : BitVec 3) (a : BitVec 3) (b : BitVec 3)
  /-- MXOR_LONG (R214). -/
  | mxorLong (p : Bool) (ce : Bool) (d : BitVec 3) (a : BitVec 3) (b : BitVec 3) (tk : TokenReq)
  /-- MNOT (R214). -/
  | mnot (p : Bool) (ce : Bool) (d : BitVec 3) (a : BitVec 3)
  /-- MNOT_LONG (R214). -/
  | mnotLong (p : Bool) (ce : Bool) (d : BitVec 3) (a : BitVec 3) (tk : TokenReq)
  /-- MCNT (R214). -/
  | mcnt (p : Bool) (ce : Bool) (d : Reg) (a : BitVec 3)
  /-- MCNT_LONG (R214). -/
  | mcntLong (p : Bool) (ce : Bool) (d : Reg) (a : BitVec 3) (tk : TokenReq)
  /-- MFIRST (R214). -/
  | mfirst (p : Bool) (ce : Bool) (d : Reg) (a : BitVec 3)
  /-- MFIRST_LONG (R214). -/
  | mfirstLong (p : Bool) (ce : Bool) (d : Reg) (a : BitVec 3) (tk : TokenReq)
  /-- MSHL (R214). -/
  | mshl (p : Bool) (ce : Bool) (d : BitVec 3) (a : BitVec 3) (b : Reg)
  /-- MSHL_LONG (R214). -/
  | mshlLong (p : Bool) (ce : Bool) (d : BitVec 3) (a : BitVec 3) (b : Reg) (tk : TokenReq)
  /-- VRED (R218). -/
  | vred (ce : Bool) (k : Option (BitVec 3)) (d : Reg) (a : Reg) (o : Reg)
  /-- VRED_LONG (R218). -/
  | vredLong (ce : Bool) (k : Option (BitVec 3)) (d : Reg) (a : Reg) (o : Reg) (tk : TokenReq)
  /-- VSCAN (R219). -/
  | vscan (ce : Bool) (k : Option (BitVec 3)) (d : Reg) (a : Reg) (o : Reg)
  /-- VSCAN_LONG (R219). -/
  | vscanLong (ce : Bool) (k : Option (BitVec 3)) (d : Reg) (a : Reg) (o : Reg) (tk : TokenReq)
  /-- VSCAN_SEG (R219). -/
  | vscanSeg (ce : Bool) (mk : BitVec 3) (d : Reg) (a : Reg) (o : Reg)
  /-- VSCAN_SEG_LONG (R219). -/
  | vscanSegLong (ce : Bool) (mk : BitVec 3) (d : Reg) (a : Reg) (o : Reg) (tk : TokenReq)
  /-- VPREFIXPOP (R220). -/
  | vprefixpop (ce : Bool) (k : Option (BitVec 3)) (d : Reg) (a : BitVec 3)
  /-- VPREFIXPOP_LONG (R220). -/
  | vprefixpopLong (ce : Bool) (k : Option (BitVec 3)) (d : Reg) (a : BitVec 3) (tk : TokenReq)
  /-- VCONFLICT (R222). -/
  | vconflict (ce : Bool) (k : Option (BitVec 3)) (d : Reg) (a : Reg)
  /-- VCONFLICT_LONG (R222). -/
  | vconflictLong (ce : Bool) (k : Option (BitVec 3)) (d : Reg) (a : Reg) (tk : TokenReq)
  /-- VCOMPRESS (R221). -/
  | vcompress (ce : Bool) (k : Option (BitVec 3)) (d : Reg) (a : Reg)
  /-- VCOMPRESS_LONG (R221). -/
  | vcompressLong (ce : Bool) (k : Option (BitVec 3)) (d : Reg) (a : Reg) (tk : TokenReq)
  /-- VEXPAND (R221). -/
  | vexpand (ce : Bool) (k : Option (BitVec 3)) (d : Reg) (a : Reg)
  /-- VEXPAND_LONG (R221). -/
  | vexpandLong (ce : Bool) (k : Option (BitVec 3)) (d : Reg) (a : Reg) (tk : TokenReq)
  /-- VPERM (R223). -/
  | vperm (ce : Bool) (k : Option (BitVec 3)) (d : Reg) (a : Reg) (b : Reg)
  /-- VPERM_LONG (R223). -/
  | vpermLong (ce : Bool) (k : Option (BitVec 3)) (d : Reg) (a : Reg) (b : Reg) (tk : TokenReq)
  /-- VSLIDEUP (R223). -/
  | vslideup (ce : Bool) (k : Option (BitVec 3)) (d : Reg) (a : Reg) (b : Reg)
  /-- VSLIDEUP_LONG (R223). -/
  | vslideupLong (ce : Bool) (k : Option (BitVec 3)) (d : Reg) (a : Reg) (b : Reg) (tk : TokenReq)
  /-- VSLIDEDN (R223). -/
  | vslidedn (ce : Bool) (k : Option (BitVec 3)) (d : Reg) (a : Reg) (b : Reg)
  /-- VSLIDEDN_LONG (R223). -/
  | vslidednLong (ce : Bool) (k : Option (BitVec 3)) (d : Reg) (a : Reg) (b : Reg) (tk : TokenReq)
  /-- VZIP (R223). -/
  | vzip (ce : Bool) (k : Option (BitVec 3)) (d : Reg) (a : Reg) (b : Reg)
  /-- VZIP_LONG (R223). -/
  | vzipLong (ce : Bool) (k : Option (BitVec 3)) (d : Reg) (a : Reg) (b : Reg) (tk : TokenReq)
  /-- VUNZIP (R223). -/
  | vunzip (ce : Bool) (k : Option (BitVec 3)) (d : Reg) (a : Reg) (b : Reg)
  /-- VUNZIP_LONG (R223). -/
  | vunzipLong (ce : Bool) (k : Option (BitVec 3)) (d : Reg) (a : Reg) (b : Reg) (tk : TokenReq)
  /-- VTOPK (R224). -/
  | vtopk (ce : Bool) (k : Option (BitVec 3)) (d : Reg) (a : Reg) (b : Reg)
  /-- VTOPK_LONG (R224). -/
  | vtopkLong (ce : Bool) (k : Option (BitVec 3)) (d : Reg) (a : Reg) (b : Reg) (tk : TokenReq)
  /-- VISECT (R226). -/
  | visect (ce : Bool) (d : Reg) (a : Reg) (b : Reg)
  /-- VISECT_LONG (R226). -/
  | visectLong (ce : Bool) (d : Reg) (a : Reg) (b : Reg) (tk : TokenReq)
  /-- VUNION (R226). -/
  | vunion (ce : Bool) (d : Reg) (a : Reg) (b : Reg)
  /-- VUNION_LONG (R226). -/
  | vunionLong (ce : Bool) (d : Reg) (a : Reg) (b : Reg) (tk : TokenReq)
  /-- VMRG (R226). -/
  | vmrg (ce : Bool) (d : Reg) (a : Reg) (b : Reg)
  /-- VMRG_LONG (R226). -/
  | vmrgLong (ce : Bool) (d : Reg) (a : Reg) (b : Reg) (tk : TokenReq)
  /-- VLD (R242). -/
  | vld (ce : Bool) (k : Option (BitVec 3)) (d : Reg) (a : Reg)
  /-- VLD_LONG (R242). -/
  | vldLong (ce : Bool) (k : Option (BitVec 3)) (d : Reg) (a : Reg) (tk : TokenReq) (mtag : BitVec 4) (cv : Bool) (te : Option Tag)
  /-- VLDS (R242). -/
  | vlds (ce : Bool) (k : Option (BitVec 3)) (d : Reg) (a : Reg) (b : Reg)
  /-- VLDS_LONG (R242). -/
  | vldsLong (ce : Bool) (k : Option (BitVec 3)) (d : Reg) (a : Reg) (b : Reg) (tk : TokenReq) (mtag : BitVec 4) (cv : Bool) (te : Option Tag)
  /-- VLDX (R242). -/
  | vldx (ce : Bool) (k : Option (BitVec 3)) (d : Reg) (a : Reg) (b : Reg)
  /-- VLDX_LONG (R242). -/
  | vldxLong (ce : Bool) (k : Option (BitVec 3)) (d : Reg) (a : Reg) (b : Reg) (tk : TokenReq) (mtag : BitVec 4) (cv : Bool) (te : Option Tag)
  /-- PFETCH (R249). -/
  | pfetch (ce : Bool) (a : Reg) (b : Reg)
  /-- PFETCH_LONG (R249). -/
  | pfetchLong (ce : Bool) (a : Reg) (b : Reg) (tk : TokenReq)
  /-- VST (R244). -/
  | vst (ce : Bool) (k : Option (BitVec 3)) (d : Reg) (a : Reg)
  /-- VST_LONG (R244). -/
  | vstLong (ce : Bool) (k : Option (BitVec 3)) (d : Reg) (a : Reg) (tk : TokenReq)
  /-- COLLECTIVE_CONTRIBUTION (R421). -/
  | collectiveContribution (ce : Bool) (d : Reg) (a : Reg)
  /-- VSTS (R244). -/
  | vsts (ce : Bool) (k : Option (BitVec 3)) (d : Reg) (a : Reg) (b : Reg)
  /-- VSTS_LONG (R244). -/
  | vstsLong (ce : Bool) (k : Option (BitVec 3)) (d : Reg) (a : Reg) (b : Reg) (tk : TokenReq)
  /-- VSTX (R245). -/
  | vstx (ce : Bool) (k : Option (BitVec 3)) (d : Reg) (a : Reg) (b : Reg)
  /-- VSTX_LONG (R245). -/
  | vstxLong (ce : Bool) (k : Option (BitVec 3)) (d : Reg) (a : Reg) (b : Reg) (tk : TokenReq)
  /-- VSTXA_ADD (R247). -/
  | vstxaAdd (ce : Bool) (k : Option (BitVec 3)) (d : Reg) (a : Reg) (b : Reg)
  /-- VSTXA_ADD_LONG (R247). -/
  | vstxaAddLong (ce : Bool) (k : Option (BitVec 3)) (d : Reg) (a : Reg) (b : Reg) (tk : TokenReq)
  /-- VSTB (R246). -/
  | vstb (ce : Bool) (mk : BitVec 3) (d : Reg) (a : Reg)
  /-- VSTB_LONG (R246). -/
  | vstbLong (ce : Bool) (mk : BitVec 3) (d : Reg) (a : Reg) (tk : TokenReq)
  /-- VSTXA_MIN (R247). -/
  | vstxaMin (ce : Bool) (k : Option (BitVec 3)) (d : Reg) (a : Reg) (b : Reg)
  /-- VSTXA_MIN_LONG (R247). -/
  | vstxaMinLong (ce : Bool) (k : Option (BitVec 3)) (d : Reg) (a : Reg) (b : Reg) (tk : TokenReq)
  /-- VSTXA_MAX (R247). -/
  | vstxaMax (ce : Bool) (k : Option (BitVec 3)) (d : Reg) (a : Reg) (b : Reg)
  /-- VSTXA_MAX_LONG (R247). -/
  | vstxaMaxLong (ce : Bool) (k : Option (BitVec 3)) (d : Reg) (a : Reg) (b : Reg) (tk : TokenReq)
  /-- TLD (R273). -/
  | tld (d : BitVec 3) (a : Reg) (b : Reg)
  /-- TLD_LONG (R273). -/
  | tldLong (d : BitVec 3) (a : Reg) (b : Reg) (tk : TokenReq) (ot : Tag)
  /-- BLD (R274). -/
  | bld (d : Reg) (a : Reg)
  /-- BLD_LONG (R274). -/
  | bldLong (d : Reg) (a : Reg) (tk : TokenReq) (ot : Tag)
  /-- BST (R275). -/
  | bst (d : Reg) (a : BitVec 3)
  /-- BST_LONG (R275). -/
  | bstLong (d : Reg) (a : BitVec 3) (tk : TokenReq)
  /-- ACCST (R276). -/
  | accst (d : BitVec 2) (a : Reg) (b : Reg)
  /-- ACCST_LONG (R276). -/
  | accstLong (d : BitVec 2) (a : Reg) (b : Reg) (tk : TokenReq)
  /-- TMV (R277). -/
  | tmv (d : BitVec 3) (a : Reg)
  /-- TMV_LONG (R277). -/
  | tmvLong (d : BitVec 3) (a : Reg) (tk : TokenReq)
  /-- ACCMV (R278). -/
  | accmv (d : Reg) (a : BitVec 2) (t : Tag)
  /-- ACCMV_LONG (R278). -/
  | accmvLong (d : Reg) (a : BitVec 2) (t : Tag) (tk : TokenReq)
  /-- AZERO (R279). -/
  | azero (d : BitVec 2) (t : Tag)
  /-- AZERO_LONG (R279). -/
  | azeroLong (d : BitVec 2) (t : Tag) (tk : TokenReq)
  /-- TCLASS (R282). -/
  | tclass (d : Reg) (a : Reg)
  /-- MSYNC (R283). -/
  | msync
  /-- MMA (R281). -/
  | mma (d : BitVec 2) (a : BitVec 3) (b : Reg) (tk : TokenReq) (atg : Tag) (btg : Tag) (sct : Option (BitVec 3))
  /-- MMAZ (R281). -/
  | mmaz (d : BitVec 2) (a : BitVec 3) (b : Reg) (tk : TokenReq) (atg : Tag) (btg : Tag) (sct : Option (BitVec 3))
  /-- MMAI (R281). -/
  | mmai (d : BitVec 2) (a : BitVec 3) (b : Reg) (tk : TokenReq) (atg : Tag) (btg : Tag) (sct : Option (BitVec 3))
  /-- MMAS (R281). -/
  | mmas (d : BitVec 2) (a : BitVec 3) (b : Reg) (tk : TokenReq) (atg : Tag) (btg : Tag) (sct : Option (BitVec 3))
  /-- XCFG (R304). -/
  | xcfg (d : Reg) (a : Reg) (b : Reg)
  /-- XTWID (R300). -/
  | xtwid (d : Reg) (a : Reg) (b : Reg) (tk : TokenReq)
  /-- XSTAGE (R297). -/
  | xstage (d : Reg) (a : Reg) (b : Reg) (tk : TokenReq) (sp : BitVec 5) (quad : Bool) (dit : Bool) (tm : Bool) (rc : BitVec 2)
  /-- XPERM (R301). -/
  | xperm (d : Reg) (a : Reg) (tk : TokenReq) (rs : BitVec 5) (str : Bool)
  /-- XPOINT (R302). -/
  | xpoint (d : Reg) (a : Reg) (b : Reg) (tk : TokenReq) (conj : Bool) (bc : Bool)
  /-- XNORM (R303). -/
  | xnorm (d : Reg) (a : Reg) (tk : TokenReq) (dir : BitVec 2)
  /-- XMODCHK (R305). -/
  | xmodchk (d : Reg) (a : Reg)
  /-- XSYNC (R306). -/
  | xsync
  /-- SBIND (R309). -/
  | sbind (d : Reg) (a : Reg) (b : Reg) (ch : BitVec 4) (t : Tag)
  /-- SUNBIND (R318). -/
  | sunbind (h : BitVec 4)
  /-- SCOPY (R311). -/
  | scopy (d : Reg) (a : Reg) (b : Reg) (ch : BitVec 4) (esz : BitVec 3) (dep : BitVec 8) (tke : Bool) (tkf : BitVec 4)
  /-- SWMARK (R318). -/
  | swmark (d : Reg) (a : Reg) (h : BitVec 4)
  /-- SWAIT (R318). -/
  | swait (d : Reg) (a : Reg) (h : BitVec 4)
  /-- TKPUSH (R318). -/
  | tkpush (f : BitVec 4)
  /-- TKPOP (R318). -/
  | tkpop (f : BitVec 4)
  /-- BARINIT (R330). -/
  | barinit (d : Reg) (a : Reg) (b : Reg)
  /-- BARARR (R330). -/
  | bararr (d : Reg) (a : Reg)
  /-- BARWAIT (R330). -/
  | barwait (d : Reg) (a : Reg) (b : Reg)
  /-- BAR (R330). -/
  | bar (d : Reg) (a : Reg)
  /-- BARFREE (R330). -/
  | barfree (a : Reg)
  /-- FENCE (R341). -/
  | fence (kd : BitVec 2) (sc : BitVec 3)
  /-- CPFENCE (R345). -/
  | cpfence
  /-- VSYNC (R342). -/
  | vsync
  /-- LDA (R343). -/
  | lda (d : Reg) (a : Reg) (sc : BitVec 3)
  /-- STRL (R344). -/
  | strl (d : Reg) (a : Reg) (sc : BitVec 3)
  /-- MCST (R411). -/
  | mcst (d : Reg) (a : Reg) (b : Reg) (rm : BitVec 4)
  /-- TICKGET (R414). -/
  | tickget (d : Reg) (a : Reg) (b : Reg)
  /-- TICKWAIT (R415). -/
  | tickwait (a : Reg)
  /-- TICKDONE (R416). -/
  | tickdone (a : Reg)
  /-- MPOST (R440). -/
  | mpost (d : Reg) (a : Reg) (esz : BitVec 3)
  /-- MSEND (R441). -/
  | msend (d : Reg) (a : Reg) (b : Reg) (tr : Reg)
  /-- MWAIT (R442). -/
  | mwait (d : Reg) (a : Reg)
  /-- MPROBE (R443). -/
  | mprobe (d : Reg) (a : Reg)
  /-- MCANCEL (R444). -/
  | mcancel (d : Reg) (a : Reg)
  /-- MDRIP (R445). -/
  | mdrip (d : Reg) (a : Reg)
  /-- KVSUB (R391). -/
  | kvsub (d : Reg) (a : Reg) (dep : BitVec 3) (rb : BitVec 3)
  /-- KVUNSUB (R392). -/
  | kvunsub (d : Reg) (a : Reg)
  /-- KVPASS (R393). -/
  | kvpass (d : Reg) (a : Reg) (b : Reg)
  /-- KVRECV (R394). -/
  | kvrecv (d : Reg)
  /-- KVPART (R395). -/
  | kvpart (d : Reg) (a : Reg) (b : Reg) (lr : Reg)
  /-- KVDONE (R396). -/
  | kvdone (d : Reg) (a : Reg)
  /-- KVSTAT (R397). -/
  | kvstat (d : Reg) (a : Reg)
  /-- TRAP (R93). -/
  | trap (a : Reg)
  /-- RTE (R94). -/
  | rte
  /-- HALT (R95). -/
  | halt
  /-- WFE (R96). -/
  | wfe (a : Reg) (b : Reg)
  /-- CTXYIELD (R97). -/
  | ctxyield (d : Reg)
  /-- CTXSAVE (R98). -/
  | ctxsave (d : Reg)
  /-- CTXLOAD (R99). -/
  | ctxload (d : Reg) (a : Reg)
  /-- QWAIT (R108). -/
  | qwait (d : Reg) (a : Reg)
  /-- QPRIO (R109). -/
  | qprio (d : Reg) (a : Reg) (b : Reg)
  /-- HTOKWAIT (R111). -/
  | htokwait (d : Reg) (a : Reg)
  /-- HTOKRAISE (R112). -/
  | htokraise (a : Reg) (b : Reg)
  /-- KLAUNCH (R125). -/
  | klaunch (d : Reg) (a : Reg)
  /-- KEND (R126). -/
  | kend
  /-- KSTAT (R127). -/
  | kstat (d : Reg) (a : Reg)
  /-- GTERM (R143). -/
  | gterm
  /-- GYIELD (R144). -/
  | gyield
  /-- SDRAIN (R369). -/
  | sdrain
  /-- SFRPOP (R370). -/
  | sfrpop (d : Reg)
  /-- TLBINV (R371). -/
  | tlbinv (a : Reg) (b : Reg)
  /-- PGPROBE (R372). -/
  | pgprobe (d : Reg) (a : Reg) (b : Reg)
  /-- ASYNC_TRAP_DELIVERY (R139). -/
  | asyncTrapDelivery (g : BitVec 12)
  /-- PAGE_STORE_DELIVERY (R366). -/
  | pageStoreDelivery (g : BitVec 12)
  /-- WATCHDOG (R137). -/
  | watchdog (g : BitVec 12)
  /-- WAIT_WAKE (R135). -/
  | waitWake (g : BitVec 12)
  /-- GYIELD_RELEASE (R144). -/
  | gyieldRelease (g : BitVec 12)
  /-- CELL_DRAIN_COMPLETE (R86). -/
  | cellDrainComplete (c : BitVec 9)
  /-- CONTEXT_LOAD_COMPLETE (R82). -/
  | contextLoadComplete (t : BitVec 1) (fd : LoadFinding)
  /-- CONTEXT_SAVE_COMPLETE (R82). -/
  | contextSaveComplete (t : BitVec 1)
  /-- SLOT_STATE_UNCORR (R82). -/
  | slotStateUncorr (g : BitVec 12)
  /-- PLACEMENT_DECISION (R104). -/
  | placementDecision
  /-- KERNEL_LAUNCHABLE (R102). -/
  | kernelLaunchable (kn : BitVec 32) (far : List Host.Cell)
  /-- CONVOY_DRAIN (R196). -/
  | convoyDrain (g : BitVec 12)
  /-- LOAD_DATA_RETURN (R233). -/
  | loadDataReturn (g : BitVec 12)
  /-- STORE_PERFORM (R331). -/
  | storePerform (g : BitVec 12) (q : BitVec 3)
  /-- SCATTER_ADD_UPDATE (R247). -/
  | scatterAddUpdate (g : BitVec 12) (q : BitVec 2)
  /-- PAGE_WALK_COMPLETE (R359). -/
  | pageWalkComplete (e : BitVec 3) (ix : BitVec 12)
  /-- XLATE_DEADLINE (R360). -/
  | xlateDeadline (id : BitVec 32)
  /-- MATRIX_ENTRY_ISSUE (R263). -/
  | matrixEntryIssue (c : BitVec 9)
  /-- TLD_ROWBLOCK_LAND (R265). -/
  | tldRowblockLand (c : BitVec 9) (far : FarData) (lost : Bool)
  /-- MATRIX_ENTRY_RETIRE (R263). -/
  | matrixEntryRetire (c : BitVec 9) (far : FarData) (lost : Bool)
  /-- MATRIX_WINDOW (R266). -/
  | matrixWindow (c : BitVec 9)
  /-- TRANSFORM_ENTRY_START (R289). -/
  | transformEntryStart (c : BitVec 9)
  /-- TRANSFORM_ENTRY_RETIRE (R289). -/
  | transformEntryRetire (c : BitVec 9)
  /-- STREAM_FETCH_ARRIVAL (R309). -/
  | streamFetchArrival (g : BitVec 12) (ch : BitVec 4) (far : FarData) (lost : Bool)
  /-- STRIP_COMMIT (R311). -/
  | stripCommit (g : BitVec 12) (ch : BitVec 4)
  /-- BARRIER_REQUEST_ARRIVAL (R323). -/
  | barrierRequestArrival (g : BitVec 12)
  /-- KV_FETCH_START (R376). -/
  | kvFetchStart (cl : BitVec 6) (far : FarData) (lost : Bool)
  /-- KV_PAGE_MULTICAST (R377). -/
  | kvPageMulticast (cl : BitVec 6) (far : FarData) (lost : Bool)
  /-- KV_CATCHUP_START (R379). -/
  | kvCatchupStart (cl : BitVec 6)
  /-- REMOTE_REQUEST_ARRIVAL (R408). -/
  | remoteRequestArrival (rq : RemoteRequest)
  /-- REMOTE_REPLY_ARRIVAL (R331). -/
  | remoteReplyArrival (g : BitVec 12) (data : List Host.Cell) (bad : Bool)
  /-- REMOTE_DEADLINE (R408). -/
  | remoteDeadline (g : BitVec 12) (reached : Bool) (why : BitVec 2)
  /-- FLIT_REPLAY (R404). -/
  | flitReplay (lk : BitVec 6)
  /-- LINK_CRC_FAIL (R403). -/
  | linkCrcFail (lk : BitVec 6)
  /-- LINK_TRAINING_DONE (R403). -/
  | linkTrainingDone (lk : BitVec 6) (out : Lanes)
  /-- LINK_RETRAIN_DONE (R403). -/
  | linkRetrainDone (lk : BitVec 6) (out : Lanes)
  /-- COLLECTIVE_UNIT_ACCEPT (R421). -/
  | collectiveUnitAccept (cc : RemoteContribution)
  /-- COLLECTIVE_RESULT_DELIVERY (R423). -/
  | collectiveResultDelivery (g : BitVec 12)
  /-- MESSAGE_ARRIVAL (R428). -/
  | messageArrival (ix : Nat) (ext : Option RemoteMessage)
  /-- MESSAGE_LANDING_COMPLETE (R431). -/
  | messageLandingComplete (e : BitVec 3) (t : BitVec 1) (ix : Nat) (lost : Bool)
  /-- RETRY_TICKET_CALL (R435). -/
  | retryTicketCall (e : BitVec 3) (t : BitVec 1)
  /-- SPILL_DEADLINE (R436). -/
  | spillDeadline (id : BitVec 32)
  /-- HOST_WRITE (R350). -/
  | hostWrite (ad : BitVec 64) (data : List Byte)
  /-- HOST_READ (R350). -/
  | hostRead (ad : BitVec 64) (n : Nat)
  /-- INGRESS_DOORBELL (R110). -/
  | ingressDoorbell (t : BitVec 1) (ch : BitVec 4) (pl : BitVec 32)
  /-- EGRESS_READ (R447). -/
  | egressRead (t : BitVec 1) (ch : BitVec 4)
  /-- HOST_REGISTER_WRITE (R447). -/
  | hostRegisterWrite (off : BitVec 26) (val : RegWrite)
  /-- EVENT_RING_WRITE (R452). -/
  | eventRingWrite
  /-- LOAD (R450). -/
  | cmdLoad
  /-- LOADSAVED (R450). -/
  | cmdLoadsaved
  /-- SAVE (R450). -/
  | cmdSave
  /-- STOP (R450). -/
  | cmdStop
  /-- FAULT (R450). -/
  | cmdFault
  /-- RELEASE (R450). -/
  | cmdRelease
  /-- SWITCH (R450). -/
  | cmdSwitch
  /-- RESUME (R450). -/
  | cmdResume
  /-- TERMINATE (R450). -/
  | cmdTerminate
  /-- SETPLIM (R450). -/
  | cmdSetplim
  /-- TRAINLINK (R450). -/
  | cmdTrainlink (out : Lanes)
  /-- TRAINHBM (R450). -/
  | cmdTrainhbm (ok : Bool)
  /-- XLATE (R450). -/
  | cmdXlate
  /-- SPILLRET (R450). -/
  | cmdSpillret
  /-- ATTEST (R460). -/
  | cmdAttest (ok : Bool)
  /-- QUERY (R450). -/
  | cmdQuery
  /-- POWER_INTERVAL (R457). -/
  | powerInterval (pw : BitVec 13)
  /-- HOT_DIE (R458). -/
  | hotDie (e : BitVec 3) (deg : BitVec 8)
  /-- THERMAL_TRIP (R458). -/
  | thermalTrip (e : BitVec 3) (deg : BitVec 8)
  /-- MODULE_RESET (R453). -/
  | moduleReset (rp : ResetReport)
  /-- FIRMWARE_VERIFY (R459). -/
  | firmwareVerify (ok : Bool)
  /-- HBM_RETRAIN (R453). -/
  | hbmRetrain (e : BitVec 3) (k : BitVec 1) (ok : Bool)
  /-- POWER_OFF (R462). -/
  | powerOff
  /-- FIRMWARE_FAILURE (R461). -/
  | firmwareFailure
  /-- CODE_UNASSIGNED (R451). -/
  | codeUnassigned
  /-- MBGO_WHILE_BUSY (R449). -/
  | mbgoWhileBusy
  /-- ATS_TRANSLATION_COMPLETION (R446). -/
  | atsTranslationCompletion (id : BitVec 32) (ok : Bool)
  /-- PRI_PAGE_REQUEST_RESPONSE (R446). -/
  | priPageRequestResponse (id : BitVec 32) (ok : Bool)
  deriving DecidableEq, Repr

end Sys2Proof
end

