-- ==== Sys2Proof/Machine/State.lean ====
section
/-!
DEFINITION. Sys2Proof/Machine/State.lean: the state of the module as plain data, and the state right after
reset. INVENTORY.md lists every field with its rule and reset value.
-/

namespace Sys2Proof.Machine

/-- A table of entries by number, numbers rising (Machine/MapOps.lean keeps the order). -/
abbrev Table (α : Type) := List (Nat × α)

/-- Privilege of a group: machine level is the management core's alone (R87). -/
inductive Level where
  | user | supervisor
  deriving DecidableEq, Repr

/-- CLASS of a tile directory entry (R258, R259). -/
inductive TileClass where
  | zero | const | ident | general
  deriving DecidableEq, Repr

/-- A tile directory entry (R258). -/
structure TileEntry where
  cls : TileClass
  tag : Tag
  nf : Bool
  poison : Bool
  cval : BitVec 32
  deriving DecidableEq, Repr

/-- A record of the store-fault record queue with its reported mark and the clock of its arrival (R365, R366). -/
structure SfRecord where
  pc : Word
  addr : Word
  data : Word
  src : Nat
  wlog : Nat
  sub : Nat
  elem : Nat
  reported : Bool
  came : Nat
  deriving DecidableEq, Repr

/-- The vector pipes (R39). -/
inductive Pipe where
  | aluA | aluB | xl | ld | st
  deriving DecidableEq, Repr

/-- How an instruction moves through its convoy (R194, R215): its step k and its latency λ in beats, whether it is multiply class, whether it
waits for the whole registers of its producers, and whether its consumers wait for its own whole register. -/
structure Timing where
  k : Nat
  lam : Nat
  mult : Bool
  waits : Bool
  gathers : Bool
  deriving DecidableEq, Repr

/-- A convoy member: its pipe, the FIFO it pushes when it is done, the x register it writes at its end (R38, R316, R190);
its accesses, whose numbers lie from `lo` up to `hi` (R334); the elements of an element group, the access indices that one spans, its element
groups, and how many of them have issued (R193). `time` is its class; `reads` and `writes` are the registers that R195 compares, v registers
under their number and m registers 32 above; `serial` marks serial mode (R197, R231); `floor` is the convoy's beat count when it joined,
`base` the element groups issued before the convoy last restarted (R85), `lag` the beats until its last result is written, `fed` how far each
slice queue has accepted its accesses (R250). -/
structure Member where
  pipe : Pipe
  push : Option (BitVec 4)
  xdst : Option Reg
  lo : Nat
  hi : Nat
  per : Nat
  unit : Nat
  total : Nat
  issued : Nat
  time : Timing
  reads : List Nat
  writes : List Nat
  serial : Bool
  floor : Nat
  base : Nat
  lag : Nat
  fed : List Nat
  deriving DecidableEq, Repr

/-- A convoy in the group's vector instruction queue (R38, R192): its VL, the beats it has taken (R193), its bypass
count with the clock in which it became aged (R134), and the boundary at which a switch stops it (R84). `torn` says that a later
instruction fails: its members run to completion before that instruction's trap, its pipes held for it until then (R39, R191). -/
structure Convoy where
  members : List Member
  ended : Bool
  torn : Bool
  vl : Nat
  beats : Nat
  bypass : Nat
  aged : Option Nat
  stop : Option Nat
  deriving DecidableEq, Repr

/-- What an access in a slice queue does at its port (R244, R247). -/
inductive AccessOp where
  | store
  | nibble (hi : Bool)
  | scatter (op : BitVec 2) (tag : Tag)
  deriving DecidableEq, Repr

/-- An access in a slice queue (R334), with what its store-fault record would say (R365). `replica` marks an
MCST write, which needs RP (R411); `pa` holds the runs of an access translated at issue (R241) or by a load that takes its value
(R364); `hs` the number of its instruction's first access when it lies on a host-shared page (R336), `inst` that number
for an element of VSTXA, whose report names its instruction (R241). -/
structure Access where
  op : AccessOp
  va : Word
  pa : Option (List (Nat × Nat))
  len : Nat
  data : Nat
  pc : Word
  src : Nat
  elem : Nat
  replica : Bool
  tag : Option Tag
  seq : Nat
  hs : Option Nat
  inst : Nat
  deriving DecidableEq, Repr

/-- Where an asynchronous-path write goes: translated when it is performed (an ACCST row, R276), or a
physical place already (R345, R347). -/
inductive AsyncPlace where
  | virt (va : Word)
  | phys (pa : Nat)
  deriving DecidableEq, Repr

/-- An asynchronous-path write not yet performed (R331, R347). `mark` writes the poison marker (R486), `tag`
and `poison` reclassify a B-store tile (R260, R269), `strip` is a strip of a copy, which the group's own instructions see without a
fence (R312); `coll` are the flags and the overflow of the collective whose last write it is (R423). -/
structure AsyncWrite where
  place : AsyncPlace
  data : List Byte
  mark : Bool
  tag : Option Tag
  poison : Option Bool
  pc : Word
  row : Nat
  strip : Bool
  coll : Option (BitVec 6 × Bool)
  deriving DecidableEq, Repr

/-- A remote write sent and not yet acknowledged (R136, R408): the die it went to (8 more than the global die number on another
module), and whether it is an atomic (R341), or a message (R441), which no fence awaits; `seq` is its place in program
order, `elem` its element. `path` is a write of the asynchronous path (R347). `held` is an access that stands in a replay buffer
and is not performed yet, with its places (R403, R408); `joined` a write that a router has merged with the one before it to its die (R407);
`inst` as in Access. -/
structure SentWrite where
  va : Word
  die : Nat
  atomic : Bool
  msg : Bool
  seq : Nat
  elem : Nat
  path : Bool
  held : Option (Access × List (Nat × Nat))
  joined : Bool
  inst : Nat
  deriving DecidableEq, Repr

/-- A load whose data are still to come, with the registers as they stood before it (R487). `w` is LD's
width code, 7 for LDA; `seq` the group's next number in program order. -/
structure LateLoad where
  pc : Word
  d : Reg
  va : Word
  w : Nat
  runs : List (Nat × Nat)
  ckX : Vector Word 32
  ckFlags : BitVec 6
  ckRetired : Word
  ckVl : Nat
  ckVcfg : Word
  ckXmod : Word
  ckXctl : Word
  ckColl : Word × Word × Word
  seq : Nat
  deriving DecidableEq, Repr

/-- An instruction that waits for data of another die, module or the host (R408, R350): the address its
failure would name, the places asked for, the bytes another module has answered, those among them that came with bad data (R486), and what its
request does at its port when it gets there (R252, R414, R416). -/
structure DataWait where
  pc : Word
  va : Word
  arrived : Bool
  bad : List Nat
  inbox : List Host.Cell
  asked : List (Nat × Nat)
  act : Option (Nat × RemoteKind)
  deriving DecidableEq, Repr

/-- The waits of R135 with what completes them; `freed` and `passed` are waits on a barrier that has been freed, `passed` after its
phase had completed (R330). -/
inductive Wait where
  | barrier (handle : Word) (phase : BitVec 32) (d : Reg) (bar : Bool)
  | freed (d : Reg)
  | passed (d : Reg) (v : Word)
  | token (f : BitVec 4)
  | vecToken (f : BitVec 4)
  | queue (d : Reg) (kernels : List Nat)
  | watermark (d : Reg) (ch : BitVec 4) (target : Word)
  | place (runs : List (Nat × Nat))
  | message (d : Reg) (handle : Nat)
  | kvItem (d : Reg)
  | kvSpace (query page : Nat) (m l : BitVec 32) (o : BitVec 4096)
  | ticket (handle : Word) (acked called : Bool)
  | hostTaken (d : Reg) (ch : BitVec 4)
  | hostGiven (ch : BitVec 4) (payload : BitVec 32)
  | event (line : Nat) (touched : Bool)
  | collective
  deriving DecidableEq, Repr

/-- The states of a group (R128). A slot whose group is Ended or Terminated is free once its work is done. -/
inductive Phase where
  | placed
  | running
  | waiting (w : Wait)
  | preempted
  | trapped (drain : Bool)
  | ended
  | terminated
  deriving DecidableEq, Repr

/-- An asynchronous cause, or an imprecise UNCORR of a VSTXA element, not yet taken (R139, R241); `inst` is the number of that
instruction's first access. -/
structure HeldCause where
  code : Nat
  sub : Nat
  addr : Word
  elem : Option Nat
  inst : Nat
  deriving DecidableEq, Repr

/-- The states of a stream channel (R308). -/
inductive ChState where
  | free | bound | copying | done | failed
  deriving DecidableEq, Repr

/-- A strip of a copy that has arrived: its bytes, or why it failed (1 uncorrectable or poisoned, 2
translation, 3 lost link) and the first failing source line (R311, R314). -/
structure Strip where
  k : Nat
  data : List Byte
  why : Nat
  line : Word
  deriving DecidableEq, Repr

/-- A strip of a register stream that the instruction at an address has popped and not finished with (R310). -/
structure HeldStrip where
  pc : Word
  first : Nat
  deriving DecidableEq, Repr

/-- A stream channel (R307 to R315). `buf` holds elements fetched ahead; `asked` counts the strips requested of other
modules; `closing` is a channel that SUNBIND or KEND is about to free, which requests nothing more (R308). -/
structure Channel where
  st : ChState
  base : Word
  n : List Nat
  s : List Word
  esz : Nat
  tag : Tag
  vd : Reg
  lmul : Nat
  taken : Nat
  buf : List (Nat × Nat)
  dst : Word
  depth : Nat
  filled : Nat
  released : Nat
  tke : Bool
  tkf : BitVec 4
  owed : Nat
  fstrip : Nat
  why : Nat
  arrived : List Strip
  held : List HeldStrip
  asked : Nat
  closing : Bool
  deriving DecidableEq, Repr

/-- The states of a posted receive as its group's handle sees it (R433). -/
inductive RecvState where
  | posted | landing
  | complete (flag : Word)
  deriving DecidableEq, Repr

/-- A receive handle slot: its generation, and the receive when the handle is held (R439). -/
structure RecvSlot where
  gen : Nat
  st : Option RecvState
  deriving DecidableEq, Repr

/-- A KV ring buffer (R383). -/
inductive BufState where
  | free | filled | held
  deriving DecidableEq, Repr

/-- A group's KV ring (R383). -/
structure KvRing where
  rbase : Nat
  bufs : List BufState
  deriving DecidableEq, Repr

/-- The mark of GYIELD: the groups that must issue first, and the clocks left (R144). -/
structure YieldMark where
  others : List Nat
  left : Nat
  deriving DecidableEq, Repr

/-- What a placed group owns (R113, R130): its limits, and the pieces of the cell's stores, each a physical
offset in the store and a length. -/
structure Holding where
  tiles : Nat
  accs : Nat
  chans : Nat
  cstore : Nat
  bstore : Nat
  csPieces : List (Nat × Nat)
  bPieces : List (Nat × Nat)
  deriving DecidableEq, Repr

/-- The complete state of a group slot (R80). -/
structure Group where
  phase : Phase
  level : Level
  pc : Word
  x : Vector Word 32
  v : Vector (BitVec 8192) 32
  vtag : Vector Tag 32
  m : Vector (BitVec 8192) 8
  t : Vector (BitVec 6144) 8
  tdir : Vector TileEntry 8
  a : Vector (BitVec 16384) 4
  adir : Vector TileEntry 4
  laneFlags : Vector (BitVec 6) 16
  ctlFlags : BitVec 6
  mfl : BitVec 6
  xfl : BitVec 6
  xen : BitVec 6
  vl : Nat
  vcfg : Word
  vresume : Word
  xmod : Word
  xctl : Word
  collg : Word
  collop : Word
  collstride : Word
  collDone : BitVec 32
  collFailn : BitVec 8
  collFl : BitVec 6
  collOf : Bool
  collIssued : BitVec 32
  grpid : Nat
  kernid : Nat
  ngroups : Nat
  kargs : Word
  retired : Word
  melided : Word
  missued : Word
  trapcause : Word
  trappc : Word
  trapaddr : Word
  trapelem : Word
  trapstat : Word
  trapvec : Word
  scratch : Vector Word 4
  wdoglim : Word
  wdog : Nat
  interrupted : Option (Word × Wait)
  resume : Bool
  sfrq : List SfRecord
  causes : List HeldCause
  convoys : List Convoy
  slices : Vector (List Access) 4
  sent : List SentWrite
  late : Option LateLoad
  dataWait : Option DataWait
  async : List AsyncWrite
  maxa : BitVec 30
  maxb : BitVec 30
  pmark : Bool
  fifos : Vector Nat 16
  chan : Vector Channel 16
  tickets : List (Word × Nat)
  recvs : Table RecvSlot
  ring : Option KvRing
  items : List Word
  lastPhase : Option (BitVec 32)
  yield : Option YieldMark
  hold : Holding
  barPending : Option (Word × Bool × Option (Except Nat (BitVec 32)))
  barPast : Bool
  seq : Nat
  deriving DecidableEq, Repr

/-- The operations of the matrix queue with the operands read at posting (R262). -/
inductive MatrixOp where
  | tld (td : BitVec 3) (base stride : Word) (tag : Tag)
  | bld (n : Nat) (base : Word) (tag : Tag)
  | bst (n : Nat) (ta : BitVec 3)
  | accst (ad : BitVec 2) (base stride : Word)
  | tmv (td : BitVec 3) (bits : BitVec 6144) (tag : Tag)
  | accmv (vd : Reg) (aa : BitVec 2) (tag : Tag)
  | azero (ad : BitVec 2) (tag : Tag)
  | mul (kind : BitVec 2) (ad : BitVec 2) (td : BitVec 3) (n : Nat) (atag btag : Tag) (sct : Option (BitVec 3))
  deriving DecidableEq, Repr

/-- A matrix queue entry (R262, R263). `rows` are the places of the bytes that a TLD or BLD reads; `owed` counts
array or path clocks still to be spent (R266), `snap` is the B operand with its directory entry as read at
issue (R261), `bad` the sub-code and line of the first failed data (R269), `got` the parts of lines that have been read
(R243), `poor` the bytes of them that came with bad data, `xmod` the modulus register at posting (R57), `effected` that the entry has
taken its effect and waits to retire, `elided` the path that a multiply took, which the counters show when it retires (R268). -/
structure MatrixEntry where
  group : Nat
  op : MatrixOp
  vcfg : Word
  pc : Word
  tok : TokenReq
  seq : Nat
  issued : Bool
  chained : Bool
  landed : Nat
  owed : Nat
  snap : Option (BitVec 12288 × TileEntry)
  rows : List (Word × List (Nat × Nat))
  bad : Option (Nat × Word)
  got : List (Nat × List Byte)
  poor : List Nat
  xmod : Word
  effected : Bool
  elided : Option Bool
  deriving DecidableEq, Repr

/-- The operations of the transform queue with the operands read at posting (R288). -/
inductive TransformOp where
  | twid (base root : Word) (count : Nat)
  | stage (base table : Word) (first count span : Nat) (quad dit pair : Bool) (rec : Nat)
  | perm (dst src : Word) (rs : Nat) (stride : Bool)
  | point (dst a b : Word) (conj bcast : Bool)
  | norm (dst src : Word) (dir : Nat)
  deriving DecidableEq, Repr

/-- A transform queue entry (R288); `reads` are the regions that it reads, by address and length. -/
structure TransformEntry where
  group : Nat
  op : TransformOp
  xctl : Word
  xmod : Word
  rm : Nat
  pc : Word
  tok : TokenReq
  seq : Nat
  started : Bool
  reads : List (Word × Nat)
  deriving DecidableEq, Repr

/-- A TLB entry: context, page number, log2 of the page size, leaf (R353, R358), and the address's number among the spans of the
table entry that the walk read, of which a replicated leaf's page has several (R355); none for a leaf that the host has answered, which holds
for its whole page (R359, R360). -/
structure TlbEntry where
  ctx : Nat
  base : Nat
  size : Nat
  leaf : Nat
  index : Option Nat
  deriving DecidableEq, Repr

/-- A walker cache entry: context, the level of the table it points to, the address bits above that table,
the table's base (R358). -/
structure WalkEntry where
  ctx : Nat
  level : Nat
  upper : Nat
  base : Nat
  deriving DecidableEq, Repr

/-- A miss table entry, one per 4 KiB granule (R359); in host-assisted mode the request id, the access kind
of the request, and the answer: a leaf, or a refusal (R360). `idle` marks a PFETCH's miss that no access awaits; `joined` are the
accesses that wait for it or complete from it, by group, kind and place in program order. -/
structure Miss where
  set : Nat
  granule : Nat
  request : Option Nat
  kind : Nat
  idle : Bool
  answer : Option (Option Nat)
  joined : List (Nat × Nat × Nat)
  deriving DecidableEq, Repr

/-- An ATS translation of a host page (R446): being asked for, waiting for the page request, asked for again,
granted, or failed twice. -/
inductive AtsState where
  | asking | paging | retrying | granted | failed
  deriving DecidableEq, Repr

/-- An ATS translation of a slot set's page (R446). -/
structure AtsRequest where
  id : Nat
  set : Nat
  page : Nat
  st : AtsState
  deriving DecidableEq, Repr

/-- What the translation of the module holds (R358, R359, R446): cell TLBs, last-level TLBs, walker caches and
miss tables by die, and ATS translations. -/
structure Xlate where
  cells : Table (List TlbEntry)
  dies : Table (List TlbEntry)
  walks : Table (List WalkEntry)
  misses : Table (List Miss)
  ats : List AtsRequest
  nextAts : Nat
  deriving DecidableEq, Repr

/-- Translation with nothing held. -/
def Xlate.fresh : Xlate := { cells := [], dies := [], walks := [], misses := [], ats := [], nextAts := 1 }

/-- A cell: issue rotation, matrix queue and the number of its admission window, transform queues, the power grant (R133, R182,
R262, R266, R288). -/
structure CellState where
  served : Nat
  mq : List MatrixEntry
  cap : Nat
  capNow : Nat
  lim0 : Option Nat
  lim1 : Option Nat
  limNow0 : Option Nat
  limNow1 : Option Nat
  spent : Nat
  spent0 : Nat
  spent1 : Nat
  window : Nat
  grant : Nat
  tq0 : List TransformEntry
  tq1 : List TransformEntry
  deriving DecidableEq, Repr

/-- A cell as reset leaves it: full admission window and grant; `none` is the context
image's LIM (R182, R266, R488). -/
def CellState.fresh : CellState :=
  { served := 3, mq := [], cap := 256, capNow := 256, lim0 := none, lim1 := none, limNow0 := none, limNow1 := none
    spent := 0, spent0 := 0, spent1 := 0, window := 0, grant := 8, tq0 := [], tq1 := [] }

/-- A barrier entry of a unit (R319, R320). -/
structure BarEntry where
  used : Bool
  gen : Nat
  count : Nat
  phase : BitVec 32
  arrivals : Nat
  deriving DecidableEq, Repr

/-- A barrier entry as reset leaves it; GEN starts at 1 (R320). -/
def BarEntry.fresh : BarEntry := { used := false, gen := 1, count := 0, phase := 0, arrivals := 0 }

/-- A ticket dispenser's counters (R413), with the requests of other modules that wait to be called: the source and
the number. -/
structure Dispenser where
  nextNo : BitVec 32
  doneNo : BitVec 32
  waiters : List (Nat × BitVec 32)
  deriving DecidableEq, Repr

/-- A posted receive (R426); no group once its handle has lapsed (R438). -/
structure Recv where
  group : Option Nat
  slot : Nat
  dest : Word
  flaga : Word
  src : BitVec 32
  smask : BitVec 32
  tag : BitVec 32
  tmask : BitVec 32
  count : Nat
  n : List Nat
  s : List Word
  esz : Nat
  deriving DecidableEq, Repr

/-- A message: source, tag, payload (R425), the group that sent it when it is on this module with the address its MSEND
named, and where the drip tray keeps it: `spill` its offset in the spill area or the host's buffer, `handed` that
the host has it or has had it, `back` that it has been read back from the host's buffer (R434, R436). -/
structure Msg where
  src : BitVec 32
  tag : BitVec 32
  payload : List Byte
  sender : Option Nat
  addr : Word
  ctx : Nat
  spill : Option Nat
  handed : Bool
  back : Bool
  deriving DecidableEq, Repr

/-- A message on its way to an engine (R430, R435). -/
structure FlyMsg where
  die : Nat
  set : Nat
  msg : Msg
  deriving DecidableEq, Repr

/-- The receive engine of a die for a slot set (R424, R434 to R436, R445). `waitingHost` are messages of the
tray that the host has been asked for, each with its request id, 0 when none is open. -/
structure Receiver where
  posts : List Recv
  tray : List Msg
  landing : List (Recv × Msg)
  waitingHost : List (Msg × Nat)
  refused : List Msg
  refusing : Bool
  paused : Bool
  refusals : Word
  deriving DecidableEq, Repr

/-- A receive engine with nothing in it. -/
def Receiver.fresh : Receiver :=
  { posts := [], tray := [], landing := [], waitingHost := [], refused := [], refusing := false, paused := false, refusals := 0 }

/-- A partial of a query (R385), or a page that counts as empty. -/
structure Partial where
  m : BitVec 32
  l : BitVec 32
  o : BitVec 4096
  deriving DecidableEq, Repr

/-- A subscription: one query in one group with its pages (R374, R391). In the pass, `pending` are its pages not yet merged
or deposited, `delivered` those of them that have been delivered, `late` those left to catch-up, `reserved` those with a
holding entry reserved. -/
structure Sub where
  group : Nat
  query : Nat
  pages : List Nat
  inPass : Bool
  late : List Nat
  reserved : List Nat
  pending : List Nat
  delivered : List Nat
  deriving DecidableEq, Repr

/-- A query's home entry and fold (R375, R386, R388). `runs` is where its result record goes; `left` are its pages of
the pass not yet merged; `ready` holds what came in out of order, `none` for an empty one (absent, failed,
withdrawn); `top` is one more than the highest page whose partial has been merged, `merged` how many have. -/
structure Fold where
  query : Nat
  runs : List (Nat × Nat)
  inPass : Bool
  acc : Option Partial
  left : List Nat
  ready : List (Nat × Option Partial)
  failp : Nat
  flags : BitVec 6
  top : Nat
  merged : Nat
  written : Bool
  deriving DecidableEq, Repr

/-- The pass states of KVSTAT (R397). -/
inductive KvPhase where
  | idle | main | stopped | catchup | merging | await
  deriving DecidableEq, Repr

/-- A fetch in flight (R376, R377): where its page lies, and its bytes once they have been read. -/
structure Fetch where
  page : Nat
  fmt : Bool
  va : Word
  catchUp : Bool
  runs : List (Nat × Nat)
  data : Option (List Byte)
  deriving DecidableEq, Repr

/-- The attention sequencer of a cluster for a slot set (R374 to R397). `groupsIn` are the groups that had a subscription
in the pass, `doneQ` the queries whose result of the pass is written, `by_` the group that executed KVPASS;
`askedEntry` is the page index whose fetch is in flight before its page's data are asked for (R376): its table entry has been read, or,
with true, asked of another module. -/
structure Sequencer where
  subs : List Sub
  folds : List Fold
  passNo : BitVec 32
  phase : KvPhase
  table : Word
  p : Nat
  pos : Nat
  catchBegun : Bool
  catchList : List Nat
  groupsIn : List Nat
  doneQ : List Nat
  by_ : Option Nat
  fetches : List Fetch
  askedEntry : Option (Nat × Bool)
  nFetched : Nat
  nCatch : Nat
  nCopies : Nat
  nMerged : Nat
  nFailed : Nat
  deriving DecidableEq, Repr

/-- A sequencer before its first pass, whose number will be 1 (R374). -/
def Sequencer.fresh : Sequencer :=
  { subs := [], folds := [], passNo := 0, phase := .idle, table := 0, p := 0, pos := 0, catchBegun := false, catchList := []
    groupsIn := [], doneQ := [], by_ := none, fetches := [], askedEntry := none, nFetched := 0, nCatch := 0, nCopies := 0
    nMerged := 0, nFailed := 0 }

/-- The states of a context (R81, R82); a Saved context is in no slot set. -/
inductive CtxState where
  | empty | loading | standby | active | preempting | saved | faulted | retired
  deriving DecidableEq, Repr

/-- The states of a kernel (R116). -/
inductive KState where
  | queued | placing | placed | done | discarded
  deriving DecidableEq, Repr

/-- A kernel of a context (R114 to R120, R322). `cword` is the physical address of its completion word,
`word` the value the kernel unit last wrote there; `deps` are physical addresses of dependences; `after` is the launching
group, while it stands, with its place in program order (R122), and `stays` says that a decision has left the kernel waiting for that
group's writes alone. -/
structure Kernel where
  num : Nat
  queue : Option Nat
  st : KState
  desc : KernelDesc
  args : Word
  ngrp : Nat
  serial : Bool
  cohort : Bool
  cword : Option Nat
  word : Word
  deps : List Nat
  launchable : Bool
  passed : Nat
  reserving : Bool
  placed : Nat
  ended : Nat
  bar : BarEntry
  after : Option (Nat × Nat)
  stays : Bool
  deriving DecidableEq, Repr

/-- A declared queue (R100, R101). -/
structure Queue where
  prio : Nat
  closed : Bool
  deriving DecidableEq, Repr

/-- A resident slot set with the context it holds (R79, R82). `placeDue` says that the placer owes a decision (R104),
`cword` is where the conductor's completion word lies, as firmware found at the load (R123), `loadNum` the number of the context
that a LOAD is to bring (R81). -/
structure SlotSet where
  st : CtxState
  img : Option Image
  saveMark : Bool
  saveCmd : Bool
  fault : Word
  conductorDone : Bool
  cword : Option Nat
  drained : List Nat
  lastAt : Option Nat
  queues : Table Queue
  kernels : List Kernel
  nextKernel : Nat
  lastServed : Table Nat
  ingress : Table (List (BitVec 32))
  egress : Table (List (BitVec 32))
  overflow : BitVec 16
  waiters : List (Nat × Nat × Bool)
  placeDue : Bool
  loadNum : Nat
  deriving DecidableEq, Repr

/-- An empty slot set. -/
def SlotSet.fresh : SlotSet :=
  { st := .empty, img := none, saveMark := false, saveCmd := false, fault := 0, conductorDone := false, cword := none, drained := []
    lastAt := none, queues := [], kernels := [], nextKernel := 1, lastServed := [], ingress := [], egress := []
    overflow := 0, waiters := [], placeDue := false, loadNum := 0 }

/-- What firmware keeps of a saved context (R82, R84, R228): the slot set, its groups, and the tables and memory parts that
belong to it, with every number and place as they would be in slot set 0. -/
structure SavedContext where
  num : Nat
  set : SlotSet
  groups : Table Group
  bars : Table BarEntry
  seqs : Table Sequencer
  receivers : Table Receiver
  dispensers : Table Dispenser
  matrix : Table (List MatrixEntry)
  transform : Table (List TransformEntry)
  tiles : Table TileEntry
  mem : List Host.Cell
  poison : List Nat
  uncorr : List Nat
  lims : Table Nat
  deriving DecidableEq, Repr

/-- The states of a link or port (R403). -/
inductive LinkState where
  | down | training | up | degraded | retraining | failed
  deriving DecidableEq, Repr

/-- A die-to-die link or optical port: state, and how often in a row one flit has failed (R403). -/
structure Link where
  st : LinkState
  replays : Nat
  held : Bool
  deriving DecidableEq, Repr

/-- A contribution to a collective that has not ended (R421): `group` on this module, or none for a rank of
another one or of a terminated group; `num` counts the group's contributions; `runs` is where its result goes, `failed` a terminated
rank (0) or a lost link with LINKFAIL's sub-code, `done` that it has ended for its group. -/
structure Contribution where
  group : Option Nat
  num : Nat
  from_ : RemoteContribution
  buffer : Word
  runs : List (Nat × Nat)
  failed : Option Nat
  done : Bool
  deriving DecidableEq, Repr

/-- A packet for another module (R406, R408): the request, or the answer to one of its own. -/
inductive OutPacket where
  | request (pa : Nat) (kind : RemoteKind) (group : Nat)
  | answer (src : Nat) (data : List Byte) (bad : Bool)
  | message (gdie set ctx : Nat) (src tag : BitVec 32) (payload : List Byte)
  | contribution (gdie : Nat) (c : RemoteContribution)
  deriving DecidableEq, Repr

/-- The command in execution (R449): CODE, SET and the arguments copied at its start; `begun` when it waits for its
end (a load, a save). -/
structure Command where
  code : Nat
  set : Nat
  reserved : Nat
  args : List Host.Cell
  begun : Bool
  deriving DecidableEq, Repr

/-- An entry of the event ring: TYPE, SET, request id, and bytes 63:8 as cells (R452). -/
structure RingEntry where
  kind : Nat
  set : Nat
  id : Nat
  body : List Host.Cell
  deriving DecidableEq, Repr

/-- A request that waits on the host (R360, R436): of a miss, or of a handed-off message. -/
inductive HostRequest where
  | translate (die set granule : Nat)
  | spill (die set : Nat)
  deriving DecidableEq, Repr

/-- The management core (R449, R459, R461). -/
inductive Firmware where
  | unverified | running | refused | failed
  deriving DecidableEq, Repr

/-- The host interface (R447, R449, R452). -/
structure HostPort where
  mbcmd : Word
  area : List Host.Cell
  tag : BitVec 32
  busy : Bool
  done : Bool
  lost : Bool
  status : Nat
  result : List Host.Cell
  cmd : Option Command
  evhead : BitVec 32
  evtail : BitVec 32
  ring : Table RingEntry
  waiting : List RingEntry
  requests : Table HostRequest
  nextId : Nat
  readData : List Byte
  readPoison : Bool
  ats : Bool
  reports : Nat
  deriving DecidableEq, Repr

/-- One turn of the agenda: the core clocks that pass before it, and who acts: a group's control thread, its
load's data delayed or not, an event (notes/assumptions/2), or the host, which changes an entry of a context's apertures through the
management interface, none for invalid (R400). -/
inductive Actor where
  | issue (group : Nat) (late : Bool)
  | event (i : Instr)
  | aperture (set index : Nat) (entry : Option Aperture)
  deriving DecidableEq, Repr

/-- A turn with the clocks before it. -/
structure Turn where
  ticks : Nat
  who : Actor
  deriving DecidableEq, Repr

/-- The state of the module. `lastKey` is the place in the order of one clock that has been reached in this clock, `issued` the cells
whose core has issued in it (R133, notes/assumptions/17). -/
structure State where
  agenda : List Turn
  cur : Nat
  ir : Word
  lateLoads : Bool
  fresh : Nat
  clock : Nat
  lastKey : Nat
  issued : List Nat
  mem : List Host.Cell
  hostMem : List Host.Cell
  poison : List Nat
  uncorr : List Nat
  bdir : Table TileEntry
  groups : Table Group
  cells : Table CellState
  bars : Table BarEntry
  seqs : Table Sequencer
  tr : Xlate
  dispensers : Table Dispenser
  receivers : Table Receiver
  flying : List FlyMsg
  set0 : SlotSet
  set1 : SlotSet
  saved : List SavedContext
  links : Table Link
  colls : List Contribution
  out : List OutPacket
  outAt : Nat
  port : HostPort
  plim : Nat
  pnow : Nat
  reduced : Bool
  hbmok : BitVec 16
  hbmuse : BitVec 16
  pciw : BitVec 5
  firmware : Firmware
  tripped : Bool
  off : Bool
  deriving DecidableEq, Repr

/-- Why a step can stop. No rule of the spec stops the machine: a trap, a status or no action is always the
answer, so this type has the one reason a step of this model needs. -/
inductive Fault where
  /-- A turn of the agenda names a group slot in which no group stands or has stood. Raised by `step` alone;
  safe: the hardware issues nothing for such a slot. -/
  | noGroup
  deriving DecidableEq, Repr

/-- Why an instruction has no meaning. -/
inductive Refusal where
  /-- The instruction of that mnemonic has no meaning in the model yet. Raised by `exec`; safe. -/
  | notModelled (mnemonic : String)
  deriving DecidableEq, Repr

/-- A host port as reset leaves it (R449, R452). -/
def HostPort.fresh : HostPort :=
  { mbcmd := 0, area := [], tag := 0, busy := false, done := false, lost := false, status := 0, result := [], cmd := none
    evhead := 0, evtail := 0, ring := [], waiting := [], requests := [], nextId := 1, readData := [], readPoison := false
    ats := false, reports := 0 }

/-- The module right after reset: every context Empty, no group placed, links Down, firmware not yet
verified, PLIM 6,400 (R82, R403, R449, R456). -/
def State.reset : State :=
  { agenda := [], cur := 0, ir := 0, lateLoads := false, fresh := 0, clock := 0, lastKey := 0, issued := [], mem := [], hostMem := []
    poison := [], uncorr := [], bdir := [], groups := [], cells := [], bars := [], seqs := [], tr := Xlate.fresh, dispensers := []
    receivers := [], flying := [], set0 := SlotSet.fresh, set1 := SlotSet.fresh, saved := [], links := [], colls := [], out := [], outAt := 0
    port := HostPort.fresh, plim := 6400, pnow := 0, reduced := false, hbmok := 0xFFFF, hbmuse := 0xFFFF, pciw := 16
    firmware := .unverified, tripped := false, off := false }

end Sys2Proof.Machine
end

