-- ==== Sys2Proof/Machine/MapOps.lean ====
section
/-!
DEFINITION. Sys2Proof/Machine/MapOps.lean: tables by number (entries in rising order), sets of numbers, and
memory as a canonical list of cells (strictly rising addresses, no listed byte equal to 0, which is what
an unlisted address reads as: notes/assumptions/6).
-/

namespace Sys2Proof.Machine

/-- The entry of a number. -/
def Table.find {α : Type} : Table α → Nat → Option α
  | [], _ => none
  | (k, v) :: t, n => if n = k then some v else Table.find t n

/-- The entry of a number, or a default. -/
def Table.findD {α : Type} (t : Table α) (n : Nat) (d : α) : α := (t.find n).getD d

/-- The table with an entry set, in its place. -/
def Table.put {α : Type} : Table α → Nat → α → Table α
  | [], n, a => [(n, a)]
  | (k, v) :: t, n, a =>
    if n < k then (n, a) :: (k, v) :: t
    else if n = k then (n, a) :: t
    else (k, v) :: Table.put t n a

/-- The table without an entry. -/
def Table.drop {α : Type} : Table α → Nat → Table α
  | [], _ => []
  | (k, v) :: t, n => if n = k then Table.drop t n else (k, v) :: Table.drop t n

/-- The byte at an address; an unlisted address reads 0. -/
def memByte : List Host.Cell → Nat → Byte
  | [], _ => 0
  | (b, v) :: t, a => if a = b then v else memByte t a

/-- Memory with one byte written; writing 0 removes the entry. -/
def memPut : List Host.Cell → Nat → Byte → List Host.Cell
  | [], a, v => if v = 0 then [] else [(a, v)]
  | (b, w) :: t, a, v =>
    if a < b then (if v = 0 then (b, w) :: t else (a, v) :: (b, w) :: t)
    else if a = b then (if v = 0 then t else (a, v) :: t)
    else (b, w) :: memPut t a v

/-- Memory with bytes written from an address up. -/
def memPutBytes : List Host.Cell → Nat → List Byte → List Host.Cell
  | m, _, [] => m
  | m, a, b :: bs => memPutBytes (memPut m a b) (a + 1) bs

/-- The `n` bytes at an address as a little-endian number (R5). -/
def memNat (m : List Host.Cell) (a : Nat) : Nat → Nat
  | 0 => 0
  | n + 1 => (memByte m a).toNat + 256 * memNat m (a + 1) n

/-- The `n` bytes at an address. -/
def memBytes (m : List Host.Cell) (a : Nat) : Nat → List Byte
  | 0 => []
  | n + 1 => memByte m a :: memBytes m (a + 1) n

/-- The canonical form of memory: addresses strictly rising, no entry equal to what an unlisted address
reads as. -/
def Memory.wf : List Host.Cell → Bool
  | [] => true
  | [(_, v)] => decide (v ≠ 0)
  | (a, v) :: (b, w) :: t => decide (v ≠ 0) && decide (a < b) && Memory.wf ((b, w) :: t)

/-- The cells whose addresses lie in a range, and those outside it. -/
def memKeep (m : List Host.Cell) (lo hi : Nat) : List Host.Cell :=
  m.filter fun c => decide (lo ≤ c.1 ∧ c.1 < hi)

/-- Memory without the cells of a range. -/
def memClear (m : List Host.Cell) (lo hi : Nat) : List Host.Cell :=
  m.filter fun c => decide (¬ (lo ≤ c.1 ∧ c.1 < hi))

/-- A number added to a rising list without repeats. -/
def setAdd : List Nat → Nat → List Nat
  | [], n => [n]
  | k :: t, n => if n < k then n :: k :: t else if n = k then k :: t else k :: setAdd t n

/-- A number removed. -/
def setDel (l : List Nat) (n : Nat) : List Nat := l.filter (fun k => decide (k ≠ n))

/-- The numbers from `lo`, `n` of them. -/
def upFrom (lo : Nat) : Nat → List Nat
  | 0 => []
  | n + 1 => lo :: upFrom (lo + 1) n

/-- A little-endian number of a list of bytes. -/
def natOfBytes : List Byte → Nat
  | [] => 0
  | b :: bs => b.toNat + 256 * natOfBytes bs

/-- The `n` low bytes of a number. -/
def toBytes : Nat → Nat → List Byte
  | 0, _ => []
  | k + 1, w => BitVec.ofNat 8 w :: toBytes k (w / 256)

/-- `n` bytes of a list from a place on; missing ones are 0. -/
def takeBytes (l : List Byte) (lo n : Nat) : List Byte :=
  let part := (l.drop lo).take n
  part ++ List.replicate (n - part.length) 0

end Sys2Proof.Machine
end

