-- ==== Sys2Proof/Machine/Bits.lean ====
section
/-!
DEFINITION. Sys2Proof/Machine/Bits.lean: fields of registers, elements of bit strings, sign extension and bit
counts (R5, R178, R255 to R257).
-/

namespace Sys2Proof.Machine

/-- The field of a word from bit `lo`, `n` bits wide, as a number (R5). -/
def bits (w : Word) (lo n : Nat) : Nat := w.toNat / 2 ^ lo % 2 ^ n

/-- One bit of a word (R5). -/
def bitOf (w : Word) (k : Nat) : Bool := decide (w.toNat / 2 ^ k % 2 = 1)

/-- A word with a field replaced. -/
def withBits (w : Word) (lo n v : Nat) : Word :=
  BitVec.ofNat 64 (w.toNat - bits w lo n * 2 ^ lo + v % 2 ^ n * 2 ^ lo)

/-- Element `i` of a bit string of elements `w` bits wide (R178). -/
def elemOf (s w i : Nat) : Nat := s / 2 ^ (w * i) % 2 ^ w

/-- A bit string with element `i` replaced (R178). -/
def elemPut (s w i v : Nat) : Nat := s - elemOf s w i * 2 ^ (w * i) + v % 2 ^ w * 2 ^ (w * i)

/-- Bit `i` of a bit string. -/
def bitAtNat (s i : Nat) : Bool := decide (s / 2 ^ i % 2 = 1)

/-- The two's complement value of a `w`-bit pattern. -/
def signedOf (w n : Nat) : Int := if n % 2 ^ w < 2 ^ (w - 1) then (n % 2 ^ w : Nat) else (n % 2 ^ w : Nat) - (2 ^ w : Nat)

/-- The `w`-bit pattern of an integer (R53: wrapping). -/
def wrapTo (w : Nat) (x : Int) : Nat := (x % (2 ^ w : Nat)).toNat

/-- A `w`-bit pattern sign-extended to 64 bits. -/
def sext64 (w n : Nat) : Word := BitVec.ofInt 64 (signedOf w n)

/-- The number of bits a number takes; 0 for 0. -/
def bitLen (n : Nat) : Nat := if n = 0 then 0 else Nat.log2 n + 1

/-- The number of one bits among the low `w` bits. -/
def popCount : Nat → Nat → Nat
  | 0, _ => 0
  | w + 1, n => n % 2 + popCount w (n / 2)

/-- The number of leading zero bits of a `w`-bit pattern; `w` for 0. -/
def leadingZeros (w n : Nat) : Nat := w - bitLen (n % 2 ^ w)

/-- The number of trailing zero bits of a `w`-bit pattern; `w` for 0. -/
def trailingZeros : Nat → Nat → Nat
  | 0, _ => 0
  | w + 1, n => if n % 2 = 1 then 0 else 1 + trailingZeros w (n / 2)

/-- Left shift of a 64-bit pattern by `k`, rotating (R151 ROL). -/
def rotl (w n k : Nat) : Nat := (n * 2 ^ (k % w) + n / 2 ^ (w - k % w)) % 2 ^ w

/-- Truncating division (R11). -/
def divT (a b : Int) : Int := Int.tdiv a b

/-- Remainder with the sign of the dividend (R11). -/
def modT (a b : Int) : Int := Int.tmod a b

/-- Bit reversal of the low `n` bits (R301). -/
def revBits : Nat → Nat → Nat
  | 0, _ => 0
  | n + 1, p => p % 2 * 2 ^ n + revBits n (p / 2)

/-- The integer square root, one bit at a time from bit `k` down. -/
def sqrtFrom : Nat → Nat → Nat → Nat
  | 0, _, r => r
  | k + 1, n, r => let c := r + 2 ^ k; if c * c ≤ n then sqrtFrom k n c else sqrtFrom k n r

/-- The integer square root. -/
def isqrt (n : Nat) : Nat := sqrtFrom (bitLen n / 2 + 1) n 0

/-- Every index below `n` folded in rising order (R11: loops). -/
def foldUp {α : Type} (n : Nat) (f : Nat → α → α) (a : α) : α := (upFrom 0 n).foldl (fun acc i => f i acc) a

/-- The least index of a list's numbers that a test holds for. -/
def firstSuch (p : Nat → Bool) (l : List Nat) : Option Nat := l.find? p

end Sys2Proof.Machine
end

