-- ==== Sys2Proof/Machine/Float.lean ====
section
/-!
DEFINITION. Sys2Proof/Machine/Float.lean: the number formats and how exact values become stored ones
(spec/03_numbers: R51 to R56, R60 to R63). An exact finite value is a sign, a magnitude and a power of
two; quotients and roots are carried to 2^-200 of their size with a sticky bit below, which no rounding of
this file can tell from the exact value.
-/

namespace Sys2Proof.Machine

/-- NV of R75. -/
def flagNV : BitVec 6 := 1
/-- DZ of R75. -/
def flagDZ : BitVec 6 := 2
/-- OF of R75. -/
def flagOF : BitVec 6 := 4
/-- UF of R75. -/
def flagUF : BitVec 6 := 8
/-- NX of R75. -/
def flagNX : BitVec 6 := 16
/-- MD of R75. -/
def flagMD : BitVec 6 := 32

/-- The width of a tag's elements in bits (R51, R54, R57). -/
def tagWidth : Tag → Nat
  | .s8 | .n8 | .e4m3 | .e5m2 => 8
  | .s16 | .n16 | .f16 | .bf16 => 16
  | .s32 | .n32 | .f32 | .q32 => 32
  | .s64 | .n64 | .f64 => 64
  | .e2m1 => 4

/-- The integer tags of R51; q32 is not one of them. -/
def tagIsInt : Tag → Bool
  | .s8 | .s16 | .s32 | .s64 | .n8 | .n16 | .n32 | .n64 => true
  | _ => false

/-- The signed integer tags (R51). -/
def tagIsSigned : Tag → Bool
  | .s8 | .s16 | .s32 | .s64 => true
  | _ => false

/-- The floating-point tags (R54). -/
def tagIsFloat : Tag → Bool
  | .e2m1 | .e4m3 | .e5m2 | .f16 | .bf16 | .f32 | .f64 => true
  | _ => false

/-- A floating-point layout (R54, R56): fraction bits, exponent bits, bias, the pattern of the largest finite
value, whether there are infinities, and the canonical NaN (none in e2m1). -/
structure Layout where
  frac : Nat
  exp : Nat
  bias : Int
  maxPat : Nat
  inf : Bool
  nan : Option Nat
  deriving DecidableEq, Repr

/-- The layouts of R54 with the canonical NaNs of R56. An integer tag has none; f64 stands in its place. -/
def layout : Tag → Layout
  | .e2m1 => { frac := 1, exp := 2, bias := 1, maxPat := 0x7, inf := false, nan := none }
  | .e4m3 => { frac := 3, exp := 4, bias := 7, maxPat := 0x7E, inf := false, nan := some 0x7F }
  | .e5m2 => { frac := 2, exp := 5, bias := 15, maxPat := 0x7B, inf := true, nan := some 0x7E }
  | .f16 => { frac := 10, exp := 5, bias := 15, maxPat := 0x7BFF, inf := true, nan := some 0x7E00 }
  | .bf16 => { frac := 7, exp := 8, bias := 127, maxPat := 0x7F7F, inf := true, nan := some 0x7FC0 }
  | .f32 => { frac := 23, exp := 8, bias := 127, maxPat := 0x7F7FFFFF, inf := true, nan := some 0x7FC00000 }
  | _ => { frac := 52, exp := 11, bias := 1023, maxPat := 0x7FEFFFFFFFFFFFFF, inf := true, nan := some 0x7FF8000000000000 }

/-- An exact value: a NaN (signalling or not), an infinity, or `±mag × 2^exp`. -/
inductive Num where
  | nan (signalling : Bool)
  | inf (neg : Bool)
  | fin (neg : Bool) (mag : Nat) (exp : Int)
  deriving DecidableEq, Repr

/-- The value of a float pattern (R54, R56). -/
def unpack (t : Tag) (p : Nat) : Num :=
  let l := layout t
  let neg := decide (p / 2 ^ (l.frac + l.exp) % 2 = 1)
  let e := p / 2 ^ l.frac % 2 ^ l.exp
  let f := p % 2 ^ l.frac
  if l.inf ∧ e = 2 ^ l.exp - 1 then
    if f = 0 then .inf neg else .nan (decide (f / 2 ^ (l.frac - 1) % 2 = 0))
  else if t = .e4m3 ∧ p % 128 = 0x7F then .nan false
  else if e = 0 then .fin neg f (1 - l.bias - l.frac)
  else .fin neg (2 ^ l.frac + f) ((e : Int) - l.bias - l.frac)

/-- Whether rounding goes up in magnitude (R60): the kept part, the rest below it and half a unit. -/
def roundUp (mode : Nat) (neg : Bool) (kept rest half2 : Nat) : Bool :=
  -- `rest` is compared with half a unit through `2 * rest` and `half2`, one whole unit
  match mode with
  | 0 => decide (2 * rest > half2 ∨ (2 * rest = half2 ∧ kept % 2 = 1))
  | 1 => false
  | 2 => !neg && decide (rest > 0)
  | 3 => neg && decide (rest > 0)
  | _ => decide (2 * rest ≥ half2)

/-- `±mag × 2^exp` rounded to a multiple of `2^q`: the multiple, and whether it differs (R60). -/
def roundTo (mode : Nat) (neg : Bool) (mag : Nat) (exp q : Int) : Nat × Bool :=
  if exp ≥ q then (mag * 2 ^ (exp - q).toNat, false)
  else
    let k := (q - exp).toNat
    let kept := mag / 2 ^ k
    let rest := mag % 2 ^ k
    (if roundUp mode neg kept rest (2 ^ k) then kept + 1 else kept, decide (rest ≠ 0))

/-- A pattern with a sign. -/
def withSign (l : Layout) (neg : Bool) (p : Nat) : Nat := p + bitNat neg * 2 ^ (l.frac + l.exp)

/-- The stored pattern of an infinity (R61): the tag's, or the largest finite value with overflow and inexact
where the tag has none. -/
def infPattern (l : Layout) (neg : Bool) : Nat × BitVec 6 :=
  if l.inf then (withSign l neg ((2 ^ l.exp - 1) * 2 ^ l.frac), 0)
  else (withSign l neg l.maxPat, flagOF ||| flagNX)

/-- What overflow stores (R61's table). -/
def overflowPattern (l : Layout) (mode : Nat) (neg : Bool) : Nat :=
  if !l.inf then withSign l neg l.maxPat
  else if mode = 1 ∨ (mode = 2 ∧ neg) ∨ (mode = 3 ∧ !neg) then withSign l neg l.maxPat
  else withSign l neg ((2 ^ l.exp - 1) * 2 ^ l.frac)

/-- Round(x, tag, mode) of R61 with its flags. -/
def roundNum (t : Tag) (mode : Nat) (x : Num) : Nat × BitVec 6 :=
  let l := layout t
  match x with
  | .nan _ => (match l.nan with | some p => (p, 0) | none => (0, flagNV))
  | .inf neg => infPattern l neg
  | .fin neg mag exp =>
    if mag = 0 then (withSign l neg 0, 0)
    else
      let e : Int := exp + (bitLen mag : Int) - 1
      let y := roundTo mode neg mag exp (e - l.frac)
      let pat : Int := (e + l.bias) * (2 ^ l.frac : Nat) + ((y.1 : Int) - (2 ^ l.frac : Nat))
      if pat < (2 ^ l.frac : Nat) then
        let z := roundTo mode neg mag exp (1 - l.bias - l.frac)
        (withSign l neg z.1, if z.2 then flagUF ||| flagNX else 0)
      else if pat > l.maxPat then (overflowPattern l mode neg, flagOF ||| flagNX)
      else (withSign l neg pat.toNat, if y.2 then flagNX else 0)

/-- The result of an operation of majors 0x19 to 0x23: rounded once, bf16 through f32 (R62). -/
def roundOp (t : Tag) (mode : Nat) (x : Num) : Nat × BitVec 6 :=
  if t = .bf16 then
    let y := roundNum .f32 mode x
    let z := roundNum .bf16 mode (unpack .f32 y.1)
    (z.1, y.2 ||| z.2)
  else roundNum t mode x

/-- A NaN of either kind. -/
def Num.isNan : Num → Bool
  | .nan _ => true
  | _ => false

/-- A signalling NaN. -/
def Num.isSig : Num → Bool
  | .nan s => s
  | _ => false

/-- The sign bit; a NaN counts as positive. -/
def Num.neg? : Num → Bool
  | .nan _ => false
  | .inf n => n
  | .fin n _ _ => n

/-- A zero of either sign. -/
def Num.isZero : Num → Bool
  | .fin _ m _ => decide (m = 0)
  | _ => false

/-- The value with its sign inverted. -/
def Num.negate : Num → Num
  | .nan s => .nan s
  | .inf n => .inf !n
  | .fin n m e => .fin (!n) m e

/-- A finite value as an integer multiple of `2^e`. -/
def Num.scaled (e : Int) : Num → Int
  | .fin n m x => (if n then -1 else 1) * ((m * 2 ^ (x - e).toNat : Nat) : Int)
  | _ => 0

/-- An integer multiple of `2^e` as a value; an exact zero takes the given sign. -/
def Num.ofScaled (zeroNeg : Bool) (z : Int) (e : Int) : Num :=
  if z = 0 then .fin zeroNeg 0 0 else .fin (decide (z < 0)) z.natAbs e

/-- An exact integer. -/
def Num.ofInt (z : Int) : Num := Num.ofScaled false z 0

/-- The exponent of a finite value's last place. -/
def Num.place : Num → Int
  | .fin _ _ e => e
  | _ => 0

/-- The flag of operands that are signalling NaNs (R62). -/
def sigFlag (l : List Num) : BitVec 6 := if l.any Num.isSig then flagNV else 0

/-- An exact sum with IEEE 754's special cases; an exact zero sum of unlike signs is −0 under RDN and +0
under every other mode (R62). -/
def addNum (mode : Nat) (a b : Num) : Num × BitVec 6 :=
  let fl := sigFlag [a, b]
  match a, b with
  | .nan _, _ => (.nan false, fl)
  | _, .nan _ => (.nan false, fl)
  | .inf x, .inf y => if x = y then (.inf x, 0) else (.nan false, flagNV)
  | .inf x, _ => (.inf x, 0)
  | _, .inf y => (.inf y, 0)
  | .fin n1 m1 e1, .fin n2 m2 e2 =>
    let e := min e1 e2
    let z := (Num.fin n1 m1 e1).scaled e + (Num.fin n2 m2 e2).scaled e
    let zneg := if m1 = 0 ∧ m2 = 0 ∧ n1 = n2 then n1 else decide (mode = 3)
    (Num.ofScaled zneg z e, 0)

/-- An exact product with IEEE 754's special cases. -/
def mulNum (a b : Num) : Num × BitVec 6 :=
  let fl := sigFlag [a, b]
  match a, b with
  | .nan _, _ => (.nan false, fl)
  | _, .nan _ => (.nan false, fl)
  | .inf x, y => if y.isZero then (.nan false, flagNV) else (.inf (x != y.neg?), 0)
  | x, .inf y => if x.isZero then (.nan false, flagNV) else (.inf (x.neg? != y), 0)
  | .fin n1 m1 e1, .fin n2 m2 e2 => (.fin (n1 != n2) (m1 * m2) (e1 + e2), 0)

/-- A quotient, carried far below any rounding point with a sticky bit (R165, R205). -/
def divNum (a b : Num) : Num × BitVec 6 :=
  let fl := sigFlag [a, b]
  match a, b with
  | .nan _, _ => (.nan false, fl)
  | _, .nan _ => (.nan false, fl)
  | .inf _, .inf _ => (.nan false, flagNV)
  | .inf x, y => (.inf (x != y.neg?), 0)
  | .fin n1 _ _, .inf y => (.fin (n1 != y) 0 0, 0)
  | .fin n1 m1 e1, .fin n2 m2 e2 =>
    if m2 = 0 then (if m1 = 0 then (.nan false, flagNV) else (.inf (n1 != n2), flagDZ))
    else if m1 = 0 then (.fin (n1 != n2) 0 0, 0)
    else
      let k := 200 + bitLen m2
      let q := m1 * 2 ^ k / m2
      let sticky := if m1 * 2 ^ k % m2 = 0 then 0 else 1
      (.fin (n1 != n2) (2 * q + sticky) (e1 - e2 - k - 1), 0)

/-- A square root, carried as a quotient is (R165, R205). -/
def sqrtNum (a : Num) : Num × BitVec 6 :=
  match a with
  | .nan s => (.nan false, if s then flagNV else 0)
  | .inf n => if n then (.nan false, flagNV) else (.inf false, 0)
  | .fin n m e =>
    if m = 0 then (.fin n 0 0, 0)
    else if n then (.nan false, flagNV)
    else
      let k : Nat := if (e - 400) % 2 = 0 then 400 else 401
      let big := m * 2 ^ k
      let r := isqrt big
      let sticky := if r * r = big then 0 else 1
      (.fin false (2 * r + sticky) ((e - k) / 2 - 1), 0)

/-- A fused product and sum, exact until rounded; 0 × ∞ sets NV whatever the addend (R165, R205). -/
def fmaNum (mode : Nat) (a b c : Num) : Num × BitVec 6 :=
  let p := mulNum a b
  let s := addNum mode p.1 c
  (s.1, p.2 ||| s.2 ||| sigFlag [a, b, c])

/-- The order of two values that are not NaNs: less, equal, greater as −1, 0, 1 with −0 equal to +0. -/
def cmpNum (a b : Num) : Int :=
  match a, b with
  | .inf x, .inf y => if x = y then 0 else if x then -1 else 1
  | .inf x, _ => if x then -1 else 1
  | _, .inf y => if y then 1 else -1
  | .fin n1 m1 e1, .fin n2 m2 e2 =>
    let e := min e1 e2
    let d := (Num.fin n1 m1 e1).scaled e - (Num.fin n2 m2 e2).scaled e
    if d < 0 then -1 else if d = 0 then 0 else 1
  | _, _ => 0

/-- a < b with −0 below +0 (R166, R224). -/
def ltNum (a b : Num) : Bool :=
  decide (cmpNum a b < 0) || (decide (cmpNum a b = 0) && a.neg? && !b.neg?)

/-- FMIN and FMAX of R166 on patterns. -/
def minMax (t : Tag) (max : Bool) (a b : Nat) : Nat × BitVec 6 :=
  let x := unpack t a
  let y := unpack t b
  let fl := sigFlag [x, y]
  if x.isNan && y.isNan then ((layout t).nan.getD 0, fl)
  else if x.isNan then (b, fl)
  else if y.isNan then (a, fl)
  else if max then (if ltNum x y then b else a, fl)
  else (if ltNum y x then b else a, fl)

/-- The range of an integer tag (R51). -/
def intMin (t : Tag) : Int := if tagIsSigned t then -(2 ^ (tagWidth t - 1) : Nat) else 0

/-- The largest value of an integer tag (R51). -/
def intMax (t : Tag) : Int := if tagIsSigned t then (2 ^ (tagWidth t - 1) : Nat) - 1 else (2 ^ tagWidth t : Nat) - 1

/-- Sat(x, tag) of R52. -/
def satInt (t : Tag) (x : Int) : Int := if x < intMin t then intMin t else if x > intMax t then intMax t else x

/-- An element pattern as an exact integer under its tag's signedness; q32 is unsigned. -/
def intOf (t : Tag) (p : Nat) : Int := if tagIsSigned t then signedOf (tagWidth t) p else (p % 2 ^ tagWidth t : Nat)

/-- An integer stored under a tag, wrapping or saturating (R53). -/
def putInt (t : Tag) (sat : Bool) (x : Int) : Nat := wrapTo (tagWidth t) (if sat then satInt t x else x)

/-- A finite value rounded to an integer under a mode, and whether a fraction was discarded (R63). -/
def toIntRound (mode : Nat) (neg : Bool) (mag : Nat) (exp : Int) : Int × Bool :=
  let r := roundTo mode neg mag exp 0
  (if neg then -(r.1 : Int) else r.1, r.2)

/-- Float to integer (R63): NaN gives 0, out of range the nearer end, both invalid. DESIGN CHOICE (notes/assumptions/68): a value out of
range sets NV alone, also where a fraction is discarded. -/
def floatToInt (t : Tag) (mode : Nat) (x : Num) : Nat × BitVec 6 :=
  match x with
  | .nan _ => (0, flagNV)
  | .inf n => (wrapTo (tagWidth t) (if n then intMin t else intMax t), flagNV)
  | .fin n m e =>
    let r := toIntRound mode n m e
    if r.1 < intMin t ∨ r.1 > intMax t then (wrapTo (tagWidth t) (satInt t r.1), flagNV)
    else (wrapTo (tagWidth t) r.1, if r.2 then flagNX else 0)

/-- The conversions of R63, with R212's rule for a conversion to the same tag. `sat` is VCFG bit 9 and `q` the
modulus. -/
def convert (src dst : Tag) (mode : Nat) (sat : Bool) (q : Nat) (p : Nat) : Nat × BitVec 6 :=
  if tagIsFloat src then
    let x := unpack src p
    if tagIsFloat dst then
      let r := roundNum dst mode x
      (r.1, r.2 ||| (if x.isSig then flagNV else 0))
    else floatToInt dst mode x
  else if src = .q32 then
    let md : BitVec 6 := if p % 2 ^ 32 ≥ q then flagMD else 0
    if dst = .q32 then (p % 2 ^ 32 % q, md) else (putInt dst sat ((p % 2 ^ 32 % q : Nat) : Int), md)
  else if dst = .q32 then ((intOf src p % (q : Int)).toNat, 0)
  else if tagIsFloat dst then roundNum dst mode (Num.ofInt (intOf src p))
  else (putInt dst sat (intOf src p), 0)

end Sys2Proof.Machine
end

