-- ==== Sys2Proof/WellFormed.lean ====
section
/-!
DEFINITION. Sys2Proof/WellFormed.lean: the operand values that an encoding admits and a constructor's types do
not already say (R36 steps 5 and 6). The types say the rest: a mask is absent or one of eight, a token
request names a FIFO or nothing, a register field is of its kind's width.
-/

namespace Sys2Proof

/-- The CSR numbers of R174, with SCHSTAT0 to SCHSTAT15 (R315) and COLLSTAT (R420); every other number is
unassigned (R171 step 1). -/
def csrAssigned (n : Nat) : Bool :=
  n ≤ 6 || n = 0x008 || (0x010 ≤ n && n ≤ 0x013) || (0x020 ≤ n && n ≤ 0x026) || n = 0x030 || n = 0x031 ||
  n = 0x040 || n = 0x041 || (0x050 ≤ n && n ≤ 0x05F) || (0x100 ≤ n && n ≤ 0x10B) || n = 0x110 ||
  (0x200 ≤ n && n ≤ 0x3FF)

/-- The conversions that FCVT's selector names (R168). -/
def fcvtSel (n : Nat) : Bool :=
  n = 1 || n = 2 || n = 3 || n = 4 || n = 6 || n = 7 || n = 8 || n = 9 || n = 12 || n = 13

/-- The instruction has words of its own. The rows of events have none; COLLECTIVE_CONTRIBUTION's words are
VST's (R421). -/
def Instr.encoded : Instr → Bool
  | .add .. => true
  | .sub .. => true
  | .and .. => true
  | .or .. => true
  | .xor .. => true
  | .shl .. => true
  | .shr .. => true
  | .shra .. => true
  | .mul .. => true
  | .mulh .. => true
  | .mulhn .. => true
  | .div .. => true
  | .divn .. => true
  | .rem .. => true
  | .remn .. => true
  | .rol .. => true
  | .clz .. => true
  | .ctz .. => true
  | .popc .. => true
  | .min .. => true
  | .max .. => true
  | .minn .. => true
  | .maxn .. => true
  | .slt .. => true
  | .sltn .. => true
  | .sel .. => true
  | .addi .. => true
  | .addiLong .. => true
  | .andi .. => true
  | .andiLong .. => true
  | .ori .. => true
  | .oriLong .. => true
  | .xori .. => true
  | .xoriLong .. => true
  | .slti .. => true
  | .sltiLong .. => true
  | .shli .. => true
  | .shri .. => true
  | .shrai .. => true
  | .ldi .. => true
  | .ldiLong .. => true
  | .ldih .. => true
  | .addpc .. => true
  | .addpcLong .. => true
  | .ld .. => true
  | .ldLong .. => true
  | .st .. => true
  | .stLong .. => true
  | .beq .. => true
  | .beqLong .. => true
  | .bne .. => true
  | .bneLong .. => true
  | .blt .. => true
  | .bltLong .. => true
  | .bge .. => true
  | .bgeLong .. => true
  | .bltn .. => true
  | .bltnLong .. => true
  | .bgen .. => true
  | .bgenLong .. => true
  | .jal .. => true
  | .jalLong .. => true
  | .jalr .. => true
  | .jalrLong .. => true
  | .loop .. => true
  | .loopLong .. => true
  | .fadd .. => true
  | .fsub .. => true
  | .fmul .. => true
  | .fdiv .. => true
  | .fsqrt .. => true
  | .fmin .. => true
  | .fmax .. => true
  | .ffma .. => true
  | .fcmp .. => true
  | .fcvt .. => true
  | .csrr .. => true
  | .csrw .. => true
  | .csrs .. => true
  | .csrc .. => true
  | .amoadd .. => true
  | .amomin .. => true
  | .amomax .. => true
  | .amoand .. => true
  | .amoor .. => true
  | .amoxor .. => true
  | .amoswap .. => true
  | .amocas .. => true
  | .vsetl .. => true
  | .vcfg .. => true
  | .vmv .. => true
  | .vmvLong .. => true
  | .vmvx .. => true
  | .vmvxLong .. => true
  | .vxmv .. => true
  | .vxmvLong .. => true
  | .vid .. => true
  | .vidLong .. => true
  | .vtag .. => true
  | .vtagLong .. => true
  | .vmerge .. => true
  | .vmergeLong .. => true
  | .vadd .. => true
  | .vaddLong .. => true
  | .vsub .. => true
  | .vsubLong .. => true
  | .vmul .. => true
  | .vmulLong .. => true
  | .vmulh .. => true
  | .vmulhLong .. => true
  | .vmin .. => true
  | .vminLong .. => true
  | .vmax .. => true
  | .vmaxLong .. => true
  | .vabs .. => true
  | .vabsLong .. => true
  | .vneg .. => true
  | .vnegLong .. => true
  | .vfma .. => true
  | .vfmaLong .. => true
  | .vfms .. => true
  | .vfmsLong .. => true
  | .vnfma .. => true
  | .vnfmaLong .. => true
  | .vdiv .. => true
  | .vdivLong .. => true
  | .vrem .. => true
  | .vremLong .. => true
  | .vsqrt .. => true
  | .vsqrtLong .. => true
  | .vscale .. => true
  | .vscaleLong .. => true
  | .vand .. => true
  | .vandLong .. => true
  | .vor .. => true
  | .vorLong .. => true
  | .vxor .. => true
  | .vxorLong .. => true
  | .vnot .. => true
  | .vnotLong .. => true
  | .vclz .. => true
  | .vclzLong .. => true
  | .vpopc .. => true
  | .vpopcLong .. => true
  | .vadc .. => true
  | .vadcLong .. => true
  | .vsbc .. => true
  | .vsbcLong .. => true
  | .vshl .. => true
  | .vshlLong .. => true
  | .vshr .. => true
  | .vshrLong .. => true
  | .vshra .. => true
  | .vshraLong .. => true
  | .vrol .. => true
  | .vrolLong .. => true
  | .vfshl .. => true
  | .vfshlLong .. => true
  | .vfshr .. => true
  | .vfshrLong .. => true
  | .vcmp .. => true
  | .vcmpLong .. => true
  | .vcvt .. => true
  | .vcvtLong .. => true
  | .vrcp .. => true
  | .vrcpLong .. => true
  | .vrsqrt .. => true
  | .vrsqrtLong .. => true
  | .vexp2 .. => true
  | .vexp2Long .. => true
  | .vlog2 .. => true
  | .vlog2Long .. => true
  | .vexp .. => true
  | .vexpLong .. => true
  | .vlog .. => true
  | .vlogLong .. => true
  | .vtanh .. => true
  | .vtanhLong .. => true
  | .mand .. => true
  | .mandLong .. => true
  | .mor .. => true
  | .morLong .. => true
  | .mxor .. => true
  | .mxorLong .. => true
  | .mnot .. => true
  | .mnotLong .. => true
  | .mcnt .. => true
  | .mcntLong .. => true
  | .mfirst .. => true
  | .mfirstLong .. => true
  | .mshl .. => true
  | .mshlLong .. => true
  | .vred .. => true
  | .vredLong .. => true
  | .vscan .. => true
  | .vscanLong .. => true
  | .vscanSeg .. => true
  | .vscanSegLong .. => true
  | .vprefixpop .. => true
  | .vprefixpopLong .. => true
  | .vconflict .. => true
  | .vconflictLong .. => true
  | .vcompress .. => true
  | .vcompressLong .. => true
  | .vexpand .. => true
  | .vexpandLong .. => true
  | .vperm .. => true
  | .vpermLong .. => true
  | .vslideup .. => true
  | .vslideupLong .. => true
  | .vslidedn .. => true
  | .vslidednLong .. => true
  | .vzip .. => true
  | .vzipLong .. => true
  | .vunzip .. => true
  | .vunzipLong .. => true
  | .vtopk .. => true
  | .vtopkLong .. => true
  | .visect .. => true
  | .visectLong .. => true
  | .vunion .. => true
  | .vunionLong .. => true
  | .vmrg .. => true
  | .vmrgLong .. => true
  | .vld .. => true
  | .vldLong .. => true
  | .vlds .. => true
  | .vldsLong .. => true
  | .vldx .. => true
  | .vldxLong .. => true
  | .pfetch .. => true
  | .pfetchLong .. => true
  | .vst .. => true
  | .vstLong .. => true
  | .collectiveContribution .. => false
  | .vsts .. => true
  | .vstsLong .. => true
  | .vstx .. => true
  | .vstxLong .. => true
  | .vstxaAdd .. => true
  | .vstxaAddLong .. => true
  | .vstb .. => true
  | .vstbLong .. => true
  | .vstxaMin .. => true
  | .vstxaMinLong .. => true
  | .vstxaMax .. => true
  | .vstxaMaxLong .. => true
  | .tld .. => true
  | .tldLong .. => true
  | .bld .. => true
  | .bldLong .. => true
  | .bst .. => true
  | .bstLong .. => true
  | .accst .. => true
  | .accstLong .. => true
  | .tmv .. => true
  | .tmvLong .. => true
  | .accmv .. => true
  | .accmvLong .. => true
  | .azero .. => true
  | .azeroLong .. => true
  | .tclass .. => true
  | .msync => true
  | .mma .. => true
  | .mmaz .. => true
  | .mmai .. => true
  | .mmas .. => true
  | .xcfg .. => true
  | .xtwid .. => true
  | .xstage .. => true
  | .xperm .. => true
  | .xpoint .. => true
  | .xnorm .. => true
  | .xmodchk .. => true
  | .xsync => true
  | .sbind .. => true
  | .sunbind .. => true
  | .scopy .. => true
  | .swmark .. => true
  | .swait .. => true
  | .tkpush .. => true
  | .tkpop .. => true
  | .barinit .. => true
  | .bararr .. => true
  | .barwait .. => true
  | .bar .. => true
  | .barfree .. => true
  | .fence .. => true
  | .cpfence => true
  | .vsync => true
  | .lda .. => true
  | .strl .. => true
  | .mcst .. => true
  | .tickget .. => true
  | .tickwait .. => true
  | .tickdone .. => true
  | .mpost .. => true
  | .msend .. => true
  | .mwait .. => true
  | .mprobe .. => true
  | .mcancel .. => true
  | .mdrip .. => true
  | .kvsub .. => true
  | .kvunsub .. => true
  | .kvpass .. => true
  | .kvrecv .. => true
  | .kvpart .. => true
  | .kvdone .. => true
  | .kvstat .. => true
  | .trap .. => true
  | .rte => true
  | .halt => true
  | .wfe .. => true
  | .ctxyield .. => true
  | .ctxsave .. => true
  | .ctxload .. => true
  | .qwait .. => true
  | .qprio .. => true
  | .htokwait .. => true
  | .htokraise .. => true
  | .klaunch .. => true
  | .kend => true
  | .kstat .. => true
  | .gterm => true
  | .gyield => true
  | .sdrain => true
  | .sfrpop .. => true
  | .tlbinv .. => true
  | .pgprobe .. => true
  | .asyncTrapDelivery .. => false
  | .pageStoreDelivery .. => false
  | .watchdog .. => false
  | .waitWake .. => false
  | .gyieldRelease .. => false
  | .cellDrainComplete .. => false
  | .contextLoadComplete .. => false
  | .contextSaveComplete .. => false
  | .slotStateUncorr .. => false
  | .placementDecision => false
  | .kernelLaunchable .. => false
  | .convoyDrain .. => false
  | .loadDataReturn .. => false
  | .storePerform .. => false
  | .scatterAddUpdate .. => false
  | .pageWalkComplete .. => false
  | .xlateDeadline .. => false
  | .matrixEntryIssue .. => false
  | .tldRowblockLand .. => false
  | .matrixEntryRetire .. => false
  | .matrixWindow .. => false
  | .transformEntryStart .. => false
  | .transformEntryRetire .. => false
  | .streamFetchArrival .. => false
  | .stripCommit .. => false
  | .barrierRequestArrival .. => false
  | .kvFetchStart .. => false
  | .kvPageMulticast .. => false
  | .kvCatchupStart .. => false
  | .remoteRequestArrival .. => false
  | .remoteReplyArrival .. => false
  | .remoteDeadline .. => false
  | .flitReplay .. => false
  | .linkCrcFail .. => false
  | .linkTrainingDone .. => false
  | .linkRetrainDone .. => false
  | .collectiveUnitAccept .. => false
  | .collectiveResultDelivery .. => false
  | .messageArrival .. => false
  | .messageLandingComplete .. => false
  | .retryTicketCall .. => false
  | .spillDeadline .. => false
  | .hostWrite .. => false
  | .hostRead .. => false
  | .ingressDoorbell .. => false
  | .egressRead .. => false
  | .hostRegisterWrite .. => false
  | .eventRingWrite => false
  | .cmdLoad => false
  | .cmdLoadsaved => false
  | .cmdSave => false
  | .cmdStop => false
  | .cmdFault => false
  | .cmdRelease => false
  | .cmdSwitch => false
  | .cmdResume => false
  | .cmdTerminate => false
  | .cmdSetplim => false
  | .cmdTrainlink .. => false
  | .cmdTrainhbm .. => false
  | .cmdXlate => false
  | .cmdSpillret => false
  | .cmdAttest .. => false
  | .cmdQuery => false
  | .powerInterval .. => false
  | .hotDie .. => false
  | .thermalTrip .. => false
  | .moduleReset .. => false
  | .firmwareVerify .. => false
  | .hbmRetrain .. => false
  | .powerOff => false
  | .firmwareFailure => false
  | .codeUnassigned => false
  | .mbgoWhileBusy => false
  | .atsTranslationCompletion .. => false
  | .priPageRequestResponse .. => false

/-- The operands of the instruction are values its encoding admits. -/
def Instr.wf : Instr → Bool
  | .add .. => true
  | .sub .. => true
  | .and .. => true
  | .or .. => true
  | .xor .. => true
  | .shl .. => true
  | .shr .. => true
  | .shra .. => true
  | .mul .. => true
  | .mulh .. => true
  | .mulhn .. => true
  | .div .. => true
  | .divn .. => true
  | .rem .. => true
  | .remn .. => true
  | .rol .. => true
  | .clz .. => true
  | .ctz .. => true
  | .popc .. => true
  | .min .. => true
  | .max .. => true
  | .minn .. => true
  | .maxn .. => true
  | .slt .. => true
  | .sltn .. => true
  | .sel .. => true
  | .addi .. => true
  | .addiLong .. => true
  | .andi .. => true
  | .andiLong .. => true
  | .ori .. => true
  | .oriLong .. => true
  | .xori .. => true
  | .xoriLong .. => true
  | .slti .. => true
  | .sltiLong .. => true
  | .shli .. => true
  | .shri .. => true
  | .shrai .. => true
  | .ldi .. => true
  | .ldiLong .. => true
  | .ldih .. => true
  | .addpc .. => true
  | .addpcLong .. => true
  | .ld w _ _ _ => decide (w.toNat ≠ 7)
  | .ldLong w _ _ _ => decide (w.toNat ≠ 7)
  | .st .. => true
  | .stLong .. => true
  | .beq .. => true
  | .beqLong .. => true
  | .bne .. => true
  | .bneLong .. => true
  | .blt .. => true
  | .bltLong .. => true
  | .bge .. => true
  | .bgeLong .. => true
  | .bltn .. => true
  | .bltnLong .. => true
  | .bgen .. => true
  | .bgenLong .. => true
  | .jal .. => true
  | .jalLong .. => true
  | .jalr .. => true
  | .jalrLong .. => true
  | .loop .. => true
  | .loopLong .. => true
  | .fadd .. => true
  | .fsub .. => true
  | .fmul .. => true
  | .fdiv .. => true
  | .fsqrt .. => true
  | .fmin .. => true
  | .fmax .. => true
  | .ffma .. => true
  | .fcmp .. => true
  | .fcvt _ _ cvs => fcvtSel cvs.toNat
  | .csrr _ n => csrAssigned n.toNat
  | .csrw _ _ n => csrAssigned n.toNat
  | .csrs _ _ n => csrAssigned n.toNat
  | .csrc _ _ n => csrAssigned n.toNat
  | .amoadd .. => true
  | .amomin .. => true
  | .amomax .. => true
  | .amoand .. => true
  | .amoor .. => true
  | .amoxor .. => true
  | .amoswap .. => true
  | .amocas .. => true
  | .vsetl d a _ => decide (d ≠ a ∨ d = 0)
  | .vcfg .. => true
  | .vmv .. => true
  | .vmvLong .. => true
  | .vmvx .. => true
  | .vmvxLong .. => true
  | .vxmv .. => true
  | .vxmvLong .. => true
  | .vid .. => true
  | .vidLong .. => true
  | .vtag .. => true
  | .vtagLong .. => true
  | .vmerge .. => true
  | .vmergeLong .. => true
  | .vadd .. => true
  | .vaddLong .. => true
  | .vsub .. => true
  | .vsubLong .. => true
  | .vmul .. => true
  | .vmulLong .. => true
  | .vmulh .. => true
  | .vmulhLong .. => true
  | .vmin .. => true
  | .vminLong .. => true
  | .vmax .. => true
  | .vmaxLong .. => true
  | .vabs .. => true
  | .vabsLong .. => true
  | .vneg .. => true
  | .vnegLong .. => true
  | .vfma .. => true
  | .vfmaLong .. => true
  | .vfms .. => true
  | .vfmsLong .. => true
  | .vnfma .. => true
  | .vnfmaLong .. => true
  | .vdiv .. => true
  | .vdivLong .. => true
  | .vrem .. => true
  | .vremLong .. => true
  | .vsqrt .. => true
  | .vsqrtLong .. => true
  | .vscale .. => true
  | .vscaleLong .. => true
  | .vand .. => true
  | .vandLong .. => true
  | .vor .. => true
  | .vorLong .. => true
  | .vxor .. => true
  | .vxorLong .. => true
  | .vnot .. => true
  | .vnotLong .. => true
  | .vclz .. => true
  | .vclzLong .. => true
  | .vpopc .. => true
  | .vpopcLong .. => true
  | .vadc .. => true
  | .vadcLong .. => true
  | .vsbc .. => true
  | .vsbcLong .. => true
  | .vshl .. => true
  | .vshlLong .. => true
  | .vshr .. => true
  | .vshrLong .. => true
  | .vshra .. => true
  | .vshraLong .. => true
  | .vrol .. => true
  | .vrolLong .. => true
  | .vfshl .. => true
  | .vfshlLong .. => true
  | .vfshr .. => true
  | .vfshrLong .. => true
  | .vcmp _ _ _ c _ _ _ => decide (c.toNat ≠ 7)
  | .vcmpLong _ _ _ c _ _ _ _ => decide (c.toNat ≠ 7)
  | .vcvt .. => true
  | .vcvtLong .. => true
  | .vrcp .. => true
  | .vrcpLong .. => true
  | .vrsqrt .. => true
  | .vrsqrtLong .. => true
  | .vexp2 .. => true
  | .vexp2Long .. => true
  | .vlog2 .. => true
  | .vlog2Long .. => true
  | .vexp .. => true
  | .vexpLong .. => true
  | .vlog .. => true
  | .vlogLong .. => true
  | .vtanh .. => true
  | .vtanhLong .. => true
  | .mand .. => true
  | .mandLong .. => true
  | .mor .. => true
  | .morLong .. => true
  | .mxor .. => true
  | .mxorLong .. => true
  | .mnot .. => true
  | .mnotLong .. => true
  | .mcnt .. => true
  | .mcntLong .. => true
  | .mfirst .. => true
  | .mfirstLong .. => true
  | .mshl .. => true
  | .mshlLong .. => true
  | .vred _ _ _ _ o => decide (o.toNat < 6)
  | .vredLong _ _ _ _ o _ => decide (o.toNat < 6)
  | .vscan _ _ _ _ o => decide (o.toNat < 6)
  | .vscanLong _ _ _ _ o _ => decide (o.toNat < 6)
  | .vscanSeg _ _ _ _ o => decide (o.toNat < 6)
  | .vscanSegLong _ _ _ _ o _ => decide (o.toNat < 6)
  | .vprefixpop .. => true
  | .vprefixpopLong .. => true
  | .vconflict .. => true
  | .vconflictLong .. => true
  | .vcompress .. => true
  | .vcompressLong .. => true
  | .vexpand .. => true
  | .vexpandLong .. => true
  | .vperm .. => true
  | .vpermLong .. => true
  | .vslideup .. => true
  | .vslideupLong .. => true
  | .vslidedn .. => true
  | .vslidednLong .. => true
  | .vzip .. => true
  | .vzipLong .. => true
  | .vunzip .. => true
  | .vunzipLong .. => true
  | .vtopk .. => true
  | .vtopkLong .. => true
  | .visect .. => true
  | .visectLong .. => true
  | .vunion .. => true
  | .vunionLong .. => true
  | .vmrg .. => true
  | .vmrgLong .. => true
  | .vld .. => true
  | .vldLong .. => true
  | .vlds .. => true
  | .vldsLong .. => true
  | .vldx .. => true
  | .vldxLong .. => true
  | .pfetch .. => true
  | .pfetchLong .. => true
  | .vst .. => true
  | .vstLong .. => true
  | .collectiveContribution .. => true
  | .vsts .. => true
  | .vstsLong .. => true
  | .vstx .. => true
  | .vstxLong .. => true
  | .vstxaAdd .. => true
  | .vstxaAddLong .. => true
  | .vstb .. => true
  | .vstbLong .. => true
  | .vstxaMin .. => true
  | .vstxaMinLong .. => true
  | .vstxaMax .. => true
  | .vstxaMaxLong .. => true
  | .tld .. => true
  | .tldLong .. => true
  | .bld .. => true
  | .bldLong .. => true
  | .bst .. => true
  | .bstLong .. => true
  | .accst .. => true
  | .accstLong .. => true
  | .tmv .. => true
  | .tmvLong .. => true
  | .accmv .. => true
  | .accmvLong .. => true
  | .azero .. => true
  | .azeroLong .. => true
  | .tclass .. => true
  | .msync => true
  | .mma .. => true
  | .mmaz .. => true
  | .mmai .. => true
  | .mmas .. => true
  | .xcfg .. => true
  | .xtwid .. => true
  | .xstage _ _ _ _ _ _ _ _ rc => decide (rc.toNat ≠ 3)
  | .xperm _ _ _ rs str => decide (str = true ∨ rs = 0)
  | .xpoint .. => true
  | .xnorm _ _ _ dir => decide (dir.toNat ≠ 3)
  | .xmodchk .. => true
  | .xsync => true
  | .sbind .. => true
  | .sunbind .. => true
  | .scopy .. => true
  | .swmark .. => true
  | .swait .. => true
  | .tkpush .. => true
  | .tkpop .. => true
  | .barinit .. => true
  | .bararr .. => true
  | .barwait .. => true
  | .bar .. => true
  | .barfree .. => true
  | .fence kd sc => decide (kd.toNat ≠ 0 ∧ sc.toNat ≤ 5)
  | .cpfence => true
  | .vsync => true
  | .lda _ _ sc => decide (sc.toNat ≤ 5)
  | .strl _ _ sc => decide (sc.toNat ≤ 5)
  | .mcst .. => true
  | .tickget .. => true
  | .tickwait .. => true
  | .tickdone .. => true
  | .mpost _ _ esz => decide (esz.toNat ≤ 4)
  | .msend .. => true
  | .mwait .. => true
  | .mprobe d _ => decide (d.toNat % 2 = 0 ∧ 2 ≤ d.toNat)
  | .mcancel .. => true
  | .mdrip .. => true
  | .kvsub _ _ dep _ => decide (1 ≤ dep.toNat ∧ dep.toNat ≤ 4)
  | .kvunsub .. => true
  | .kvpass .. => true
  | .kvrecv .. => true
  | .kvpart .. => true
  | .kvdone .. => true
  | .kvstat .. => true
  | .trap .. => true
  | .rte => true
  | .halt => true
  | .wfe .. => true
  | .ctxyield .. => true
  | .ctxsave .. => true
  | .ctxload .. => true
  | .qwait .. => true
  | .qprio .. => true
  | .htokwait .. => true
  | .htokraise .. => true
  | .klaunch .. => true
  | .kend => true
  | .kstat .. => true
  | .gterm => true
  | .gyield => true
  | .sdrain => true
  | .sfrpop d => decide (d.toNat % 4 = 0 ∧ 4 ≤ d.toNat)
  | .tlbinv .. => true
  | .pgprobe .. => true
  | .asyncTrapDelivery .. => true
  | .pageStoreDelivery .. => true
  | .watchdog .. => true
  | .waitWake .. => true
  | .gyieldRelease .. => true
  | .cellDrainComplete .. => true
  | .contextLoadComplete .. => true
  | .contextSaveComplete .. => true
  | .slotStateUncorr .. => true
  | .placementDecision => true
  | .kernelLaunchable .. => true
  | .convoyDrain .. => true
  | .loadDataReturn .. => true
  | .storePerform .. => true
  | .scatterAddUpdate .. => true
  | .pageWalkComplete .. => true
  | .xlateDeadline .. => true
  | .matrixEntryIssue .. => true
  | .tldRowblockLand .. => true
  | .matrixEntryRetire .. => true
  | .matrixWindow .. => true
  | .transformEntryStart .. => true
  | .transformEntryRetire .. => true
  | .streamFetchArrival .. => true
  | .stripCommit .. => true
  | .barrierRequestArrival .. => true
  | .kvFetchStart .. => true
  | .kvPageMulticast .. => true
  | .kvCatchupStart .. => true
  | .remoteRequestArrival .. => true
  | .remoteReplyArrival .. => true
  | .remoteDeadline .. => true
  | .flitReplay .. => true
  | .linkCrcFail .. => true
  | .linkTrainingDone .. => true
  | .linkRetrainDone .. => true
  | .collectiveUnitAccept .. => true
  | .collectiveResultDelivery .. => true
  | .messageArrival .. => true
  | .messageLandingComplete .. => true
  | .retryTicketCall .. => true
  | .spillDeadline .. => true
  | .hostWrite .. => true
  | .hostRead .. => true
  | .ingressDoorbell .. => true
  | .egressRead .. => true
  | .hostRegisterWrite .. => true
  | .eventRingWrite => true
  | .cmdLoad => true
  | .cmdLoadsaved => true
  | .cmdSave => true
  | .cmdStop => true
  | .cmdFault => true
  | .cmdRelease => true
  | .cmdSwitch => true
  | .cmdResume => true
  | .cmdTerminate => true
  | .cmdSetplim => true
  | .cmdTrainlink .. => true
  | .cmdTrainhbm .. => true
  | .cmdXlate => true
  | .cmdSpillret => true
  | .cmdAttest .. => true
  | .cmdQuery => true
  | .powerInterval .. => true
  | .hotDie .. => true
  | .thermalTrip .. => true
  | .moduleReset .. => true
  | .firmwareVerify .. => true
  | .hbmRetrain .. => true
  | .powerOff => true
  | .firmwareFailure => true
  | .codeUnassigned => true
  | .mbgoWhileBusy => true
  | .atsTranslationCompletion .. => true
  | .priPageRequestResponse .. => true

end Sys2Proof
end

