-- ==== Sys2Proof/Decode.lean ====
section
/-!
DEFINITION. Sys2Proof/Decode.lean: the decoder of R26 to R36, total on any words and rejecting by name, and
the encoder written from the same field layouts (R29 to R31, R147, R199, R216, R237, R271, R272, R294,
R295, R317, R329, R340, R368, R390, R410, R439).
-/

namespace Sys2Proof

/-- Why bytes are no instruction: the checks of R36 in their order. Every one of them raises ILLEGAL. -/
inductive Reject where
  | truncated
  | majorUnassigned
  | minorUnassigned
  | lengthRefused
  | reservedBit
  | badSelector
  deriving DecidableEq, Repr

/-- The tag codes of R51, R54 and R57. -/
def Tag.code : Tag → Nat
  | .s8 => 0 | .s16 => 1 | .s32 => 2 | .s64 => 3 | .n8 => 4 | .n16 => 5 | .n32 => 6 | .n64 => 7
  | .e2m1 => 8 | .e4m3 => 9 | .e5m2 => 10 | .f16 => 11 | .bf16 => 12 | .f32 => 13 | .f64 => 14 | .q32 => 15

/-- The tag of a code; codes are four bits wide, and a larger number reads as q32. -/
def Tag.ofCode : Nat → Tag
  | 0 => .s8 | 1 => .s16 | 2 => .s32 | 3 => .s64 | 4 => .n8 | 5 => .n16 | 6 => .n32 | 7 => .n64
  | 8 => .e2m1 | 9 => .e4m3 | 10 => .e5m2 | 11 => .f16 | 12 => .bf16 | 13 => .f32 | 14 => .f64 | _ => .q32

/-- The `n` bits of a word from bit `lo` up. -/
def field (w lo n : Nat) : BitVec n := BitVec.ofNat n (w / 2 ^ lo)

/-- One bit of a word. -/
def bitAt (w lo : Nat) : Bool := decide (w / 2 ^ lo % 2 = 1)

/-- MB and M (R35): MB = 1 names the mask, MB = 0 requires M = 0. -/
abbrev maskOk (w : Nat) : Prop := w / 2 ^ 29 % 2 = 1 ∨ w / 2 ^ 26 % 8 = 0

/-- The mask that MB and M name. -/
def decMask (w : Nat) : Option (BitVec 3) := if w / 2 ^ 29 % 2 = 1 then some (field w 26 3) else none

/-- MB and M of a mask operand. -/
def encMask : Option (BitVec 3) → Nat
  | none => 0
  | some m => 2 ^ 29 + m.toNat * 2 ^ 26

/-- The split field FLD of the P form (R29). -/
def decFld (w : Nat) : BitVec 11 := BitVec.ofNat 11 (w / 2 ^ 26 % 64 * 32 + w / 2 ^ 18 % 32)

/-- FLD[10:5] in bits 31:26 and FLD[4:0] in bits 22:18 (R29). -/
def encFld (n : BitVec 11) : Nat := n.toNat / 32 * 2 ^ 26 + n.toNat % 32 * 2 ^ 18

/-- A shift amount: bit 5 in S, bits 4:0 in B (R155). -/
def decAmount (w : Nat) : BitVec 6 := BitVec.ofNat 6 (w / 2 ^ 31 % 2 * 32 + w / 2 ^ 18 % 32)

/-- The bits of a shift amount (R155). -/
def encAmount (n : BitVec 6) : Nat := n.toNat / 32 * 2 ^ 31 + n.toNat % 32 * 2 ^ 18

/-- PUSHF is 0 when PUSHE is 0, and POPF is 0 when POPE is 0 (R31). -/
abbrev tokensOk (w : Nat) : Prop :=
  (w / 2 ^ 10 % 2 = 1 ∨ w / 2 ^ 11 % 16 = 0) ∧ (w / 2 ^ 5 % 2 = 1 ∨ w / 2 ^ 6 % 16 = 0)

/-- The token requests of the engine extension word (R31). -/
def decTokens (w : Nat) : TokenReq :=
  { pop := if w / 2 ^ 10 % 2 = 1 then some (field w 11 4) else none
    push := if w / 2 ^ 5 % 2 = 1 then some (field w 6 4) else none }

/-- POPF, POPE, PUSHF and PUSHE (R31). -/
def encTokens (t : TokenReq) : Nat :=
  (match t.pop with | none => 0 | some f => 2 ^ 10 + f.toNat * 2 ^ 11) +
  (match t.push with | none => 0 | some f => 2 ^ 5 + f.toNat * 2 ^ 6)

/-- TAG is reserved when TE is 0 (R31). -/
abbrev teOk (w : Nat) : Prop := w / 2 ^ 4 % 2 = 1 ∨ w % 16 = 0

/-- The destination tag that TE and TAG give (R31). -/
def decTe (w : Nat) : Option Tag := if w / 2 ^ 4 % 2 = 1 then some (Tag.ofCode (w % 16)) else none

/-- TE and TAG (R31). -/
def encTe : Option Tag → Nat
  | none => 0
  | some t => 2 ^ 4 + t.code

/-- SCT is 0 when SE is 0 (R272). -/
abbrev scaleOk (w : Nat) : Prop := w / 2 ^ 23 % 2 = 1 ∨ w / 2 ^ 20 % 8 = 0

/-- The scale tile that SE and SCT name (R272). -/
def decScale (w : Nat) : Option (BitVec 3) := if w / 2 ^ 23 % 2 = 1 then some (field w 20 3) else none

/-- SE and SCT (R272). -/
def encScale : Option (BitVec 3) → Nat
  | none => 0
  | some t => 2 ^ 23 + t.toNat * 2 ^ 20

/-- A field at its place in a word. -/
def putAt {n : Nat} (x : BitVec n) (lo rest : Nat) : Nat := rest + x.toNat * 2 ^ lo

/-- A bit at its place. -/
def putBit (b : Bool) (lo rest : Nat) : Nat := rest + bitNat b * 2 ^ lo

/-- A tag code at its place. -/
def putTag (t : Tag) (lo rest : Nat) : Nat := rest + t.code * 2 ^ lo

/-- MB and M at their place. -/
def putMask (k : Option (BitVec 3)) (rest : Nat) : Nat := rest + encMask k

/-- FLD at its place. -/
def putFld (n : BitVec 11) (rest : Nat) : Nat := rest + encFld n

/-- A shift amount at its place. -/
def putAmount (n : BitVec 6) (rest : Nat) : Nat := rest + encAmount n

/-- The token requests at their place. -/
def putTokens (t : TokenReq) (rest : Nat) : Nat := rest + encTokens t

/-- TE and TAG at their place. -/
def putTe (t : Option Tag) (rest : Nat) : Nat := rest + encTe t

/-- SE and SCT at their place. -/
def putScale (t : Option (BitVec 3)) (rest : Nat) : Nat := rest + encScale t

/-- Step 5 of R36, then step 6: the reserved bits are 0 and every selector is one the chapter lists. -/
def accept (reservedOk selectorOk : Bool) (i : Instr) : Except Reject Instr :=
  if reservedOk then (if selectorOk then .ok i else .error .badSelector) else .error .reservedBit

/-- Major 0x01 (R33): ADD, SUB, AND, OR, XOR, SHL, SHR, SHRA. -/
def decMajor01 (w1 _w2 : Nat) : Except Reject Instr :=
  match w1 / 2 ^ 23 % 8 with
  | 0 =>
    if w1 % 2 = 0 then
      accept (decide (w1 / 2 ^ 26 % 64 = 0)) true (.add (field w1 8 5) (field w1 13 5) (field w1 18 5))
    else .error .lengthRefused
  | 1 =>
    if w1 % 2 = 0 then
      accept (decide (w1 / 2 ^ 26 % 64 = 0)) true (.sub (field w1 8 5) (field w1 13 5) (field w1 18 5))
    else .error .lengthRefused
  | 2 =>
    if w1 % 2 = 0 then
      accept (decide (w1 / 2 ^ 26 % 64 = 0)) true (.and (field w1 8 5) (field w1 13 5) (field w1 18 5))
    else .error .lengthRefused
  | 3 =>
    if w1 % 2 = 0 then
      accept (decide (w1 / 2 ^ 26 % 64 = 0)) true (.or (field w1 8 5) (field w1 13 5) (field w1 18 5))
    else .error .lengthRefused
  | 4 =>
    if w1 % 2 = 0 then
      accept (decide (w1 / 2 ^ 26 % 64 = 0)) true (.xor (field w1 8 5) (field w1 13 5) (field w1 18 5))
    else .error .lengthRefused
  | 5 =>
    if w1 % 2 = 0 then
      accept (decide (w1 / 2 ^ 26 % 64 = 0)) true (.shl (field w1 8 5) (field w1 13 5) (field w1 18 5))
    else .error .lengthRefused
  | 6 =>
    if w1 % 2 = 0 then
      accept (decide (w1 / 2 ^ 26 % 64 = 0)) true (.shr (field w1 8 5) (field w1 13 5) (field w1 18 5))
    else .error .lengthRefused
  | 7 =>
    if w1 % 2 = 0 then
      accept (decide (w1 / 2 ^ 26 % 64 = 0)) true (.shra (field w1 8 5) (field w1 13 5) (field w1 18 5))
    else .error .lengthRefused
  | _ => .error .minorUnassigned

/-- Major 0x02 (R33): MUL, MULH, MULHN, DIV, DIVN, REM, REMN. -/
def decMajor02 (w1 _w2 : Nat) : Except Reject Instr :=
  match w1 / 2 ^ 23 % 8 with
  | 0 =>
    if w1 % 2 = 0 then
      accept (decide (w1 / 2 ^ 26 % 64 = 0)) true (.mul (field w1 8 5) (field w1 13 5) (field w1 18 5))
    else .error .lengthRefused
  | 1 =>
    if w1 % 2 = 0 then
      accept (decide (w1 / 2 ^ 26 % 64 = 0)) true (.mulh (field w1 8 5) (field w1 13 5) (field w1 18 5))
    else .error .lengthRefused
  | 2 =>
    if w1 % 2 = 0 then
      accept (decide (w1 / 2 ^ 26 % 64 = 0)) true (.mulhn (field w1 8 5) (field w1 13 5) (field w1 18 5))
    else .error .lengthRefused
  | 3 =>
    if w1 % 2 = 0 then
      accept (decide (w1 / 2 ^ 26 % 64 = 0)) true (.div (field w1 8 5) (field w1 13 5) (field w1 18 5))
    else .error .lengthRefused
  | 4 =>
    if w1 % 2 = 0 then
      accept (decide (w1 / 2 ^ 26 % 64 = 0)) true (.divn (field w1 8 5) (field w1 13 5) (field w1 18 5))
    else .error .lengthRefused
  | 5 =>
    if w1 % 2 = 0 then
      accept (decide (w1 / 2 ^ 26 % 64 = 0)) true (.rem (field w1 8 5) (field w1 13 5) (field w1 18 5))
    else .error .lengthRefused
  | 6 =>
    if w1 % 2 = 0 then
      accept (decide (w1 / 2 ^ 26 % 64 = 0)) true (.remn (field w1 8 5) (field w1 13 5) (field w1 18 5))
    else .error .lengthRefused
  | _ => .error .minorUnassigned

/-- Major 0x03 (R33): ROL, CLZ, CTZ, POPC, MIN, MAX, MINN, MAXN. -/
def decMajor03 (w1 _w2 : Nat) : Except Reject Instr :=
  match w1 / 2 ^ 23 % 8 with
  | 0 =>
    if w1 % 2 = 0 then
      accept (decide (w1 / 2 ^ 26 % 64 = 0)) true (.rol (field w1 8 5) (field w1 13 5) (field w1 18 5))
    else .error .lengthRefused
  | 1 =>
    if w1 % 2 = 0 then
      accept (decide (w1 / 2 ^ 26 % 64 = 0 ∧ w1 / 2 ^ 18 % 32 = 0)) true (.clz (field w1 8 5) (field w1 13 5))
    else .error .lengthRefused
  | 2 =>
    if w1 % 2 = 0 then
      accept (decide (w1 / 2 ^ 26 % 64 = 0 ∧ w1 / 2 ^ 18 % 32 = 0)) true (.ctz (field w1 8 5) (field w1 13 5))
    else .error .lengthRefused
  | 3 =>
    if w1 % 2 = 0 then
      accept (decide (w1 / 2 ^ 26 % 64 = 0 ∧ w1 / 2 ^ 18 % 32 = 0)) true (.popc (field w1 8 5) (field w1 13 5))
    else .error .lengthRefused
  | 4 =>
    if w1 % 2 = 0 then
      accept (decide (w1 / 2 ^ 26 % 64 = 0)) true (.min (field w1 8 5) (field w1 13 5) (field w1 18 5))
    else .error .lengthRefused
  | 5 =>
    if w1 % 2 = 0 then
      accept (decide (w1 / 2 ^ 26 % 64 = 0)) true (.max (field w1 8 5) (field w1 13 5) (field w1 18 5))
    else .error .lengthRefused
  | 6 =>
    if w1 % 2 = 0 then
      accept (decide (w1 / 2 ^ 26 % 64 = 0)) true (.minn (field w1 8 5) (field w1 13 5) (field w1 18 5))
    else .error .lengthRefused
  | 7 =>
    if w1 % 2 = 0 then
      accept (decide (w1 / 2 ^ 26 % 64 = 0)) true (.maxn (field w1 8 5) (field w1 13 5) (field w1 18 5))
    else .error .lengthRefused
  | _ => .error .minorUnassigned

/-- Major 0x04 (R33): SLT, SLTN, SEL. -/
def decMajor04 (w1 _w2 : Nat) : Except Reject Instr :=
  match w1 / 2 ^ 23 % 8 with
  | 0 =>
    if w1 % 2 = 0 then
      accept (decide (w1 / 2 ^ 26 % 64 = 0)) true (.slt (field w1 8 5) (field w1 13 5) (field w1 18 5))
    else .error .lengthRefused
  | 1 =>
    if w1 % 2 = 0 then
      accept (decide (w1 / 2 ^ 26 % 64 = 0)) true (.sltn (field w1 8 5) (field w1 13 5) (field w1 18 5))
    else .error .lengthRefused
  | 2 =>
    if w1 % 2 = 0 then
      accept (decide (w1 / 2 ^ 26 % 64 = 0)) true (.sel (field w1 8 5) (field w1 13 5) (field w1 18 5))
    else .error .lengthRefused
  | _ => .error .minorUnassigned

/-- Major 0x05 (R33): ADDI, ADDI_LONG. -/
def decMajor05 (w1 w2 : Nat) : Except Reject Instr :=
  if w1 % 2 = 0 then
    accept (true) true (.addi (field w1 8 5) (field w1 13 5) (field w1 18 14))
  else
    accept (decide (w1 / 2 ^ 18 % 16384 = 0)) true (.addiLong (field w1 8 5) (field w1 13 5) (field w2 0 32))

/-- Major 0x06 (R33): ANDI, ANDI_LONG. -/
def decMajor06 (w1 w2 : Nat) : Except Reject Instr :=
  if w1 % 2 = 0 then
    accept (true) true (.andi (field w1 8 5) (field w1 13 5) (field w1 18 14))
  else
    accept (decide (w1 / 2 ^ 18 % 16384 = 0)) true (.andiLong (field w1 8 5) (field w1 13 5) (field w2 0 32))

/-- Major 0x07 (R33): ORI, ORI_LONG. -/
def decMajor07 (w1 w2 : Nat) : Except Reject Instr :=
  if w1 % 2 = 0 then
    accept (true) true (.ori (field w1 8 5) (field w1 13 5) (field w1 18 14))
  else
    accept (decide (w1 / 2 ^ 18 % 16384 = 0)) true (.oriLong (field w1 8 5) (field w1 13 5) (field w2 0 32))

/-- Major 0x08 (R33): XORI, XORI_LONG. -/
def decMajor08 (w1 w2 : Nat) : Except Reject Instr :=
  if w1 % 2 = 0 then
    accept (true) true (.xori (field w1 8 5) (field w1 13 5) (field w1 18 14))
  else
    accept (decide (w1 / 2 ^ 18 % 16384 = 0)) true (.xoriLong (field w1 8 5) (field w1 13 5) (field w2 0 32))

/-- Major 0x09 (R33): SLTI, SLTI_LONG. -/
def decMajor09 (w1 w2 : Nat) : Except Reject Instr :=
  if w1 % 2 = 0 then
    accept (true) true (.slti (field w1 8 5) (field w1 13 5) (field w1 18 14))
  else
    accept (decide (w1 / 2 ^ 18 % 16384 = 0)) true (.sltiLong (field w1 8 5) (field w1 13 5) (field w2 0 32))

/-- Major 0x0A (R33): SHLI, SHRI, SHRAI. -/
def decMajor0A (w1 _w2 : Nat) : Except Reject Instr :=
  match w1 / 2 ^ 23 % 8 with
  | 0 =>
    if w1 % 2 = 0 then
      accept (decide (w1 / 2 ^ 26 % 32 = 0)) true (.shli (field w1 8 5) (field w1 13 5) (decAmount w1))
    else .error .lengthRefused
  | 1 =>
    if w1 % 2 = 0 then
      accept (decide (w1 / 2 ^ 26 % 32 = 0)) true (.shri (field w1 8 5) (field w1 13 5) (decAmount w1))
    else .error .lengthRefused
  | 2 =>
    if w1 % 2 = 0 then
      accept (decide (w1 / 2 ^ 26 % 32 = 0)) true (.shrai (field w1 8 5) (field w1 13 5) (decAmount w1))
    else .error .lengthRefused
  | _ => .error .minorUnassigned

/-- Major 0x0B (R33): LDI, LDI_LONG. -/
def decMajor0B (w1 w2 : Nat) : Except Reject Instr :=
  if w1 % 2 = 0 then
    accept (decide (w1 / 2 ^ 13 % 32 = 0)) true (.ldi (field w1 8 5) (field w1 18 14))
  else
    accept (decide (w1 / 2 ^ 13 % 32 = 0 ∧ w1 / 2 ^ 18 % 16384 = 0)) true (.ldiLong (field w1 8 5) (field w2 0 32))

/-- Major 0x0C (R33): LDIH. -/
def decMajor0C (w1 w2 : Nat) : Except Reject Instr :=
  if w1 % 2 = 1 then
    accept (decide (w1 / 2 ^ 13 % 32 = 0 ∧ w1 / 2 ^ 18 % 16384 = 0)) true (.ldih (field w1 8 5) (field w2 0 32))
  else .error .lengthRefused

/-- Major 0x0D (R33): ADDPC, ADDPC_LONG. -/
def decMajor0D (w1 w2 : Nat) : Except Reject Instr :=
  if w1 % 2 = 0 then
    accept (decide (w1 / 2 ^ 13 % 32 = 0)) true (.addpc (field w1 8 5) (field w1 18 14))
  else
    accept (decide (w1 / 2 ^ 13 % 32 = 0 ∧ w1 / 2 ^ 18 % 16384 = 0)) true (.addpcLong (field w1 8 5) (field w2 0 32))

/-- Major 0x0E (R33): LD, LD_LONG. -/
def decMajor0E (w1 w2 : Nat) : Except Reject Instr :=
  if w1 / 2 ^ 23 % 8 = 7 then .error .minorUnassigned else
  if w1 % 2 = 0 then
    accept (true) (decide ((field w1 23 3).toNat ≠ 7)) (.ld (field w1 23 3) (field w1 8 5) (field w1 13 5) (decFld w1))
  else
    accept (decide (w1 / 2 ^ 26 % 64 = 0 ∧ w1 / 2 ^ 18 % 32 = 0)) (decide ((field w1 23 3).toNat ≠ 7)) (.ldLong (field w1 23 3) (field w1 8 5) (field w1 13 5) (field w2 0 32))

/-- Major 0x0F (R33): ST, ST_LONG. -/
def decMajor0F (w1 w2 : Nat) : Except Reject Instr :=
  if w1 / 2 ^ 25 % 2 = 1 then .error .minorUnassigned else
  if w1 % 2 = 0 then
    accept (decide (w1 / 2 ^ 25 % 2 = 0)) true (.st (field w1 23 2) (field w1 8 5) (field w1 13 5) (decFld w1))
  else
    accept (decide (w1 / 2 ^ 26 % 64 = 0 ∧ w1 / 2 ^ 18 % 32 = 0 ∧ w1 / 2 ^ 25 % 2 = 0)) true (.stLong (field w1 23 2) (field w1 8 5) (field w1 13 5) (field w2 0 32))

/-- Major 0x10 (R33): BEQ, BEQ_LONG. -/
def decMajor10 (w1 w2 : Nat) : Except Reject Instr :=
  if w1 % 2 = 0 then
    accept (true) true (.beq (field w1 8 5) (field w1 13 5) (field w1 18 14))
  else
    accept (decide (w1 / 2 ^ 18 % 16384 = 0)) true (.beqLong (field w1 8 5) (field w1 13 5) (field w2 0 32))

/-- Major 0x11 (R33): BNE, BNE_LONG. -/
def decMajor11 (w1 w2 : Nat) : Except Reject Instr :=
  if w1 % 2 = 0 then
    accept (true) true (.bne (field w1 8 5) (field w1 13 5) (field w1 18 14))
  else
    accept (decide (w1 / 2 ^ 18 % 16384 = 0)) true (.bneLong (field w1 8 5) (field w1 13 5) (field w2 0 32))

/-- Major 0x12 (R33): BLT, BLT_LONG. -/
def decMajor12 (w1 w2 : Nat) : Except Reject Instr :=
  if w1 % 2 = 0 then
    accept (true) true (.blt (field w1 8 5) (field w1 13 5) (field w1 18 14))
  else
    accept (decide (w1 / 2 ^ 18 % 16384 = 0)) true (.bltLong (field w1 8 5) (field w1 13 5) (field w2 0 32))

/-- Major 0x13 (R33): BGE, BGE_LONG. -/
def decMajor13 (w1 w2 : Nat) : Except Reject Instr :=
  if w1 % 2 = 0 then
    accept (true) true (.bge (field w1 8 5) (field w1 13 5) (field w1 18 14))
  else
    accept (decide (w1 / 2 ^ 18 % 16384 = 0)) true (.bgeLong (field w1 8 5) (field w1 13 5) (field w2 0 32))

/-- Major 0x14 (R33): BLTN, BLTN_LONG. -/
def decMajor14 (w1 w2 : Nat) : Except Reject Instr :=
  if w1 % 2 = 0 then
    accept (true) true (.bltn (field w1 8 5) (field w1 13 5) (field w1 18 14))
  else
    accept (decide (w1 / 2 ^ 18 % 16384 = 0)) true (.bltnLong (field w1 8 5) (field w1 13 5) (field w2 0 32))

/-- Major 0x15 (R33): BGEN, BGEN_LONG. -/
def decMajor15 (w1 w2 : Nat) : Except Reject Instr :=
  if w1 % 2 = 0 then
    accept (true) true (.bgen (field w1 8 5) (field w1 13 5) (field w1 18 14))
  else
    accept (decide (w1 / 2 ^ 18 % 16384 = 0)) true (.bgenLong (field w1 8 5) (field w1 13 5) (field w2 0 32))

/-- Major 0x16 (R33): JAL, JAL_LONG. -/
def decMajor16 (w1 w2 : Nat) : Except Reject Instr :=
  if w1 % 2 = 0 then
    accept (decide (w1 / 2 ^ 13 % 32 = 0)) true (.jal (field w1 8 5) (field w1 18 14))
  else
    accept (decide (w1 / 2 ^ 13 % 32 = 0 ∧ w1 / 2 ^ 18 % 16384 = 0)) true (.jalLong (field w1 8 5) (field w2 0 32))

/-- Major 0x17 (R33): JALR, JALR_LONG. -/
def decMajor17 (w1 w2 : Nat) : Except Reject Instr :=
  if w1 % 2 = 0 then
    accept (true) true (.jalr (field w1 8 5) (field w1 13 5) (field w1 18 14))
  else
    accept (decide (w1 / 2 ^ 18 % 16384 = 0)) true (.jalrLong (field w1 8 5) (field w1 13 5) (field w2 0 32))

/-- Major 0x18 (R33): LOOP, LOOP_LONG. -/
def decMajor18 (w1 w2 : Nat) : Except Reject Instr :=
  if w1 % 2 = 0 then
    accept (decide (w1 / 2 ^ 13 % 32 = 0)) true (.loop (field w1 8 5) (field w1 18 14))
  else
    accept (decide (w1 / 2 ^ 13 % 32 = 0 ∧ w1 / 2 ^ 18 % 16384 = 0)) true (.loopLong (field w1 8 5) (field w2 0 32))

/-- Major 0x19 (R33): FADD, FSUB, FMUL, FDIV, FSQRT, FMIN, FMAX, FFMA. -/
def decMajor19 (w1 _w2 : Nat) : Except Reject Instr :=
  match w1 / 2 ^ 23 % 8 with
  | 0 =>
    if w1 % 2 = 0 then
      accept (decide (w1 / 2 ^ 26 % 32 = 0)) true (.fadd (bitAt w1 31) (field w1 8 5) (field w1 13 5) (field w1 18 5))
    else .error .lengthRefused
  | 1 =>
    if w1 % 2 = 0 then
      accept (decide (w1 / 2 ^ 26 % 32 = 0)) true (.fsub (bitAt w1 31) (field w1 8 5) (field w1 13 5) (field w1 18 5))
    else .error .lengthRefused
  | 2 =>
    if w1 % 2 = 0 then
      accept (decide (w1 / 2 ^ 26 % 32 = 0)) true (.fmul (bitAt w1 31) (field w1 8 5) (field w1 13 5) (field w1 18 5))
    else .error .lengthRefused
  | 3 =>
    if w1 % 2 = 0 then
      accept (decide (w1 / 2 ^ 26 % 32 = 0)) true (.fdiv (bitAt w1 31) (field w1 8 5) (field w1 13 5) (field w1 18 5))
    else .error .lengthRefused
  | 4 =>
    if w1 % 2 = 0 then
      accept (decide (w1 / 2 ^ 26 % 32 = 0 ∧ w1 / 2 ^ 18 % 32 = 0)) true (.fsqrt (bitAt w1 31) (field w1 8 5) (field w1 13 5))
    else .error .lengthRefused
  | 5 =>
    if w1 % 2 = 0 then
      accept (decide (w1 / 2 ^ 26 % 32 = 0)) true (.fmin (bitAt w1 31) (field w1 8 5) (field w1 13 5) (field w1 18 5))
    else .error .lengthRefused
  | 6 =>
    if w1 % 2 = 0 then
      accept (decide (w1 / 2 ^ 26 % 32 = 0)) true (.fmax (bitAt w1 31) (field w1 8 5) (field w1 13 5) (field w1 18 5))
    else .error .lengthRefused
  | 7 =>
    if w1 % 2 = 0 then
      accept (decide (w1 / 2 ^ 26 % 32 = 0)) true (.ffma (bitAt w1 31) (field w1 8 5) (field w1 13 5) (field w1 18 5))
    else .error .lengthRefused
  | _ => .error .minorUnassigned

/-- Major 0x1A (R33): FCMP, FCVT. -/
def decMajor1A (w1 _w2 : Nat) : Except Reject Instr :=
  if w1 / 2 ^ 23 % 8 ≤ 3 then
    if w1 % 2 = 0 then
      accept (decide (w1 / 2 ^ 26 % 32 = 0)) true (.fcmp (bitAt w1 31) (field w1 23 2) (field w1 8 5) (field w1 13 5) (field w1 18 5))
    else .error .lengthRefused
  else if w1 / 2 ^ 23 % 8 = 4 then
    if w1 % 2 = 0 then
      accept (decide (w1 / 2 ^ 26 % 64 = 0)) (fcvtSel (field w1 18 5).toNat) (.fcvt (field w1 8 5) (field w1 13 5) (field w1 18 5))
    else .error .lengthRefused
  else .error .minorUnassigned

/-- Major 0x1B (R33): CSRR, CSRW, CSRS, CSRC. -/
def decMajor1B (w1 _w2 : Nat) : Except Reject Instr :=
  match w1 / 2 ^ 23 % 8 with
  | 0 =>
    if w1 % 2 = 0 then
      accept (decide (w1 / 2 ^ 13 % 32 = 0)) (csrAssigned (decFld w1).toNat) (.csrr (field w1 8 5) (decFld w1))
    else .error .lengthRefused
  | 1 =>
    if w1 % 2 = 0 then
      accept (true) (csrAssigned (decFld w1).toNat) (.csrw (field w1 8 5) (field w1 13 5) (decFld w1))
    else .error .lengthRefused
  | 2 =>
    if w1 % 2 = 0 then
      accept (true) (csrAssigned (decFld w1).toNat) (.csrs (field w1 8 5) (field w1 13 5) (decFld w1))
    else .error .lengthRefused
  | 3 =>
    if w1 % 2 = 0 then
      accept (true) (csrAssigned (decFld w1).toNat) (.csrc (field w1 8 5) (field w1 13 5) (decFld w1))
    else .error .lengthRefused
  | _ => .error .minorUnassigned

/-- Major 0x1C (R33): AMOADD, AMOMIN, AMOMAX, AMOAND, AMOOR, AMOXOR, AMOSWAP, AMOCAS. -/
def decMajor1C (w1 _w2 : Nat) : Except Reject Instr :=
  match w1 / 2 ^ 23 % 8 with
  | 0 =>
    if w1 % 2 = 0 then
      accept (decide (w1 / 2 ^ 26 % 64 = 0)) true (.amoadd (field w1 8 5) (field w1 13 5) (field w1 18 5))
    else .error .lengthRefused
  | 1 =>
    if w1 % 2 = 0 then
      accept (decide (w1 / 2 ^ 26 % 32 = 0)) true (.amomin (bitAt w1 31) (field w1 8 5) (field w1 13 5) (field w1 18 5))
    else .error .lengthRefused
  | 2 =>
    if w1 % 2 = 0 then
      accept (decide (w1 / 2 ^ 26 % 32 = 0)) true (.amomax (bitAt w1 31) (field w1 8 5) (field w1 13 5) (field w1 18 5))
    else .error .lengthRefused
  | 3 =>
    if w1 % 2 = 0 then
      accept (decide (w1 / 2 ^ 26 % 64 = 0)) true (.amoand (field w1 8 5) (field w1 13 5) (field w1 18 5))
    else .error .lengthRefused
  | 4 =>
    if w1 % 2 = 0 then
      accept (decide (w1 / 2 ^ 26 % 64 = 0)) true (.amoor (field w1 8 5) (field w1 13 5) (field w1 18 5))
    else .error .lengthRefused
  | 5 =>
    if w1 % 2 = 0 then
      accept (decide (w1 / 2 ^ 26 % 64 = 0)) true (.amoxor (field w1 8 5) (field w1 13 5) (field w1 18 5))
    else .error .lengthRefused
  | 6 =>
    if w1 % 2 = 0 then
      accept (decide (w1 / 2 ^ 26 % 64 = 0)) true (.amoswap (field w1 8 5) (field w1 13 5) (field w1 18 5))
    else .error .lengthRefused
  | 7 =>
    if w1 % 2 = 0 then
      accept (decide (w1 / 2 ^ 26 % 64 = 0)) true (.amocas (field w1 8 5) (field w1 13 5) (field w1 18 5))
    else .error .lengthRefused
  | _ => .error .minorUnassigned

/-- Major 0x20 (R33): VSETL, VCFG. -/
def decMajor20 (w1 _w2 : Nat) : Except Reject Instr :=
  match w1 / 2 ^ 23 % 8 with
  | 0 =>
    if w1 % 2 = 0 then
      accept (decide (w1 / 2 ^ 26 % 64 = 0 ∧ w1 / 2 ^ 22 % 2 = 0)) (decide ((field w1 8 5) ≠ (field w1 13 5) ∨ (field w1 8 5) = 0)) (.vsetl (field w1 8 5) (field w1 13 5) (Tag.ofCode (w1 / 2 ^ 18 % 16)))
    else .error .lengthRefused
  | 1 =>
    if w1 % 2 = 0 then
      accept (decide (w1 / 2 ^ 26 % 64 = 0)) true (.vcfg (field w1 8 5) (field w1 13 5) (field w1 18 5))
    else .error .lengthRefused
  | _ => .error .minorUnassigned

/-- Major 0x21 (R33): VMV, VMV_LONG, VMVX, VMVX_LONG, VXMV, VXMV_LONG, VID, VID_LONG, VTAG, VTAG_LONG, VMERGE, VMERGE_LONG. -/
def decMajor21 (w1 w2 : Nat) : Except Reject Instr :=
  match w1 / 2 ^ 23 % 8 with
  | 0 =>
    if w1 % 2 = 0 then
      accept (decide (w1 / 2 ^ 18 % 32 = 0 ∧ maskOk w1)) true (.vmv (bitAt w1 31) (bitAt w1 30) (decMask w1) (field w1 8 5) (field w1 13 5))
    else
      accept (decide (w1 / 2 ^ 18 % 32 = 0 ∧ w2 / 2 ^ 15 % 131072 = 0 ∧ w2 % 32 = 0 ∧ maskOk w1 ∧ tokensOk w2)) true (.vmvLong (bitAt w1 31) (bitAt w1 30) (decMask w1) (field w1 8 5) (field w1 13 5) (decTokens w2))
  | 1 =>
    if w1 % 2 = 0 then
      accept (decide (w1 / 2 ^ 18 % 32 = 0 ∧ maskOk w1)) true (.vmvx (bitAt w1 31) (bitAt w1 30) (decMask w1) (field w1 8 5) (field w1 13 5))
    else
      accept (decide (w1 / 2 ^ 18 % 32 = 0 ∧ w2 / 2 ^ 15 % 131072 = 0 ∧ w2 % 32 = 0 ∧ maskOk w1 ∧ tokensOk w2)) true (.vmvxLong (bitAt w1 31) (bitAt w1 30) (decMask w1) (field w1 8 5) (field w1 13 5) (decTokens w2))
  | 2 =>
    if w1 % 2 = 0 then
      accept (decide (w1 / 2 ^ 26 % 16 = 0)) true (.vxmv (bitAt w1 31) (bitAt w1 30) (field w1 8 5) (field w1 13 5) (field w1 18 5))
    else
      accept (decide (w1 / 2 ^ 26 % 16 = 0 ∧ w2 / 2 ^ 15 % 131072 = 0 ∧ w2 % 32 = 0 ∧ tokensOk w2)) true (.vxmvLong (bitAt w1 31) (bitAt w1 30) (field w1 8 5) (field w1 13 5) (field w1 18 5) (decTokens w2))
  | 3 =>
    if w1 % 2 = 0 then
      accept (decide (w1 / 2 ^ 13 % 32 = 0 ∧ w1 / 2 ^ 18 % 32 = 0 ∧ maskOk w1)) true (.vid (bitAt w1 31) (bitAt w1 30) (decMask w1) (field w1 8 5))
    else
      accept (decide (w1 / 2 ^ 13 % 32 = 0 ∧ w1 / 2 ^ 18 % 32 = 0 ∧ w2 / 2 ^ 15 % 131072 = 0 ∧ w2 % 32 = 0 ∧ maskOk w1 ∧ tokensOk w2)) true (.vidLong (bitAt w1 31) (bitAt w1 30) (decMask w1) (field w1 8 5) (decTokens w2))
  | 4 =>
    if w1 % 2 = 0 then
      accept (decide (w1 / 2 ^ 26 % 16 = 0 ∧ w1 / 2 ^ 13 % 32 = 0 ∧ w1 / 2 ^ 22 % 2 = 0)) true (.vtag (bitAt w1 31) (bitAt w1 30) (field w1 8 5) (Tag.ofCode (w1 / 2 ^ 18 % 16)))
    else
      accept (decide (w1 / 2 ^ 26 % 16 = 0 ∧ w1 / 2 ^ 13 % 32 = 0 ∧ w1 / 2 ^ 22 % 2 = 0 ∧ w2 / 2 ^ 15 % 131072 = 0 ∧ w2 % 32 = 0 ∧ tokensOk w2)) true (.vtagLong (bitAt w1 31) (bitAt w1 30) (field w1 8 5) (Tag.ofCode (w1 / 2 ^ 18 % 16)) (decTokens w2))
  | 5 =>
    if w1 % 2 = 0 then
      accept (decide (w1 / 2 ^ 29 % 2 = 1)) true (.vmerge (bitAt w1 31) (bitAt w1 30) (field w1 26 3) (field w1 8 5) (field w1 13 5) (field w1 18 5))
    else
      accept (decide (w1 / 2 ^ 29 % 2 = 1 ∧ w2 / 2 ^ 15 % 131072 = 0 ∧ w2 % 32 = 0 ∧ tokensOk w2)) true (.vmergeLong (bitAt w1 31) (bitAt w1 30) (field w1 26 3) (field w1 8 5) (field w1 13 5) (field w1 18 5) (decTokens w2))
  | _ => .error .minorUnassigned

/-- Major 0x22 (R33): VADD, VADD_LONG, VSUB, VSUB_LONG, VMUL, VMUL_LONG, VMULH, VMULH_LONG, VMIN, VMIN_LONG, VMAX, VMAX_LONG, VABS, VABS_LONG, VNEG, VNEG_LONG. -/
def decMajor22 (w1 w2 : Nat) : Except Reject Instr :=
  match w1 / 2 ^ 23 % 8 with
  | 0 =>
    if w1 % 2 = 0 then
      accept (decide (maskOk w1)) true (.vadd (bitAt w1 31) (bitAt w1 30) (decMask w1) (field w1 8 5) (field w1 13 5) (field w1 18 5))
    else
      accept (decide (w2 / 2 ^ 15 % 131072 = 0 ∧ w2 % 32 = 0 ∧ maskOk w1 ∧ tokensOk w2)) true (.vaddLong (bitAt w1 31) (bitAt w1 30) (decMask w1) (field w1 8 5) (field w1 13 5) (field w1 18 5) (decTokens w2))
  | 1 =>
    if w1 % 2 = 0 then
      accept (decide (maskOk w1)) true (.vsub (bitAt w1 31) (bitAt w1 30) (decMask w1) (field w1 8 5) (field w1 13 5) (field w1 18 5))
    else
      accept (decide (w2 / 2 ^ 15 % 131072 = 0 ∧ w2 % 32 = 0 ∧ maskOk w1 ∧ tokensOk w2)) true (.vsubLong (bitAt w1 31) (bitAt w1 30) (decMask w1) (field w1 8 5) (field w1 13 5) (field w1 18 5) (decTokens w2))
  | 2 =>
    if w1 % 2 = 0 then
      accept (decide (maskOk w1)) true (.vmul (bitAt w1 31) (bitAt w1 30) (decMask w1) (field w1 8 5) (field w1 13 5) (field w1 18 5))
    else
      accept (decide (w2 / 2 ^ 15 % 131072 = 0 ∧ w2 % 32 = 0 ∧ maskOk w1 ∧ tokensOk w2)) true (.vmulLong (bitAt w1 31) (bitAt w1 30) (decMask w1) (field w1 8 5) (field w1 13 5) (field w1 18 5) (decTokens w2))
  | 3 =>
    if w1 % 2 = 0 then
      accept (decide (maskOk w1)) true (.vmulh (bitAt w1 31) (bitAt w1 30) (decMask w1) (field w1 8 5) (field w1 13 5) (field w1 18 5))
    else
      accept (decide (w2 / 2 ^ 15 % 131072 = 0 ∧ w2 % 32 = 0 ∧ maskOk w1 ∧ tokensOk w2)) true (.vmulhLong (bitAt w1 31) (bitAt w1 30) (decMask w1) (field w1 8 5) (field w1 13 5) (field w1 18 5) (decTokens w2))
  | 4 =>
    if w1 % 2 = 0 then
      accept (decide (maskOk w1)) true (.vmin (bitAt w1 31) (bitAt w1 30) (decMask w1) (field w1 8 5) (field w1 13 5) (field w1 18 5))
    else
      accept (decide (w2 / 2 ^ 15 % 131072 = 0 ∧ w2 % 32 = 0 ∧ maskOk w1 ∧ tokensOk w2)) true (.vminLong (bitAt w1 31) (bitAt w1 30) (decMask w1) (field w1 8 5) (field w1 13 5) (field w1 18 5) (decTokens w2))
  | 5 =>
    if w1 % 2 = 0 then
      accept (decide (maskOk w1)) true (.vmax (bitAt w1 31) (bitAt w1 30) (decMask w1) (field w1 8 5) (field w1 13 5) (field w1 18 5))
    else
      accept (decide (w2 / 2 ^ 15 % 131072 = 0 ∧ w2 % 32 = 0 ∧ maskOk w1 ∧ tokensOk w2)) true (.vmaxLong (bitAt w1 31) (bitAt w1 30) (decMask w1) (field w1 8 5) (field w1 13 5) (field w1 18 5) (decTokens w2))
  | 6 =>
    if w1 % 2 = 0 then
      accept (decide (w1 / 2 ^ 18 % 32 = 0 ∧ maskOk w1)) true (.vabs (bitAt w1 31) (bitAt w1 30) (decMask w1) (field w1 8 5) (field w1 13 5))
    else
      accept (decide (w1 / 2 ^ 18 % 32 = 0 ∧ w2 / 2 ^ 15 % 131072 = 0 ∧ w2 % 32 = 0 ∧ maskOk w1 ∧ tokensOk w2)) true (.vabsLong (bitAt w1 31) (bitAt w1 30) (decMask w1) (field w1 8 5) (field w1 13 5) (decTokens w2))
  | 7 =>
    if w1 % 2 = 0 then
      accept (decide (w1 / 2 ^ 18 % 32 = 0 ∧ maskOk w1)) true (.vneg (bitAt w1 31) (bitAt w1 30) (decMask w1) (field w1 8 5) (field w1 13 5))
    else
      accept (decide (w1 / 2 ^ 18 % 32 = 0 ∧ w2 / 2 ^ 15 % 131072 = 0 ∧ w2 % 32 = 0 ∧ maskOk w1 ∧ tokensOk w2)) true (.vnegLong (bitAt w1 31) (bitAt w1 30) (decMask w1) (field w1 8 5) (field w1 13 5) (decTokens w2))
  | _ => .error .minorUnassigned

/-- Major 0x23 (R33): VFMA, VFMA_LONG, VFMS, VFMS_LONG, VNFMA, VNFMA_LONG, VDIV, VDIV_LONG, VREM, VREM_LONG, VSQRT, VSQRT_LONG, VSCALE, VSCALE_LONG. -/
def decMajor23 (w1 w2 : Nat) : Except Reject Instr :=
  match w1 / 2 ^ 23 % 8 with
  | 0 =>
    if w1 % 2 = 0 then
      accept (decide (maskOk w1)) true (.vfma (bitAt w1 31) (bitAt w1 30) (decMask w1) (field w1 8 5) (field w1 13 5) (field w1 18 5))
    else
      accept (decide (w2 / 2 ^ 15 % 131072 = 0 ∧ w2 % 32 = 0 ∧ maskOk w1 ∧ tokensOk w2)) true (.vfmaLong (bitAt w1 31) (bitAt w1 30) (decMask w1) (field w1 8 5) (field w1 13 5) (field w1 18 5) (decTokens w2))
  | 1 =>
    if w1 % 2 = 0 then
      accept (decide (maskOk w1)) true (.vfms (bitAt w1 31) (bitAt w1 30) (decMask w1) (field w1 8 5) (field w1 13 5) (field w1 18 5))
    else
      accept (decide (w2 / 2 ^ 15 % 131072 = 0 ∧ w2 % 32 = 0 ∧ maskOk w1 ∧ tokensOk w2)) true (.vfmsLong (bitAt w1 31) (bitAt w1 30) (decMask w1) (field w1 8 5) (field w1 13 5) (field w1 18 5) (decTokens w2))
  | 2 =>
    if w1 % 2 = 0 then
      accept (decide (maskOk w1)) true (.vnfma (bitAt w1 31) (bitAt w1 30) (decMask w1) (field w1 8 5) (field w1 13 5) (field w1 18 5))
    else
      accept (decide (w2 / 2 ^ 15 % 131072 = 0 ∧ w2 % 32 = 0 ∧ maskOk w1 ∧ tokensOk w2)) true (.vnfmaLong (bitAt w1 31) (bitAt w1 30) (decMask w1) (field w1 8 5) (field w1 13 5) (field w1 18 5) (decTokens w2))
  | 3 =>
    if w1 % 2 = 0 then
      accept (decide (maskOk w1)) true (.vdiv (bitAt w1 31) (bitAt w1 30) (decMask w1) (field w1 8 5) (field w1 13 5) (field w1 18 5))
    else
      accept (decide (w2 / 2 ^ 15 % 131072 = 0 ∧ w2 % 32 = 0 ∧ maskOk w1 ∧ tokensOk w2)) true (.vdivLong (bitAt w1 31) (bitAt w1 30) (decMask w1) (field w1 8 5) (field w1 13 5) (field w1 18 5) (decTokens w2))
  | 4 =>
    if w1 % 2 = 0 then
      accept (decide (maskOk w1)) true (.vrem (bitAt w1 31) (bitAt w1 30) (decMask w1) (field w1 8 5) (field w1 13 5) (field w1 18 5))
    else
      accept (decide (w2 / 2 ^ 15 % 131072 = 0 ∧ w2 % 32 = 0 ∧ maskOk w1 ∧ tokensOk w2)) true (.vremLong (bitAt w1 31) (bitAt w1 30) (decMask w1) (field w1 8 5) (field w1 13 5) (field w1 18 5) (decTokens w2))
  | 5 =>
    if w1 % 2 = 0 then
      accept (decide (w1 / 2 ^ 18 % 32 = 0 ∧ maskOk w1)) true (.vsqrt (bitAt w1 31) (bitAt w1 30) (decMask w1) (field w1 8 5) (field w1 13 5))
    else
      accept (decide (w1 / 2 ^ 18 % 32 = 0 ∧ w2 / 2 ^ 15 % 131072 = 0 ∧ w2 % 32 = 0 ∧ maskOk w1 ∧ tokensOk w2)) true (.vsqrtLong (bitAt w1 31) (bitAt w1 30) (decMask w1) (field w1 8 5) (field w1 13 5) (decTokens w2))
  | 6 =>
    if w1 % 2 = 0 then
      accept (decide (maskOk w1)) true (.vscale (bitAt w1 31) (bitAt w1 30) (decMask w1) (field w1 8 5) (field w1 13 5) (field w1 18 5))
    else
      accept (decide (w2 / 2 ^ 15 % 131072 = 0 ∧ w2 % 32 = 0 ∧ maskOk w1 ∧ tokensOk w2)) true (.vscaleLong (bitAt w1 31) (bitAt w1 30) (decMask w1) (field w1 8 5) (field w1 13 5) (field w1 18 5) (decTokens w2))
  | _ => .error .minorUnassigned

/-- Major 0x24 (R33): VAND, VAND_LONG, VOR, VOR_LONG, VXOR, VXOR_LONG, VNOT, VNOT_LONG, VCLZ, VCLZ_LONG, VPOPC, VPOPC_LONG, VADC, VADC_LONG, VSBC, VSBC_LONG. -/
def decMajor24 (w1 w2 : Nat) : Except Reject Instr :=
  match w1 / 2 ^ 23 % 8 with
  | 0 =>
    if w1 % 2 = 0 then
      accept (decide (maskOk w1)) true (.vand (bitAt w1 31) (bitAt w1 30) (decMask w1) (field w1 8 5) (field w1 13 5) (field w1 18 5))
    else
      accept (decide (w2 / 2 ^ 15 % 131072 = 0 ∧ w2 % 32 = 0 ∧ maskOk w1 ∧ tokensOk w2)) true (.vandLong (bitAt w1 31) (bitAt w1 30) (decMask w1) (field w1 8 5) (field w1 13 5) (field w1 18 5) (decTokens w2))
  | 1 =>
    if w1 % 2 = 0 then
      accept (decide (maskOk w1)) true (.vor (bitAt w1 31) (bitAt w1 30) (decMask w1) (field w1 8 5) (field w1 13 5) (field w1 18 5))
    else
      accept (decide (w2 / 2 ^ 15 % 131072 = 0 ∧ w2 % 32 = 0 ∧ maskOk w1 ∧ tokensOk w2)) true (.vorLong (bitAt w1 31) (bitAt w1 30) (decMask w1) (field w1 8 5) (field w1 13 5) (field w1 18 5) (decTokens w2))
  | 2 =>
    if w1 % 2 = 0 then
      accept (decide (maskOk w1)) true (.vxor (bitAt w1 31) (bitAt w1 30) (decMask w1) (field w1 8 5) (field w1 13 5) (field w1 18 5))
    else
      accept (decide (w2 / 2 ^ 15 % 131072 = 0 ∧ w2 % 32 = 0 ∧ maskOk w1 ∧ tokensOk w2)) true (.vxorLong (bitAt w1 31) (bitAt w1 30) (decMask w1) (field w1 8 5) (field w1 13 5) (field w1 18 5) (decTokens w2))
  | 3 =>
    if w1 % 2 = 0 then
      accept (decide (w1 / 2 ^ 18 % 32 = 0 ∧ maskOk w1)) true (.vnot (bitAt w1 31) (bitAt w1 30) (decMask w1) (field w1 8 5) (field w1 13 5))
    else
      accept (decide (w1 / 2 ^ 18 % 32 = 0 ∧ w2 / 2 ^ 15 % 131072 = 0 ∧ w2 % 32 = 0 ∧ maskOk w1 ∧ tokensOk w2)) true (.vnotLong (bitAt w1 31) (bitAt w1 30) (decMask w1) (field w1 8 5) (field w1 13 5) (decTokens w2))
  | 4 =>
    if w1 % 2 = 0 then
      accept (decide (w1 / 2 ^ 18 % 32 = 0 ∧ maskOk w1)) true (.vclz (bitAt w1 31) (bitAt w1 30) (decMask w1) (field w1 8 5) (field w1 13 5))
    else
      accept (decide (w1 / 2 ^ 18 % 32 = 0 ∧ w2 / 2 ^ 15 % 131072 = 0 ∧ w2 % 32 = 0 ∧ maskOk w1 ∧ tokensOk w2)) true (.vclzLong (bitAt w1 31) (bitAt w1 30) (decMask w1) (field w1 8 5) (field w1 13 5) (decTokens w2))
  | 5 =>
    if w1 % 2 = 0 then
      accept (decide (w1 / 2 ^ 18 % 32 = 0 ∧ maskOk w1)) true (.vpopc (bitAt w1 31) (bitAt w1 30) (decMask w1) (field w1 8 5) (field w1 13 5))
    else
      accept (decide (w1 / 2 ^ 18 % 32 = 0 ∧ w2 / 2 ^ 15 % 131072 = 0 ∧ w2 % 32 = 0 ∧ maskOk w1 ∧ tokensOk w2)) true (.vpopcLong (bitAt w1 31) (bitAt w1 30) (decMask w1) (field w1 8 5) (field w1 13 5) (decTokens w2))
  | 6 =>
    if w1 % 2 = 0 then
      accept (decide (w1 / 2 ^ 29 % 2 = 1)) true (.vadc (bitAt w1 31) (bitAt w1 30) (field w1 26 3) (field w1 8 5) (field w1 13 5) (field w1 18 5))
    else
      accept (decide (w1 / 2 ^ 29 % 2 = 1 ∧ w2 / 2 ^ 15 % 131072 = 0 ∧ w2 % 32 = 0 ∧ tokensOk w2)) true (.vadcLong (bitAt w1 31) (bitAt w1 30) (field w1 26 3) (field w1 8 5) (field w1 13 5) (field w1 18 5) (decTokens w2))
  | 7 =>
    if w1 % 2 = 0 then
      accept (decide (w1 / 2 ^ 29 % 2 = 1)) true (.vsbc (bitAt w1 31) (bitAt w1 30) (field w1 26 3) (field w1 8 5) (field w1 13 5) (field w1 18 5))
    else
      accept (decide (w1 / 2 ^ 29 % 2 = 1 ∧ w2 / 2 ^ 15 % 131072 = 0 ∧ w2 % 32 = 0 ∧ tokensOk w2)) true (.vsbcLong (bitAt w1 31) (bitAt w1 30) (field w1 26 3) (field w1 8 5) (field w1 13 5) (field w1 18 5) (decTokens w2))
  | _ => .error .minorUnassigned

/-- Major 0x25 (R33): VSHL, VSHL_LONG, VSHR, VSHR_LONG, VSHRA, VSHRA_LONG, VROL, VROL_LONG, VFSHL, VFSHL_LONG, VFSHR, VFSHR_LONG. -/
def decMajor25 (w1 w2 : Nat) : Except Reject Instr :=
  match w1 / 2 ^ 23 % 8 with
  | 0 =>
    if w1 % 2 = 0 then
      accept (decide (maskOk w1)) true (.vshl (bitAt w1 31) (bitAt w1 30) (decMask w1) (field w1 8 5) (field w1 13 5) (field w1 18 5))
    else
      accept (decide (w2 / 2 ^ 15 % 131072 = 0 ∧ w2 % 32 = 0 ∧ maskOk w1 ∧ tokensOk w2)) true (.vshlLong (bitAt w1 31) (bitAt w1 30) (decMask w1) (field w1 8 5) (field w1 13 5) (field w1 18 5) (decTokens w2))
  | 1 =>
    if w1 % 2 = 0 then
      accept (decide (maskOk w1)) true (.vshr (bitAt w1 31) (bitAt w1 30) (decMask w1) (field w1 8 5) (field w1 13 5) (field w1 18 5))
    else
      accept (decide (w2 / 2 ^ 15 % 131072 = 0 ∧ w2 % 32 = 0 ∧ maskOk w1 ∧ tokensOk w2)) true (.vshrLong (bitAt w1 31) (bitAt w1 30) (decMask w1) (field w1 8 5) (field w1 13 5) (field w1 18 5) (decTokens w2))
  | 2 =>
    if w1 % 2 = 0 then
      accept (decide (maskOk w1)) true (.vshra (bitAt w1 31) (bitAt w1 30) (decMask w1) (field w1 8 5) (field w1 13 5) (field w1 18 5))
    else
      accept (decide (w2 / 2 ^ 15 % 131072 = 0 ∧ w2 % 32 = 0 ∧ maskOk w1 ∧ tokensOk w2)) true (.vshraLong (bitAt w1 31) (bitAt w1 30) (decMask w1) (field w1 8 5) (field w1 13 5) (field w1 18 5) (decTokens w2))
  | 3 =>
    if w1 % 2 = 0 then
      accept (decide (maskOk w1)) true (.vrol (bitAt w1 31) (bitAt w1 30) (decMask w1) (field w1 8 5) (field w1 13 5) (field w1 18 5))
    else
      accept (decide (w2 / 2 ^ 15 % 131072 = 0 ∧ w2 % 32 = 0 ∧ maskOk w1 ∧ tokensOk w2)) true (.vrolLong (bitAt w1 31) (bitAt w1 30) (decMask w1) (field w1 8 5) (field w1 13 5) (field w1 18 5) (decTokens w2))
  | 4 =>
    if w1 % 2 = 0 then
      accept (decide (maskOk w1)) true (.vfshl (bitAt w1 31) (bitAt w1 30) (decMask w1) (field w1 8 5) (field w1 13 5) (field w1 18 5))
    else
      accept (decide (w2 / 2 ^ 15 % 131072 = 0 ∧ w2 % 32 = 0 ∧ maskOk w1 ∧ tokensOk w2)) true (.vfshlLong (bitAt w1 31) (bitAt w1 30) (decMask w1) (field w1 8 5) (field w1 13 5) (field w1 18 5) (decTokens w2))
  | 5 =>
    if w1 % 2 = 0 then
      accept (decide (maskOk w1)) true (.vfshr (bitAt w1 31) (bitAt w1 30) (decMask w1) (field w1 8 5) (field w1 13 5) (field w1 18 5))
    else
      accept (decide (w2 / 2 ^ 15 % 131072 = 0 ∧ w2 % 32 = 0 ∧ maskOk w1 ∧ tokensOk w2)) true (.vfshrLong (bitAt w1 31) (bitAt w1 30) (decMask w1) (field w1 8 5) (field w1 13 5) (field w1 18 5) (decTokens w2))
  | _ => .error .minorUnassigned

/-- Major 0x26 (R33): VCMP, VCMP_LONG. -/
def decMajor26 (w1 w2 : Nat) : Except Reject Instr :=
  if w1 / 2 ^ 23 % 8 = 7 then .error .minorUnassigned else
  if w1 % 2 = 0 then
    accept (decide (w1 / 2 ^ 11 % 4 = 0 ∧ maskOk w1)) (decide ((field w1 23 3).toNat ≠ 7)) (.vcmp (bitAt w1 31) (bitAt w1 30) (decMask w1) (field w1 23 3) (field w1 8 3) (field w1 13 5) (field w1 18 5))
  else
    accept (decide (w1 / 2 ^ 11 % 4 = 0 ∧ w2 / 2 ^ 15 % 131072 = 0 ∧ w2 % 32 = 0 ∧ maskOk w1 ∧ tokensOk w2)) (decide ((field w1 23 3).toNat ≠ 7)) (.vcmpLong (bitAt w1 31) (bitAt w1 30) (decMask w1) (field w1 23 3) (field w1 8 3) (field w1 13 5) (field w1 18 5) (decTokens w2))

/-- Major 0x27 (R33): VCVT, VCVT_LONG. -/
def decMajor27 (w1 w2 : Nat) : Except Reject Instr :=
  match w1 / 2 ^ 23 % 8 with
  | 0 =>
    if w1 % 2 = 0 then
      accept (decide (w1 / 2 ^ 22 % 2 = 0 ∧ maskOk w1)) true (.vcvt (bitAt w1 31) (bitAt w1 30) (decMask w1) (field w1 8 5) (field w1 13 5) (Tag.ofCode (w1 / 2 ^ 18 % 16)))
    else
      accept (decide (w1 / 2 ^ 22 % 2 = 0 ∧ w2 / 2 ^ 15 % 131072 = 0 ∧ w2 % 32 = 0 ∧ maskOk w1 ∧ tokensOk w2)) true (.vcvtLong (bitAt w1 31) (bitAt w1 30) (decMask w1) (field w1 8 5) (field w1 13 5) (Tag.ofCode (w1 / 2 ^ 18 % 16)) (decTokens w2))
  | _ => .error .minorUnassigned

/-- Major 0x28 (R33): VRCP, VRCP_LONG, VRSQRT, VRSQRT_LONG, VEXP2, VEXP2_LONG, VLOG2, VLOG2_LONG, VEXP, VEXP_LONG, VLOG, VLOG_LONG, VTANH, VTANH_LONG. -/
def decMajor28 (w1 w2 : Nat) : Except Reject Instr :=
  match w1 / 2 ^ 23 % 8 with
  | 0 =>
    if w1 % 2 = 0 then
      accept (decide (w1 / 2 ^ 18 % 32 = 0 ∧ maskOk w1)) true (.vrcp (bitAt w1 31) (bitAt w1 30) (decMask w1) (field w1 8 5) (field w1 13 5))
    else
      accept (decide (w1 / 2 ^ 18 % 32 = 0 ∧ w2 / 2 ^ 15 % 131072 = 0 ∧ w2 % 32 = 0 ∧ maskOk w1 ∧ tokensOk w2)) true (.vrcpLong (bitAt w1 31) (bitAt w1 30) (decMask w1) (field w1 8 5) (field w1 13 5) (decTokens w2))
  | 1 =>
    if w1 % 2 = 0 then
      accept (decide (w1 / 2 ^ 18 % 32 = 0 ∧ maskOk w1)) true (.vrsqrt (bitAt w1 31) (bitAt w1 30) (decMask w1) (field w1 8 5) (field w1 13 5))
    else
      accept (decide (w1 / 2 ^ 18 % 32 = 0 ∧ w2 / 2 ^ 15 % 131072 = 0 ∧ w2 % 32 = 0 ∧ maskOk w1 ∧ tokensOk w2)) true (.vrsqrtLong (bitAt w1 31) (bitAt w1 30) (decMask w1) (field w1 8 5) (field w1 13 5) (decTokens w2))
  | 2 =>
    if w1 % 2 = 0 then
      accept (decide (w1 / 2 ^ 18 % 32 = 0 ∧ maskOk w1)) true (.vexp2 (bitAt w1 31) (bitAt w1 30) (decMask w1) (field w1 8 5) (field w1 13 5))
    else
      accept (decide (w1 / 2 ^ 18 % 32 = 0 ∧ w2 / 2 ^ 15 % 131072 = 0 ∧ w2 % 32 = 0 ∧ maskOk w1 ∧ tokensOk w2)) true (.vexp2Long (bitAt w1 31) (bitAt w1 30) (decMask w1) (field w1 8 5) (field w1 13 5) (decTokens w2))
  | 3 =>
    if w1 % 2 = 0 then
      accept (decide (w1 / 2 ^ 18 % 32 = 0 ∧ maskOk w1)) true (.vlog2 (bitAt w1 31) (bitAt w1 30) (decMask w1) (field w1 8 5) (field w1 13 5))
    else
      accept (decide (w1 / 2 ^ 18 % 32 = 0 ∧ w2 / 2 ^ 15 % 131072 = 0 ∧ w2 % 32 = 0 ∧ maskOk w1 ∧ tokensOk w2)) true (.vlog2Long (bitAt w1 31) (bitAt w1 30) (decMask w1) (field w1 8 5) (field w1 13 5) (decTokens w2))
  | 4 =>
    if w1 % 2 = 0 then
      accept (decide (w1 / 2 ^ 18 % 32 = 0 ∧ maskOk w1)) true (.vexp (bitAt w1 31) (bitAt w1 30) (decMask w1) (field w1 8 5) (field w1 13 5))
    else
      accept (decide (w1 / 2 ^ 18 % 32 = 0 ∧ w2 / 2 ^ 15 % 131072 = 0 ∧ w2 % 32 = 0 ∧ maskOk w1 ∧ tokensOk w2)) true (.vexpLong (bitAt w1 31) (bitAt w1 30) (decMask w1) (field w1 8 5) (field w1 13 5) (decTokens w2))
  | 5 =>
    if w1 % 2 = 0 then
      accept (decide (w1 / 2 ^ 18 % 32 = 0 ∧ maskOk w1)) true (.vlog (bitAt w1 31) (bitAt w1 30) (decMask w1) (field w1 8 5) (field w1 13 5))
    else
      accept (decide (w1 / 2 ^ 18 % 32 = 0 ∧ w2 / 2 ^ 15 % 131072 = 0 ∧ w2 % 32 = 0 ∧ maskOk w1 ∧ tokensOk w2)) true (.vlogLong (bitAt w1 31) (bitAt w1 30) (decMask w1) (field w1 8 5) (field w1 13 5) (decTokens w2))
  | 6 =>
    if w1 % 2 = 0 then
      accept (decide (w1 / 2 ^ 18 % 32 = 0 ∧ maskOk w1)) true (.vtanh (bitAt w1 31) (bitAt w1 30) (decMask w1) (field w1 8 5) (field w1 13 5))
    else
      accept (decide (w1 / 2 ^ 18 % 32 = 0 ∧ w2 / 2 ^ 15 % 131072 = 0 ∧ w2 % 32 = 0 ∧ maskOk w1 ∧ tokensOk w2)) true (.vtanhLong (bitAt w1 31) (bitAt w1 30) (decMask w1) (field w1 8 5) (field w1 13 5) (decTokens w2))
  | _ => .error .minorUnassigned

/-- Major 0x29 (R33): MAND, MAND_LONG, MOR, MOR_LONG, MXOR, MXOR_LONG, MNOT, MNOT_LONG, MCNT, MCNT_LONG, MFIRST, MFIRST_LONG, MSHL, MSHL_LONG. -/
def decMajor29 (w1 w2 : Nat) : Except Reject Instr :=
  match w1 / 2 ^ 23 % 8 with
  | 0 =>
    if w1 % 2 = 0 then
      accept (decide (w1 / 2 ^ 26 % 16 = 0 ∧ w1 / 2 ^ 11 % 4 = 0 ∧ w1 / 2 ^ 16 % 4 = 0 ∧ w1 / 2 ^ 21 % 4 = 0)) true (.mand (bitAt w1 31) (bitAt w1 30) (field w1 8 3) (field w1 13 3) (field w1 18 3))
    else
      accept (decide (w1 / 2 ^ 26 % 16 = 0 ∧ w1 / 2 ^ 11 % 4 = 0 ∧ w1 / 2 ^ 16 % 4 = 0 ∧ w1 / 2 ^ 21 % 4 = 0 ∧ w2 / 2 ^ 15 % 131072 = 0 ∧ w2 % 32 = 0 ∧ tokensOk w2)) true (.mandLong (bitAt w1 31) (bitAt w1 30) (field w1 8 3) (field w1 13 3) (field w1 18 3) (decTokens w2))
  | 1 =>
    if w1 % 2 = 0 then
      accept (decide (w1 / 2 ^ 26 % 16 = 0 ∧ w1 / 2 ^ 11 % 4 = 0 ∧ w1 / 2 ^ 16 % 4 = 0 ∧ w1 / 2 ^ 21 % 4 = 0)) true (.mor (bitAt w1 31) (bitAt w1 30) (field w1 8 3) (field w1 13 3) (field w1 18 3))
    else
      accept (decide (w1 / 2 ^ 26 % 16 = 0 ∧ w1 / 2 ^ 11 % 4 = 0 ∧ w1 / 2 ^ 16 % 4 = 0 ∧ w1 / 2 ^ 21 % 4 = 0 ∧ w2 / 2 ^ 15 % 131072 = 0 ∧ w2 % 32 = 0 ∧ tokensOk w2)) true (.morLong (bitAt w1 31) (bitAt w1 30) (field w1 8 3) (field w1 13 3) (field w1 18 3) (decTokens w2))
  | 2 =>
    if w1 % 2 = 0 then
      accept (decide (w1 / 2 ^ 26 % 16 = 0 ∧ w1 / 2 ^ 11 % 4 = 0 ∧ w1 / 2 ^ 16 % 4 = 0 ∧ w1 / 2 ^ 21 % 4 = 0)) true (.mxor (bitAt w1 31) (bitAt w1 30) (field w1 8 3) (field w1 13 3) (field w1 18 3))
    else
      accept (decide (w1 / 2 ^ 26 % 16 = 0 ∧ w1 / 2 ^ 11 % 4 = 0 ∧ w1 / 2 ^ 16 % 4 = 0 ∧ w1 / 2 ^ 21 % 4 = 0 ∧ w2 / 2 ^ 15 % 131072 = 0 ∧ w2 % 32 = 0 ∧ tokensOk w2)) true (.mxorLong (bitAt w1 31) (bitAt w1 30) (field w1 8 3) (field w1 13 3) (field w1 18 3) (decTokens w2))
  | 3 =>
    if w1 % 2 = 0 then
      accept (decide (w1 / 2 ^ 26 % 16 = 0 ∧ w1 / 2 ^ 11 % 4 = 0 ∧ w1 / 2 ^ 16 % 4 = 0 ∧ w1 / 2 ^ 18 % 32 = 0)) true (.mnot (bitAt w1 31) (bitAt w1 30) (field w1 8 3) (field w1 13 3))
    else
      accept (decide (w1 / 2 ^ 26 % 16 = 0 ∧ w1 / 2 ^ 11 % 4 = 0 ∧ w1 / 2 ^ 16 % 4 = 0 ∧ w1 / 2 ^ 18 % 32 = 0 ∧ w2 / 2 ^ 15 % 131072 = 0 ∧ w2 % 32 = 0 ∧ tokensOk w2)) true (.mnotLong (bitAt w1 31) (bitAt w1 30) (field w1 8 3) (field w1 13 3) (decTokens w2))
  | 4 =>
    if w1 % 2 = 0 then
      accept (decide (w1 / 2 ^ 26 % 16 = 0 ∧ w1 / 2 ^ 16 % 4 = 0 ∧ w1 / 2 ^ 18 % 32 = 0)) true (.mcnt (bitAt w1 31) (bitAt w1 30) (field w1 8 5) (field w1 13 3))
    else
      accept (decide (w1 / 2 ^ 26 % 16 = 0 ∧ w1 / 2 ^ 16 % 4 = 0 ∧ w1 / 2 ^ 18 % 32 = 0 ∧ w2 / 2 ^ 15 % 131072 = 0 ∧ w2 % 32 = 0 ∧ tokensOk w2)) true (.mcntLong (bitAt w1 31) (bitAt w1 30) (field w1 8 5) (field w1 13 3) (decTokens w2))
  | 5 =>
    if w1 % 2 = 0 then
      accept (decide (w1 / 2 ^ 26 % 16 = 0 ∧ w1 / 2 ^ 16 % 4 = 0 ∧ w1 / 2 ^ 18 % 32 = 0)) true (.mfirst (bitAt w1 31) (bitAt w1 30) (field w1 8 5) (field w1 13 3))
    else
      accept (decide (w1 / 2 ^ 26 % 16 = 0 ∧ w1 / 2 ^ 16 % 4 = 0 ∧ w1 / 2 ^ 18 % 32 = 0 ∧ w2 / 2 ^ 15 % 131072 = 0 ∧ w2 % 32 = 0 ∧ tokensOk w2)) true (.mfirstLong (bitAt w1 31) (bitAt w1 30) (field w1 8 5) (field w1 13 3) (decTokens w2))
  | 6 =>
    if w1 % 2 = 0 then
      accept (decide (w1 / 2 ^ 26 % 16 = 0 ∧ w1 / 2 ^ 11 % 4 = 0 ∧ w1 / 2 ^ 16 % 4 = 0)) true (.mshl (bitAt w1 31) (bitAt w1 30) (field w1 8 3) (field w1 13 3) (field w1 18 5))
    else
      accept (decide (w1 / 2 ^ 26 % 16 = 0 ∧ w1 / 2 ^ 11 % 4 = 0 ∧ w1 / 2 ^ 16 % 4 = 0 ∧ w2 / 2 ^ 15 % 131072 = 0 ∧ w2 % 32 = 0 ∧ tokensOk w2)) true (.mshlLong (bitAt w1 31) (bitAt w1 30) (field w1 8 3) (field w1 13 3) (field w1 18 5) (decTokens w2))
  | _ => .error .minorUnassigned

/-- Major 0x2A (R33): VRED, VRED_LONG, VSCAN, VSCAN_LONG, VSCAN_SEG, VSCAN_SEG_LONG, VPREFIXPOP, VPREFIXPOP_LONG, VCONFLICT, VCONFLICT_LONG, VCOMPRESS, VCOMPRESS_LONG, VEXPAND, VEXPAND_LONG. -/
def decMajor2A (w1 w2 : Nat) : Except Reject Instr :=
  match w1 / 2 ^ 23 % 8 with
  | 0 =>
    if w1 % 2 = 0 then
      accept (decide (w1 / 2 ^ 31 % 2 = 0 ∧ maskOk w1)) (decide ((field w1 18 5).toNat < 6)) (.vred (bitAt w1 30) (decMask w1) (field w1 8 5) (field w1 13 5) (field w1 18 5))
    else
      accept (decide (w1 / 2 ^ 31 % 2 = 0 ∧ w2 / 2 ^ 15 % 131072 = 0 ∧ w2 % 32 = 0 ∧ maskOk w1 ∧ tokensOk w2)) (decide ((field w1 18 5).toNat < 6)) (.vredLong (bitAt w1 30) (decMask w1) (field w1 8 5) (field w1 13 5) (field w1 18 5) (decTokens w2))
  | 1 =>
    if w1 / 2 ^ 31 % 2 = 0 then
      if w1 % 2 = 0 then
        accept (decide (w1 / 2 ^ 31 % 2 = 0 ∧ maskOk w1)) (decide ((field w1 18 5).toNat < 6)) (.vscan (bitAt w1 30) (decMask w1) (field w1 8 5) (field w1 13 5) (field w1 18 5))
      else
        accept (decide (w1 / 2 ^ 31 % 2 = 0 ∧ w2 / 2 ^ 15 % 131072 = 0 ∧ w2 % 32 = 0 ∧ maskOk w1 ∧ tokensOk w2)) (decide ((field w1 18 5).toNat < 6)) (.vscanLong (bitAt w1 30) (decMask w1) (field w1 8 5) (field w1 13 5) (field w1 18 5) (decTokens w2))
    else
      if w1 % 2 = 0 then
        accept (decide (w1 / 2 ^ 31 % 2 = 1 ∧ w1 / 2 ^ 29 % 2 = 1)) (decide ((field w1 18 5).toNat < 6)) (.vscanSeg (bitAt w1 30) (field w1 26 3) (field w1 8 5) (field w1 13 5) (field w1 18 5))
      else
        accept (decide (w1 / 2 ^ 31 % 2 = 1 ∧ w1 / 2 ^ 29 % 2 = 1 ∧ w2 / 2 ^ 15 % 131072 = 0 ∧ w2 % 32 = 0 ∧ tokensOk w2)) (decide ((field w1 18 5).toNat < 6)) (.vscanSegLong (bitAt w1 30) (field w1 26 3) (field w1 8 5) (field w1 13 5) (field w1 18 5) (decTokens w2))
  | 2 =>
    if w1 % 2 = 0 then
      accept (decide (w1 / 2 ^ 31 % 2 = 0 ∧ w1 / 2 ^ 16 % 4 = 0 ∧ w1 / 2 ^ 18 % 32 = 0 ∧ maskOk w1)) true (.vprefixpop (bitAt w1 30) (decMask w1) (field w1 8 5) (field w1 13 3))
    else
      accept (decide (w1 / 2 ^ 31 % 2 = 0 ∧ w1 / 2 ^ 16 % 4 = 0 ∧ w1 / 2 ^ 18 % 32 = 0 ∧ w2 / 2 ^ 15 % 131072 = 0 ∧ w2 % 32 = 0 ∧ maskOk w1 ∧ tokensOk w2)) true (.vprefixpopLong (bitAt w1 30) (decMask w1) (field w1 8 5) (field w1 13 3) (decTokens w2))
  | 3 =>
    if w1 % 2 = 0 then
      accept (decide (w1 / 2 ^ 31 % 2 = 0 ∧ w1 / 2 ^ 18 % 32 = 0 ∧ maskOk w1)) true (.vconflict (bitAt w1 30) (decMask w1) (field w1 8 5) (field w1 13 5))
    else
      accept (decide (w1 / 2 ^ 31 % 2 = 0 ∧ w1 / 2 ^ 18 % 32 = 0 ∧ w2 / 2 ^ 15 % 131072 = 0 ∧ w2 % 32 = 0 ∧ maskOk w1 ∧ tokensOk w2)) true (.vconflictLong (bitAt w1 30) (decMask w1) (field w1 8 5) (field w1 13 5) (decTokens w2))
  | 4 =>
    if w1 % 2 = 0 then
      accept (decide (w1 / 2 ^ 31 % 2 = 0 ∧ w1 / 2 ^ 18 % 32 = 0 ∧ maskOk w1)) true (.vcompress (bitAt w1 30) (decMask w1) (field w1 8 5) (field w1 13 5))
    else
      accept (decide (w1 / 2 ^ 31 % 2 = 0 ∧ w1 / 2 ^ 18 % 32 = 0 ∧ w2 / 2 ^ 15 % 131072 = 0 ∧ w2 % 32 = 0 ∧ maskOk w1 ∧ tokensOk w2)) true (.vcompressLong (bitAt w1 30) (decMask w1) (field w1 8 5) (field w1 13 5) (decTokens w2))
  | 5 =>
    if w1 % 2 = 0 then
      accept (decide (w1 / 2 ^ 31 % 2 = 0 ∧ w1 / 2 ^ 18 % 32 = 0 ∧ maskOk w1)) true (.vexpand (bitAt w1 30) (decMask w1) (field w1 8 5) (field w1 13 5))
    else
      accept (decide (w1 / 2 ^ 31 % 2 = 0 ∧ w1 / 2 ^ 18 % 32 = 0 ∧ w2 / 2 ^ 15 % 131072 = 0 ∧ w2 % 32 = 0 ∧ maskOk w1 ∧ tokensOk w2)) true (.vexpandLong (bitAt w1 30) (decMask w1) (field w1 8 5) (field w1 13 5) (decTokens w2))
  | _ => .error .minorUnassigned

/-- Major 0x2B (R33): VPERM, VPERM_LONG, VSLIDEUP, VSLIDEUP_LONG, VSLIDEDN, VSLIDEDN_LONG, VZIP, VZIP_LONG, VUNZIP, VUNZIP_LONG. -/
def decMajor2B (w1 w2 : Nat) : Except Reject Instr :=
  match w1 / 2 ^ 23 % 8 with
  | 0 =>
    if w1 % 2 = 0 then
      accept (decide (w1 / 2 ^ 31 % 2 = 0 ∧ maskOk w1)) true (.vperm (bitAt w1 30) (decMask w1) (field w1 8 5) (field w1 13 5) (field w1 18 5))
    else
      accept (decide (w1 / 2 ^ 31 % 2 = 0 ∧ w2 / 2 ^ 15 % 131072 = 0 ∧ w2 % 32 = 0 ∧ maskOk w1 ∧ tokensOk w2)) true (.vpermLong (bitAt w1 30) (decMask w1) (field w1 8 5) (field w1 13 5) (field w1 18 5) (decTokens w2))
  | 1 =>
    if w1 % 2 = 0 then
      accept (decide (w1 / 2 ^ 31 % 2 = 0 ∧ maskOk w1)) true (.vslideup (bitAt w1 30) (decMask w1) (field w1 8 5) (field w1 13 5) (field w1 18 5))
    else
      accept (decide (w1 / 2 ^ 31 % 2 = 0 ∧ w2 / 2 ^ 15 % 131072 = 0 ∧ w2 % 32 = 0 ∧ maskOk w1 ∧ tokensOk w2)) true (.vslideupLong (bitAt w1 30) (decMask w1) (field w1 8 5) (field w1 13 5) (field w1 18 5) (decTokens w2))
  | 2 =>
    if w1 % 2 = 0 then
      accept (decide (w1 / 2 ^ 31 % 2 = 0 ∧ maskOk w1)) true (.vslidedn (bitAt w1 30) (decMask w1) (field w1 8 5) (field w1 13 5) (field w1 18 5))
    else
      accept (decide (w1 / 2 ^ 31 % 2 = 0 ∧ w2 / 2 ^ 15 % 131072 = 0 ∧ w2 % 32 = 0 ∧ maskOk w1 ∧ tokensOk w2)) true (.vslidednLong (bitAt w1 30) (decMask w1) (field w1 8 5) (field w1 13 5) (field w1 18 5) (decTokens w2))
  | 3 =>
    if w1 % 2 = 0 then
      accept (decide (w1 / 2 ^ 31 % 2 = 0 ∧ maskOk w1)) true (.vzip (bitAt w1 30) (decMask w1) (field w1 8 5) (field w1 13 5) (field w1 18 5))
    else
      accept (decide (w1 / 2 ^ 31 % 2 = 0 ∧ w2 / 2 ^ 15 % 131072 = 0 ∧ w2 % 32 = 0 ∧ maskOk w1 ∧ tokensOk w2)) true (.vzipLong (bitAt w1 30) (decMask w1) (field w1 8 5) (field w1 13 5) (field w1 18 5) (decTokens w2))
  | 4 =>
    if w1 % 2 = 0 then
      accept (decide (w1 / 2 ^ 31 % 2 = 0 ∧ maskOk w1)) true (.vunzip (bitAt w1 30) (decMask w1) (field w1 8 5) (field w1 13 5) (field w1 18 5))
    else
      accept (decide (w1 / 2 ^ 31 % 2 = 0 ∧ w2 / 2 ^ 15 % 131072 = 0 ∧ w2 % 32 = 0 ∧ maskOk w1 ∧ tokensOk w2)) true (.vunzipLong (bitAt w1 30) (decMask w1) (field w1 8 5) (field w1 13 5) (field w1 18 5) (decTokens w2))
  | _ => .error .minorUnassigned

/-- Major 0x2C (R33): VTOPK, VTOPK_LONG, VISECT, VISECT_LONG, VUNION, VUNION_LONG, VMRG, VMRG_LONG. -/
def decMajor2C (w1 w2 : Nat) : Except Reject Instr :=
  match w1 / 2 ^ 23 % 8 with
  | 0 =>
    if w1 % 2 = 0 then
      accept (decide (w1 / 2 ^ 31 % 2 = 0 ∧ maskOk w1)) true (.vtopk (bitAt w1 30) (decMask w1) (field w1 8 5) (field w1 13 5) (field w1 18 5))
    else
      accept (decide (w1 / 2 ^ 31 % 2 = 0 ∧ w2 / 2 ^ 15 % 131072 = 0 ∧ w2 % 32 = 0 ∧ maskOk w1 ∧ tokensOk w2)) true (.vtopkLong (bitAt w1 30) (decMask w1) (field w1 8 5) (field w1 13 5) (field w1 18 5) (decTokens w2))
  | 1 =>
    if w1 % 2 = 0 then
      accept (decide (w1 / 2 ^ 31 % 2 = 0 ∧ w1 / 2 ^ 26 % 16 = 0)) true (.visect (bitAt w1 30) (field w1 8 5) (field w1 13 5) (field w1 18 5))
    else
      accept (decide (w1 / 2 ^ 31 % 2 = 0 ∧ w1 / 2 ^ 26 % 16 = 0 ∧ w2 / 2 ^ 15 % 131072 = 0 ∧ w2 % 32 = 0 ∧ tokensOk w2)) true (.visectLong (bitAt w1 30) (field w1 8 5) (field w1 13 5) (field w1 18 5) (decTokens w2))
  | 2 =>
    if w1 % 2 = 0 then
      accept (decide (w1 / 2 ^ 31 % 2 = 0 ∧ w1 / 2 ^ 26 % 16 = 0)) true (.vunion (bitAt w1 30) (field w1 8 5) (field w1 13 5) (field w1 18 5))
    else
      accept (decide (w1 / 2 ^ 31 % 2 = 0 ∧ w1 / 2 ^ 26 % 16 = 0 ∧ w2 / 2 ^ 15 % 131072 = 0 ∧ w2 % 32 = 0 ∧ tokensOk w2)) true (.vunionLong (bitAt w1 30) (field w1 8 5) (field w1 13 5) (field w1 18 5) (decTokens w2))
  | 3 =>
    if w1 % 2 = 0 then
      accept (decide (w1 / 2 ^ 31 % 2 = 0 ∧ w1 / 2 ^ 26 % 16 = 0)) true (.vmrg (bitAt w1 30) (field w1 8 5) (field w1 13 5) (field w1 18 5))
    else
      accept (decide (w1 / 2 ^ 31 % 2 = 0 ∧ w1 / 2 ^ 26 % 16 = 0 ∧ w2 / 2 ^ 15 % 131072 = 0 ∧ w2 % 32 = 0 ∧ tokensOk w2)) true (.vmrgLong (bitAt w1 30) (field w1 8 5) (field w1 13 5) (field w1 18 5) (decTokens w2))
  | _ => .error .minorUnassigned

/-- Major 0x30 (R33): VLD, VLD_LONG, VLDS, VLDS_LONG, VLDX, VLDX_LONG, PFETCH, PFETCH_LONG. -/
def decMajor30 (w1 w2 : Nat) : Except Reject Instr :=
  match w1 / 2 ^ 23 % 8 with
  | 0 =>
    if w1 % 2 = 0 then
      accept (decide (w1 / 2 ^ 31 % 2 = 0 ∧ w1 / 2 ^ 18 % 32 = 0 ∧ maskOk w1)) true (.vld (bitAt w1 30) (decMask w1) (field w1 8 5) (field w1 13 5))
    else
      accept (decide (w1 / 2 ^ 31 % 2 = 0 ∧ w1 / 2 ^ 18 % 32 = 0 ∧ w2 / 2 ^ 20 % 4096 = 0 ∧ maskOk w1 ∧ tokensOk w2 ∧ teOk w2)) true (.vldLong (bitAt w1 30) (decMask w1) (field w1 8 5) (field w1 13 5) (decTokens w2) (field w2 16 4) (bitAt w2 15) (decTe w2))
  | 1 =>
    if w1 % 2 = 0 then
      accept (decide (w1 / 2 ^ 31 % 2 = 0 ∧ maskOk w1)) true (.vlds (bitAt w1 30) (decMask w1) (field w1 8 5) (field w1 13 5) (field w1 18 5))
    else
      accept (decide (w1 / 2 ^ 31 % 2 = 0 ∧ w2 / 2 ^ 20 % 4096 = 0 ∧ maskOk w1 ∧ tokensOk w2 ∧ teOk w2)) true (.vldsLong (bitAt w1 30) (decMask w1) (field w1 8 5) (field w1 13 5) (field w1 18 5) (decTokens w2) (field w2 16 4) (bitAt w2 15) (decTe w2))
  | 2 =>
    if w1 % 2 = 0 then
      accept (decide (w1 / 2 ^ 31 % 2 = 0 ∧ maskOk w1)) true (.vldx (bitAt w1 30) (decMask w1) (field w1 8 5) (field w1 13 5) (field w1 18 5))
    else
      accept (decide (w1 / 2 ^ 31 % 2 = 0 ∧ w2 / 2 ^ 20 % 4096 = 0 ∧ maskOk w1 ∧ tokensOk w2 ∧ teOk w2)) true (.vldxLong (bitAt w1 30) (decMask w1) (field w1 8 5) (field w1 13 5) (field w1 18 5) (decTokens w2) (field w2 16 4) (bitAt w2 15) (decTe w2))
  | 3 =>
    if w1 % 2 = 0 then
      accept (decide (w1 / 2 ^ 31 % 2 = 0 ∧ w1 / 2 ^ 26 % 16 = 0 ∧ w1 / 2 ^ 8 % 32 = 0)) true (.pfetch (bitAt w1 30) (field w1 13 5) (field w1 18 5))
    else
      accept (decide (w1 / 2 ^ 31 % 2 = 0 ∧ w1 / 2 ^ 26 % 16 = 0 ∧ w1 / 2 ^ 8 % 32 = 0 ∧ w2 / 2 ^ 15 % 131072 = 0 ∧ w2 % 32 = 0 ∧ tokensOk w2)) true (.pfetchLong (bitAt w1 30) (field w1 13 5) (field w1 18 5) (decTokens w2))
  | _ => .error .minorUnassigned

/-- Major 0x31 (R33): VST, VST_LONG, VSTS, VSTS_LONG, VSTX, VSTX_LONG, VSTXA_ADD, VSTXA_ADD_LONG, VSTB, VSTB_LONG, VSTXA_MIN, VSTXA_MIN_LONG, VSTXA_MAX, VSTXA_MAX_LONG. -/
noncomputable def decMajor31 (w1 w2 : Nat) : Except Reject Instr :=
  match w1 / 2 ^ 23 % 8 with
  | 0 =>
    if w1 % 2 = 0 then
      accept (decide (w1 / 2 ^ 31 % 2 = 0 ∧ w1 / 2 ^ 18 % 32 = 0 ∧ maskOk w1)) true (.vst (bitAt w1 30) (decMask w1) (field w1 8 5) (field w1 13 5))
    else
      accept (decide (w1 / 2 ^ 31 % 2 = 0 ∧ w1 / 2 ^ 18 % 32 = 0 ∧ w2 / 2 ^ 15 % 131072 = 0 ∧ w2 % 32 = 0 ∧ maskOk w1 ∧ tokensOk w2)) true (.vstLong (bitAt w1 30) (decMask w1) (field w1 8 5) (field w1 13 5) (decTokens w2))
  | 1 =>
    if w1 % 2 = 0 then
      accept (decide (w1 / 2 ^ 31 % 2 = 0 ∧ maskOk w1)) true (.vsts (bitAt w1 30) (decMask w1) (field w1 8 5) (field w1 13 5) (field w1 18 5))
    else
      accept (decide (w1 / 2 ^ 31 % 2 = 0 ∧ w2 / 2 ^ 15 % 131072 = 0 ∧ w2 % 32 = 0 ∧ maskOk w1 ∧ tokensOk w2)) true (.vstsLong (bitAt w1 30) (decMask w1) (field w1 8 5) (field w1 13 5) (field w1 18 5) (decTokens w2))
  | 2 =>
    if w1 % 2 = 0 then
      accept (decide (w1 / 2 ^ 31 % 2 = 0 ∧ maskOk w1)) true (.vstx (bitAt w1 30) (decMask w1) (field w1 8 5) (field w1 13 5) (field w1 18 5))
    else
      accept (decide (w1 / 2 ^ 31 % 2 = 0 ∧ w2 / 2 ^ 15 % 131072 = 0 ∧ w2 % 32 = 0 ∧ maskOk w1 ∧ tokensOk w2)) true (.vstxLong (bitAt w1 30) (decMask w1) (field w1 8 5) (field w1 13 5) (field w1 18 5) (decTokens w2))
  | 3 =>
    if w1 % 2 = 0 then
      accept (decide (w1 / 2 ^ 31 % 2 = 0 ∧ maskOk w1)) true (.vstxaAdd (bitAt w1 30) (decMask w1) (field w1 8 5) (field w1 13 5) (field w1 18 5))
    else
      accept (decide (w1 / 2 ^ 31 % 2 = 0 ∧ w2 / 2 ^ 15 % 131072 = 0 ∧ w2 % 32 = 0 ∧ maskOk w1 ∧ tokensOk w2)) true (.vstxaAddLong (bitAt w1 30) (decMask w1) (field w1 8 5) (field w1 13 5) (field w1 18 5) (decTokens w2))
  | 4 =>
    if w1 % 2 = 0 then
      accept (decide (w1 / 2 ^ 31 % 2 = 0 ∧ w1 / 2 ^ 29 % 2 = 1 ∧ w1 / 2 ^ 18 % 32 = 0)) true (.vstb (bitAt w1 30) (field w1 26 3) (field w1 8 5) (field w1 13 5))
    else
      accept (decide (w1 / 2 ^ 31 % 2 = 0 ∧ w1 / 2 ^ 29 % 2 = 1 ∧ w1 / 2 ^ 18 % 32 = 0 ∧ w2 / 2 ^ 15 % 131072 = 0 ∧ w2 % 32 = 0 ∧ tokensOk w2)) true (.vstbLong (bitAt w1 30) (field w1 26 3) (field w1 8 5) (field w1 13 5) (decTokens w2))
  | 5 =>
    if w1 % 2 = 0 then
      accept (decide (w1 / 2 ^ 31 % 2 = 0 ∧ maskOk w1)) true (.vstxaMin (bitAt w1 30) (decMask w1) (field w1 8 5) (field w1 13 5) (field w1 18 5))
    else
      accept (decide (w1 / 2 ^ 31 % 2 = 0 ∧ w2 / 2 ^ 15 % 131072 = 0 ∧ w2 % 32 = 0 ∧ maskOk w1 ∧ tokensOk w2)) true (.vstxaMinLong (bitAt w1 30) (decMask w1) (field w1 8 5) (field w1 13 5) (field w1 18 5) (decTokens w2))
  | 6 =>
    if w1 % 2 = 0 then
      accept (decide (w1 / 2 ^ 31 % 2 = 0 ∧ maskOk w1)) true (.vstxaMax (bitAt w1 30) (decMask w1) (field w1 8 5) (field w1 13 5) (field w1 18 5))
    else
      accept (decide (w1 / 2 ^ 31 % 2 = 0 ∧ w2 / 2 ^ 15 % 131072 = 0 ∧ w2 % 32 = 0 ∧ maskOk w1 ∧ tokensOk w2)) true (.vstxaMaxLong (bitAt w1 30) (decMask w1) (field w1 8 5) (field w1 13 5) (field w1 18 5) (decTokens w2))
  | _ => .error .minorUnassigned

/-- Major 0x50 (R33): TLD, TLD_LONG, BLD, BLD_LONG, BST, BST_LONG, ACCST, ACCST_LONG. -/
noncomputable def decMajor50 (w1 w2 : Nat) : Except Reject Instr :=
  match w1 / 2 ^ 23 % 8 with
  | 0 =>
    if w1 % 2 = 0 then
      accept (decide (w1 / 2 ^ 26 % 64 = 0 ∧ w1 / 2 ^ 11 % 4 = 0)) true (.tld (field w1 8 3) (field w1 13 5) (field w1 18 5))
    else
      accept (decide (w1 / 2 ^ 26 % 64 = 0 ∧ w1 / 2 ^ 11 % 4 = 0 ∧ w2 / 2 ^ 15 % 8192 = 0 ∧ w2 % 32 = 0 ∧ tokensOk w2)) true (.tldLong (field w1 8 3) (field w1 13 5) (field w1 18 5) (decTokens w2) (Tag.ofCode (w2 / 2 ^ 28 % 16)))
  | 1 =>
    if w1 % 2 = 0 then
      accept (decide (w1 / 2 ^ 26 % 64 = 0 ∧ w1 / 2 ^ 18 % 32 = 0)) true (.bld (field w1 8 5) (field w1 13 5))
    else
      accept (decide (w1 / 2 ^ 26 % 64 = 0 ∧ w1 / 2 ^ 18 % 32 = 0 ∧ w2 / 2 ^ 15 % 8192 = 0 ∧ w2 % 32 = 0 ∧ tokensOk w2)) true (.bldLong (field w1 8 5) (field w1 13 5) (decTokens w2) (Tag.ofCode (w2 / 2 ^ 28 % 16)))
  | 2 =>
    if w1 % 2 = 0 then
      accept (decide (w1 / 2 ^ 26 % 64 = 0 ∧ w1 / 2 ^ 16 % 4 = 0 ∧ w1 / 2 ^ 18 % 32 = 0)) true (.bst (field w1 8 5) (field w1 13 3))
    else
      accept (decide (w1 / 2 ^ 26 % 64 = 0 ∧ w1 / 2 ^ 16 % 4 = 0 ∧ w1 / 2 ^ 18 % 32 = 0 ∧ w2 / 2 ^ 15 % 131072 = 0 ∧ w2 % 32 = 0 ∧ tokensOk w2)) true (.bstLong (field w1 8 5) (field w1 13 3) (decTokens w2))
  | 3 =>
    if w1 % 2 = 0 then
      accept (decide (w1 / 2 ^ 26 % 64 = 0 ∧ w1 / 2 ^ 10 % 8 = 0)) true (.accst (field w1 8 2) (field w1 13 5) (field w1 18 5))
    else
      accept (decide (w1 / 2 ^ 26 % 64 = 0 ∧ w1 / 2 ^ 10 % 8 = 0 ∧ w2 / 2 ^ 15 % 131072 = 0 ∧ w2 % 32 = 0 ∧ tokensOk w2)) true (.accstLong (field w1 8 2) (field w1 13 5) (field w1 18 5) (decTokens w2))
  | _ => .error .minorUnassigned

/-- Major 0x51 (R33): TMV, TMV_LONG, ACCMV, ACCMV_LONG, AZERO, AZERO_LONG, TCLASS, MSYNC. -/
noncomputable def decMajor51 (w1 w2 : Nat) : Except Reject Instr :=
  match w1 / 2 ^ 23 % 8 with
  | 0 =>
    if w1 % 2 = 0 then
      accept (decide (w1 / 2 ^ 26 % 64 = 0 ∧ w1 / 2 ^ 11 % 4 = 0 ∧ w1 / 2 ^ 18 % 32 = 0)) true (.tmv (field w1 8 3) (field w1 13 5))
    else
      accept (decide (w1 / 2 ^ 26 % 64 = 0 ∧ w1 / 2 ^ 11 % 4 = 0 ∧ w1 / 2 ^ 18 % 32 = 0 ∧ w2 / 2 ^ 15 % 131072 = 0 ∧ w2 % 32 = 0 ∧ tokensOk w2)) true (.tmvLong (field w1 8 3) (field w1 13 5) (decTokens w2))
  | 1 =>
    if w1 % 2 = 0 then
      accept (decide (w1 / 2 ^ 26 % 64 = 0 ∧ w1 / 2 ^ 15 % 8 = 0 ∧ w1 / 2 ^ 22 % 2 = 0)) true (.accmv (field w1 8 5) (field w1 13 2) (Tag.ofCode (w1 / 2 ^ 18 % 16)))
    else
      accept (decide (w1 / 2 ^ 26 % 64 = 0 ∧ w1 / 2 ^ 15 % 8 = 0 ∧ w1 / 2 ^ 22 % 2 = 0 ∧ w2 / 2 ^ 15 % 131072 = 0 ∧ w2 % 32 = 0 ∧ tokensOk w2)) true (.accmvLong (field w1 8 5) (field w1 13 2) (Tag.ofCode (w1 / 2 ^ 18 % 16)) (decTokens w2))
  | 2 =>
    if w1 % 2 = 0 then
      accept (decide (w1 / 2 ^ 26 % 64 = 0 ∧ w1 / 2 ^ 10 % 8 = 0 ∧ w1 / 2 ^ 13 % 32 = 0 ∧ w1 / 2 ^ 22 % 2 = 0)) true (.azero (field w1 8 2) (Tag.ofCode (w1 / 2 ^ 18 % 16)))
    else
      accept (decide (w1 / 2 ^ 26 % 64 = 0 ∧ w1 / 2 ^ 10 % 8 = 0 ∧ w1 / 2 ^ 13 % 32 = 0 ∧ w1 / 2 ^ 22 % 2 = 0 ∧ w2 / 2 ^ 15 % 131072 = 0 ∧ w2 % 32 = 0 ∧ tokensOk w2)) true (.azeroLong (field w1 8 2) (Tag.ofCode (w1 / 2 ^ 18 % 16)) (decTokens w2))
  | 3 =>
    if w1 % 2 = 0 then
      accept (decide (w1 / 2 ^ 26 % 64 = 0 ∧ w1 / 2 ^ 18 % 32 = 0)) true (.tclass (field w1 8 5) (field w1 13 5))
    else .error .lengthRefused
  | 4 =>
    if w1 % 2 = 0 then
      accept (decide (w1 / 2 ^ 26 % 64 = 0 ∧ w1 / 2 ^ 8 % 32 = 0 ∧ w1 / 2 ^ 13 % 32 = 0 ∧ w1 / 2 ^ 18 % 32 = 0)) true (.msync)
    else .error .lengthRefused
  | _ => .error .minorUnassigned

/-- Major 0x52 (R33): MMA, MMAZ, MMAI, MMAS. -/
noncomputable def decMajor52 (w1 w2 : Nat) : Except Reject Instr :=
  match w1 / 2 ^ 23 % 8 with
  | 0 =>
    if w1 % 2 = 1 then
      accept (decide (w1 / 2 ^ 26 % 64 = 0 ∧ w1 / 2 ^ 10 % 8 = 0 ∧ w1 / 2 ^ 16 % 4 = 0 ∧ w2 / 2 ^ 15 % 32 = 0 ∧ w2 % 32 = 0 ∧ tokensOk w2 ∧ scaleOk w2)) true (.mma (field w1 8 2) (field w1 13 3) (field w1 18 5) (decTokens w2) (Tag.ofCode (w2 / 2 ^ 28 % 16)) (Tag.ofCode (w2 / 2 ^ 24 % 16)) (decScale w2))
    else .error .lengthRefused
  | 1 =>
    if w1 % 2 = 1 then
      accept (decide (w1 / 2 ^ 26 % 64 = 0 ∧ w1 / 2 ^ 10 % 8 = 0 ∧ w1 / 2 ^ 16 % 4 = 0 ∧ w2 / 2 ^ 15 % 32 = 0 ∧ w2 % 32 = 0 ∧ tokensOk w2 ∧ scaleOk w2)) true (.mmaz (field w1 8 2) (field w1 13 3) (field w1 18 5) (decTokens w2) (Tag.ofCode (w2 / 2 ^ 28 % 16)) (Tag.ofCode (w2 / 2 ^ 24 % 16)) (decScale w2))
    else .error .lengthRefused
  | 2 =>
    if w1 % 2 = 1 then
      accept (decide (w1 / 2 ^ 26 % 64 = 0 ∧ w1 / 2 ^ 10 % 8 = 0 ∧ w1 / 2 ^ 16 % 4 = 0 ∧ w2 / 2 ^ 15 % 32 = 0 ∧ w2 % 32 = 0 ∧ tokensOk w2 ∧ scaleOk w2)) true (.mmai (field w1 8 2) (field w1 13 3) (field w1 18 5) (decTokens w2) (Tag.ofCode (w2 / 2 ^ 28 % 16)) (Tag.ofCode (w2 / 2 ^ 24 % 16)) (decScale w2))
    else .error .lengthRefused
  | 3 =>
    if w1 % 2 = 1 then
      accept (decide (w1 / 2 ^ 26 % 64 = 0 ∧ w1 / 2 ^ 10 % 8 = 0 ∧ w1 / 2 ^ 16 % 4 = 0 ∧ w2 / 2 ^ 15 % 32 = 0 ∧ w2 % 32 = 0 ∧ tokensOk w2 ∧ scaleOk w2)) true (.mmas (field w1 8 2) (field w1 13 3) (field w1 18 5) (decTokens w2) (Tag.ofCode (w2 / 2 ^ 28 % 16)) (Tag.ofCode (w2 / 2 ^ 24 % 16)) (decScale w2))
    else .error .lengthRefused
  | _ => .error .minorUnassigned

/-- Major 0x5C (R33): XCFG, XTWID, XSTAGE, XPERM, XPOINT, XNORM, XMODCHK, XSYNC. -/
noncomputable def decMajor5C (w1 w2 : Nat) : Except Reject Instr :=
  match w1 / 2 ^ 23 % 8 with
  | 0 =>
    if w1 % 2 = 0 then
      accept (decide (w1 / 2 ^ 26 % 64 = 0)) true (.xcfg (field w1 8 5) (field w1 13 5) (field w1 18 5))
    else .error .lengthRefused
  | 1 =>
    if w1 % 2 = 1 then
      accept (decide (w1 / 2 ^ 26 % 64 = 0 ∧ w2 / 2 ^ 15 % 131072 = 0 ∧ w2 % 32 = 0 ∧ tokensOk w2)) true (.xtwid (field w1 8 5) (field w1 13 5) (field w1 18 5) (decTokens w2))
    else .error .lengthRefused
  | 2 =>
    if w1 % 2 = 1 then
      accept (decide (w1 / 2 ^ 26 % 64 = 0 ∧ w2 / 2 ^ 15 % 128 = 0 ∧ w2 % 32 = 0 ∧ tokensOk w2)) (decide ((field w2 22 2).toNat ≠ 3)) (.xstage (field w1 8 5) (field w1 13 5) (field w1 18 5) (decTokens w2) (field w2 27 5) (bitAt w2 26) (bitAt w2 25) (bitAt w2 24) (field w2 22 2))
    else .error .lengthRefused
  | 3 =>
    if w1 % 2 = 1 then
      accept (decide (w1 / 2 ^ 26 % 64 = 0 ∧ w1 / 2 ^ 18 % 32 = 0 ∧ w2 / 2 ^ 26 % 2 = 0 ∧ w2 / 2 ^ 15 % 1024 = 0 ∧ w2 % 32 = 0 ∧ tokensOk w2)) (decide ((bitAt w2 25) = true ∨ (field w2 27 5) = 0)) (.xperm (field w1 8 5) (field w1 13 5) (decTokens w2) (field w2 27 5) (bitAt w2 25))
    else .error .lengthRefused
  | 4 =>
    if w1 % 2 = 1 then
      accept (decide (w1 / 2 ^ 26 % 64 = 0 ∧ w2 / 2 ^ 15 % 32768 = 0 ∧ w2 % 32 = 0 ∧ tokensOk w2)) true (.xpoint (field w1 8 5) (field w1 13 5) (field w1 18 5) (decTokens w2) (bitAt w2 31) (bitAt w2 30))
    else .error .lengthRefused
  | 5 =>
    if w1 % 2 = 1 then
      accept (decide (w1 / 2 ^ 26 % 64 = 0 ∧ w1 / 2 ^ 18 % 32 = 0 ∧ w2 / 2 ^ 15 % 32768 = 0 ∧ w2 % 32 = 0 ∧ tokensOk w2)) (decide ((field w2 30 2).toNat ≠ 3)) (.xnorm (field w1 8 5) (field w1 13 5) (decTokens w2) (field w2 30 2))
    else .error .lengthRefused
  | 6 =>
    if w1 % 2 = 0 then
      accept (decide (w1 / 2 ^ 26 % 64 = 0 ∧ w1 / 2 ^ 18 % 32 = 0)) true (.xmodchk (field w1 8 5) (field w1 13 5))
    else .error .lengthRefused
  | 7 =>
    if w1 % 2 = 0 then
      accept (decide (w1 / 2 ^ 26 % 64 = 0 ∧ w1 / 2 ^ 8 % 32 = 0 ∧ w1 / 2 ^ 13 % 32 = 0 ∧ w1 / 2 ^ 18 % 32 = 0)) true (.xsync)
    else .error .lengthRefused
  | _ => .error .minorUnassigned

/-- Major 0x64 (R33): SBIND, SUNBIND, SCOPY, SWMARK, SWAIT, TKPUSH, TKPOP. -/
noncomputable def decMajor64 (w1 w2 : Nat) : Except Reject Instr :=
  match w1 / 2 ^ 23 % 8 with
  | 0 =>
    if w1 % 2 = 1 then
      accept (decide (w1 / 2 ^ 26 % 64 = 0 ∧ w2 % 16777216 = 0)) true (.sbind (field w1 8 5) (field w1 13 5) (field w1 18 5) (field w2 28 4) (Tag.ofCode (w2 / 2 ^ 24 % 16)))
    else .error .lengthRefused
  | 1 =>
    if w1 % 2 = 0 then
      accept (decide (w1 / 2 ^ 26 % 64 = 0 ∧ w1 / 2 ^ 8 % 32 = 0 ∧ w1 / 2 ^ 13 % 32 = 0 ∧ w1 / 2 ^ 22 % 2 = 0)) true (.sunbind (field w1 18 4))
    else .error .lengthRefused
  | 2 =>
    if w1 % 2 = 1 then
      accept (decide (w1 / 2 ^ 26 % 64 = 0 ∧ w2 % 4096 = 0)) true (.scopy (field w1 8 5) (field w1 13 5) (field w1 18 5) (field w2 28 4) (field w2 25 3) (field w2 17 8) (bitAt w2 16) (field w2 12 4))
    else .error .lengthRefused
  | 3 =>
    if w1 % 2 = 0 then
      accept (decide (w1 / 2 ^ 26 % 64 = 0 ∧ w1 / 2 ^ 22 % 2 = 0)) true (.swmark (field w1 8 5) (field w1 13 5) (field w1 18 4))
    else .error .lengthRefused
  | 4 =>
    if w1 % 2 = 0 then
      accept (decide (w1 / 2 ^ 26 % 64 = 0 ∧ w1 / 2 ^ 22 % 2 = 0)) true (.swait (field w1 8 5) (field w1 13 5) (field w1 18 4))
    else .error .lengthRefused
  | 5 =>
    if w1 % 2 = 0 then
      accept (decide (w1 / 2 ^ 26 % 64 = 0 ∧ w1 / 2 ^ 8 % 32 = 0 ∧ w1 / 2 ^ 13 % 32 = 0 ∧ w1 / 2 ^ 22 % 2 = 0)) true (.tkpush (field w1 18 4))
    else .error .lengthRefused
  | 6 =>
    if w1 % 2 = 0 then
      accept (decide (w1 / 2 ^ 26 % 64 = 0 ∧ w1 / 2 ^ 8 % 32 = 0 ∧ w1 / 2 ^ 13 % 32 = 0 ∧ w1 / 2 ^ 22 % 2 = 0)) true (.tkpop (field w1 18 4))
    else .error .lengthRefused
  | _ => .error .minorUnassigned

/-- Major 0x68 (R33): BARINIT, BARARR, BARWAIT, BAR, BARFREE. -/
noncomputable def decMajor68 (w1 _w2 : Nat) : Except Reject Instr :=
  match w1 / 2 ^ 23 % 8 with
  | 0 =>
    if w1 % 2 = 0 then
      accept (decide (w1 / 2 ^ 26 % 64 = 0)) true (.barinit (field w1 8 5) (field w1 13 5) (field w1 18 5))
    else .error .lengthRefused
  | 1 =>
    if w1 % 2 = 0 then
      accept (decide (w1 / 2 ^ 26 % 64 = 0 ∧ w1 / 2 ^ 18 % 32 = 0)) true (.bararr (field w1 8 5) (field w1 13 5))
    else .error .lengthRefused
  | 2 =>
    if w1 % 2 = 0 then
      accept (decide (w1 / 2 ^ 26 % 64 = 0)) true (.barwait (field w1 8 5) (field w1 13 5) (field w1 18 5))
    else .error .lengthRefused
  | 3 =>
    if w1 % 2 = 0 then
      accept (decide (w1 / 2 ^ 26 % 64 = 0 ∧ w1 / 2 ^ 18 % 32 = 0)) true (.bar (field w1 8 5) (field w1 13 5))
    else .error .lengthRefused
  | 4 =>
    if w1 % 2 = 0 then
      accept (decide (w1 / 2 ^ 26 % 64 = 0 ∧ w1 / 2 ^ 18 % 32 = 0 ∧ w1 / 2 ^ 8 % 32 = 0)) true (.barfree (field w1 13 5))
    else .error .lengthRefused
  | _ => .error .minorUnassigned

/-- Major 0x69 (R33): FENCE, CPFENCE, VSYNC, LDA, STRL. -/
noncomputable def decMajor69 (w1 _w2 : Nat) : Except Reject Instr :=
  match w1 / 2 ^ 23 % 8 with
  | 0 =>
    if w1 % 2 = 0 then
      accept (decide (w1 / 2 ^ 26 % 64 = 0 ∧ w1 / 2 ^ 8 % 32 = 0 ∧ w1 / 2 ^ 13 % 32 = 0)) (decide ((field w1 21 2).toNat ≠ 0 ∧ (field w1 18 3).toNat ≤ 5)) (.fence (field w1 21 2) (field w1 18 3))
    else .error .lengthRefused
  | 1 =>
    if w1 % 2 = 0 then
      accept (decide (w1 / 2 ^ 26 % 64 = 0 ∧ w1 / 2 ^ 8 % 32 = 0 ∧ w1 / 2 ^ 13 % 32 = 0 ∧ w1 / 2 ^ 18 % 32 = 0)) true (.cpfence)
    else .error .lengthRefused
  | 2 =>
    if w1 % 2 = 0 then
      accept (decide (w1 / 2 ^ 26 % 64 = 0 ∧ w1 / 2 ^ 8 % 32 = 0 ∧ w1 / 2 ^ 13 % 32 = 0 ∧ w1 / 2 ^ 18 % 32 = 0)) true (.vsync)
    else .error .lengthRefused
  | 3 =>
    if w1 % 2 = 0 then
      accept (decide (w1 / 2 ^ 26 % 64 = 0 ∧ w1 / 2 ^ 21 % 4 = 0)) (decide ((field w1 18 3).toNat ≤ 5)) (.lda (field w1 8 5) (field w1 13 5) (field w1 18 3))
    else .error .lengthRefused
  | 4 =>
    if w1 % 2 = 0 then
      accept (decide (w1 / 2 ^ 26 % 64 = 0 ∧ w1 / 2 ^ 21 % 4 = 0)) (decide ((field w1 18 3).toNat ≤ 5)) (.strl (field w1 8 5) (field w1 13 5) (field w1 18 3))
    else .error .lengthRefused
  | _ => .error .minorUnassigned

/-- Major 0x6C (R33): MCST, TICKGET, TICKWAIT, TICKDONE. -/
noncomputable def decMajor6C (w1 w2 : Nat) : Except Reject Instr :=
  match w1 / 2 ^ 23 % 8 with
  | 0 =>
    if w1 % 2 = 1 then
      accept (decide (w1 / 2 ^ 26 % 64 = 0 ∧ w2 / 2 ^ 4 % 268435456 = 0)) true (.mcst (field w1 8 5) (field w1 13 5) (field w1 18 5) (field w2 0 4))
    else .error .lengthRefused
  | 1 =>
    if w1 % 2 = 0 then
      accept (decide (w1 / 2 ^ 26 % 64 = 0)) true (.tickget (field w1 8 5) (field w1 13 5) (field w1 18 5))
    else .error .lengthRefused
  | 2 =>
    if w1 % 2 = 0 then
      accept (decide (w1 / 2 ^ 26 % 64 = 0 ∧ w1 / 2 ^ 8 % 32 = 0 ∧ w1 / 2 ^ 18 % 32 = 0)) true (.tickwait (field w1 13 5))
    else .error .lengthRefused
  | 3 =>
    if w1 % 2 = 0 then
      accept (decide (w1 / 2 ^ 26 % 64 = 0 ∧ w1 / 2 ^ 8 % 32 = 0 ∧ w1 / 2 ^ 18 % 32 = 0)) true (.tickdone (field w1 13 5))
    else .error .lengthRefused
  | _ => .error .minorUnassigned

/-- Major 0x6D (R33): MPOST, MSEND, MWAIT, MPROBE, MCANCEL, MDRIP. -/
noncomputable def decMajor6D (w1 w2 : Nat) : Except Reject Instr :=
  match w1 / 2 ^ 23 % 8 with
  | 0 =>
    if w1 % 2 = 1 then
      accept (decide (w1 / 2 ^ 26 % 64 = 0 ∧ w1 / 2 ^ 18 % 32 = 0 ∧ w2 / 2 ^ 3 % 536870912 = 0)) (decide ((field w2 0 3).toNat ≤ 4)) (.mpost (field w1 8 5) (field w1 13 5) (field w2 0 3))
    else .error .lengthRefused
  | 1 =>
    if w1 % 2 = 1 then
      accept (decide (w1 / 2 ^ 26 % 64 = 0 ∧ w2 / 2 ^ 5 % 134217728 = 0)) true (.msend (field w1 8 5) (field w1 13 5) (field w1 18 5) (field w2 0 5))
    else .error .lengthRefused
  | 2 =>
    if w1 % 2 = 0 then
      accept (decide (w1 / 2 ^ 26 % 64 = 0 ∧ w1 / 2 ^ 18 % 32 = 0)) true (.mwait (field w1 8 5) (field w1 13 5))
    else .error .lengthRefused
  | 3 =>
    if w1 % 2 = 0 then
      accept (decide (w1 / 2 ^ 26 % 64 = 0 ∧ w1 / 2 ^ 18 % 32 = 0)) (decide ((field w1 8 5).toNat % 2 = 0 ∧ 2 ≤ (field w1 8 5).toNat)) (.mprobe (field w1 8 5) (field w1 13 5))
    else .error .lengthRefused
  | 4 =>
    if w1 % 2 = 0 then
      accept (decide (w1 / 2 ^ 26 % 64 = 0 ∧ w1 / 2 ^ 18 % 32 = 0)) true (.mcancel (field w1 8 5) (field w1 13 5))
    else .error .lengthRefused
  | 5 =>
    if w1 % 2 = 0 then
      accept (decide (w1 / 2 ^ 26 % 64 = 0 ∧ w1 / 2 ^ 18 % 32 = 0)) true (.mdrip (field w1 8 5) (field w1 13 5))
    else .error .lengthRefused
  | _ => .error .minorUnassigned

/-- Major 0x70 (R33): KVSUB, KVUNSUB, KVPASS, KVRECV, KVPART, KVDONE, KVSTAT. -/
noncomputable def decMajor70 (w1 w2 : Nat) : Except Reject Instr :=
  match w1 / 2 ^ 23 % 8 with
  | 0 =>
    if w1 % 2 = 1 then
      accept (decide (w1 / 2 ^ 26 % 64 = 0 ∧ w1 / 2 ^ 18 % 32 = 0 ∧ w2 / 2 ^ 6 % 67108864 = 0)) (decide (1 ≤ (field w2 3 3).toNat ∧ (field w2 3 3).toNat ≤ 4)) (.kvsub (field w1 8 5) (field w1 13 5) (field w2 3 3) (field w2 0 3))
    else .error .lengthRefused
  | 1 =>
    if w1 % 2 = 0 then
      accept (decide (w1 / 2 ^ 26 % 64 = 0 ∧ w1 / 2 ^ 18 % 32 = 0)) true (.kvunsub (field w1 8 5) (field w1 13 5))
    else .error .lengthRefused
  | 2 =>
    if w1 % 2 = 0 then
      accept (decide (w1 / 2 ^ 26 % 64 = 0)) true (.kvpass (field w1 8 5) (field w1 13 5) (field w1 18 5))
    else .error .lengthRefused
  | 3 =>
    if w1 % 2 = 0 then
      accept (decide (w1 / 2 ^ 26 % 64 = 0 ∧ w1 / 2 ^ 13 % 32 = 0 ∧ w1 / 2 ^ 18 % 32 = 0)) true (.kvrecv (field w1 8 5))
    else .error .lengthRefused
  | 4 =>
    if w1 % 2 = 1 then
      accept (decide (w1 / 2 ^ 26 % 64 = 0 ∧ w2 / 2 ^ 5 % 134217728 = 0)) true (.kvpart (field w1 8 5) (field w1 13 5) (field w1 18 5) (field w2 0 5))
    else .error .lengthRefused
  | 5 =>
    if w1 % 2 = 0 then
      accept (decide (w1 / 2 ^ 26 % 64 = 0 ∧ w1 / 2 ^ 18 % 32 = 0)) true (.kvdone (field w1 8 5) (field w1 13 5))
    else .error .lengthRefused
  | 6 =>
    if w1 % 2 = 0 then
      accept (decide (w1 / 2 ^ 26 % 64 = 0 ∧ w1 / 2 ^ 18 % 32 = 0)) true (.kvstat (field w1 8 5) (field w1 13 5))
    else .error .lengthRefused
  | _ => .error .minorUnassigned

/-- Major 0x74 (R33): TRAP, RTE, HALT, WFE, CTXYIELD, CTXSAVE, CTXLOAD. -/
noncomputable def decMajor74 (w1 _w2 : Nat) : Except Reject Instr :=
  match w1 / 2 ^ 23 % 8 with
  | 0 =>
    if w1 % 2 = 0 then
      accept (decide (w1 / 2 ^ 26 % 64 = 0 ∧ w1 / 2 ^ 8 % 32 = 0 ∧ w1 / 2 ^ 18 % 32 = 0)) true (.trap (field w1 13 5))
    else .error .lengthRefused
  | 1 =>
    if w1 % 2 = 0 then
      accept (decide (w1 / 2 ^ 26 % 64 = 0 ∧ w1 / 2 ^ 8 % 32 = 0 ∧ w1 / 2 ^ 13 % 32 = 0 ∧ w1 / 2 ^ 18 % 32 = 0)) true (.rte)
    else .error .lengthRefused
  | 2 =>
    if w1 % 2 = 0 then
      accept (decide (w1 / 2 ^ 26 % 64 = 0 ∧ w1 / 2 ^ 8 % 32 = 0 ∧ w1 / 2 ^ 13 % 32 = 0 ∧ w1 / 2 ^ 18 % 32 = 0)) true (.halt)
    else .error .lengthRefused
  | 3 =>
    if w1 % 2 = 0 then
      accept (decide (w1 / 2 ^ 26 % 64 = 0 ∧ w1 / 2 ^ 8 % 32 = 0)) true (.wfe (field w1 13 5) (field w1 18 5))
    else .error .lengthRefused
  | 4 =>
    if w1 % 2 = 0 then
      accept (decide (w1 / 2 ^ 26 % 64 = 0 ∧ w1 / 2 ^ 13 % 32 = 0 ∧ w1 / 2 ^ 18 % 32 = 0)) true (.ctxyield (field w1 8 5))
    else .error .lengthRefused
  | 5 =>
    if w1 % 2 = 0 then
      accept (decide (w1 / 2 ^ 26 % 64 = 0 ∧ w1 / 2 ^ 13 % 32 = 0 ∧ w1 / 2 ^ 18 % 32 = 0)) true (.ctxsave (field w1 8 5))
    else .error .lengthRefused
  | 6 =>
    if w1 % 2 = 0 then
      accept (decide (w1 / 2 ^ 26 % 64 = 0 ∧ w1 / 2 ^ 18 % 32 = 0)) true (.ctxload (field w1 8 5) (field w1 13 5))
    else .error .lengthRefused
  | _ => .error .minorUnassigned

/-- Major 0x75 (R33): QWAIT, QPRIO, HTOKWAIT, HTOKRAISE. -/
noncomputable def decMajor75 (w1 _w2 : Nat) : Except Reject Instr :=
  match w1 / 2 ^ 23 % 8 with
  | 0 =>
    if w1 % 2 = 0 then
      accept (decide (w1 / 2 ^ 26 % 64 = 0 ∧ w1 / 2 ^ 18 % 32 = 0)) true (.qwait (field w1 8 5) (field w1 13 5))
    else .error .lengthRefused
  | 1 =>
    if w1 % 2 = 0 then
      accept (decide (w1 / 2 ^ 26 % 64 = 0)) true (.qprio (field w1 8 5) (field w1 13 5) (field w1 18 5))
    else .error .lengthRefused
  | 2 =>
    if w1 % 2 = 0 then
      accept (decide (w1 / 2 ^ 26 % 64 = 0 ∧ w1 / 2 ^ 18 % 32 = 0)) true (.htokwait (field w1 8 5) (field w1 13 5))
    else .error .lengthRefused
  | 3 =>
    if w1 % 2 = 0 then
      accept (decide (w1 / 2 ^ 26 % 64 = 0 ∧ w1 / 2 ^ 8 % 32 = 0)) true (.htokraise (field w1 13 5) (field w1 18 5))
    else .error .lengthRefused
  | _ => .error .minorUnassigned

/-- Major 0x76 (R33): KLAUNCH, KEND, KSTAT. -/
noncomputable def decMajor76 (w1 _w2 : Nat) : Except Reject Instr :=
  match w1 / 2 ^ 23 % 8 with
  | 0 =>
    if w1 % 2 = 0 then
      accept (decide (w1 / 2 ^ 26 % 64 = 0 ∧ w1 / 2 ^ 18 % 32 = 0)) true (.klaunch (field w1 8 5) (field w1 13 5))
    else .error .lengthRefused
  | 1 =>
    if w1 % 2 = 0 then
      accept (decide (w1 / 2 ^ 26 % 64 = 0 ∧ w1 / 2 ^ 8 % 32 = 0 ∧ w1 / 2 ^ 13 % 32 = 0 ∧ w1 / 2 ^ 18 % 32 = 0)) true (.kend)
    else .error .lengthRefused
  | 2 =>
    if w1 % 2 = 0 then
      accept (decide (w1 / 2 ^ 26 % 64 = 0 ∧ w1 / 2 ^ 18 % 32 = 0)) true (.kstat (field w1 8 5) (field w1 13 5))
    else .error .lengthRefused
  | _ => .error .minorUnassigned

/-- Major 0x77 (R33): GTERM, GYIELD. -/
noncomputable def decMajor77 (w1 _w2 : Nat) : Except Reject Instr :=
  match w1 / 2 ^ 23 % 8 with
  | 0 =>
    if w1 % 2 = 0 then
      accept (decide (w1 / 2 ^ 26 % 64 = 0 ∧ w1 / 2 ^ 8 % 32 = 0 ∧ w1 / 2 ^ 13 % 32 = 0 ∧ w1 / 2 ^ 18 % 32 = 0)) true (.gterm)
    else .error .lengthRefused
  | 1 =>
    if w1 % 2 = 0 then
      accept (decide (w1 / 2 ^ 26 % 64 = 0 ∧ w1 / 2 ^ 8 % 32 = 0 ∧ w1 / 2 ^ 13 % 32 = 0 ∧ w1 / 2 ^ 18 % 32 = 0)) true (.gyield)
    else .error .lengthRefused
  | _ => .error .minorUnassigned

/-- Major 0x78 (R33): SDRAIN, SFRPOP, TLBINV, PGPROBE. -/
noncomputable def decMajor78 (w1 _w2 : Nat) : Except Reject Instr :=
  match w1 / 2 ^ 23 % 8 with
  | 0 =>
    if w1 % 2 = 0 then
      accept (decide (w1 / 2 ^ 26 % 64 = 0 ∧ w1 / 2 ^ 8 % 32 = 0 ∧ w1 / 2 ^ 13 % 32 = 0 ∧ w1 / 2 ^ 18 % 32 = 0)) true (.sdrain)
    else .error .lengthRefused
  | 1 =>
    if w1 % 2 = 0 then
      accept (decide (w1 / 2 ^ 26 % 64 = 0 ∧ w1 / 2 ^ 13 % 32 = 0 ∧ w1 / 2 ^ 18 % 32 = 0)) (decide ((field w1 8 5).toNat % 4 = 0 ∧ 4 ≤ (field w1 8 5).toNat)) (.sfrpop (field w1 8 5))
    else .error .lengthRefused
  | 2 =>
    if w1 % 2 = 0 then
      accept (decide (w1 / 2 ^ 26 % 64 = 0 ∧ w1 / 2 ^ 8 % 32 = 0)) true (.tlbinv (field w1 13 5) (field w1 18 5))
    else .error .lengthRefused
  | 3 =>
    if w1 % 2 = 0 then
      accept (decide (w1 / 2 ^ 26 % 64 = 0)) true (.pgprobe (field w1 8 5) (field w1 13 5) (field w1 18 5))
    else .error .lengthRefused
  | _ => .error .minorUnassigned

/-- The decoder on a first word and the word after it, which a short instruction ignores (R33, R36). -/
noncomputable def decodeWords (w1 w2 : Nat) : Except Reject Instr :=
  match w1 / 2 % 128 with
  | 0x01 => decMajor01 w1 w2
  | 0x02 => decMajor02 w1 w2
  | 0x03 => decMajor03 w1 w2
  | 0x04 => decMajor04 w1 w2
  | 0x05 => decMajor05 w1 w2
  | 0x06 => decMajor06 w1 w2
  | 0x07 => decMajor07 w1 w2
  | 0x08 => decMajor08 w1 w2
  | 0x09 => decMajor09 w1 w2
  | 0x0A => decMajor0A w1 w2
  | 0x0B => decMajor0B w1 w2
  | 0x0C => decMajor0C w1 w2
  | 0x0D => decMajor0D w1 w2
  | 0x0E => decMajor0E w1 w2
  | 0x0F => decMajor0F w1 w2
  | 0x10 => decMajor10 w1 w2
  | 0x11 => decMajor11 w1 w2
  | 0x12 => decMajor12 w1 w2
  | 0x13 => decMajor13 w1 w2
  | 0x14 => decMajor14 w1 w2
  | 0x15 => decMajor15 w1 w2
  | 0x16 => decMajor16 w1 w2
  | 0x17 => decMajor17 w1 w2
  | 0x18 => decMajor18 w1 w2
  | 0x19 => decMajor19 w1 w2
  | 0x1A => decMajor1A w1 w2
  | 0x1B => decMajor1B w1 w2
  | 0x1C => decMajor1C w1 w2
  | 0x20 => decMajor20 w1 w2
  | 0x21 => decMajor21 w1 w2
  | 0x22 => decMajor22 w1 w2
  | 0x23 => decMajor23 w1 w2
  | 0x24 => decMajor24 w1 w2
  | 0x25 => decMajor25 w1 w2
  | 0x26 => decMajor26 w1 w2
  | 0x27 => decMajor27 w1 w2
  | 0x28 => decMajor28 w1 w2
  | 0x29 => decMajor29 w1 w2
  | 0x2A => decMajor2A w1 w2
  | 0x2B => decMajor2B w1 w2
  | 0x2C => decMajor2C w1 w2
  | 0x30 => decMajor30 w1 w2
  | 0x31 => decMajor31 w1 w2
  | 0x50 => decMajor50 w1 w2
  | 0x51 => decMajor51 w1 w2
  | 0x52 => decMajor52 w1 w2
  | 0x5C => decMajor5C w1 w2
  | 0x64 => decMajor64 w1 w2
  | 0x68 => decMajor68 w1 w2
  | 0x69 => decMajor69 w1 w2
  | 0x6C => decMajor6C w1 w2
  | 0x6D => decMajor6D w1 w2
  | 0x70 => decMajor70 w1 w2
  | 0x74 => decMajor74 w1 w2
  | 0x75 => decMajor75 w1 w2
  | 0x76 => decMajor76 w1 w2
  | 0x77 => decMajor77 w1 w2
  | 0x78 => decMajor78 w1 w2
  | _ => .error .majorUnassigned

/-- The first word of an instruction (R29); an event has none. -/
def encFirst : Instr → Nat
  | .add d a b => putAt b 18 (putAt a 13 (putAt d 8 0x00000002))
  | .sub d a b => putAt b 18 (putAt a 13 (putAt d 8 0x00800002))
  | .and d a b => putAt b 18 (putAt a 13 (putAt d 8 0x01000002))
  | .or d a b => putAt b 18 (putAt a 13 (putAt d 8 0x01800002))
  | .xor d a b => putAt b 18 (putAt a 13 (putAt d 8 0x02000002))
  | .shl d a b => putAt b 18 (putAt a 13 (putAt d 8 0x02800002))
  | .shr d a b => putAt b 18 (putAt a 13 (putAt d 8 0x03000002))
  | .shra d a b => putAt b 18 (putAt a 13 (putAt d 8 0x03800002))
  | .mul d a b => putAt b 18 (putAt a 13 (putAt d 8 0x00000004))
  | .mulh d a b => putAt b 18 (putAt a 13 (putAt d 8 0x00800004))
  | .mulhn d a b => putAt b 18 (putAt a 13 (putAt d 8 0x01000004))
  | .div d a b => putAt b 18 (putAt a 13 (putAt d 8 0x01800004))
  | .divn d a b => putAt b 18 (putAt a 13 (putAt d 8 0x02000004))
  | .rem d a b => putAt b 18 (putAt a 13 (putAt d 8 0x02800004))
  | .remn d a b => putAt b 18 (putAt a 13 (putAt d 8 0x03000004))
  | .rol d a b => putAt b 18 (putAt a 13 (putAt d 8 0x00000006))
  | .clz d a => putAt a 13 (putAt d 8 0x00800006)
  | .ctz d a => putAt a 13 (putAt d 8 0x01000006)
  | .popc d a => putAt a 13 (putAt d 8 0x01800006)
  | .min d a b => putAt b 18 (putAt a 13 (putAt d 8 0x02000006))
  | .max d a b => putAt b 18 (putAt a 13 (putAt d 8 0x02800006))
  | .minn d a b => putAt b 18 (putAt a 13 (putAt d 8 0x03000006))
  | .maxn d a b => putAt b 18 (putAt a 13 (putAt d 8 0x03800006))
  | .slt d a b => putAt b 18 (putAt a 13 (putAt d 8 0x00000008))
  | .sltn d a b => putAt b 18 (putAt a 13 (putAt d 8 0x00800008))
  | .sel d a b => putAt b 18 (putAt a 13 (putAt d 8 0x01000008))
  | .addi d a i => putAt i 18 (putAt a 13 (putAt d 8 0x0000000A))
  | .addiLong d a _ => putAt a 13 (putAt d 8 0x0000000B)
  | .andi d a i => putAt i 18 (putAt a 13 (putAt d 8 0x0000000C))
  | .andiLong d a _ => putAt a 13 (putAt d 8 0x0000000D)
  | .ori d a i => putAt i 18 (putAt a 13 (putAt d 8 0x0000000E))
  | .oriLong d a _ => putAt a 13 (putAt d 8 0x0000000F)
  | .xori d a i => putAt i 18 (putAt a 13 (putAt d 8 0x00000010))
  | .xoriLong d a _ => putAt a 13 (putAt d 8 0x00000011)
  | .slti d a i => putAt i 18 (putAt a 13 (putAt d 8 0x00000012))
  | .sltiLong d a _ => putAt a 13 (putAt d 8 0x00000013)
  | .shli d a n => putAmount n (putAt a 13 (putAt d 8 0x00000014))
  | .shri d a n => putAmount n (putAt a 13 (putAt d 8 0x00800014))
  | .shrai d a n => putAmount n (putAt a 13 (putAt d 8 0x01000014))
  | .ldi d i => putAt i 18 (putAt d 8 0x00000016)
  | .ldiLong d _ => putAt d 8 0x00000017
  | .ldih d _ => putAt d 8 0x00000019
  | .addpc d i => putAt i 18 (putAt d 8 0x0000001A)
  | .addpcLong d _ => putAt d 8 0x0000001B
  | .ld w d a n => putFld n (putAt a 13 (putAt d 8 (putAt w 23 0x0000001C)))
  | .ldLong w d a _ => putAt a 13 (putAt d 8 (putAt w 23 0x0000001D))
  | .st w d a n => putFld n (putAt a 13 (putAt d 8 (putAt w 23 0x0000001E)))
  | .stLong w d a _ => putAt a 13 (putAt d 8 (putAt w 23 0x0000001F))
  | .beq d a o => putAt o 18 (putAt a 13 (putAt d 8 0x00000020))
  | .beqLong d a _ => putAt a 13 (putAt d 8 0x00000021)
  | .bne d a o => putAt o 18 (putAt a 13 (putAt d 8 0x00000022))
  | .bneLong d a _ => putAt a 13 (putAt d 8 0x00000023)
  | .blt d a o => putAt o 18 (putAt a 13 (putAt d 8 0x00000024))
  | .bltLong d a _ => putAt a 13 (putAt d 8 0x00000025)
  | .bge d a o => putAt o 18 (putAt a 13 (putAt d 8 0x00000026))
  | .bgeLong d a _ => putAt a 13 (putAt d 8 0x00000027)
  | .bltn d a o => putAt o 18 (putAt a 13 (putAt d 8 0x00000028))
  | .bltnLong d a _ => putAt a 13 (putAt d 8 0x00000029)
  | .bgen d a o => putAt o 18 (putAt a 13 (putAt d 8 0x0000002A))
  | .bgenLong d a _ => putAt a 13 (putAt d 8 0x0000002B)
  | .jal d i => putAt i 18 (putAt d 8 0x0000002C)
  | .jalLong d _ => putAt d 8 0x0000002D
  | .jalr d a i => putAt i 18 (putAt a 13 (putAt d 8 0x0000002E))
  | .jalrLong d a _ => putAt a 13 (putAt d 8 0x0000002F)
  | .loop d o => putAt o 18 (putAt d 8 0x00000030)
  | .loopLong d _ => putAt d 8 0x00000031
  | .fadd p d a b => putAt b 18 (putAt a 13 (putAt d 8 (putBit p 31 0x00000032)))
  | .fsub p d a b => putAt b 18 (putAt a 13 (putAt d 8 (putBit p 31 0x00800032)))
  | .fmul p d a b => putAt b 18 (putAt a 13 (putAt d 8 (putBit p 31 0x01000032)))
  | .fdiv p d a b => putAt b 18 (putAt a 13 (putAt d 8 (putBit p 31 0x01800032)))
  | .fsqrt p d a => putAt a 13 (putAt d 8 (putBit p 31 0x02000032))
  | .fmin p d a b => putAt b 18 (putAt a 13 (putAt d 8 (putBit p 31 0x02800032)))
  | .fmax p d a b => putAt b 18 (putAt a 13 (putAt d 8 (putBit p 31 0x03000032)))
  | .ffma p d a b => putAt b 18 (putAt a 13 (putAt d 8 (putBit p 31 0x03800032)))
  | .fcmp p c d a b => putAt b 18 (putAt a 13 (putAt d 8 (putAt c 23 (putBit p 31 0x00000034))))
  | .fcvt d a cvs => putAt cvs 18 (putAt a 13 (putAt d 8 0x02000034))
  | .csrr d n => putFld n (putAt d 8 0x00000036)
  | .csrw d a n => putFld n (putAt a 13 (putAt d 8 0x00800036))
  | .csrs d a n => putFld n (putAt a 13 (putAt d 8 0x01000036))
  | .csrc d a n => putFld n (putAt a 13 (putAt d 8 0x01800036))
  | .amoadd d a b => putAt b 18 (putAt a 13 (putAt d 8 0x00000038))
  | .amomin u d a b => putAt b 18 (putAt a 13 (putAt d 8 (putBit u 31 0x00800038)))
  | .amomax u d a b => putAt b 18 (putAt a 13 (putAt d 8 (putBit u 31 0x01000038)))
  | .amoand d a b => putAt b 18 (putAt a 13 (putAt d 8 0x01800038))
  | .amoor d a b => putAt b 18 (putAt a 13 (putAt d 8 0x02000038))
  | .amoxor d a b => putAt b 18 (putAt a 13 (putAt d 8 0x02800038))
  | .amoswap d a b => putAt b 18 (putAt a 13 (putAt d 8 0x03000038))
  | .amocas d a b => putAt b 18 (putAt a 13 (putAt d 8 0x03800038))
  | .vsetl d a t => putTag t 18 (putAt a 13 (putAt d 8 0x00000040))
  | .vcfg d a b => putAt b 18 (putAt a 13 (putAt d 8 0x00800040))
  | .vmv p ce k d a => putAt a 13 (putAt d 8 (putMask k (putBit ce 30 (putBit p 31 0x00000042))))
  | .vmvLong p ce k d a _ => putAt a 13 (putAt d 8 (putMask k (putBit ce 30 (putBit p 31 0x00000043))))
  | .vmvx p ce k d a => putAt a 13 (putAt d 8 (putMask k (putBit ce 30 (putBit p 31 0x00800042))))
  | .vmvxLong p ce k d a _ => putAt a 13 (putAt d 8 (putMask k (putBit ce 30 (putBit p 31 0x00800043))))
  | .vxmv p ce d a b => putAt b 18 (putAt a 13 (putAt d 8 (putBit ce 30 (putBit p 31 0x01000042))))
  | .vxmvLong p ce d a b _ => putAt b 18 (putAt a 13 (putAt d 8 (putBit ce 30 (putBit p 31 0x01000043))))
  | .vid p ce k d => putAt d 8 (putMask k (putBit ce 30 (putBit p 31 0x01800042)))
  | .vidLong p ce k d _ => putAt d 8 (putMask k (putBit ce 30 (putBit p 31 0x01800043)))
  | .vtag p ce d t => putTag t 18 (putAt d 8 (putBit ce 30 (putBit p 31 0x02000042)))
  | .vtagLong p ce d t _ => putTag t 18 (putAt d 8 (putBit ce 30 (putBit p 31 0x02000043)))
  | .vmerge p ce mk d a b => putAt b 18 (putAt a 13 (putAt d 8 (putAt mk 26 (putBit ce 30 (putBit p 31 0x22800042)))))
  | .vmergeLong p ce mk d a b _ => putAt b 18 (putAt a 13 (putAt d 8 (putAt mk 26 (putBit ce 30 (putBit p 31 0x22800043)))))
  | .vadd p ce k d a b => putAt b 18 (putAt a 13 (putAt d 8 (putMask k (putBit ce 30 (putBit p 31 0x00000044)))))
  | .vaddLong p ce k d a b _ => putAt b 18 (putAt a 13 (putAt d 8 (putMask k (putBit ce 30 (putBit p 31 0x00000045)))))
  | .vsub p ce k d a b => putAt b 18 (putAt a 13 (putAt d 8 (putMask k (putBit ce 30 (putBit p 31 0x00800044)))))
  | .vsubLong p ce k d a b _ => putAt b 18 (putAt a 13 (putAt d 8 (putMask k (putBit ce 30 (putBit p 31 0x00800045)))))
  | .vmul p ce k d a b => putAt b 18 (putAt a 13 (putAt d 8 (putMask k (putBit ce 30 (putBit p 31 0x01000044)))))
  | .vmulLong p ce k d a b _ => putAt b 18 (putAt a 13 (putAt d 8 (putMask k (putBit ce 30 (putBit p 31 0x01000045)))))
  | .vmulh p ce k d a b => putAt b 18 (putAt a 13 (putAt d 8 (putMask k (putBit ce 30 (putBit p 31 0x01800044)))))
  | .vmulhLong p ce k d a b _ => putAt b 18 (putAt a 13 (putAt d 8 (putMask k (putBit ce 30 (putBit p 31 0x01800045)))))
  | .vmin p ce k d a b => putAt b 18 (putAt a 13 (putAt d 8 (putMask k (putBit ce 30 (putBit p 31 0x02000044)))))
  | .vminLong p ce k d a b _ => putAt b 18 (putAt a 13 (putAt d 8 (putMask k (putBit ce 30 (putBit p 31 0x02000045)))))
  | .vmax p ce k d a b => putAt b 18 (putAt a 13 (putAt d 8 (putMask k (putBit ce 30 (putBit p 31 0x02800044)))))
  | .vmaxLong p ce k d a b _ => putAt b 18 (putAt a 13 (putAt d 8 (putMask k (putBit ce 30 (putBit p 31 0x02800045)))))
  | .vabs p ce k d a => putAt a 13 (putAt d 8 (putMask k (putBit ce 30 (putBit p 31 0x03000044))))
  | .vabsLong p ce k d a _ => putAt a 13 (putAt d 8 (putMask k (putBit ce 30 (putBit p 31 0x03000045))))
  | .vneg p ce k d a => putAt a 13 (putAt d 8 (putMask k (putBit ce 30 (putBit p 31 0x03800044))))
  | .vnegLong p ce k d a _ => putAt a 13 (putAt d 8 (putMask k (putBit ce 30 (putBit p 31 0x03800045))))
  | .vfma p ce k d a b => putAt b 18 (putAt a 13 (putAt d 8 (putMask k (putBit ce 30 (putBit p 31 0x00000046)))))
  | .vfmaLong p ce k d a b _ => putAt b 18 (putAt a 13 (putAt d 8 (putMask k (putBit ce 30 (putBit p 31 0x00000047)))))
  | .vfms p ce k d a b => putAt b 18 (putAt a 13 (putAt d 8 (putMask k (putBit ce 30 (putBit p 31 0x00800046)))))
  | .vfmsLong p ce k d a b _ => putAt b 18 (putAt a 13 (putAt d 8 (putMask k (putBit ce 30 (putBit p 31 0x00800047)))))
  | .vnfma p ce k d a b => putAt b 18 (putAt a 13 (putAt d 8 (putMask k (putBit ce 30 (putBit p 31 0x01000046)))))
  | .vnfmaLong p ce k d a b _ => putAt b 18 (putAt a 13 (putAt d 8 (putMask k (putBit ce 30 (putBit p 31 0x01000047)))))
  | .vdiv p ce k d a b => putAt b 18 (putAt a 13 (putAt d 8 (putMask k (putBit ce 30 (putBit p 31 0x01800046)))))
  | .vdivLong p ce k d a b _ => putAt b 18 (putAt a 13 (putAt d 8 (putMask k (putBit ce 30 (putBit p 31 0x01800047)))))
  | .vrem p ce k d a b => putAt b 18 (putAt a 13 (putAt d 8 (putMask k (putBit ce 30 (putBit p 31 0x02000046)))))
  | .vremLong p ce k d a b _ => putAt b 18 (putAt a 13 (putAt d 8 (putMask k (putBit ce 30 (putBit p 31 0x02000047)))))
  | .vsqrt p ce k d a => putAt a 13 (putAt d 8 (putMask k (putBit ce 30 (putBit p 31 0x02800046))))
  | .vsqrtLong p ce k d a _ => putAt a 13 (putAt d 8 (putMask k (putBit ce 30 (putBit p 31 0x02800047))))
  | .vscale p ce k d a b => putAt b 18 (putAt a 13 (putAt d 8 (putMask k (putBit ce 30 (putBit p 31 0x03000046)))))
  | .vscaleLong p ce k d a b _ => putAt b 18 (putAt a 13 (putAt d 8 (putMask k (putBit ce 30 (putBit p 31 0x03000047)))))
  | .vand p ce k d a b => putAt b 18 (putAt a 13 (putAt d 8 (putMask k (putBit ce 30 (putBit p 31 0x00000048)))))
  | .vandLong p ce k d a b _ => putAt b 18 (putAt a 13 (putAt d 8 (putMask k (putBit ce 30 (putBit p 31 0x00000049)))))
  | .vor p ce k d a b => putAt b 18 (putAt a 13 (putAt d 8 (putMask k (putBit ce 30 (putBit p 31 0x00800048)))))
  | .vorLong p ce k d a b _ => putAt b 18 (putAt a 13 (putAt d 8 (putMask k (putBit ce 30 (putBit p 31 0x00800049)))))
  | .vxor p ce k d a b => putAt b 18 (putAt a 13 (putAt d 8 (putMask k (putBit ce 30 (putBit p 31 0x01000048)))))
  | .vxorLong p ce k d a b _ => putAt b 18 (putAt a 13 (putAt d 8 (putMask k (putBit ce 30 (putBit p 31 0x01000049)))))
  | .vnot p ce k d a => putAt a 13 (putAt d 8 (putMask k (putBit ce 30 (putBit p 31 0x01800048))))
  | .vnotLong p ce k d a _ => putAt a 13 (putAt d 8 (putMask k (putBit ce 30 (putBit p 31 0x01800049))))
  | .vclz p ce k d a => putAt a 13 (putAt d 8 (putMask k (putBit ce 30 (putBit p 31 0x02000048))))
  | .vclzLong p ce k d a _ => putAt a 13 (putAt d 8 (putMask k (putBit ce 30 (putBit p 31 0x02000049))))
  | .vpopc p ce k d a => putAt a 13 (putAt d 8 (putMask k (putBit ce 30 (putBit p 31 0x02800048))))
  | .vpopcLong p ce k d a _ => putAt a 13 (putAt d 8 (putMask k (putBit ce 30 (putBit p 31 0x02800049))))
  | .vadc p ce mk d a b => putAt b 18 (putAt a 13 (putAt d 8 (putAt mk 26 (putBit ce 30 (putBit p 31 0x23000048)))))
  | .vadcLong p ce mk d a b _ => putAt b 18 (putAt a 13 (putAt d 8 (putAt mk 26 (putBit ce 30 (putBit p 31 0x23000049)))))
  | .vsbc p ce mk d a b => putAt b 18 (putAt a 13 (putAt d 8 (putAt mk 26 (putBit ce 30 (putBit p 31 0x23800048)))))
  | .vsbcLong p ce mk d a b _ => putAt b 18 (putAt a 13 (putAt d 8 (putAt mk 26 (putBit ce 30 (putBit p 31 0x23800049)))))
  | .vshl p ce k d a b => putAt b 18 (putAt a 13 (putAt d 8 (putMask k (putBit ce 30 (putBit p 31 0x0000004A)))))
  | .vshlLong p ce k d a b _ => putAt b 18 (putAt a 13 (putAt d 8 (putMask k (putBit ce 30 (putBit p 31 0x0000004B)))))
  | .vshr p ce k d a b => putAt b 18 (putAt a 13 (putAt d 8 (putMask k (putBit ce 30 (putBit p 31 0x0080004A)))))
  | .vshrLong p ce k d a b _ => putAt b 18 (putAt a 13 (putAt d 8 (putMask k (putBit ce 30 (putBit p 31 0x0080004B)))))
  | .vshra p ce k d a b => putAt b 18 (putAt a 13 (putAt d 8 (putMask k (putBit ce 30 (putBit p 31 0x0100004A)))))
  | .vshraLong p ce k d a b _ => putAt b 18 (putAt a 13 (putAt d 8 (putMask k (putBit ce 30 (putBit p 31 0x0100004B)))))
  | .vrol p ce k d a b => putAt b 18 (putAt a 13 (putAt d 8 (putMask k (putBit ce 30 (putBit p 31 0x0180004A)))))
  | .vrolLong p ce k d a b _ => putAt b 18 (putAt a 13 (putAt d 8 (putMask k (putBit ce 30 (putBit p 31 0x0180004B)))))
  | .vfshl p ce k d a b => putAt b 18 (putAt a 13 (putAt d 8 (putMask k (putBit ce 30 (putBit p 31 0x0200004A)))))
  | .vfshlLong p ce k d a b _ => putAt b 18 (putAt a 13 (putAt d 8 (putMask k (putBit ce 30 (putBit p 31 0x0200004B)))))
  | .vfshr p ce k d a b => putAt b 18 (putAt a 13 (putAt d 8 (putMask k (putBit ce 30 (putBit p 31 0x0280004A)))))
  | .vfshrLong p ce k d a b _ => putAt b 18 (putAt a 13 (putAt d 8 (putMask k (putBit ce 30 (putBit p 31 0x0280004B)))))
  | .vcmp p ce k c d a b => putAt b 18 (putAt a 13 (putAt d 8 (putAt c 23 (putMask k (putBit ce 30 (putBit p 31 0x0000004C))))))
  | .vcmpLong p ce k c d a b _ => putAt b 18 (putAt a 13 (putAt d 8 (putAt c 23 (putMask k (putBit ce 30 (putBit p 31 0x0000004D))))))
  | .vcvt p ce k d a t => putTag t 18 (putAt a 13 (putAt d 8 (putMask k (putBit ce 30 (putBit p 31 0x0000004E)))))
  | .vcvtLong p ce k d a t _ => putTag t 18 (putAt a 13 (putAt d 8 (putMask k (putBit ce 30 (putBit p 31 0x0000004F)))))
  | .vrcp p ce k d a => putAt a 13 (putAt d 8 (putMask k (putBit ce 30 (putBit p 31 0x00000050))))
  | .vrcpLong p ce k d a _ => putAt a 13 (putAt d 8 (putMask k (putBit ce 30 (putBit p 31 0x00000051))))
  | .vrsqrt p ce k d a => putAt a 13 (putAt d 8 (putMask k (putBit ce 30 (putBit p 31 0x00800050))))
  | .vrsqrtLong p ce k d a _ => putAt a 13 (putAt d 8 (putMask k (putBit ce 30 (putBit p 31 0x00800051))))
  | .vexp2 p ce k d a => putAt a 13 (putAt d 8 (putMask k (putBit ce 30 (putBit p 31 0x01000050))))
  | .vexp2Long p ce k d a _ => putAt a 13 (putAt d 8 (putMask k (putBit ce 30 (putBit p 31 0x01000051))))
  | .vlog2 p ce k d a => putAt a 13 (putAt d 8 (putMask k (putBit ce 30 (putBit p 31 0x01800050))))
  | .vlog2Long p ce k d a _ => putAt a 13 (putAt d 8 (putMask k (putBit ce 30 (putBit p 31 0x01800051))))
  | .vexp p ce k d a => putAt a 13 (putAt d 8 (putMask k (putBit ce 30 (putBit p 31 0x02000050))))
  | .vexpLong p ce k d a _ => putAt a 13 (putAt d 8 (putMask k (putBit ce 30 (putBit p 31 0x02000051))))
  | .vlog p ce k d a => putAt a 13 (putAt d 8 (putMask k (putBit ce 30 (putBit p 31 0x02800050))))
  | .vlogLong p ce k d a _ => putAt a 13 (putAt d 8 (putMask k (putBit ce 30 (putBit p 31 0x02800051))))
  | .vtanh p ce k d a => putAt a 13 (putAt d 8 (putMask k (putBit ce 30 (putBit p 31 0x03000050))))
  | .vtanhLong p ce k d a _ => putAt a 13 (putAt d 8 (putMask k (putBit ce 30 (putBit p 31 0x03000051))))
  | .mand p ce d a b => putAt b 18 (putAt a 13 (putAt d 8 (putBit ce 30 (putBit p 31 0x00000052))))
  | .mandLong p ce d a b _ => putAt b 18 (putAt a 13 (putAt d 8 (putBit ce 30 (putBit p 31 0x00000053))))
  | .mor p ce d a b => putAt b 18 (putAt a 13 (putAt d 8 (putBit ce 30 (putBit p 31 0x00800052))))
  | .morLong p ce d a b _ => putAt b 18 (putAt a 13 (putAt d 8 (putBit ce 30 (putBit p 31 0x00800053))))
  | .mxor p ce d a b => putAt b 18 (putAt a 13 (putAt d 8 (putBit ce 30 (putBit p 31 0x01000052))))
  | .mxorLong p ce d a b _ => putAt b 18 (putAt a 13 (putAt d 8 (putBit ce 30 (putBit p 31 0x01000053))))
  | .mnot p ce d a => putAt a 13 (putAt d 8 (putBit ce 30 (putBit p 31 0x01800052)))
  | .mnotLong p ce d a _ => putAt a 13 (putAt d 8 (putBit ce 30 (putBit p 31 0x01800053)))
  | .mcnt p ce d a => putAt a 13 (putAt d 8 (putBit ce 30 (putBit p 31 0x02000052)))
  | .mcntLong p ce d a _ => putAt a 13 (putAt d 8 (putBit ce 30 (putBit p 31 0x02000053)))
  | .mfirst p ce d a => putAt a 13 (putAt d 8 (putBit ce 30 (putBit p 31 0x02800052)))
  | .mfirstLong p ce d a _ => putAt a 13 (putAt d 8 (putBit ce 30 (putBit p 31 0x02800053)))
  | .mshl p ce d a b => putAt b 18 (putAt a 13 (putAt d 8 (putBit ce 30 (putBit p 31 0x03000052))))
  | .mshlLong p ce d a b _ => putAt b 18 (putAt a 13 (putAt d 8 (putBit ce 30 (putBit p 31 0x03000053))))
  | .vred ce k d a o => putAt o 18 (putAt a 13 (putAt d 8 (putMask k (putBit ce 30 0x00000054))))
  | .vredLong ce k d a o _ => putAt o 18 (putAt a 13 (putAt d 8 (putMask k (putBit ce 30 0x00000055))))
  | .vscan ce k d a o => putAt o 18 (putAt a 13 (putAt d 8 (putMask k (putBit ce 30 0x00800054))))
  | .vscanLong ce k d a o _ => putAt o 18 (putAt a 13 (putAt d 8 (putMask k (putBit ce 30 0x00800055))))
  | .vscanSeg ce mk d a o => putAt o 18 (putAt a 13 (putAt d 8 (putAt mk 26 (putBit ce 30 0xA0800054))))
  | .vscanSegLong ce mk d a o _ => putAt o 18 (putAt a 13 (putAt d 8 (putAt mk 26 (putBit ce 30 0xA0800055))))
  | .vprefixpop ce k d a => putAt a 13 (putAt d 8 (putMask k (putBit ce 30 0x01000054)))
  | .vprefixpopLong ce k d a _ => putAt a 13 (putAt d 8 (putMask k (putBit ce 30 0x01000055)))
  | .vconflict ce k d a => putAt a 13 (putAt d 8 (putMask k (putBit ce 30 0x01800054)))
  | .vconflictLong ce k d a _ => putAt a 13 (putAt d 8 (putMask k (putBit ce 30 0x01800055)))
  | .vcompress ce k d a => putAt a 13 (putAt d 8 (putMask k (putBit ce 30 0x02000054)))
  | .vcompressLong ce k d a _ => putAt a 13 (putAt d 8 (putMask k (putBit ce 30 0x02000055)))
  | .vexpand ce k d a => putAt a 13 (putAt d 8 (putMask k (putBit ce 30 0x02800054)))
  | .vexpandLong ce k d a _ => putAt a 13 (putAt d 8 (putMask k (putBit ce 30 0x02800055)))
  | .vperm ce k d a b => putAt b 18 (putAt a 13 (putAt d 8 (putMask k (putBit ce 30 0x00000056))))
  | .vpermLong ce k d a b _ => putAt b 18 (putAt a 13 (putAt d 8 (putMask k (putBit ce 30 0x00000057))))
  | .vslideup ce k d a b => putAt b 18 (putAt a 13 (putAt d 8 (putMask k (putBit ce 30 0x00800056))))
  | .vslideupLong ce k d a b _ => putAt b 18 (putAt a 13 (putAt d 8 (putMask k (putBit ce 30 0x00800057))))
  | .vslidedn ce k d a b => putAt b 18 (putAt a 13 (putAt d 8 (putMask k (putBit ce 30 0x01000056))))
  | .vslidednLong ce k d a b _ => putAt b 18 (putAt a 13 (putAt d 8 (putMask k (putBit ce 30 0x01000057))))
  | .vzip ce k d a b => putAt b 18 (putAt a 13 (putAt d 8 (putMask k (putBit ce 30 0x01800056))))
  | .vzipLong ce k d a b _ => putAt b 18 (putAt a 13 (putAt d 8 (putMask k (putBit ce 30 0x01800057))))
  | .vunzip ce k d a b => putAt b 18 (putAt a 13 (putAt d 8 (putMask k (putBit ce 30 0x02000056))))
  | .vunzipLong ce k d a b _ => putAt b 18 (putAt a 13 (putAt d 8 (putMask k (putBit ce 30 0x02000057))))
  | .vtopk ce k d a b => putAt b 18 (putAt a 13 (putAt d 8 (putMask k (putBit ce 30 0x00000058))))
  | .vtopkLong ce k d a b _ => putAt b 18 (putAt a 13 (putAt d 8 (putMask k (putBit ce 30 0x00000059))))
  | .visect ce d a b => putAt b 18 (putAt a 13 (putAt d 8 (putBit ce 30 0x00800058)))
  | .visectLong ce d a b _ => putAt b 18 (putAt a 13 (putAt d 8 (putBit ce 30 0x00800059)))
  | .vunion ce d a b => putAt b 18 (putAt a 13 (putAt d 8 (putBit ce 30 0x01000058)))
  | .vunionLong ce d a b _ => putAt b 18 (putAt a 13 (putAt d 8 (putBit ce 30 0x01000059)))
  | .vmrg ce d a b => putAt b 18 (putAt a 13 (putAt d 8 (putBit ce 30 0x01800058)))
  | .vmrgLong ce d a b _ => putAt b 18 (putAt a 13 (putAt d 8 (putBit ce 30 0x01800059)))
  | .vld ce k d a => putAt a 13 (putAt d 8 (putMask k (putBit ce 30 0x00000060)))
  | .vldLong ce k d a _ _ _ _ => putAt a 13 (putAt d 8 (putMask k (putBit ce 30 0x00000061)))
  | .vlds ce k d a b => putAt b 18 (putAt a 13 (putAt d 8 (putMask k (putBit ce 30 0x00800060))))
  | .vldsLong ce k d a b _ _ _ _ => putAt b 18 (putAt a 13 (putAt d 8 (putMask k (putBit ce 30 0x00800061))))
  | .vldx ce k d a b => putAt b 18 (putAt a 13 (putAt d 8 (putMask k (putBit ce 30 0x01000060))))
  | .vldxLong ce k d a b _ _ _ _ => putAt b 18 (putAt a 13 (putAt d 8 (putMask k (putBit ce 30 0x01000061))))
  | .pfetch ce a b => putAt b 18 (putAt a 13 (putBit ce 30 0x01800060))
  | .pfetchLong ce a b _ => putAt b 18 (putAt a 13 (putBit ce 30 0x01800061))
  | .vst ce k d a => putAt a 13 (putAt d 8 (putMask k (putBit ce 30 0x00000062)))
  | .vstLong ce k d a _ => putAt a 13 (putAt d 8 (putMask k (putBit ce 30 0x00000063)))
  | .collectiveContribution ce d a => putBit ce 30 (putAt d 8 (putAt a 13 0x62))
  | .vsts ce k d a b => putAt b 18 (putAt a 13 (putAt d 8 (putMask k (putBit ce 30 0x00800062))))
  | .vstsLong ce k d a b _ => putAt b 18 (putAt a 13 (putAt d 8 (putMask k (putBit ce 30 0x00800063))))
  | .vstx ce k d a b => putAt b 18 (putAt a 13 (putAt d 8 (putMask k (putBit ce 30 0x01000062))))
  | .vstxLong ce k d a b _ => putAt b 18 (putAt a 13 (putAt d 8 (putMask k (putBit ce 30 0x01000063))))
  | .vstxaAdd ce k d a b => putAt b 18 (putAt a 13 (putAt d 8 (putMask k (putBit ce 30 0x01800062))))
  | .vstxaAddLong ce k d a b _ => putAt b 18 (putAt a 13 (putAt d 8 (putMask k (putBit ce 30 0x01800063))))
  | .vstb ce mk d a => putAt a 13 (putAt d 8 (putAt mk 26 (putBit ce 30 0x22000062)))
  | .vstbLong ce mk d a _ => putAt a 13 (putAt d 8 (putAt mk 26 (putBit ce 30 0x22000063)))
  | .vstxaMin ce k d a b => putAt b 18 (putAt a 13 (putAt d 8 (putMask k (putBit ce 30 0x02800062))))
  | .vstxaMinLong ce k d a b _ => putAt b 18 (putAt a 13 (putAt d 8 (putMask k (putBit ce 30 0x02800063))))
  | .vstxaMax ce k d a b => putAt b 18 (putAt a 13 (putAt d 8 (putMask k (putBit ce 30 0x03000062))))
  | .vstxaMaxLong ce k d a b _ => putAt b 18 (putAt a 13 (putAt d 8 (putMask k (putBit ce 30 0x03000063))))
  | .tld d a b => putAt b 18 (putAt a 13 (putAt d 8 0x000000A0))
  | .tldLong d a b _ _ => putAt b 18 (putAt a 13 (putAt d 8 0x000000A1))
  | .bld d a => putAt a 13 (putAt d 8 0x008000A0)
  | .bldLong d a _ _ => putAt a 13 (putAt d 8 0x008000A1)
  | .bst d a => putAt a 13 (putAt d 8 0x010000A0)
  | .bstLong d a _ => putAt a 13 (putAt d 8 0x010000A1)
  | .accst d a b => putAt b 18 (putAt a 13 (putAt d 8 0x018000A0))
  | .accstLong d a b _ => putAt b 18 (putAt a 13 (putAt d 8 0x018000A1))
  | .tmv d a => putAt a 13 (putAt d 8 0x000000A2)
  | .tmvLong d a _ => putAt a 13 (putAt d 8 0x000000A3)
  | .accmv d a t => putTag t 18 (putAt a 13 (putAt d 8 0x008000A2))
  | .accmvLong d a t _ => putTag t 18 (putAt a 13 (putAt d 8 0x008000A3))
  | .azero d t => putTag t 18 (putAt d 8 0x010000A2)
  | .azeroLong d t _ => putTag t 18 (putAt d 8 0x010000A3)
  | .tclass d a => putAt a 13 (putAt d 8 0x018000A2)
  | .msync => 0x020000A2
  | .mma d a b _ _ _ _ => putAt b 18 (putAt a 13 (putAt d 8 0x000000A5))
  | .mmaz d a b _ _ _ _ => putAt b 18 (putAt a 13 (putAt d 8 0x008000A5))
  | .mmai d a b _ _ _ _ => putAt b 18 (putAt a 13 (putAt d 8 0x010000A5))
  | .mmas d a b _ _ _ _ => putAt b 18 (putAt a 13 (putAt d 8 0x018000A5))
  | .xcfg d a b => putAt b 18 (putAt a 13 (putAt d 8 0x000000B8))
  | .xtwid d a b _ => putAt b 18 (putAt a 13 (putAt d 8 0x008000B9))
  | .xstage d a b _ _ _ _ _ _ => putAt b 18 (putAt a 13 (putAt d 8 0x010000B9))
  | .xperm d a _ _ _ => putAt a 13 (putAt d 8 0x018000B9)
  | .xpoint d a b _ _ _ => putAt b 18 (putAt a 13 (putAt d 8 0x020000B9))
  | .xnorm d a _ _ => putAt a 13 (putAt d 8 0x028000B9)
  | .xmodchk d a => putAt a 13 (putAt d 8 0x030000B8)
  | .xsync => 0x038000B8
  | .sbind d a b _ _ => putAt b 18 (putAt a 13 (putAt d 8 0x000000C9))
  | .sunbind h => putAt h 18 0x008000C8
  | .scopy d a b _ _ _ _ _ => putAt b 18 (putAt a 13 (putAt d 8 0x010000C9))
  | .swmark d a h => putAt h 18 (putAt a 13 (putAt d 8 0x018000C8))
  | .swait d a h => putAt h 18 (putAt a 13 (putAt d 8 0x020000C8))
  | .tkpush f => putAt f 18 0x028000C8
  | .tkpop f => putAt f 18 0x030000C8
  | .barinit d a b => putAt b 18 (putAt a 13 (putAt d 8 0x000000D0))
  | .bararr d a => putAt a 13 (putAt d 8 0x008000D0)
  | .barwait d a b => putAt b 18 (putAt a 13 (putAt d 8 0x010000D0))
  | .bar d a => putAt a 13 (putAt d 8 0x018000D0)
  | .barfree a => putAt a 13 0x020000D0
  | .fence kd sc => putAt sc 18 (putAt kd 21 0x000000D2)
  | .cpfence => 0x008000D2
  | .vsync => 0x010000D2
  | .lda d a sc => putAt sc 18 (putAt a 13 (putAt d 8 0x018000D2))
  | .strl d a sc => putAt sc 18 (putAt a 13 (putAt d 8 0x020000D2))
  | .mcst d a b _ => putAt b 18 (putAt a 13 (putAt d 8 0x000000D9))
  | .tickget d a b => putAt b 18 (putAt a 13 (putAt d 8 0x008000D8))
  | .tickwait a => putAt a 13 0x010000D8
  | .tickdone a => putAt a 13 0x018000D8
  | .mpost d a _ => putAt a 13 (putAt d 8 0x000000DB)
  | .msend d a b _ => putAt b 18 (putAt a 13 (putAt d 8 0x008000DB))
  | .mwait d a => putAt a 13 (putAt d 8 0x010000DA)
  | .mprobe d a => putAt a 13 (putAt d 8 0x018000DA)
  | .mcancel d a => putAt a 13 (putAt d 8 0x020000DA)
  | .mdrip d a => putAt a 13 (putAt d 8 0x028000DA)
  | .kvsub d a _ _ => putAt a 13 (putAt d 8 0x000000E1)
  | .kvunsub d a => putAt a 13 (putAt d 8 0x008000E0)
  | .kvpass d a b => putAt b 18 (putAt a 13 (putAt d 8 0x010000E0))
  | .kvrecv d => putAt d 8 0x018000E0
  | .kvpart d a b _ => putAt b 18 (putAt a 13 (putAt d 8 0x020000E1))
  | .kvdone d a => putAt a 13 (putAt d 8 0x028000E0)
  | .kvstat d a => putAt a 13 (putAt d 8 0x030000E0)
  | .trap a => putAt a 13 0x000000E8
  | .rte => 0x008000E8
  | .halt => 0x010000E8
  | .wfe a b => putAt b 18 (putAt a 13 0x018000E8)
  | .ctxyield d => putAt d 8 0x020000E8
  | .ctxsave d => putAt d 8 0x028000E8
  | .ctxload d a => putAt a 13 (putAt d 8 0x030000E8)
  | .qwait d a => putAt a 13 (putAt d 8 0x000000EA)
  | .qprio d a b => putAt b 18 (putAt a 13 (putAt d 8 0x008000EA))
  | .htokwait d a => putAt a 13 (putAt d 8 0x010000EA)
  | .htokraise a b => putAt b 18 (putAt a 13 0x018000EA)
  | .klaunch d a => putAt a 13 (putAt d 8 0x000000EC)
  | .kend => 0x008000EC
  | .kstat d a => putAt a 13 (putAt d 8 0x010000EC)
  | .gterm => 0x000000EE
  | .gyield => 0x008000EE
  | .sdrain => 0x000000F0
  | .sfrpop d => putAt d 8 0x008000F0
  | .tlbinv a b => putAt b 18 (putAt a 13 0x010000F0)
  | .pgprobe d a b => putAt b 18 (putAt a 13 (putAt d 8 0x018000F0))
  | .asyncTrapDelivery .. => 0
  | .pageStoreDelivery .. => 0
  | .watchdog .. => 0
  | .waitWake .. => 0
  | .gyieldRelease .. => 0
  | .cellDrainComplete .. => 0
  | .contextLoadComplete .. => 0
  | .contextSaveComplete .. => 0
  | .slotStateUncorr .. => 0
  | .placementDecision => 0
  | .kernelLaunchable .. => 0
  | .convoyDrain .. => 0
  | .loadDataReturn .. => 0
  | .storePerform .. => 0
  | .scatterAddUpdate .. => 0
  | .pageWalkComplete .. => 0
  | .xlateDeadline .. => 0
  | .matrixEntryIssue .. => 0
  | .tldRowblockLand .. => 0
  | .matrixEntryRetire .. => 0
  | .matrixWindow .. => 0
  | .transformEntryStart .. => 0
  | .transformEntryRetire .. => 0
  | .streamFetchArrival .. => 0
  | .stripCommit .. => 0
  | .barrierRequestArrival .. => 0
  | .kvFetchStart .. => 0
  | .kvPageMulticast .. => 0
  | .kvCatchupStart .. => 0
  | .remoteRequestArrival .. => 0
  | .remoteReplyArrival .. => 0
  | .remoteDeadline .. => 0
  | .flitReplay .. => 0
  | .linkCrcFail .. => 0
  | .linkTrainingDone .. => 0
  | .linkRetrainDone .. => 0
  | .collectiveUnitAccept .. => 0
  | .collectiveResultDelivery .. => 0
  | .messageArrival .. => 0
  | .messageLandingComplete .. => 0
  | .retryTicketCall .. => 0
  | .spillDeadline .. => 0
  | .hostWrite .. => 0
  | .hostRead .. => 0
  | .ingressDoorbell .. => 0
  | .egressRead .. => 0
  | .hostRegisterWrite .. => 0
  | .eventRingWrite => 0
  | .cmdLoad => 0
  | .cmdLoadsaved => 0
  | .cmdSave => 0
  | .cmdStop => 0
  | .cmdFault => 0
  | .cmdRelease => 0
  | .cmdSwitch => 0
  | .cmdResume => 0
  | .cmdTerminate => 0
  | .cmdSetplim => 0
  | .cmdTrainlink .. => 0
  | .cmdTrainhbm .. => 0
  | .cmdXlate => 0
  | .cmdSpillret => 0
  | .cmdAttest .. => 0
  | .cmdQuery => 0
  | .powerInterval .. => 0
  | .hotDie .. => 0
  | .thermalTrip .. => 0
  | .moduleReset .. => 0
  | .firmwareVerify .. => 0
  | .hbmRetrain .. => 0
  | .powerOff => 0
  | .firmwareFailure => 0
  | .codeUnassigned => 0
  | .mbgoWhileBusy => 0
  | .atsTranslationCompletion .. => 0
  | .priPageRequestResponse .. => 0

/-- The second word of a long instruction (R30, R31); 0 for a short one, as R36 gives TRAPADDR. -/
def encSecond : Instr → Nat
  | .addiLong _ _ v => putAt v 0 0
  | .andiLong _ _ v => putAt v 0 0
  | .oriLong _ _ v => putAt v 0 0
  | .xoriLong _ _ v => putAt v 0 0
  | .sltiLong _ _ v => putAt v 0 0
  | .ldiLong _ v => putAt v 0 0
  | .ldih _ v => putAt v 0 0
  | .addpcLong _ v => putAt v 0 0
  | .ldLong _ _ _ v => putAt v 0 0
  | .stLong _ _ _ v => putAt v 0 0
  | .beqLong _ _ v => putAt v 0 0
  | .bneLong _ _ v => putAt v 0 0
  | .bltLong _ _ v => putAt v 0 0
  | .bgeLong _ _ v => putAt v 0 0
  | .bltnLong _ _ v => putAt v 0 0
  | .bgenLong _ _ v => putAt v 0 0
  | .jalLong _ v => putAt v 0 0
  | .jalrLong _ _ v => putAt v 0 0
  | .loopLong _ v => putAt v 0 0
  | .vmvLong _ _ _ _ _ tk => putTokens tk 0
  | .vmvxLong _ _ _ _ _ tk => putTokens tk 0
  | .vxmvLong _ _ _ _ _ tk => putTokens tk 0
  | .vidLong _ _ _ _ tk => putTokens tk 0
  | .vtagLong _ _ _ _ tk => putTokens tk 0
  | .vmergeLong _ _ _ _ _ _ tk => putTokens tk 0
  | .vaddLong _ _ _ _ _ _ tk => putTokens tk 0
  | .vsubLong _ _ _ _ _ _ tk => putTokens tk 0
  | .vmulLong _ _ _ _ _ _ tk => putTokens tk 0
  | .vmulhLong _ _ _ _ _ _ tk => putTokens tk 0
  | .vminLong _ _ _ _ _ _ tk => putTokens tk 0
  | .vmaxLong _ _ _ _ _ _ tk => putTokens tk 0
  | .vabsLong _ _ _ _ _ tk => putTokens tk 0
  | .vnegLong _ _ _ _ _ tk => putTokens tk 0
  | .vfmaLong _ _ _ _ _ _ tk => putTokens tk 0
  | .vfmsLong _ _ _ _ _ _ tk => putTokens tk 0
  | .vnfmaLong _ _ _ _ _ _ tk => putTokens tk 0
  | .vdivLong _ _ _ _ _ _ tk => putTokens tk 0
  | .vremLong _ _ _ _ _ _ tk => putTokens tk 0
  | .vsqrtLong _ _ _ _ _ tk => putTokens tk 0
  | .vscaleLong _ _ _ _ _ _ tk => putTokens tk 0
  | .vandLong _ _ _ _ _ _ tk => putTokens tk 0
  | .vorLong _ _ _ _ _ _ tk => putTokens tk 0
  | .vxorLong _ _ _ _ _ _ tk => putTokens tk 0
  | .vnotLong _ _ _ _ _ tk => putTokens tk 0
  | .vclzLong _ _ _ _ _ tk => putTokens tk 0
  | .vpopcLong _ _ _ _ _ tk => putTokens tk 0
  | .vadcLong _ _ _ _ _ _ tk => putTokens tk 0
  | .vsbcLong _ _ _ _ _ _ tk => putTokens tk 0
  | .vshlLong _ _ _ _ _ _ tk => putTokens tk 0
  | .vshrLong _ _ _ _ _ _ tk => putTokens tk 0
  | .vshraLong _ _ _ _ _ _ tk => putTokens tk 0
  | .vrolLong _ _ _ _ _ _ tk => putTokens tk 0
  | .vfshlLong _ _ _ _ _ _ tk => putTokens tk 0
  | .vfshrLong _ _ _ _ _ _ tk => putTokens tk 0
  | .vcmpLong _ _ _ _ _ _ _ tk => putTokens tk 0
  | .vcvtLong _ _ _ _ _ _ tk => putTokens tk 0
  | .vrcpLong _ _ _ _ _ tk => putTokens tk 0
  | .vrsqrtLong _ _ _ _ _ tk => putTokens tk 0
  | .vexp2Long _ _ _ _ _ tk => putTokens tk 0
  | .vlog2Long _ _ _ _ _ tk => putTokens tk 0
  | .vexpLong _ _ _ _ _ tk => putTokens tk 0
  | .vlogLong _ _ _ _ _ tk => putTokens tk 0
  | .vtanhLong _ _ _ _ _ tk => putTokens tk 0
  | .mandLong _ _ _ _ _ tk => putTokens tk 0
  | .morLong _ _ _ _ _ tk => putTokens tk 0
  | .mxorLong _ _ _ _ _ tk => putTokens tk 0
  | .mnotLong _ _ _ _ tk => putTokens tk 0
  | .mcntLong _ _ _ _ tk => putTokens tk 0
  | .mfirstLong _ _ _ _ tk => putTokens tk 0
  | .mshlLong _ _ _ _ _ tk => putTokens tk 0
  | .vredLong _ _ _ _ _ tk => putTokens tk 0
  | .vscanLong _ _ _ _ _ tk => putTokens tk 0
  | .vscanSegLong _ _ _ _ _ tk => putTokens tk 0
  | .vprefixpopLong _ _ _ _ tk => putTokens tk 0
  | .vconflictLong _ _ _ _ tk => putTokens tk 0
  | .vcompressLong _ _ _ _ tk => putTokens tk 0
  | .vexpandLong _ _ _ _ tk => putTokens tk 0
  | .vpermLong _ _ _ _ _ tk => putTokens tk 0
  | .vslideupLong _ _ _ _ _ tk => putTokens tk 0
  | .vslidednLong _ _ _ _ _ tk => putTokens tk 0
  | .vzipLong _ _ _ _ _ tk => putTokens tk 0
  | .vunzipLong _ _ _ _ _ tk => putTokens tk 0
  | .vtopkLong _ _ _ _ _ tk => putTokens tk 0
  | .visectLong _ _ _ _ tk => putTokens tk 0
  | .vunionLong _ _ _ _ tk => putTokens tk 0
  | .vmrgLong _ _ _ _ tk => putTokens tk 0
  | .vldLong _ _ _ _ tk mtag cv te => putTe te (putBit cv 15 (putAt mtag 16 (putTokens tk 0)))
  | .vldsLong _ _ _ _ _ tk mtag cv te => putTe te (putBit cv 15 (putAt mtag 16 (putTokens tk 0)))
  | .vldxLong _ _ _ _ _ tk mtag cv te => putTe te (putBit cv 15 (putAt mtag 16 (putTokens tk 0)))
  | .pfetchLong _ _ _ tk => putTokens tk 0
  | .vstLong _ _ _ _ tk => putTokens tk 0
  | .vstsLong _ _ _ _ _ tk => putTokens tk 0
  | .vstxLong _ _ _ _ _ tk => putTokens tk 0
  | .vstxaAddLong _ _ _ _ _ tk => putTokens tk 0
  | .vstbLong _ _ _ _ tk => putTokens tk 0
  | .vstxaMinLong _ _ _ _ _ tk => putTokens tk 0
  | .vstxaMaxLong _ _ _ _ _ tk => putTokens tk 0
  | .tldLong _ _ _ tk ot => putTag ot 28 (putTokens tk 0)
  | .bldLong _ _ tk ot => putTag ot 28 (putTokens tk 0)
  | .bstLong _ _ tk => putTokens tk 0
  | .accstLong _ _ _ tk => putTokens tk 0
  | .tmvLong _ _ tk => putTokens tk 0
  | .accmvLong _ _ _ tk => putTokens tk 0
  | .azeroLong _ _ tk => putTokens tk 0
  | .mma _ _ _ tk atg btg sct => putScale sct (putTag btg 24 (putTag atg 28 (putTokens tk 0)))
  | .mmaz _ _ _ tk atg btg sct => putScale sct (putTag btg 24 (putTag atg 28 (putTokens tk 0)))
  | .mmai _ _ _ tk atg btg sct => putScale sct (putTag btg 24 (putTag atg 28 (putTokens tk 0)))
  | .mmas _ _ _ tk atg btg sct => putScale sct (putTag btg 24 (putTag atg 28 (putTokens tk 0)))
  | .xtwid _ _ _ tk => putTokens tk 0
  | .xstage _ _ _ tk sp quad dit tm rc => putAt rc 22 (putBit tm 24 (putBit dit 25 (putBit quad 26 (putAt sp 27 (putTokens tk 0)))))
  | .xperm _ _ tk rs str => putBit str 25 (putAt rs 27 (putTokens tk 0))
  | .xpoint _ _ _ tk conj bc => putBit bc 30 (putBit conj 31 (putTokens tk 0))
  | .xnorm _ _ tk dir => putAt dir 30 (putTokens tk 0)
  | .sbind _ _ _ ch t => putTag t 24 (putAt ch 28 0)
  | .scopy _ _ _ ch esz dep tke tkf => putAt tkf 12 (putBit tke 16 (putAt dep 17 (putAt esz 25 (putAt ch 28 0))))
  | .mcst _ _ _ rm => putAt rm 0 0
  | .mpost _ _ esz => putAt esz 0 0
  | .msend _ _ _ tr => putAt tr 0 0
  | .kvsub _ _ dep rb => putAt rb 0 (putAt dep 3 0)
  | .kvpart _ _ _ lr => putAt lr 0 0
  | _ => 0

/-- The length of an instruction in bytes: 8 when bit 0 of its first word is 1, else 4 (R26). -/
def Instr.bytes (i : Instr) : Nat := if encFirst i % 2 = 1 then 8 else 4

/-- The words of an instruction as one number, the first word in bits 31:0 (R36: the layout of TRAPADDR). -/
def encode (i : Instr) : Nat := encFirst i + encSecond i * 2 ^ 32

/-- The decoder's answer on a number laid out as `encode` lays it out. -/
noncomputable def decode (w : Nat) : Except Reject Instr := decodeWords (w % 2 ^ 32) (w / 2 ^ 32 % 2 ^ 32)

/-- Four little-endian bytes as a word (R5, R26). -/
def wordOfBytes (b0 b1 b2 b3 : Byte) : Nat :=
  b0.toNat + b1.toNat * 2 ^ 8 + b2.toNat * 2 ^ 16 + b3.toNat * 2 ^ 24

/-- The decoder on the bytes at the PC, with the bytes that follow the instruction (R26). -/
noncomputable def decodeBytes : List Byte → Except Reject (Instr × List Byte)
  | b0 :: b1 :: b2 :: b3 :: rest =>
    let w1 := wordOfBytes b0 b1 b2 b3
    if w1 % 2 = 0 then
      match decodeWords w1 0 with
      | .ok i => .ok (i, rest)
      | .error e => .error e
    else
      match rest with
      | c0 :: c1 :: c2 :: c3 :: rest' =>
        match decodeWords w1 (wordOfBytes c0 c1 c2 c3) with
        | .ok i => .ok (i, rest')
        | .error e => .error e
      | _ => .error .truncated
  | _ => .error .truncated

/-- The low bytes of a number, least significant first (R5). -/
def bytesOfNat : Nat → Nat → List Byte
  | 0, _ => []
  | k + 1, w => BitVec.ofNat 8 w :: bytesOfNat k (w / 256)

/-- The decoder on an instruction whose bits are numbered as spec/opcode_table.json numbers them; bits the
table does not give, from `nbits` up, are 0. -/
noncomputable def decodeTableWord (nbits w : Nat) : Option Instr :=
  match decodeBytes (bytesOfNat 8 (w % 2 ^ nbits)) with
  | .ok (i, _) => some i
  | .error _ => none

end Sys2Proof
end

