-- ==== Sys2Proof/Machine/Memory.lean ====
section
/-!
DEFINITION. Sys2Proof/Machine/Memory.lean: the places of the module and their physical addresses (R17, R228,
R398, R399), the tile directory's classes (R258 to R260), the poison marker (R486), and the one
operation that writes bytes at a place (R332, R261).
-/

namespace Sys2Proof.Machine

/-! ## Group slots, cells, clusters and dies (R17, R132) -/

/-- The logical cell of a group slot code `8 × cell + 4 × set + slot`. -/
def cellOf (g : Nat) : Nat := g / 8

/-- The slot set of a group slot code. -/
def setOf (g : Nat) : Nat := g / 4 % 2

/-- The slot within its set. -/
def slotOf (g : Nat) : Nat := g % 4

/-- The cluster of the module, `8 × die + cluster`. -/
def clusterOf (g : Nat) : Nat := g / 64

/-- The die of a group slot. -/
def dieOf (g : Nat) : Nat := g / 512

/-- The code of a group slot. -/
def groupCode (cell set slot : Nat) : Nat := cell * 8 + set * 4 + slot

/-- A directory entry that reads ZERO (R258). -/
def TileEntry.zero (t : Tag) : TileEntry := { cls := .zero, tag := t, nf := false, poison := false, cval := 0 }

/-- A Free channel (R308). -/
def Channel.free : Channel :=
  { st := .free, base := 0, n := [], s := [], esz := 0, tag := .s8, vd := 0, lmul := 1, taken := 0, buf := [], dst := 0
    depth := 0, filled := 0, released := 0, tke := false, tkf := 0, owed := 0, fstrip := 0, why := 0, arrived := [], held := [], asked := 0, closing := false }

/-- A group that owns nothing. -/
def Holding.none : Holding := { tiles := 0, accs := 0, chans := 0, cstore := 0, bstore := 0, csPieces := [], bPieces := [] }

/-- A slot in which no group stands: every register 0 (notes/assumptions/7). -/
def Group.idle : Group :=
  { phase := .ended, level := .user, pc := 0, x := Vector.replicate 32 0, v := Vector.replicate 32 0
    vtag := Vector.replicate 32 .s8, m := Vector.replicate 8 0, t := Vector.replicate 8 0
    tdir := Vector.replicate 8 (TileEntry.zero .e4m3), a := Vector.replicate 4 0, adir := Vector.replicate 4 (TileEntry.zero .f32)
    laneFlags := Vector.replicate 16 0, ctlFlags := 0, mfl := 0, xfl := 0, xen := 0, vl := 0, vcfg := 0, vresume := 0, xmod := 0
    xctl := 0, collg := 0, collop := 0, collstride := 0x10000, collDone := 0, collFailn := 0, collFl := 0, collOf := false
    collIssued := 0, grpid := 0, kernid := 0, ngroups := 0, kargs := 0, retired := 0, melided := 0, missued := 0, trapcause := 0
    trappc := 0, trapaddr := 0, trapelem := 0, trapstat := 0, trapvec := 0, scratch := Vector.replicate 4 0, wdoglim := 0, wdog := 0
    interrupted := none, resume := false, sfrq := [], causes := [], convoys := [], slices := Vector.replicate 4 [], sent := []
    late := none, dataWait := none, async := [], maxa := 0, maxb := 0, pmark := false, fifos := Vector.replicate 16 0
    chan := Vector.replicate 16 Channel.free, tickets := [], recvs := [], ring := none, items := [], lastPhase := none
    yield := none, hold := Holding.none, barPending := none, barPast := false, seq := 0 }

/-- Whether a group has Ended or is Terminated (R128). -/
def Group.over (G : Group) : Bool := decide (G.phase = .ended ∨ G.phase = .terminated)

/-- The group of a slot. -/
def State.group (s : State) (g : Nat) : Group := s.groups.findD g Group.idle

/-- The state with the group of a slot replaced. -/
def State.putGroup (s : State) (g : Nat) (G : Group) : State := { s with groups := s.groups.put g G }

/-- The group whose instruction is executed. -/
def State.own (s : State) : Group := s.group s.cur

/-- The state with that group replaced. -/
def State.putOwn (s : State) (G : Group) : State := s.putGroup s.cur G

/-- A slot set. -/
def State.slotSet (s : State) (t : Nat) : SlotSet := if t = 0 then s.set0 else s.set1

/-- The state with a slot set replaced. -/
def State.putSet (s : State) (t : Nat) (S : SlotSet) : State := if t = 0 then { s with set0 := S } else { s with set1 := S }

/-- A cell. -/
def State.cell (s : State) (c : Nat) : CellState := s.cells.findD c CellState.fresh

/-- The state with a cell replaced. -/
def State.putCell (s : State) (c : Nat) (C : CellState) : State := { s with cells := s.cells.put c C }

/-! ## The physical space (R398, R399) -/

/-- Bytes of one HBM stack. -/
def stackBytes : Nat := 0x1000000000

/-- The offset in a die of its die pool. -/
def dpoolBase : Nat := 0x2000000000

/-- The offset of cluster pool 0. -/
def cpoolBase : Nat := 0x2008000000

/-- The offset of cell store 0. -/
def cstoreBase : Nat := 0x2010000000

/-- The offset of B-store 0. -/
def bstoreBase : Nat := 0x2080000000

/-- Bytes of a cluster pool, a die pool, a cell store and a B-store (R228). -/
def cpoolBytes : Nat := 0x1000000
def dpoolBytes : Nat := 0x8000000
def cstoreBytes : Nat := 0x80000
def bstoreBytes : Nat := 0x2000000

/-- Bytes of a B-store tile (R257). -/
def tileBytes : Nat := 1536

/-- The physical address of an offset in a die. -/
def diePA (die off : Nat) : Nat := die * 2 ^ 38 + off

/-- PA[51]: host memory (R355). -/
def paHost (pa : Nat) : Bool := decide (pa / 2 ^ 51 % 2 = 1)

/-- PA[50]: another module (R398). -/
def paModule (pa : Nat) : Bool := decide (pa / 2 ^ 50 % 2 = 1)

/-- The die field, PA[40:38]. -/
def paDie (pa : Nat) : Nat := pa / 2 ^ 38 % 8

/-- The offset in the die, PA[37:0]. -/
def paOff (pa : Nat) : Nat := pa % 2 ^ 38

/-- Whether every one of `n` bytes from an offset of a die names a place (R399), with the stacks in use (R453). -/
def offsetNamed (use : BitVec 16) (die lo n : Nat) : Bool :=
  let in0 := use.getLsbD (2 * die)
  let in1 := use.getLsbD (2 * die + 1)
  (in0 && decide (lo + n ≤ stackBytes)) || (in1 && decide (stackBytes ≤ lo ∧ lo + n ≤ 2 * stackBytes)) ||
  (in0 && in1 && decide (lo + n ≤ 2 * stackBytes)) ||
  decide (dpoolBase ≤ lo ∧ lo + n ≤ cstoreBase + 64 * cstoreBytes) ||
  decide (bstoreBase ≤ lo ∧ lo + n ≤ bstoreBase + 64 * bstoreBytes)

/-- The B-store that a place of this module lies in: its cell and the offset there. -/
def paBstore (pa : Nat) : Option (Nat × Nat) :=
  if paHost pa || paModule pa then none
  else if bstoreBase ≤ paOff pa ∧ paOff pa < bstoreBase + 64 * bstoreBytes then
    some (paDie pa * 64 + (paOff pa - bstoreBase) / bstoreBytes, (paOff pa - bstoreBase) % bstoreBytes)
  else none

/-- The physical address of an offset of a cell's B-store. -/
def bstorePA (cell off : Nat) : Nat := diePA (cell / 64) (bstoreBase + cell % 64 * bstoreBytes + off)

/-- The physical address of an offset of a cell's cell store. -/
def cstorePA (cell off : Nat) : Nat := diePA (cell / 64) (cstoreBase + cell % 64 * cstoreBytes + off)

/-- The physical address of an offset of a cluster's pool. -/
def cpoolPA (cluster off : Nat) : Nat := diePA (cluster / 8) (cpoolBase + cluster % 8 * cpoolBytes + off)

/-- The least scope of R333 that holds a place, for a group. -/
def scopeOf (g pa : Nat) : Nat :=
  if paHost pa || paModule pa then 5
  else if paDie pa ≠ dieOf g then 4
  else
    let o := paOff pa
    let c := cellOf g % 64
    if cstoreBase ≤ o ∧ o < cstoreBase + 64 * cstoreBytes then
      (if (o - cstoreBase) / cstoreBytes = c then 1 else if (o - cstoreBase) / cstoreBytes / 8 = c / 8 then 2 else 3)
    else if bstoreBase ≤ o then
      (if (o - bstoreBase) / bstoreBytes = c then 1 else if (o - bstoreBase) / bstoreBytes / 8 = c / 8 then 2 else 3)
    else if cpoolBase ≤ o ∧ o < cpoolBase + 8 * cpoolBytes ∧ (o - cpoolBase) / cpoolBytes = c / 8 then 2
    else 3

/-! ## Tile classes (R258, R259) -/

/-- Whether a test holds for all of `n` elements, each `w` bits wide, from index `i` on. -/
def allElems (p : Nat → Nat → Bool) (w : Nat) : Nat → Nat → Nat → Bool
  | 0, _, _ => true
  | n + 1, i, b => p i (b % 2 ^ w) && allElems p w n (i + 1) (b / 2 ^ w)

/-- Whether a pattern is an infinity or a NaN under its tag. -/
def notFinite (t : Tag) (p : Nat) : Bool :=
  tagIsFloat t && (match unpack t p with | .fin _ _ _ => false | _ => true)

/-- The pattern of +1 in a tag. -/
def onePattern (t : Tag) : Nat := if tagIsFloat t then (roundNum t 0 (.fin false 1 0)).1 else 1

/-- The operands whose entries are classified (R259). -/
inductive TileKind where
  | reg | acc | bstore
  deriving DecidableEq, Repr

/-- The number of elements of a tile (R259). -/
def TileKind.elems (k : TileKind) (t : Tag) : Nat :=
  match k with
  | .reg => 16 * (384 / tagWidth t)
  | .bstore => 32 * (384 / tagWidth t)
  | .acc => if t = .f64 then 256 else 512

/-- NF of R259. -/
def tileNF (k : TileKind) (t : Tag) (b : Nat) : Bool :=
  !(allElems (fun _ p => !notFinite t p) (tagWidth t) (k.elems t) 0 b) ||
  (decide (k = .reg) && !(allElems (fun _ p => decide (p ≠ 0xFF)) 8 48 0 b))

/-- The class of R259 with CVAL. -/
def tileClass (k : TileKind) (t : Tag) (b : Nat) : TileClass × BitVec 32 :=
  let w := tagWidth t
  let first := b % 2 ^ w
  if b = 0 then (.zero, 0)
  else if w ≤ 32 ∧ t ≠ .f64 ∧ allElems (fun _ p => decide (p = first)) w (k.elems t) 0 b ∧ !tileNF k t b then
    (.const, BitVec.ofNat 32 first)
  else if k ≠ .acc ∧ t ≠ .f64 ∧
      allElems (fun i p => decide (p = if i / (384 / w) = i % (384 / w) then onePattern t else 0)) w (k.elems t) 0 b then
    (.ident, 0)
  else (.general, 0)

/-- The entry of a tile written whole or in part: classified under the tag, POISON as given (R260, R269). -/
def classify (k : TileKind) (t : Tag) (poison : Bool) (b : Nat) : TileEntry :=
  let c := tileClass k t b
  { cls := c.1, tag := t, nf := tileNF k t b, poison := poison, cval := c.2 }

/-- The key of a B-store tile in the directory: tile `n` of a cell's B-store. -/
def tileKey (cell n : Nat) : Nat := cell * 32768 + n

/-- The bytes of a range of memory as one number. -/
def memSum (lo n : Nat) : List Host.Cell → Nat
  | [] => 0
  | (a, v) :: t => (if lo ≤ a ∧ a < lo + n then v.toNat * 256 ^ (a - lo) else 0) + memSum lo n t

/-- The directory entry of a B-store tile. -/
def State.bTile (s : State) (cell n : Nat) : TileEntry := s.bdir.findD (tileKey cell n) (TileEntry.zero .e4m3)

/-- A B-store tile's bits. -/
def State.bBits (s : State) (cell n : Nat) : Nat := memSum (bstorePA cell (n * tileBytes)) tileBytes s.mem

/-- The directory after a write to some tiles of a cell's B-store (R260): under the writer's tag, or the
entry's own; POISON as given, or kept. -/
def State.reclassify (s : State) (cell : Nat) (tag : Option Tag) (poison : Option Bool) : List Nat → State
  | [] => s
  | n :: ns =>
    let e := s.bTile cell n
    let e' := classify .bstore (tag.getD e.tag) (poison.getD e.poison) (s.bBits cell n)
    State.reclassify { s with bdir := s.bdir.put (tileKey cell n) e' } cell tag poison ns

/-! ## Reading and writing places -/

/-- The 8-byte words that some bytes touch. -/
def wordsOf (pa n : Nat) : List Nat := if n = 0 then [] else upFrom (pa / 8) ((pa + n - 1) / 8 + 1 - pa / 8)

/-- The 8-byte words that some bytes cover whole. -/
def wholeWords (pa n : Nat) : List Nat := upFrom ((pa + 7) / 8) ((pa + n) / 8 - (pa + 7) / 8)

/-- The tiles of a B-store that `n` bytes from an offset touch. -/
def tilesOf (off n : Nat) : List Nat :=
  if n = 0 then [] else upFrom (off / tileBytes) ((off + n - 1) / tileBytes + 1 - off / tileBytes)

/-- Whether bytes of this module are found as uncorrectable data (R486, R269). -/
def State.badData (s : State) (pa n : Nat) : Bool :=
  (wordsOf pa n).any (fun w => s.poison.contains w || s.uncorr.contains w) ||
  (match paBstore pa with
   | some (cell, off) => (tilesOf off n).any (fun t => (s.bTile cell t).poison)
   | none => false)

/-- WFE waits on the 128-byte line of a write, by any agent but the group itself (R96). What the group's own engines and channels write counts
as its own (DESIGN CHOICE, notes/assumptions/78). -/
def touchGroup (by_ : Option Nat) (lo n : Nat) (g : Nat) (G : Group) : Group :=
  match G.phase with
  | .waiting (.event line false) =>
    if by_ ≠ some g ∧ lo / 128 ≤ line ∧ line ≤ (lo + n - 1) / 128 then { G with phase := .waiting (.event line true) } else G
  | _ => G

/-- Every group told of a write (R96). -/
def State.touch (s : State) (by_ : Option Nat) (lo n : Nat) : State :=
  { s with groups := s.groups.map fun e => (e.1, touchGroup by_ lo n e.1 e.2) }

/-- The tile directory after bytes of a place changed (R260). -/
def State.retile (s : State) (tag : Option Tag) (poison : Option Bool) (pa n : Nat) : State :=
  match paBstore pa with
  | some (cell, off) => s.reclassify cell tag poison (tilesOf off n)
  | none => s

/-- Bytes written at a place of this module or at a host address: stored in one step, the marker and stored
errors of every word covered whole cleared, the tile directory brought up to date, waits on the line
told (R332, R261, R486). -/
def State.writeAs (s : State) (by_ : Option Nat) (tag : Option Tag) (poison : Option Bool) (pa : Nat) (data : List Byte) : State :=
  if data.isEmpty then s
  else if paHost pa then ({ s with hostMem := memPutBytes s.hostMem (pa % 2 ^ 51) data }).touch by_ pa data.length
  else
    let cover := wholeWords pa data.length
    (({ s with
        mem := memPutBytes s.mem pa data
        poison := s.poison.filter (fun w => !cover.contains w)
        uncorr := s.uncorr.filter (fun w => !cover.contains w) }).retile tag poison pa data.length).touch by_ pa data.length

/-- A plain write: the tile keeps its TAG and POISON (R260, R269). -/
def State.write (s : State) (by_ : Option Nat) (pa : Nat) (data : List Byte) : State := s.writeAs by_ none none pa data

/-- The marker set on every word of some bytes (R486). -/
def State.mark (s : State) (pa n : Nat) : State :=
  if paHost pa then s else { s with poison := (wordsOf pa n).foldl setAdd s.poison }

/-- The bytes at a place of this module or at a host address. -/
def State.readAt (s : State) (pa n : Nat) : List Byte :=
  if paHost pa then memBytes s.hostMem (pa % 2 ^ 51) n else memBytes s.mem pa n

/-- Bytes written over runs of places, in order. -/
def State.writeRuns (s : State) (by_ : Option Nat) (tag : Option Tag) (poison : Option Bool) : List (Nat × Nat) → List Byte → State
  | [], _ => s
  | (pa, n) :: rs, data => State.writeRuns (s.writeAs by_ tag poison pa (data.take n)) by_ tag poison rs (data.drop n)

/-- The bytes of runs of places. -/
def State.readRuns (s : State) : List (Nat × Nat) → List Byte
  | [] => []
  | (pa, n) :: rs => s.readAt pa n ++ s.readRuns rs

/-- The runs of some bytes of a window part that lies in pieces: each piece a physical address and a
length (R130). -/
def pieceRuns (base : Nat) : List (Nat × Nat) → Nat → Nat → List (Nat × Nat)
  | [], _, _ => []
  | (p, len) :: ps, off, n =>
    if n = 0 then []
    else if off ≥ len then pieceRuns base ps (off - len) n
    else
      let k := min n (len - off)
      (base + p + off, k) :: pieceRuns base ps 0 (n - k)

/-- The runs of `n` bytes at an offset of a group's window (R228, R229); none when a byte lies outside the
owner's part. A pool part of set 0 stands at the pool's start, one of set 1 at its end
(notes/assumptions/12). -/
def State.window (s : State) (g win off n : Nat) : Option (List (Nat × Nat)) :=
  let h := (s.group g).hold
  let S := s.slotSet (setOf g)
  let cp := (S.img.map Image.cpool).getD 0
  let dp := (S.img.map Image.dpool).getD 0
  match win with
  | 0xF0 => if off + n ≤ h.cstore then some (pieceRuns (cstorePA (cellOf g) 0) h.csPieces off n) else none
  | 0xF1 =>
    if off + n ≤ cp then
      some [(cpoolPA (clusterOf g) (if setOf g = 0 then off else cpoolBytes - cp + off), n)]
    else none
  | 0xF2 => if off + n ≤ h.bstore then some (pieceRuns (bstorePA (cellOf g) 0) h.bPieces off n) else none
  | 0xF3 =>
    if off + n ≤ dp then
      some [(diePA (dieOf g) (dpoolBase + (if setOf g = 0 then off else dpoolBytes - dp + off)), n)]
    else none
  | _ => none

end Sys2Proof.Machine
end

