-- ==== Sys2Proof/Config.lean ====
section
/-!
DEFINITION. Sys2Proof/Config.lean: what an implementation fixes (part identity, fuses) and the free values:
opaque constants without a body for the values the spec leaves open (notes/assumptions/3).
-/

namespace Sys2Proof.Config

/-- STEP: stepping B1 (R456). -/
def step : Nat := 0xB1

/-- FWREL: Satha 4.2, major in the upper byte (R456). -/
def fwrel : Nat := 0x0402

/-- FREE VALUE: where, between two neighbours of a result of R74, the device changes from the lower to the
upper one. `function`, `tag code` and the lower neighbour's place in the order of the format name the gap;
the answer is an operand's place in that order. -/
opaque cut : Nat → Nat → Int → Int

/-- FREE VALUE: the physical row fused off in a cluster of the module (R16, R456), as a raw number that the
reader of the defect map reduces to 0 to 8. -/
opaque fusedRow : Nat → Nat

/-- FREE VALUE: the module number in the mesh (R132, R456), as a raw number reduced to 12 bits. -/
opaque moduleNumber : Nat

/-- FREE VALUE: the digest of the firmware that an attestation report holds (R460). -/
opaque firmwareDigest : List Byte

/-- FREE VALUE: the digest of a resident image that an attestation report holds (R460). -/
opaque imageDigest : Image → List Byte

/-- FREE VALUE: the layout of an attestation report over a number of resident images (R460): which field stands at a byte of it, with the
byte of the field; none for a byte of the signature or of what surrounds the fields. -/
opaque reportPlace : Nat → Nat → Option (Nat × Nat)

/-- FREE VALUE: a byte of an attestation report that belongs to no field, its signature's among them (R460): the fields, which report of the
module's life, and which byte of it. -/
opaque reportByte : List (List Byte) → Nat → Nat → Byte

/-- FREE VALUE: the length of an attestation report with its signature (R460). -/
opaque reportLength : Nat → Nat

/-- FREE VALUE: what a `renorm` stores of a block that no exponent of R303 fits (a mantissa of −32,768 beside an odd
one): the run's counter, the block's number, and 0 for the exponent byte or 1 to 64 for a mantissa. -/
opaque renormFree : Nat → Nat → Nat → Nat

/-- FREE VALUE: how many payload bytes had landed when a message's link was lost (R437), as a raw number reduced to the
message's length; the run's counter. -/
opaque landedBytes : Nat → Nat

/-- FREE VALUE: the bytes that a spilled message leaves in the spill area (R434 gives no layout): the run's counter and
the byte's place. -/
opaque spillByte : Nat → Nat → Byte

/-- FREE VALUE: the number of the context in an image of the host's that a LOAD command names, before firmware has read it (R81), as a raw
number reduced to 16 bits; the run's counter. -/
opaque loadNumber : Nat → Nat

/-- FREE VALUE: how many core clocks a cell's own clock counts beyond one in a clock of the model (R25, R176): the cell, and the
clock. -/
opaque extraClocks : Nat → Nat → Nat

end Sys2Proof.Config
end

