-- ==== Sys2Proof/Machine/Translate.lean ====
section
/-!
DEFINITION. Sys2Proof/Machine/Translate.lean: page-table walks, malformed entries, permissions, the TLBs, the
miss tables and ATS (spec/17_page: R353 to R362, R371; spec/19_link R400; spec/21_system R446). A walk
in hardware mode is read in one step; a TLB evicts its oldest entry (notes/assumptions/13).
-/

namespace Sys2Proof.Machine

/-- What an access needs of its leaf (R357): the kinds of PGPROBE, a KV read, and an MCST write (R411). -/
inductive Kind where
  | load | store | atomic | fetch | kv | replica
  deriving DecidableEq, Repr

/-- The code of a kind in a translation request (R372, R452). -/
def Kind.code : Kind → Nat
  | .load => 0 | .store => 1 | .atomic => 2 | .fetch => 3 | .kv => 4 | .replica => 1

/-- A bit of a table entry. -/
def entryBit (e k : Nat) : Bool := decide (e / 2 ^ k % 2 = 1)

/-- PA of an entry (R355). -/
def entryPA (e : Nat) : Nat := e / 2 ^ 12 % 2 ^ 40 * 2 ^ 12

/-- REP of a leaf (R355). -/
def entryRep (e : Nat) : Nat := e / 4 % 4

/-- Whether a leaf gives an access what it needs (R357, R411). -/
def permits (k : Kind) (leaf : Nat) : Bool :=
  match k with
  | .load => entryBit leaf 4
  | .store => entryBit leaf 5
  | .atomic => entryBit leaf 4 && entryBit leaf 5
  | .fetch => entryBit leaf 6
  | .kv => entryBit leaf 4 && entryBit leaf 9
  | .replica => entryBit leaf 5 && entryBit leaf 10

/-- The index that an address gives at a level (R354). -/
def levelIndex (lvl va : Nat) : Nat :=
  match lvl with
  | 5 => va / 2 ^ 48 % 256
  | 4 => va / 2 ^ 39 % 512
  | 3 => va / 2 ^ 30 % 512
  | 2 => va / 2 ^ 24 % 64
  | 1 => va / 2 ^ 18 % 64
  | _ => va / 2 ^ 12 % 64

/-- The size and alignment of a table of a level (R354). -/
def tableSize (lvl : Nat) : Nat :=
  match lvl with
  | 5 => 2048
  | 4 => 4096
  | 3 => 4096
  | _ => 512

/-- log2 of the page that a leaf of a level maps (R354, R355). -/
def pageLog (lvl leaf : Nat) : Nat :=
  match lvl with
  | 3 => 30
  | 2 => 24 + 2 * entryRep leaf
  | 1 => 18 + 2 * entryRep leaf
  | _ => 12 + 2 * entryRep leaf

/-- A leaf whose page names no place, or whose aperture entry is not valid (R400). -/
def leafPlaceless (use : BitVec 16) (ap : List Aperture) (leaf log : Nat) : Bool :=
  let pa := entryPA leaf
  if paHost pa then false
  else if paModule pa then
    !(ap.any fun a => decide (a.index = pa / 2 ^ 41 % 512)) || !offsetNamed 0xFFFF (paDie pa) (paOff pa) (2 ^ log)
  else decide (pa / 2 ^ 41 % 512 ≠ 0) || !offsetNamed use (paDie pa) (paOff pa) (2 ^ log)

/-- A malformed leaf (R356, R400). -/
def badLeaf (use : BitVec 16) (ap : List Aperture) (lvl e : Nat) : Bool :=
  let log := pageLog lvl e
  entryRep e == 3 || decide (lvl ≥ 4) || (lvl == 3 && entryRep e != 0) ||
  decide (entryPA e % 2 ^ log ≠ 0) || (entryBit e 5 && !entryBit e 4) || (entryBit e 9 && log != 16) ||
  (entryBit e 8 && (!entryBit e 7 || paHost (entryPA e))) || leafPlaceless use ap e log

/-- A malformed table pointer (R356); one that leads out of the module's memory is malformed as well
(notes/assumptions/15). -/
def badPointer (use : BitVec 16) (lvl e : Nat) : Bool :=
  let pa := entryPA e
  lvl == 0 || paHost pa || paModule pa || decide (pa % tableSize (lvl - 1) ≠ 0) || decide (e / 4 % 512 ≠ 0) ||
  decide (pa / 2 ^ 41 % 512 ≠ 0) || !offsetNamed use (paDie pa) (paOff pa) (tableSize (lvl - 1))

/-- A malformed entry with V = 1 (R356). -/
def malformed (use : BitVec 16) (ap : List Aperture) (lvl e : Nat) : Bool :=
  decide (e / 2 ^ 52 ≠ 0) || entryBit e 11 || (if entryBit e 1 then badLeaf use ap lvl e else badPointer use lvl e)

/-- What a walk finds: a leaf with log2 of its page, or the reason of R362; with the table pointers it read
at levels 5 to 3 (each the level of the table it leads to, and its base). -/
structure WalkResult where
  leaf : Except Nat (Nat × Nat)
  pointers : List (Nat × Nat)

/-- A walk from the table of a level (R354 to R356). -/
def State.walkAt (s : State) (ap : List Aperture) (va : Nat) : Nat → Nat → List (Nat × Nat) → WalkResult
  | lvl, base, seen =>
    let place := base + 8 * levelIndex lvl va
    if s.badData place 8 then { leaf := .error 5, pointers := seen }
    else
      let e := memSum place 8 s.mem
      if !entryBit e 0 then { leaf := .error 1, pointers := seen }
      else if malformed s.hbmuse ap lvl e then { leaf := .error 3, pointers := seen }
      else if entryBit e 1 then { leaf := .ok (e, pageLog lvl e), pointers := seen }
      else
        match lvl with
        | 0 => { leaf := .error 3, pointers := seen }
        | l + 1 => State.walkAt s ap va l (entryPA e) (if lvl ≥ 3 then (l, entryPA e) :: seen else seen)

/-- log2 of the addresses that a table of a level maps. -/
def levelSpan (lvl : Nat) : Nat :=
  match lvl with
  | 4 => 48
  | 3 => 39
  | _ => 30

/-- A walker cache entry of a level for an address (R358). -/
def walkHit (c : List WalkEntry) (ctx lvl va : Nat) : Option Nat :=
  (c.find? fun e => e.ctx == ctx && e.level == lvl && e.upper == va / 2 ^ levelSpan lvl).map WalkEntry.base

/-- log2 of the addresses of one table entry: a replicated leaf's page spans several (R355). -/
def spanLog (leaf log : Nat) : Nat := if log = 30 then 30 else log - 2 * entryRep leaf

/-- The TLB entry of a leaf for an address: a walk has read it at the address's own index, the host has answered it for its whole page. -/
def tlbEntry (host : Bool) (ctx va leaf log : Nat) : TlbEntry :=
  { ctx := ctx, base := va / 2 ^ log, size := log, leaf := leaf, index := if host then none else some (va / 2 ^ spanLog leaf log) }

/-- A TLB entry that holds an address (R353, R358): one that a walk has read holds the addresses of its own index (R355). -/
def tlbHit (l : List TlbEntry) (ctx va : Nat) : Option TlbEntry :=
  l.find? fun e => e.ctx == ctx && e.base == va / 2 ^ e.size && (match e.index with | some i => i == va / 2 ^ spanLog e.leaf e.size | none => true)

/-- An entry added at the end of a TLB of a size; the oldest leaves a full one. -/
def tlbAdd (cap : Nat) (l : List TlbEntry) (e : TlbEntry) : List TlbEntry :=
  let l' := l.filter (fun x => decide (x ≠ e)) ++ [e]
  l'.drop (l'.length - cap)

/-- The walker cache with pointers of a walk added. -/
def walkAdd (ctx va : Nat) (c : List WalkEntry) (p : Nat × Nat) : List WalkEntry :=
  let e : WalkEntry := { ctx := ctx, level := p.1, upper := va / 2 ^ levelSpan p.1, base := p.2 }
  let c' := c.filter (fun x => decide (x ≠ e)) ++ [e]
  c'.drop (c'.length - 512)

/-- A translation's outcome: the place with the leaf and the page's size, a failure with its reason, or a wait
for another party. -/
inductive Tr where
  | ok (pa leaf log : Nat)
  | fail (sub : Nat)
  | wait
  deriving DecidableEq, Repr

/-- The TLBs with an entry installed for a die and a cell; the misses of its page that wait end (R359). -/
def Xlate.install (x : Xlate) (set die : Nat) (cell : Option Nat) (e : TlbEntry) : Xlate :=
  let gone := fun (m : Miss) => m.set == set && m.answer.isNone && m.granule * 4096 / 2 ^ e.size == e.base
  { x with
    dies := x.dies.put die (tlbAdd 1024 (x.dies.findD die []) e)
    cells := (match cell with
      | some c => x.cells.put c (tlbAdd 64 (x.cells.findD c []) e)
      | none => x.cells)
    misses := x.misses.put die ((x.misses.findD die []).filter fun m => !gone m) }

/-- The ATS translation that an access to host memory needs when the host has enabled ATS (R446). -/
def Xlate.askAts (x : Xlate) (enabled : Bool) (set va : Nat) (t : Tr) : Xlate × Tr :=
  match t with
  | .ok pa leaf log =>
    if enabled && paHost pa then
      match x.ats.find? (fun r => r.set == set && r.page == va / 4096) with
      | some r =>
        match r.st with
        | .granted => (x, .ok pa leaf log)
        | .failed => ({ x with ats := x.ats.filter fun q => q.id != r.id }, .fail 6)
        | _ => (x, .wait)
      | none =>
        ({ x with
           ats := x.ats ++ [{ id := x.nextAts, set := set, page := va / 4096, st := .asking }], nextAts := x.nextAts + 1 }, .wait)
    else (x, .ok pa leaf log)
  | other => (x, other)

/-- The page of a host address that a device access names itself, as the ATS records know it: above every page of a virtual address. -/
def hostPage (pa : Nat) : Nat := 2 ^ 44 + pa / 4096

/-- The ATS translations of a device access to pages of host memory that it names itself (R446): granted, failed, or awaited. -/
def Xlate.hostPages (x : Xlate) (enabled : Bool) (set : Nat) : List Nat → Xlate × Tr
  | [] => (x, .ok 0 0 0)
  | p :: ps =>
    match x.askAts enabled set (hostPage p * 4096) (.ok (2 ^ 51) 0 12) with
    | (x1, .ok _ _ _) => Xlate.hostPages x1 enabled set ps
    | other => other

/-- A device access of firmware or an engine to `n` bytes of host memory. -/
def State.hostAccess (s : State) (set pa n : Nat) : State × Tr :=
  let r := s.tr.hostPages s.port.ats set ((upFrom 0 (n / 4096 + 2)).filterMap fun i =>
    if pa / 4096 * 4096 + 4096 * i < pa + n then some (pa / 4096 * 4096 + 4096 * i) else none)
  ({ s with tr := r.1 }, r.2)

/-- A leaf found for an access: its permissions are checked, and a translation that does not fail is installed
(R357, R361). -/
def Xlate.settle (x : Xlate) (ats host : Bool) (ctx set die : Nat) (cell : Option Nat) (k : Kind) (va leaf log : Nat) : Xlate × Tr :=
  if permits k leaf then
    (x.install set die cell (tlbEntry host ctx va leaf log)).askAts ats set va
      (.ok (entryPA leaf + va % 2 ^ log) leaf log)
  else (x, .fail 2)

/-- A walk by the die's walkers, from the lowest table pointer the walker cache holds (R358). -/
def State.hardwareWalk (s : State) (im : Image) (die va : Nat) : WalkResult :=
  let c := s.tr.walks.findD die []
  match walkHit c im.num 2 va with
  | some b => s.walkAt im.apertures va 2 b []
  | none =>
    match walkHit c im.num 3 va with
    | some b => s.walkAt im.apertures va 3 b []
    | none =>
      match walkHit c im.num 4 va with
      | some b => s.walkAt im.apertures va 4 b []
      | none => s.walkAt im.apertures va 5 im.root []

/-- An access as a miss knows it: its group, 4096 for a unit's, the code of its kind, and which of the group's it is: 0 for the instruction
that the control thread executes, `queueId` of an access in a slice queue, and the numbers of engineId for its other paths. -/
def waiterOf (who : Option Nat) (k : Kind) (id : Nat) : Nat × Nat × Nat := (who.getD 4096, k.code, id)

/-- An access of a slice queue, as a miss knows it. -/
def queueId (seq : Nat) : Nat := 2 * seq + 2

/-- A group's asynchronous path, its transform entries and its channels, as a miss knows them. -/
def engineId (n : Nat) : Nat := 2 * n + 1

/-- A miss that an access has left; an answered one that no access has still to meet leaves the table. -/
def Miss.leave (m : Miss) (me : Nat × Nat × Nat) : Option Miss :=
  let l := m.joined.filter fun q => q != me
  if m.answer.isSome && l.isEmpty then none else some { m with joined := l }

/-- The misses that occupy a die's table: those that wait (R359). An answered one stands only until its accesses have met the answer. -/
def waitingMisses (ms : List Miss) : Nat := (ms.filter fun m => m.answer.isNone).length

/-- An access enters the miss table of its die, one entry per granule, or joins the entry that stands there (R359); it
stalls while the table of 4,096 is full. -/
def Xlate.joinMiss (x : Xlate) (set die : Nat) (who : Option Nat) (k : Kind) (va id : Nat) : Xlate × Tr :=
  let ms := x.misses.findD die []
  let me := waiterOf who k id
  let open_ := fun (m : Miss) => m.set == set && m.granule == va / 4096 && m.answer.isNone
  if ms.any open_ then
    let join := fun (m : Miss) => if open_ m then { m with idle := false, joined := m.joined.filter (fun q => q != me) ++ [me] } else m
    ({ x with misses := x.misses.put die (ms.map join) }, .wait)
  else if waitingMisses ms < 4096 then
    let m : Miss := { set := set, granule := va / 4096, request := none, kind := k.code, idle := false, answer := none, joined := [me] }
    ({ x with misses := x.misses.put die (ms ++ [m]) }, .wait)
  else (x, .wait)

/-- A host's answer as an access takes it (R360): a leaf found good for it, or why it fails. The answer is taken as a level 0
leaf (notes/assumptions/16). -/
def answerLeaf (use : BitVec 16) (im : Image) (k : Kind) (a : Option Nat) : Except Nat Nat :=
  match a with
  | none => .error 6
  | some leaf =>
    if !entryBit leaf 0 then .error 1
    else if malformed use im.apertures 0 leaf || !entryBit leaf 1 then .error 3
    else if permits k leaf then .ok leaf else .error 2

/-- A last-level miss in host-assisted mode (R360): every access that has joined a miss completes from its answer, once, but for the
instruction that a control thread executes, whose accesses may all have to be met again before it completes; any other access
enters the miss table. -/
def Xlate.hostMiss (x : Xlate) (ats : Bool) (use : BitVec 16) (im : Image) (set die : Nat) (who : Option Nat) (k : Kind) (va id : Nat) :
    Xlate × Tr :=
  let ms := x.misses.findD die []
  let me := waiterOf who k id
  match ms.find? (fun m => m.set == set && m.granule == va / 4096 && m.joined.contains me && m.answer.isSome) with
  | some m =>
    let left := { x with misses := x.misses.put die (ms.filterMap fun q => if q = m then q.leave me else some q) }
    match answerLeaf use im k (m.answer.getD none) with
    | .ok leaf => (if who.isSome && decide (id = 0) then x else left).settle ats true im.num set die (who.map cellOf) k va leaf (pageLog 0 leaf)
    | .error sub => (left, .fail sub)
  | none => x.joinMiss set die who k va id

/-- Accesses of a group leave the misses that they have joined: all but those that a test keeps (R360, R361). -/
def Xlate.forget (x : Xlate) (set g : Nat) (keep : Nat → Bool) : Xlate :=
  let stay := fun (m : Miss) =>
    if m.set = set then
      let l := m.joined.filter fun q => q.1 != g || keep q.2.2
      if m.answer.isSome && l.isEmpty then none else some { m with joined := l }
    else some m
  { x with misses := x.misses.map fun p => (p.1, p.2.filterMap stay) }

/-- The translation of an address that lies in no window, for a slot set's context, on a die, through the cell's TLB when a group
asks (R353 to R362). In hardware mode an access whose granule is in the miss table, or that finds 64 walks before its
own, waits there; any other walks at once (R359, notes/assumptions/13). -/
def State.translate (s : State) (set die : Nat) (who : Option Nat) (k : Kind) (va : Nat) (id : Nat := 0) : Xlate × Tr :=
  if va / 2 ^ 48 ≥ 0xF0 then (s.tr, .fail 4)
  else
    match (s.slotSet set).img with
    | none => (s.tr, .fail 1)
    | some im =>
      let hit := (who.bind fun g => tlbHit (s.tr.cells.findD (cellOf g) []) im.num va).or (tlbHit (s.tr.dies.findD die []) im.num va)
      match hit with
      | some e => s.tr.settle s.port.ats im.hostWalk im.num set die (who.map cellOf) k va e.leaf e.size
      | none =>
        let ms := s.tr.misses.findD die []
        if im.hostWalk then s.tr.hostMiss s.port.ats s.hbmuse im set die who k va id
        else if ms.any (fun m => m.set == set && m.granule == va / 4096) || decide (ms.length ≥ 64) then s.tr.joinMiss set die who k va id
        else
          let w := s.hardwareWalk im die va
          let x := { s.tr with walks := s.tr.walks.put die (w.pointers.foldl (walkAdd im.num va) (s.tr.walks.findD die [])) }
          match w.leaf with
          | .error sub => (x, .fail sub)
          | .ok (leaf, log) => x.settle s.port.ats false im.num set die (who.map cellOf) k va leaf log

/-- PFETCH's request for a page (R249): a miss of the die unless its last-level TLB holds the page. -/
def State.prefetchPage (s : State) (set die va : Nat) : State :=
  if va / 2 ^ 48 ≥ 0xF0 then s
  else
    match (s.slotSet set).img with
    | none => s
    | some im =>
      let ms := s.tr.misses.findD die []
      if (tlbHit (s.tr.dies.findD die []) im.num va).isSome || ms.any (fun m => m.set == set && m.granule == va / 4096) ||
          decide (waitingMisses ms ≥ 4096) then s
      else
        let m : Miss := { set := set, granule := va / 4096, request := none, kind := 0, idle := true, answer := none, joined := [] }
        { s with tr := { s.tr with misses := s.tr.misses.put die (ms ++ [m]) } }

/-! ## Where an access of a group lands -/

/-- Where some bytes lie: runs of places with the leaf that maps them (0 for a window), out of range in a window
(R231, R232), a failed translation with its reason, or a wait for translation. -/
inductive Spot where
  | here (runs : List (Nat × Nat)) (leaf : Nat)
  | range
  | fail (sub : Nat)
  | wait
  deriving DecidableEq, Repr

/-- The runs of `n` translated bytes, page by page. -/
def State.pageRuns (s : State) (set die : Nat) (who : Option Nat) (k : Kind) (id : Nat) : Nat → Nat → Nat → State × Spot
  | 0, _, _ => (s, .here [] 0)
  | fuel + 1, va, n =>
    let r := s.translate set die who k va id
    let s1 := { s with tr := r.1 }
    match r.2 with
    | .fail sub => (s1, .fail sub)
    | .wait => (s1, .wait)
    | .ok pa leaf log =>
      let room := 2 ^ log - va % 2 ^ log
      if n ≤ room then (s1, .here [(pa, n)] leaf)
      else
        match State.pageRuns s1 set die who k id fuel (va + room) (n - room) with
        | (s2, .here rs _) => (s2, .here ((pa, room) :: rs) leaf)
        | other => other

/-- Where `n` bytes of a group's address lie: a window, or the context's pages (R229, R353). `id` says which of the group's accesses asks
(R360). -/
def State.look (s : State) (g : Nat) (k : Kind) (va n : Nat) (id : Nat := 0) : State × Spot :=
  let win := va / 2 ^ 48
  if va ≥ 2 ^ 56 ∨ win ≥ 0xF4 then (s, .fail 4)
  else if win ≥ 0xF0 then
    match s.window g win (va % 2 ^ 48) n with
    | some rs => (s, .here rs 0)
    | none => (s, .range)
  else s.pageRuns (setOf g) (dieOf g) (some g) k id (n / 4096 + 2) va n

/-- Whether an address lies in one of the four windows (R229). -/
def inWindow (va : Nat) : Bool := decide (0xF0 * 2 ^ 48 ≤ va ∧ va < 0xF4 * 2 ^ 48)

/-- HS of the page of an access (R336). -/
def leafHS (leaf : Nat) : Bool := entryBit leaf 7

/-- SA, SYSATOM, of the page of an access (R351). -/
def leafSA (leaf : Nat) : Bool := entryBit leaf 8

/-- How an access reaches its place: on the group's own die, on another die of the module, in host memory, or on
another module (R331, R408). -/
inductive Reach where
  | local_ | die | host | module
  deriving DecidableEq, Repr

/-- How a group reaches a place. -/
def reachOf (g pa : Nat) : Reach :=
  if paHost pa then .host else if paModule pa then .module else if paDie pa = dieOf g then .local_ else .die

/-! ## Dropping translations (R353, R371, R400) -/

/-- The entries of a context whose page holds an address dropped, with every walker cache entry of the
context (R371, xb = 0). -/
def Xlate.dropPage (x : Xlate) (ctx set va : Nat) : Xlate :=
  let keep := fun (e : TlbEntry) => !(e.ctx == ctx && e.base == va / 2 ^ e.size)
  { x with
    cells := x.cells.map fun p => (p.1, p.2.filter keep)
    dies := x.dies.map fun p => (p.1, p.2.filter keep)
    walks := x.walks.map fun p => (p.1, p.2.filter fun e => e.ctx != ctx)
    ats := x.ats.filter fun r => !(r.set == set && r.st == .granted && r.page == va / 4096) }

/-- Every entry of a context dropped (R353, R371 with xb = 1). -/
def Xlate.dropAll (x : Xlate) (ctx set : Nat) : Xlate :=
  let keep := fun (e : TlbEntry) => e.ctx != ctx
  { x with
    cells := x.cells.map fun p => (p.1, p.2.filter keep)
    dies := x.dies.map fun p => (p.1, p.2.filter keep)
    walks := x.walks.map fun p => (p.1, p.2.filter fun e => e.ctx != ctx)
    ats := x.ats.filter fun r => !(r.set == set && r.st == .granted) }

end Sys2Proof.Machine
end

