-- ==== Sys2Proof/Machine/Place.lean ====
section
/-!
DEFINITION. Sys2Proof/Machine/Place.lean: events for the host's ring (R452), completion words (R116 to R118),
fit and placement of groups with the start state (R121, R123, R129, R130), and a context becoming Active
or Faulted (R82, R85).
-/

namespace Sys2Proof.Machine

/-! ## The event ring (R452) -/

/-- A little-endian value as cells of an entry or an argument area. -/
def leCells (off n v : Nat) : List Host.Cell := memPutBytes [] off (toBytes n v)

/-- An event handed to firmware for the ring; EVENT_RING_WRITE writes it as room allows. -/
def State.post (s : State) (e : RingEntry) : State := { s with port := { s.port with waiting := s.port.waiting ++ [e] } }

/-- A request id given to a request that waits on the host (R452); ids count up from 1. -/
def State.newRequest (s : State) (r : HostRequest) : State × Nat :=
  ({ s with port := { s.port with requests := s.port.requests.put s.port.nextId r, nextId := s.port.nextId + 1 } }, s.port.nextId)

/-- The state codes of R81. -/
def CtxState.code : CtxState → Nat
  | .empty => 0 | .loading => 1 | .standby => 2 | .active => 3 | .preempting => 4 | .saved => 5 | .faulted => 6 | .retired => 7

/-- The number of a slot set's context; 0 when the set is Empty (R81). Of an image that firmware has still to read it is a free value
(notes/assumptions/75). -/
def SlotSet.num (S : SlotSet) : Nat := if S.st = .empty then 0 else (S.img.map Image.num).getD S.loadNum

/-- A slot set's context put into a state, with the event of TYPE 6 (R82, R452). -/
def State.setCtx (s : State) (t : Nat) (st : CtxState) : State :=
  let S := s.slotSet t
  let body := leCells 8 1 S.st.code ++ leCells 9 1 st.code ++ leCells 10 2 ((S.img.map Image.num).getD S.loadNum) ++
    (if st = .faulted then leCells 16 8 S.fault.toNat else [])
  (s.putSet t { S with st := st }).post { kind := 6, set := t, id := 0, body := body }

/-! ## Writes of the kernel unit -/

/-- A write at a physical address by a unit of this module for a slot set: at the place, or sent to another module. -/
def State.unitWrite (s : State) (t pa : Nat) (data : List Byte) : State :=
  if paModule pa && !paHost pa then { s with out := s.out ++ [.request pa (.write data) (groupCode 0 t 0)], outAt := s.clock }
  else s.write none pa data

/-- A slot set's kernel by number. -/
def SlotSet.kernel? (S : SlotSet) (num : Nat) : Option Kernel := S.kernels.find? fun k => k.num == num

/-- A kernel replaced in its slot set. -/
def SlotSet.putKernel (S : SlotSet) (k : Kernel) : SlotSet :=
  { S with kernels := S.kernels.map fun q => if q.num = k.num then k else q }

/-- The bits of a completion word below FAILED (R117). -/
def belowFailed : Word := BitVec.ofNat 64 (2 ^ 39 - 1)

/-- The request that makes an update of a completion word on another module: every update sets or clears bits below FAILED and adds to
FAILED, so that what it makes of two words tells it whole (R117, R118). -/
def updateKind (f : Word → Word) : RemoteKind :=
  .update (belowFailed &&& ~~~ f belowFailed) (belowFailed &&& f 0) (f 0 &&& ~~~ belowFailed)

/-- A completion word after such an update. -/
def updateWord (w clear set add : Word) : Word := ((w &&& ~~~ clear) ||| set) + add

/-- The word at a place changed in one step, for a slot set: at the place, or by a request to another module. -/
def State.unitUpdate (s : State) (t pa : Nat) (f : Word → Word) : State :=
  if paModule pa && !paHost pa then { s with out := s.out ++ [.request pa (updateKind f) (groupCode 0 t 0)], outAt := s.clock }
  else s.write none pa (toBytes 8 (f (BitVec.ofNat 64 (natOfBytes (s.readAt pa 8)))).toNat)

/-- A kernel's completion word updated by an atomic read-modify-write (R118); the unit's own state keeps the value without what programs
write there (R119). -/
def State.putWord (s : State) (t : Nat) (k : Kernel) (f : Word → Word) : State :=
  let s1 := s.putSet t ((s.slotSet t).putKernel { k with word := f k.word })
  match k.cword with
  | some pa => s1.unitUpdate t pa f
  | none => s1

/-- The STATE codes of R116. -/
def KState.code : KState → Nat
  | .queued => 1 | .placing => 2 | .placed => 3 | .done => 4 | .discarded => 5

/-- A completion word with STATE set (R117). -/
def wordState (w : Word) (st : KState) : Word := withBits w 0 3 st.code

/-- A completion word with FAILED raised (R117). -/
def wordFail (w : Word) (n : Nat) : Word := withBits w 39 25 (bits w 39 25 + n)

/-- A completion word with a group's flags ORed in (R117, R126). -/
def wordFlags (w : Word) (vfl mfl xfl : BitVec 6) (collof : Bool) : Word :=
  w ||| BitVec.ofNat 64 (vfl.toNat * 2 ^ 14 + mfl.toNat * 2 ^ 20 + xfl.toNat * 2 ^ 26 + bitNat collof * 2 ^ 32)

/-- Whether a group of a kernel still stands in its slot. -/
def State.kernelStands (s : State) (t num : Nat) : Bool := s.groups.any fun e => decide (setOf e.1 = t) && e.2.kernid == num

/-- A place as every context names it: the module with the address there; a context's aperture index gives the module (R400), and 4096
stands for the host. -/
def State.wordKey (s : State) (t pa : Nat) : Nat × Nat :=
  if paHost pa then (4096, pa)
  else if paModule pa then
    (((((s.slotSet t).img.map Image.apertures).getD []).find? fun a => decide (a.index = pa / 2 ^ 41 % 512)).elim 4097 Aperture.modn, pa % 2 ^ 41)
  else (Config.moduleNumber % 4096, pa % 2 ^ 41)

/-- Whether a place is the completion word of a kernel that has not finished, in either slot set (R119). -/
def State.wordOpen (s : State) (key : Nat × Nat) : Bool :=
  (upFrom 0 2).any fun t => (s.slotSet t).kernels.any fun k => k.cword.map (s.wordKey t) == some key

/-- Kernels that no longer depend on some words. -/
def SlotSet.dropDep (S : SlotSet) (gone : Nat → Bool) : SlotSet :=
  { S with kernels := S.kernels.map fun k => { k with deps := k.deps.filter fun d => !gone d } }

/-- A kernel that has finished satisfies the dependences on its word by the unit's own state, whatever a program writes there (R119). -/
def State.meetDeps (s : State) (t : Nat) (cword : Option Nat) : State :=
  match cword with
  | some pa =>
    let key := s.wordKey t pa
    if s.wordOpen key then s
    else { s with set0 := s.set0.dropDep fun d => s.wordKey 0 d == key, set1 := s.set1.dropDep fun d => s.wordKey 1 d == key }
  | none => s

/-- A kernel whose groups have all ended, with no work of them left, leaves the unit with Done (R116, R118). -/
def State.finishKernel (s : State) (t num : Nat) : State :=
  match (s.slotSet t).kernel? num with
  | none => s
  | some k =>
    if k.st = .placed ∧ k.ended = k.ngrp ∧ !s.kernelStands t num then
      let s1 := s.putWord t k fun w => wordState w .done
      let S := s1.slotSet t
      (s1.putSet t { S with kernels := S.kernels.filter (fun q => q.num != num), placeDue := true }).meetDeps t k.cword
    else s

/-- A group's end told to its kernel: the word's update, then the kernel's completion (R116). -/
def State.groupGone (s : State) (t num : Nat) (f : Word → Word) : State :=
  match (s.slotSet t).kernel? num with
  | none => s
  | some k => (s.putWord t { k with ended := k.ended + 1 } f).finishKernel t num

/-- The OR of every lane's flags and the control thread's (R75). -/
def Group.vfl (G : Group) : BitVec 6 := G.laneFlags.foldl (· ||| ·) G.ctlFlags

/-! ## Fit and placement (R129, R130) -/

/-- A BSTORE rounded up to whole tiles (R129). -/
def wholeTiles (b : Nat) : Nat := (b + tileBytes - 1) / tileBytes * tileBytes

/-- The groups of a slot set on a cell. -/
def State.cellGroups (s : State) (t c : Nat) : List Group :=
  (upFrom 0 4).filterMap fun k => s.groups.find (groupCode c t k)

/-- Whether a cell serves a slot set's groups: its context is Active, and the other context's work there has drained
(R82, R84). -/
def State.serves (s : State) (t c : Nat) : Bool :=
  let other := s.slotSet (1 - t)
  decide ((s.slotSet t).st = .active) &&
  !(decide (other.st = .preempting) && !other.drained.contains c && !(s.cellGroups (1 - t) c).isEmpty)

/-- The free slots of a slot set on a cell, ascending. -/
def State.freeSlots (s : State) (t c : Nat) : List Nat :=
  (upFrom 0 4).filter fun k => (s.groups.find (groupCode c t k)).isNone

/-- What a kernel's group needs of a cell. -/
def fits (qc qb : Nat) (d : KernelDesc) (held : List Group) : Bool :=
  decide ((held.map fun G => G.hold.cstore).sum + d.cstore ≤ qc) &&
  decide ((held.map fun G => wholeTiles G.hold.bstore).sum + wholeTiles d.bstore ≤ qb) &&
  decide ((held.map fun G => G.hold.chans).sum + d.chans ≤ 16)

/-- R129 for a group of a slot set on a cell. -/
def State.fitsOn (s : State) (t : Nat) (d : KernelDesc) (c : Nat) : Bool :=
  match (s.slotSet t).img with
  | none => false
  | some im => !(s.freeSlots t c).isEmpty && fits im.qCell im.qB d (s.cellGroups t c)

/-- How many groups of a kernel one empty cell of a context holds (R120, R125). -/
def emptyFit (im : Image) (d : KernelDesc) : Nat :=
  if d.cstore > im.qCell ∨ wholeTiles d.bstore > im.qB ∨ d.chans > 16 then 0
  else
    min 4 (min (if d.cstore = 0 then 4 else im.qCell / d.cstore)
      (min (if d.bstore = 0 then 4 else im.qB / wholeTiles d.bstore) (if d.chans = 0 then 4 else 16 / d.chans)))

/-- The fitting cell with the most free slots, the lowest among equals (R129), among the cells that a test admits. -/
def State.chooseCell (s : State) (t : Nat) (d : KernelDesc) (ok : Nat → Bool) : Option Nat :=
  (upFrom 0 512).foldl (fun best c =>
    if ok c && s.fitsOn t d c then
      match best with
      | none => some c
      | some b => if (s.freeSlots t c).length > (s.freeSlots t b).length then some c else some b
    else best) none

/-- The pieces between busy ones, from `lo` to `hi`; the busy pieces rise. -/
def gapsOf : List (Nat × Nat) → Nat → Nat → List (Nat × Nat)
  | [], lo, hi => if lo < hi then [(lo, hi - lo)] else []
  | (p, n) :: t, lo, hi => (if lo < p then [(lo, p - lo)] else []) ++ gapsOf t (max lo (p + n)) hi

/-- A piece put into a rising list. -/
def pieceAdd (p : Nat × Nat) : List (Nat × Nat) → List (Nat × Nat)
  | [] => [p]
  | q :: t => if p.1 < q.1 then p :: q :: t else q :: pieceAdd p t

/-- Pieces taken from gaps in order. -/
def takeFrom : List (Nat × Nat) → Nat → List (Nat × Nat)
  | [], _ => []
  | (p, n) :: t, need => if need = 0 then [] else if need ≤ n then [(p, need)] else (p, n) :: takeFrom t (need - n)

/-- Pieces for `need` units in a range: one piece at a multiple of `al` where a gap holds it, else pieces in
order (notes/assumptions/12). A window of the cell store begins at a multiple of 512 where it can, so that a byte has one slice by every
address of it (R334). -/
def allocate (busy : List (Nat × Nat)) (lo hi al need : Nat) : List (Nat × Nat) :=
  let gaps := gapsOf (busy.foldl (fun l p => pieceAdd p l) []) lo hi
  let up := fun (p : Nat) => (p + al - 1) / al * al
  if need = 0 then []
  else
    match gaps.find? (fun g => decide (up g.1 + need ≤ g.1 + g.2)) with
    | some g => [(up g.1, need)]
    | none => takeFrom gaps need

/-- The parts of a cell's stores that a placed group takes (R130): a set's part of the cell store and of the
B-store stands at the start for set 0 and at the end for set 1. -/
def State.holdingFor (s : State) (t c : Nat) (im : Image) (d : KernelDesc) : Holding :=
  let held := s.cellGroups t c
  let csLo := if t = 0 then 0 else cstoreBytes - im.qCell
  let bAll := bstoreBytes / tileBytes
  let bTiles := im.qB / tileBytes
  let bLo := if t = 0 then 0 else bAll - bTiles
  let bBusy := (held.map fun G => G.hold.bPieces.map fun p => (p.1 / tileBytes, wholeTiles p.2 / tileBytes)).flatten
  { tiles := d.tiles, accs := d.accs, chans := d.chans, cstore := d.cstore, bstore := d.bstore
    csPieces := allocate (held.map fun G => G.hold.csPieces).flatten csLo (csLo + im.qCell) 512 d.cstore
    bPieces := (allocate bBusy bLo (bLo + bTiles) 1 (wholeTiles d.bstore / tileBytes)).map fun p => (p.1 * tileBytes, p.2 * tileBytes) }

/-- The start state of a group (R121), with the values of R488 where the image gives none; the reserved bits of TRAPVEC read 0 (R9). -/
def Group.start (im : Image) (d : KernelDesc) (args : Word) (grpid kernid ngroups : Nat) (h : Holding) : Group :=
  { Group.idle with
    phase := .placed
    pc := d.entry
    x := (Vector.replicate 32 (0 : Word)).set 3 args
    vcfg := BitVec.ofNat 64 (2 ^ 5 + d.lmul % 4)
    xmod := BitVec.ofNat 64 (im.xmod.getD (2 ^ 31 - 1))
    trapvec := im.trapvec &&& 0x007FFFFFFFFFFFFF
    wdoglim := BitVec.ofNat 64 (im.wdog.getD 0)
    grpid := grpid
    kernid := kernid
    ngroups := ngroups
    kargs := args
    hold := h }

/-- A group of a kernel placed on a cell, in its lowest free slot (R129, R130). -/
def State.placeOn (s : State) (t c : Nat) (k : Kernel) : State :=
  match (s.slotSet t).img, s.freeSlots t c with
  | some im, slot :: _ =>
    let G := Group.start im k.desc k.args k.placed k.num k.ngrp (s.holdingFor t c im k.desc)
    s.putGroup (groupCode c t slot) G
  | _, _ => s

/-- A kernel record of the conductor, with the place of its completion word (R123). -/
def conductorKernel (c : Conductor) (cword : Option Nat) : Kernel :=
  { num := 0, queue := none, st := .placed, desc := c.desc, args := c.args, ngrp := 1, serial := false, cohort := false
    cword := cword, word := 3, deps := [], launchable := true, passed := 0, reserving := false, placed := 0, ended := 0
    bar := BarEntry.fresh, after := none, stays := false }

/-- The conductor's group placed on logical cell 511, with its completion word at Placed (R123). -/
def State.placeConductor (s : State) (t : Nat) : State :=
  let S := s.slotSet t
  match S.img.bind Image.conductor with
  | none => s
  | some c =>
    if S.conductorDone then s
    else
      let k := conductorKernel c S.cword
      let s1 := (s.putSet t { S with conductorDone := true, kernels := k :: S.kernels }).placeOn t 511 k
      s1.putWord t { k with placed := 1 } fun _ => 3

/-! ## A context becomes Active or Faulted -/

/-- A group of a context that becomes Active (R85, R91, R96, R128). -/
def resumeGroup (G : Group) : Group :=
  match G.phase with
  | .preempted => { G with phase := .running }
  | .trapped true => { G with phase := .running, level := .supervisor, pc := BitVec.ofNat 64 (bits G.trapvec 1 54 * 4) }
  | .waiting (.event line _) => { G with phase := .waiting (.event line true) }
  | _ => G

/-- Every group of a slot set changed. -/
def State.mapSet (s : State) (t : Nat) (f : Nat → Group → Group) : State :=
  { s with groups := s.groups.map fun e => if setOf e.1 = t then (e.1, f e.1 e.2) else e }

/-- The context of a slot set becomes Active: its groups resume, and the first time of a context loaded from an
image its conductor is placed (R82, R123). -/
def State.activate (s : State) (t : Nat) : State :=
  ((s.setCtx t .active).mapSet t fun _ => resumeGroup).placeConductor t

/-- The other context becomes Active when one leaves Active other than by a switch (R82). -/
def State.activatePartner (s : State) (t : Nat) : State :=
  if (s.slotSet (1 - t)).st = .standby then s.activate (1 - t) else s

/-- Whether an event of this cycle has already taken effect on a context; later ones of the cycle are dropped
(R82, notes/assumptions/17). -/
def State.dropped (s : State) (t : Nat) : Bool := decide ((s.slotSet t).lastAt = some s.clock)

/-- An event that takes effect on a context in this cycle (R82). -/
def State.weigh (s : State) (t : Nat) : State := s.putSet t { s.slotSet t with lastAt := some s.clock }

/-- The fault word (R450). -/
def faultWord (cause cell slot : Nat) : Word := BitVec.ofNat 64 (cause % 256 + cell % 512 * 2 ^ 8 + slot % 4 * 2 ^ 17)

/-- A Faulted event for a slot set's context (R82): it has the highest rank, so that no other event of the cycle drops
it. The context's groups issue nothing further, and the partner that stands by becomes Active. A switch in progress towards the partner ends with the partner Active. -/
def State.faultContext (s : State) (t cause cell slot : Nat) : State :=
  let S := s.slotSet t
  if S.st = .active ∨ S.st = .preempting ∨ S.st = .standby then
    let s1 := ((s.weigh t).putSet t { (s.weigh t).slotSet t with fault := faultWord cause cell slot }).setCtx t .faulted
    if S.st = .active then s1.activatePartner t else s1
  else s

end Sys2Proof.Machine
end

