-- ==== Sys2Proof/Machine/Ops.lean ====
section
/-!
DEFINITION. Sys2Proof/Machine/Ops.lean: the registers of the executing group, retirement, the convoy's close,
taking a trap and returning from one (R26, R38, R88 to R94, R138 to R140, R145, R177).
-/

namespace Sys2Proof.Machine

/-! ## Scalar registers (R145) -/

/-- An x register; x0 reads 0. -/
def Group.reg (G : Group) (r : Reg) : Word := if r = 0 then 0 else G.x[r.toNat]

/-- A group with an x register written; a write of x0 is discarded. -/
def Group.setReg (G : Group) (r : Reg) (w : Word) : Group := if r = 0 then G else { G with x := G.x.set r.toNat w }

/-- An x register of the executing group. -/
def State.x (s : State) (r : Reg) : Word := s.own.reg r

/-- An x register of the executing group written. -/
def State.setX (s : State) (r : Reg) (w : Word) : State := s.putOwn (s.own.setReg r w)

/-! ## Retirement (R26, R128, R177) -/

/-- A group that has executed an instruction of `len` bytes and goes on behind it. -/
def Group.retire (G : Group) (len : Nat) : Group :=
  { G with pc := G.pc + BitVec.ofNat 64 len, retired := G.retired + 1, phase := .running, dataWait := none, resume := false }

/-- The executing group goes on behind its instruction. -/
def State.retire (s : State) (len : Nat) : State := s.putOwn (s.own.retire len)

/-- The executing group goes on at an address (R160 to R163). -/
def State.retireTo (s : State) (target : Word) : State := s.putOwn { s.own.retire 0 with pc := target }

/-- A result in an x register, and on to the next instruction. -/
def State.done (s : State) (d : Reg) (w : Word) (len : Nat) : State := (s.setX d w).retire len

/-! ## Convoys (R38) -/

/-- The open convoy ended. -/
def Group.closeConvoy (G : Group) : Group := { G with convoys := G.convoys.map fun c => { c with ended := true } }

/-- The executing group's open convoy ended, as every instruction of R38's list does before it takes effect. -/
def State.close (s : State) : State := s.putOwn s.own.closeConvoy

/-! ## Traps (R88 to R91, R138 to R140) -/

/-- A trap to be taken: cause code and sub-code, kind (0 precise, 1 imprecise, 2 asynchronous), TRAPADDR,
TRAPELEM where it is valid, whether VRESUME takes that element, TRAPPC, and the reason of an interrupted
wait. -/
structure Trap where
  code : Nat
  sub : Nat
  kind : Nat
  addr : Word
  elem : Option Nat
  vec : Bool
  pc : Word
  wait : Option Nat
  deriving DecidableEq, Repr

/-- TRAPPC holds bits 55:2 of a PC (R140). -/
def pcField (w : Word) : Word := BitVec.ofNat 64 (bits w 2 54 * 4)

/-- TRAPSTAT of a trap (R140). -/
def Trap.stat (T : Trap) : Word :=
  BitVec.ofNat 64 (T.kind + (if T.wait.isSome then 4 else 0) + (if T.elem.isSome then 8 else 0) + T.wait.getD 0 * 16)

/-- VRESUME with VALID and ELEM (R85). -/
def vresumeAt (e : Nat) : Word := BitVec.ofNat 64 (2 ^ 16 + e % 2 ^ 16)

/-- A channel that no SUNBIND or KEND waits to free (R308). -/
def Channel.unclosed (c : Channel) : Channel := { c with closing := false }

/-- The trap registers of R88, written together, and the open convoy closed; channels that a stalled SUNBIND or KEND was to free are so no
longer (R308). -/
def Group.recordTrap (G : Group) (T : Trap) : Group :=
  { G.closeConvoy with
    trapstat := T.stat
    trapcause := BitVec.ofNat 64 (T.code + T.sub * 256)
    trappc := pcField T.pc
    trapaddr := T.addr
    trapelem := BitVec.ofNat 64 (T.elem.getD 0)
    vresume := (match T.vec, T.elem with | true, some e => vresumeAt e | _, _ => G.vresume)
    interrupted := none
    dataWait := none
    resume := false
    chan := G.chan.map Channel.unclosed }

/-- The handler's address, TRAPVEC.BASE × 4 (R90). -/
def Group.handler (G : Group) : Word := BitVec.ofNat 64 (bits G.trapvec 1 54 * 4)

/-- Entry of the handler at supervisor level (R88). -/
def Group.enterHandler (G : Group) : Group := { G with level := .supervisor, pc := G.handler, phase := .running }

/-- The record of a forwarded trap (R90, R452). -/
def trapRecord (g : Nat) (G : Group) : RingEntry :=
  { kind := 1, set := setOf g, id := 0
    body := leCells 8 2 (cellOf g) ++ leCells 10 1 (slotOf g) ++ leCells 16 8 G.trapcause.toNat ++ leCells 24 8 G.trappc.toNat ++
      leCells 32 8 G.trapaddr.toNat ++ leCells 40 8 G.trapelem.toNat ++ leCells 48 8 G.trapstat.toNat ++ leCells 56 8 G.vresume.toNat }

/-- Taking a trap: at user level the registers of R88 are written and the handler is entered, or the group is
Trapped and its record forwarded (R90), or, precise during a switch drain, the group is Trapped until its
context is Active again (R91); at supervisor level the context becomes Faulted (R89). A group that is over, or whose
context is neither Active nor Pre-empting, takes none (R128, R141). -/
def State.trap (s : State) (g : Nat) (T : Trap) : State :=
  let G := s.group g
  let st := (s.slotSet (setOf g)).st
  if G.over || (decide (st ≠ .active) && decide (st ≠ .preempting)) then s
  else
  match G.level with
  | .supervisor => s.faultContext (setOf g) T.code (cellOf g) (slotOf g)
  | .user =>
    let G1 := G.recordTrap T
    if bitOf G.trapvec 0 then (s.putGroup g { G1 with phase := .trapped false }).post (trapRecord g G1)
    else if st = .preempting ∧ T.kind = 0 then s.putGroup g { G1 with phase := .trapped true }
    else s.putGroup g G1.enterHandler

/-- A precise trap of the executing instruction, with no element. -/
def State.raise (s : State) (code sub : Nat) (addr : Word) : State :=
  s.trap s.cur { code := code, sub := sub, kind := 0, addr := addr, elem := none, vec := false, pc := s.own.pc, wait := none }

/-- A precise trap of the executing vector instruction at an element (R241). -/
def State.raiseAt (s : State) (code sub : Nat) (addr : Word) (e : Nat) : State :=
  s.trap s.cur { code := code, sub := sub, kind := 0, addr := addr, elem := some e, vec := true, pc := s.own.pc, wait := none }

/-- ILLEGAL with the instruction's words (R36). -/
def State.illegal (s : State) : State := s.raise 1 0 s.ir

/-- ILLEGAL with a sub-code of the instruction's chapter. -/
def State.illegalSub (s : State) (sub : Nat) : State := s.raise 1 sub s.ir

/-- PRIV with the instruction's words (R36). -/
def State.priv (s : State) : State := s.raise 2 0 s.ir

/-- CONVOY with the instruction's words (R36, R39). -/
def State.convoyTrap (s : State) : State := s.raise 0x11 0 s.ir

/-- MISALIGN, PAGE_LOAD, RANGE and UNCORR of a scalar access (R158). -/
def State.misaligned (s : State) (va : Word) : State := s.raise 3 0 va
def State.pageLoad (s : State) (sub : Nat) (va : Word) : State := s.raise 4 sub va
def State.outOfRange (s : State) (va : Word) : State := s.raise 6 0 va
def State.uncorrectable (s : State) (va : Word) : State := s.raise 0xC 0 va

/-- PAGE_STORE of a group: imprecise, TRAPADDR and SUB of the oldest record, every record marked reported
(R366). -/
def State.pageStore (s : State) (g : Nat) : State :=
  let G := s.group g
  match G.sfrq with
  | [] => s
  | r :: _ =>
    let s1 := s.putGroup g { G with sfrq := G.sfrq.map fun q => { q with reported := true } }
    s1.trap g { code := 5, sub := r.sub, kind := 1, addr := r.addr, elem := none, vec := false, pc := G.pc, wait := none }

/-- Whether the executing group runs at supervisor level. -/
def State.isSupervisor (s : State) : Bool := decide (s.own.level = .supervisor)

/-- The reason codes of R135. -/
def Wait.code : Wait → Nat
  | .barrier .. => 1
  | .freed _ => 1
  | .passed .. => 1
  | .token _ => 2
  | .vecToken _ => 2
  | .queue .. => 2
  | .watermark .. => 3
  | .place _ => 3
  | .message .. => 4
  | .kvItem _ => 5
  | .kvSpace .. => 5
  | .ticket .. => 6
  | .hostTaken .. => 7
  | .hostGiven .. => 7
  | .event .. => 8
  | .collective => 9

/-- A group that enters Waiting at its instruction; the watchdog count returns to 0 (R128, R136). -/
def Group.enterWait (G : Group) (w : Wait) : Group := { G with phase := .waiting w, wdog := 0 }

/-- The executing group enters Waiting. -/
def State.wait (s : State) (w : Wait) : State := s.putOwn (s.own.enterWait w)

/-- RTE (R94): back to user level at TRAPPC; an interrupted wait whose PC the handler has kept goes on waiting
with a count of 0 (R137); a vector instruction there restarts at VRESUME.ELEM when VALID is 1. -/
def Group.returnFromTrap (G : Group) : Group :=
  let G1 := { G with level := .user, pc := G.trappc, resume := bitOf G.vresume 16, interrupted := none, phase := .running }
  match G.interrupted with
  | some (pc, w) => if bitOf G.trapstat 2 ∧ G.trappc = pcField pc then G1.enterWait w else G1
  | none => G1

/-- An asynchronous cause delivered to a group; a second one of a cause already held is merged (R139). The reports of VSTXA elements are causes of
their own (R241). -/
def Group.hold1 (G : Group) (c : HeldCause) : Group :=
  if G.causes.any (fun q => q.code == c.code && q.elem.isNone) then G else { G with causes := G.causes ++ [c] }

/-- An asynchronous cause delivered to the group of a slot; one that is over takes none. -/
def State.deliver (s : State) (g : Nat) (code sub : Nat) (addr : Word) : State :=
  if (s.group g).over then s else s.putGroup g ((s.group g).hold1 { code := code, sub := sub, addr := addr, elem := none, inst := 0 })

end Sys2Proof.Machine
end

