-- ==== Sys2Proof/Machine/Flags.lean ====
section
/-!
DEFINITION. Sys2Proof/Machine/Flags.lean: where exception flags accrue and when they trap (spec/03_numbers:
R75 to R77; R150, R179).
-/

namespace Sys2Proof.Machine

/-- What a meaning answers. -/
abbrev Res := Host.Outcome State Fault Refusal

/-- The control thread's flags after an instruction raised some (R75). -/
def Group.accrue (G : Group) (f : BitVec 6) : Group := { G with ctlFlags := G.ctlFlags ||| f }

/-- A scalar result with its flags: an enabled flag is set in VFL and raises ARITH, and the register stays as it
was (R77, R150). -/
def State.doneFlags (s : State) (d : Reg) (r : Nat × BitVec 6) (len : Nat) : State :=
  let s1 := s.putOwn (s.own.accrue r.2)
  if r.2 &&& s.own.xen = 0 then s1.done d (BitVec.ofNat 64 r.1) len else s1.raise 8 0 0

/-- The lane that an element's flags go to: that of its lowest bit, at the widest of the widths involved
(R179). -/
def laneOf (w i : Nat) : Nat := w * i / 64 % 16

/-- A lane's sticky flags after an element raised some (R75, R179). -/
def Group.accrueLane (G : Group) (lane : Nat) (f : BitVec 6) : Group :=
  { G with laneFlags := G.laneFlags.setIfInBounds lane ((G.laneFlags[lane]?.getD 0) ||| f) }

/-- The matrix engine's flags (R75). -/
def Group.accrueMatrix (G : Group) (f : BitVec 6) : Group := { G with mfl := G.mfl ||| f }

/-- The transform engine's flags (R75). -/
def Group.accrueTransform (G : Group) (f : BitVec 6) : Group := { G with xfl := G.xfl ||| f }

/-- VFL bits cleared in every lane and in the control thread (R75). -/
def Group.clearVfl (G : Group) (f : BitVec 6) : Group :=
  { G with laneFlags := G.laneFlags.map (fun x => x &&& ~~~f), ctlFlags := G.ctlFlags &&& ~~~f }

/-- The rounding mode in force, VCFG bits 4:2 (R60, R183). -/
def Group.rm (G : Group) : Nat := bits G.vcfg 2 3

/-- LMUL in force (R183). -/
def Group.lmul (G : Group) : Nat := 2 ^ bits G.vcfg 0 2

/-- VCFG.SAT (R183). -/
def Group.sat (G : Group) : Bool := bitOf G.vcfg 9

/-- XMOD.Q (R175). -/
def Group.modulus (G : Group) : Nat := bits G.xmod 0 31

end Sys2Proof.Machine
end

