-- ==== Sys2Proof/Machine/Access.lean ====
section
/-!
DEFINITION. Sys2Proof/Machine/Access.lean: a group's loads, the performance of its queued stores and of its
asynchronous-path writes, remote requests, and what fences wait for (spec/11_places, 16_order, 17_page,
19_link: R159, R247, R250, R331 to R337, R345, R364, R405, R408).
-/

namespace Sys2Proof.Machine

/-! ## Routes (R401, R405) -/

/-- The die-to-die link between two adjacent dies (R456). -/
def dieLink (a b : Nat) : Nat :=
  let lo := min a b
  if max a b = lo + 4 then 6 + lo else if lo < 3 then lo else lo - 1

/-- The links along a row from one column to another. -/
def rowLinks (row c1 c2 : Nat) : List Nat :=
  (upFrom (min c1 c2) (max c1 c2 - min c1 c2)).map fun c => dieLink (row * 4 + c) (row * 4 + c + 1)

/-- Whether every link of a list is other than Failed. -/
def State.usable (s : State) (l : List Nat) : Bool :=
  l.all fun k => ((s.links.find k).map Link.st) ≠ some .failed

/-- The links of a route on the module that goes along the row first (R401), and of one that goes along the column first. -/
def rowFirst (a b : Nat) : List Nat := rowLinks (a / 4) (a % 4) (b % 4) ++ if a / 4 = b / 4 then [] else [6 + b % 4]
def colFirst (a b : Nat) : List Nat := (if a / 4 = b / 4 then [] else [6 + a % 4]) ++ rowLinks (b / 4) (a % 4) (b % 4)

/-- The route between two dies of the module, none when both orders cross Failed links (R401, R405). -/
def State.route (s : State) (a b : Nat) : Option (List Nat) :=
  if s.usable (rowFirst a b) then some (rowFirst a b) else if s.usable (colFirst a b) then some (colFirst a b) else none

/-- Whether a packet between two dies of the module has no route (R405). -/
def State.noRoute (s : State) (a b : Nat) : Bool := (s.route a b).isNone

/-- Whether a link or port is in a state. -/
def State.linkIs (s : State) (k : Nat) (st : LinkState) : Bool := decide (((s.links.find k).map Link.st) = some st)

/-- Whether a link or port holds packets in its replay buffer: it is in Retraining (R403). -/
def State.linkHolds (s : State) (k : Nat) : Bool := ((s.links.find k).map Link.held).getD false

/-- Whether packets between two dies of the module are held on their way (R403). -/
def State.heldRoute (s : State) (a b : Nat) : Bool := ((s.route a b).getD []).any s.linkHolds

/-- This module's number in the mesh (R132). -/
def ownModule : Nat := Config.moduleNumber % 4096

/-- The corner die through which packets for a module leave, and its port group: along the row first, through die 7 eastward or
die 0 westward, then through die 3 northward or die 4 southward (R15, R401). DEDUCED (notes/assumptions/62): a higher mesh column
lies east, a lower mesh row north. -/
def exitDie (m : Nat) : Nat × Nat :=
  if m % 64 > ownModule % 64 then (7, 3) else if m % 64 < ownModule % 64 then (0, 0)
  else if m / 64 < ownModule / 64 then (3, 1) else (4, 2)

/-- The module that a context's aperture entry names (R400). -/
def State.apertureOf (s : State) (t pa : Nat) : Option Aperture :=
  ((s.slotSet t).img.bind fun im => im.apertures.find? fun a => a.index = pa / 2 ^ 41 % 512)

/-- Whether a module's packets have no way out: no route to the corner die, or every port of its group Failed. -/
def State.noExit (s : State) (die m : Nat) : Bool :=
  let e := exitDie m
  s.noRoute die e.1 || (upFrom (16 + 12 * e.2) 12).all fun k => ((s.links.find k).map Link.st) = some .failed

/-- Whether a module's packets are held: on the way to the corner die, or because no port of its group carries traffic and one
is in Retraining (R403, R405). -/
def State.heldExit (s : State) (die m : Nat) : Bool :=
  let e := exitDie m
  let ports := upFrom (16 + 12 * e.2) 12
  s.heldRoute die e.1 || (ports.all (fun k => s.linkIs k .failed || s.linkHolds k) && ports.any s.linkHolds)

/-- The corner die by which a module's packets come in, and its port group: they have crossed the row first and come last along the
column, or along the row when no column is crossed (R401). -/
def entryDie (m : Nat) : Nat × Nat :=
  if m / 64 < ownModule / 64 then (3, 1) else if m / 64 > ownModule / 64 then (4, 2)
  else if m % 64 > ownModule % 64 then (7, 3) else (0, 0)

/-- Whether a module's packets have no way in to a die, and whether they are held on it. -/
def State.noEntry (s : State) (die m : Nat) : Bool :=
  let e := entryDie m
  s.noRoute e.1 die || (upFrom (16 + 12 * e.2) 12).all fun k => ((s.links.find k).map Link.st) = some .failed
def State.heldEntry (s : State) (die m : Nat) : Bool :=
  let e := entryDie m
  let ports := upFrom (16 + 12 * e.2) 12
  s.heldRoute e.1 die || (ports.all (fun k => s.linkIs k .failed || s.linkHolds k) && ports.any s.linkHolds)

/-- Whether packets of a group to a place are held (R403, R404). -/
def State.heldTo (s : State) (g pa : Nat) : Bool :=
  if paHost pa then false
  else if paModule pa then (match s.apertureOf (setOf g) pa with | some a => s.heldExit (dieOf g) a.modn | none => false)
  else s.heldRoute (dieOf g) (paDie pa)

/-- Whether packets from a place to a group, replies and acknowledgements, are held (R403, R404). -/
def State.heldFrom (s : State) (g pa : Nat) : Bool :=
  if paHost pa then false
  else if paModule pa then (match s.apertureOf (setOf g) pa with | some a => s.heldEntry (dieOf g) a.modn | none => false)
  else s.heldRoute (paDie pa) (dieOf g)

/-- Whether packets between a group and a die, named as a sent write names it, are held on the way there or back. -/
def State.heldDie (s : State) (g die : Nat) : Bool :=
  if die < 8 then s.heldRoute (dieOf g) die || s.heldRoute die (dieOf g)
  else s.heldExit (dieOf g) ((die - 8) / 8) || s.heldEntry (dieOf g) ((die - 8) / 8)

/-- Whether packets between a group and a die have lost their way there or back (R405). -/
def State.lostDie (s : State) (g die : Nat) : Bool :=
  if die < 8 then die != dieOf g && (s.noRoute (dieOf g) die || s.noRoute die (dieOf g))
  else s.noExit (dieOf g) ((die - 8) / 8) || s.noEntry (dieOf g) ((die - 8) / 8)

/-- The slot set that a group reaches on a die of another module: that of the aperture entry for the module, or its own (R419). -/
def State.setOn (s : State) (g gdie : Nat) : Nat :=
  ((((s.slotSet (setOf g)).img.map Image.apertures).getD []).find? fun a => decide (a.modn = gdie / 8)).elim (setOf g) Aperture.set

/-- Whether packets from a place to a group have lost their way (R405). -/
def State.lostFrom (s : State) (g pa : Nat) : Bool :=
  if paHost pa then false
  else if paModule pa then (match s.apertureOf (setOf g) pa with | some a => s.noEntry (dieOf g) a.modn | none => true)
  else if paDie pa = dieOf g then false else s.noRoute (paDie pa) (dieOf g)

/-- Whether an access of a group to a place has no route (LINKFAIL SUB 2). -/
def State.unreachable (s : State) (g pa : Nat) : Bool :=
  if paHost pa then false
  else if paModule pa then
    (match s.apertureOf (setOf g) pa with
     | some a => s.noExit (dieOf g) a.modn
     | none => true)
  else if paDie pa = dieOf g then false else s.noRoute (dieOf g) (paDie pa)

/-! ## Blocking reads -/

/-- What a read gives: its bytes, a trap (cause, sub-code, address), or a wait. -/
inductive Got where
  | data (bytes : List Byte)
  | trap (code sub : Nat) (addr : Word)
  | wait
  deriving DecidableEq, Repr

/-- A byte that another module answered. -/
def inboxByte (l : List Host.Cell) (a : Nat) : Option Byte := Table.find l a

/-- The bytes of a run for a group: as its instruction has read them already, else of this module or the host as they stand; of another
module as answered. -/
def State.runBytes (s : State) (g : Nat) (r : Nat × Nat) : Option (List Byte) :=
  let far := paModule r.1 && !paHost r.1
  match (s.group g).dataWait.map DataWait.inbox with
  | some (c :: box) => (upFrom r.1 r.2).mapM fun a => (inboxByte (c :: box) a).or (if far then none else (s.readAt a 1).head?)
  | _ => if far then (if r.2 = 0 then some [] else none) else some (s.readAt r.1 r.2)

/-- The bytes of runs for a group. -/
def State.runsBytes (s : State) (g : Nat) : List (Nat × Nat) → Option (List Byte)
  | [] => some []
  | r :: rs => (s.runBytes g r).bind fun b => (State.runsBytes s g rs).map fun bs => b ++ bs

/-- Whether runs hold uncorrectable or poisoned data of this module. -/
def State.runsBad (s : State) (runs : List (Nat × Nat)) : Bool :=
  runs.any fun r => !paHost r.1 && !paModule r.1 && s.badData r.1 r.2

/-- Whether every run is on the group's own die. -/
def runsLocal (g : Nat) (runs : List (Nat × Nat)) : Bool := runs.all fun r => decide (reachOf g r.1 = .local_)

/-! ## Packets (R406, R407) -/

/-- A packet handed to its router's queue. -/
def State.emit (s : State) (p : OutPacket) : State := { s with out := s.out ++ [p], outAt := s.clock }

/-- The part of a run in its first 128-byte line, and the rest. -/
def lineSplit : Nat → Nat × Nat → List (Nat × Nat)
  | 0, _ => []
  | fuel + 1, (p, n) =>
    let room := 128 - p % 128
    if n = 0 then [] else if n ≤ room then [(p, n)] else (p, room) :: lineSplit fuel (p + room, n - room)

/-- Runs cut at the ends of their lines: a packet carries one line (R406). -/
def lineRuns (runs : List (Nat × Nat)) : List (Nat × Nat) := (runs.map fun r => lineSplit (r.2 / 128 + 2) r).flatten

/-- A run put to the others of its line: each distinct line is asked for once (R243, R408). -/
def lineJoin (l : List (Nat × Nat)) (r : Nat × Nat) : List (Nat × Nat) :=
  if l.any fun q => q.1 / 128 == r.1 / 128 then
    l.map fun q => if q.1 / 128 = r.1 / 128 then (min q.1 r.1, max (q.1 + q.2) (r.1 + r.2) - min q.1 r.1) else q
  else l ++ [r]

/-- One run for each distinct line of some runs. -/
def lines (runs : List (Nat × Nat)) : List (Nat × Nat) := (lineRuns runs).foldl lineJoin []

/-- Whether a place lies on another module. -/
def paFar (pa : Nat) : Bool := paModule pa && !paHost pa

/-- Type 0 packets, one for each line of another module in some runs (R408). -/
def State.emitReads (s : State) (g : Nat) (runs : List (Nat × Nat)) : State :=
  (lines (runs.filter fun r => paFar r.1)).foldl (fun st r => st.emit (.request r.1 (.read r.2) g)) s

/-- A type 1 packet's writes, each with its address, when routers may merge it: one of element-ordered mode is never merged (R336,
R407). -/
def kindParts (pa : Nat) (k : RemoteKind) : Option (List (Nat × WritePart)) :=
  match k with
  | .write d => some [(pa, .data d)]
  | .marked d => some [(pa, .marked d)]
  | .nibble hi v => some [(pa, .nibble hi v)]
  | .bytes l => some l
  | _ => none

/-- A request packet of a die: it stands in the queue of that die's router. -/
def OutPacket.leaves (die : Nat) (p : OutPacket) : Bool :=
  match p with
  | .request _ _ g => decide (dieOf g = die)
  | _ => false

/-- A write packet: merged with the one before it in its router's queue when that is a write of the same line from the same slice
queue, each byte taking the later data (R407). A packet stands in the queue in the clock in which it was sent
(notes/assumptions/63). The answer says whether it was merged. -/
def State.emitWrite (s : State) (pa : Nat) (k : RemoteKind) (g : Nat) : State × Bool :=
  let later := s.out.reverse.takeWhile fun p => !p.leaves (dieOf g)
  match (s.out.reverse.drop later.length).head? with
  | some (.request pa0 k0 g0) =>
    (match kindParts pa0 k0, kindParts pa k with
     | some old, some new =>
       if s.outAt = s.clock ∧ g0 = g ∧ pa0 / 128 = pa / 128 then
         ({ s with out := s.out.take (s.out.length - later.length - 1) ++ [.request (min pa0 pa) (.bytes (old ++ new)) g] ++ later.reverse }, true)
       else (s.emit (.request pa k g), false)
     | _, _ => (s.emit (.request pa k g), false))
  | _ => (s.emit (.request pa k g), false)

/-- The bytes that a write among merged ones enables. -/
def WritePart.span (pa : Nat) : WritePart → List Nat
  | .data d => upFrom pa d.length
  | .marked d => upFrom pa d.length
  | .nibble .. => [pa]

/-- The packet types of R406. -/
def kindType : RemoteKind → Nat
  | .read _ => 0 | .write _ => 1 | .bytes _ => 1 | .marked _ => 1 | .ordered _ => 1 | .nibble .. => 1 | .atomic .. => 2 | .scatter .. => 2
  | .multicast _ => 5 | .update .. => 2 | .ticketGet .. => 7 | .ticketDone .. => 7 | .ticketWait .. => 7

/-- The bytes of its line that a request's packet names: those it reads or writes. -/
def kindSpan (pa : Nat) : RemoteKind → List Nat
  | .read n => upFrom pa n
  | .write d => upFrom pa d.length
  | .marked d => upFrom pa d.length
  | .ordered d => upFrom pa d.length
  | .multicast d => upFrom pa d.length
  | .bytes l => (l.map fun p => WritePart.span p.1 p.2).flatten
  | .nibble .. => [pa]
  | .atomic .. => upFrom pa 8
  | .update .. => upFrom pa 8
  | .scatter _ t _ => upFrom pa (tagWidth t / 8)
  | .ticketGet .. => [] | .ticketDone .. => [] | .ticketWait .. => []

/-- The 32-bit source field of a header: global die, die-local cell, slot set and slot, slice (R406). -/
def sourceField (g slice : Nat) : Nat :=
  8 * ownModule + dieOf g + cellOf g % 64 * 2 ^ 15 + (setOf g * 4 + slotOf g) * 2 ^ 21 + slice % 4 * 2 ^ 25

/-- The fields of a packet's header flit that the spec places (R406): byte enables, the line's address, type, source, sequence
number; `operand` is the operand of an atomic. -/
structure Header where
  enables : Nat
  line : Nat
  type : Nat
  source : Nat
  seq : Nat
  operand : Nat
  deriving DecidableEq, Repr

/-- The header of the request that stands at a place in the order of sending, which is its sequence number (R406). -/
def requestHeader (pa : Nat) (k : RemoteKind) (g seq : Nat) : Header :=
  { enables := ((kindSpan pa k).map fun a => 2 ^ (a % 128)).foldl (· ||| ·) 0
    line := pa / 128 * 128 % 2 ^ 52
    type := kindType k
    source := sourceField g (pa / 128 % 4)
    seq := seq % 2 ^ 32
    operand := match k with | .atomic _ _ x _ => x.toNat | .scatter _ _ x => x | _ => 0 }

/-- The 64 bytes of a header flit (R406). -/
def Header.bytes (h : Header) : List Byte :=
  toBytes 16 h.enables ++ toBytes 7 h.line ++ toBytes 1 h.type ++ toBytes 4 h.source ++ toBytes 4 h.seq ++ toBytes 8 h.operand ++ toBytes 24 0

/-- The data flits that follow a header: each 64-byte half of the line that has an enabled byte (R406). -/
def Header.dataFlits (h : Header) : Nat :=
  if h.type = 1 ∨ h.type = 5 then (if h.enables % 2 ^ 64 ≠ 0 then 1 else 0) + (if h.enables / 2 ^ 64 ≠ 0 then 1 else 0) else 0

/-! ## Data of other places -/

/-- A request for data of another die, module or the host sent: the group's instruction waits (R408, R350), with what
earlier requests of it have brought. -/
def State.ask (s : State) (g : Nat) (va : Word) (runs : List (Nat × Nat)) : State :=
  let G := s.group g
  let old := G.dataWait
  let s1 := s.putGroup g
    { G with
      dataWait := some
        { pc := G.pc, va := va, arrived := false, bad := (old.map DataWait.bad).getD [], inbox := (old.map DataWait.inbox).getD []
          asked := (old.map DataWait.asked).getD [] ++ runs, act := none } }
  s1.emitReads g runs

/-- Whether an access has asked for every byte of some runs of another module. -/
def DataWait.covers (w : DataWait) (runs : List (Nat × Nat)) : Bool :=
  (runs.filter fun r => paFar r.1).all fun r => (upFrom r.1 r.2).all fun a => w.asked.any fun q => decide (q.1 ≤ a ∧ a < q.1 + q.2)

/-- Whether some bytes have come with bad data from another module. -/
def DataWait.spoilt (w : DataWait) (runs : List (Nat × Nat)) : Bool :=
  runs.any fun r => paFar r.1 && w.bad.any fun a => decide (r.1 ≤ a ∧ a < r.1 + r.2)

/-- A read of runs that a group's instruction makes: at once on its own die, else when the data have arrived. -/
def State.readFor (s : State) (g : Nat) (va : Word) (runs : List (Nat × Nat)) : State × Got :=
  if runsLocal g runs then
    (if s.runsBad runs then (s, .trap 0xC 0 va) else (s, .data (s.readRuns runs)))
  else if runs.any (fun r => s.unreachable g r.1) then (s, .trap 0xF 2 va)
  else
    match (s.group g).dataWait with
    | some w =>
      if !w.arrived then (s, .wait)
      else if w.spoilt runs || s.runsBad runs then (s, .trap 0xC 0 va)
      else if !w.covers runs then (s.ask g va runs, .wait)
      else
        match s.runsBytes g runs with
        | some b => (s, .data b)
        | none => (s, .wait)
    | none => (s.ask g va runs, .wait)

/-- A blocking read of `n` bytes by a group, with the traps of R158 after alignment. -/
def State.fetch (s : State) (g : Nat) (k : Kind) (va : Word) (n : Nat) : State × Got :=
  match s.look g k va.toNat n with
  | (s1, .range) => (s1, .trap 6 0 va)
  | (s1, .fail sub) => (s1, .trap 4 sub va)
  | (s1, .wait) => (s1, .wait)
  | (s1, .here runs _) => s1.readFor g va runs

/-! ## Stores leaving a slice queue (R250, R331, R364) -/

/-- The slice of an address (R334). -/
def sliceOf (va : Nat) : Nat := va / 128 % 4

/-- A queue of the group. -/
def Group.slice (G : Group) (q : Nat) : List Access := G.slices[q]?.getD []

/-- A queue of the group replaced. -/
def Group.setSlice (G : Group) (q : Nat) (l : List Access) : Group := { G with slices := G.slices.setIfInBounds q l }

/-- A record added to a group's store-fault record queue (R364). -/
def Group.addRecord (G : Group) (r : SfRecord) : Group := { G with sfrq := G.sfrq ++ [r] }

/-- The record of a failing access (R365). -/
def Access.record (a : Access) (sub now : Nat) : SfRecord :=
  { pc := a.pc, addr := a.va, data := BitVec.ofNat 64 a.data, src := a.src, wlog := Nat.log2 a.len, sub := sub, elem := a.elem
    reported := false, came := now }

/-- What an access needs of its leaf (R357, R411). -/
def Access.needs (a : Access) : Kind := if a.replica then .replica else .store

/-- The scatter-add unit's update of one element (R247): no flag, no saturation, RNE. -/
def scatterValue (op : BitVec 2) (t : Tag) (old x : Nat) : Nat :=
  if tagIsFloat t then
    (if op = 0 then (roundNum t 0 (addNum 0 (unpack t old) (unpack t x)).1).1 else (minMax t (decide (op = 2)) old x).1)
  else if op = 0 then (old + x) % 2 ^ tagWidth t
  else if op = 1 then (if intOf t x < intOf t old then x else old)
  else (if intOf t old < intOf t x then x else old)

/-- The UNCORR report of a VSTXA element: imprecise, merged over the elements of one instruction, the lowest
element kept (R241). -/
def Group.scatterFault (G : Group) (va : Word) (e inst : Nat) : Group :=
  let mine := fun (c : HeldCause) => c.code == 0xC && c.inst == inst
  if G.causes.any mine then
    { G with causes := G.causes.map fun q => if mine q && decide (e < q.elem.getD 0) then { q with addr := va, elem := some e } else q }
  else { G with causes := { code := 0xC, sub := 0, addr := va, elem := some e, inst := inst } :: G.causes }

/-- Whether an element of a VSTXA, named by its first access, has still to be applied, so that its report may yet grow (R241). -/
def Group.scatterLeft (G : Group) (inst : Nat) : Bool :=
  G.slices.toList.any (fun l => l.any fun a => a.inst == inst && (match a.op with | .scatter _ _ => true | _ => false)) ||
  G.sent.any fun w => w.atomic && w.inst == inst

/-- What an access does at its port, at places of this module or in host memory. -/
def State.applyAt (s : State) (g : Nat) (a : Access) (runs : List (Nat × Nat)) : State :=
  match a.op with
  | .store => s.writeRuns (some g) a.tag none runs (toBytes a.len a.data)
  | .nibble hi =>
    match runs with
    | (pa, _) :: _ =>
      let old := natOfBytes (s.readAt pa 1)
      let v := if hi then old % 16 + a.data % 16 * 16 else old / 16 * 16 + a.data % 16
      s.writeAs (some g) a.tag none pa (toBytes 1 v)
    | [] => s
  | .scatter op t =>
    if s.runsBad runs then s.putGroup g ((s.group g).scatterFault a.va a.elem a.inst)
    else s.writeRuns (some g) a.tag none runs (toBytes a.len (scatterValue op t (natOfBytes (s.readRuns runs)) a.data))

/-- Whether an access is an atomic: an element of VSTXA (R331). -/
def Access.isAtomic (a : Access) : Bool := match a.op with | .scatter _ _ => true | _ => false

/-- The packet that carries an access to another module. -/
def Access.kind (a : Access) : RemoteKind :=
  match a.op with
  | .store =>
    if a.replica then .multicast (toBytes a.len a.data) else if a.hs.isSome then .ordered (toBytes a.len a.data) else .write (toBytes a.len a.data)
  | .nibble hi => .nibble hi a.data
  | .scatter op t => .scatter op t a.data

/-- The record of an access sent to a place on another die. -/
def Access.sentTo (a : Access) (die : Nat) (held : Option (Access × List (Nat × Nat))) (joined : Bool) : SentWrite :=
  { va := a.va, die := die, atomic := a.isAtomic, msg := false, seq := a.seq, elem := a.elem, path := false, held := held, joined := joined
    inst := a.inst }

/-- The die of a place of another module, as a sent write names it. -/
def State.farDie (s : State) (g pa : Nat) : Nat := 8 + 8 * ((s.apertureOf (setOf g) pa).map Aperture.modn).getD 0 + paDie pa

/-- A write waits on its way for the same line from the same slice queue, so that a router merges this one with it
(R407). -/
def Group.joins (G : Group) (a : Access) (pa : Nat) : Bool :=
  match G.sent.getLast? with
  | some w =>
    (match w.held with
     | some (b, (pb, _) :: _) =>
       !a.isAtomic && !b.isAtomic && decide (a.hs = none ∧ b.hs = none ∧ a.replica = false ∧ b.replica = false ∧ pb / 128 = pa / 128)
     | _ => false)
  | none => false

/-- Whether a write of a slice is on its way, not performed, to a die that a test names. -/
def Group.heldBehind (G : Group) (q : Nat) (p : Nat → Bool) : Bool :=
  G.sent.any fun w => w.held.isSome && sliceOf w.va.toNat == q && p w.die

/-- An access that has been translated leaves its queue towards its port (R250, R331, R408): performed there, and
a remote one awaits its acknowledgement. One to another die stays on its way, to be performed at its port later, when it meets a link in
Retraining (R403), when an earlier one of its slice is on its way to that die, and with `flight` (R408; notes/assumptions/86). A route
lost raises LINKFAIL to the group (R409). -/
def State.sendAccess (s : State) (g : Nat) (a : Access) (runs : List (Nat × Nat)) (flight : Bool := false) : State :=
  match runs with
  | [] => s
  | (pa, _) :: _ =>
    if s.unreachable g pa then s.deliver g 0xF 2 a.va
    else
      match reachOf g pa with
      | .local_ | .host => s.applyAt g a runs
      | .die =>
        let G := s.group g
        if flight || s.heldTo g pa || G.heldBehind (sliceOf a.va.toNat) (fun d => d == paDie pa) then
          s.putGroup g { G with sent := G.sent ++ [a.sentTo (paDie pa) (some (a, runs)) (G.joins a pa)] }
        else
          let s1 := s.applyAt g a runs
          let G := s1.group g
          s1.putGroup g { G with sent := G.sent ++ [a.sentTo (paDie pa) none false] }
      | .module =>
        let r := s.emitWrite pa a.kind g
        let G := r.1.group g
        r.1.putGroup g { G with sent := G.sent ++ [a.sentTo (s.farDie g pa) none r.2] }

/-- Whether an access bound for some places would be performed as it leaves its queue. -/
def State.performsNow (s : State) (g : Nat) (a : Access) (runs : List (Nat × Nat)) : Bool :=
  match runs with
  | [] => true
  | (pa, _) :: _ =>
    !s.unreachable g pa &&
    (match reachOf g pa with
     | .local_ | .host => true
     | .die => !s.heldTo g pa && !(s.group g).heldBehind (sliceOf a.va.toNat) fun d => d == paDie pa
     | .module => false)

/-- Whether an element's access belongs to an element group that its convoy has not issued yet, and its slice queue has not accepted it
(R193, R250). -/
def Group.unissued (G : Group) (a : Access) : Bool :=
  G.convoys.any fun c => c.members.any fun m =>
    decide (m.lo ≤ a.seq ∧ a.seq < m.hi ∧ m.issued * m.unit ≤ a.elem ∧ m.fed[sliceOf a.va.toNat]?.getD 0 ≤ a.seq)

/-- The parts of lines that an entry has still to read (R243, R273). -/
def MatrixEntry.unread (e : MatrixEntry) : List (Nat × Nat) :=
  if e.effected then [] else (lineRuns (e.rows.map Prod.snd).flatten).filter fun l => !(e.got.any fun c => c.1 == l.1 && c.2.length == l.2)

/-- The slices of the rows that an entry has still to read: those of their addresses (R334). -/
def MatrixEntry.slices (e : MatrixEntry) : List Nat :=
  let left := e.unread
  (e.rows.map fun row => if (lineRuns row.2).any left.contains then (row.2.foldl (fun (p : List Nat × Nat) r =>
    (p.1 ++ (upFrom 0 (r.2 / 128 + 2)).map fun k => sliceOf (min (row.1.toNat + p.2 + 128 * k) (row.1.toNat + p.2 + r.2 - 1)), p.2 + r.2)) ([], 0)).1
    else []).flatten

/-- Whether a row that a posted TLD or BLD is still to read lies in a slice, the entry standing before a place in program
order (R273, R334). An entry that is still to pop its token, and those behind it, read after what the token's producer writes (R316). -/
def State.readAhead (s : State) (g q seq : Nat) : Bool :=
  (((s.cell (cellOf g)).mq.filter fun e => e.group == g).takeWhile fun e => e.issued || e.tok.pop.isNone).any fun e =>
    decide (e.seq ≤ seq) && e.slices.contains q

/-- The runs of a look, or none. -/
def Spot.runs : Spot → List (Nat × Nat)
  | .here rs _ => rs
  | _ => []

/-- Where a queued access of a group lands, as a miss knows the access (R360). -/
def State.spotOf (s : State) (g : Nat) (a : Access) : State × Spot := s.look g a.needs a.va.toNat a.len (queueId a.seq)

/-- Where a queued access's bytes lie, as far as its translation is known. -/
def State.accessRuns (s : State) (g : Nat) (a : Access) : List (Nat × Nat) := a.pa.getD (s.spotOf g a).2.runs

/-- Whether two lists of runs share a byte. -/
def runsMeet (l m : List (Nat × Nat)) : Bool := l.any fun p => m.any fun q => decide (p.1 < q.1 + q.2 ∧ q.1 < p.1 + p.2)

/-- Whether an earlier access of a group to one of some bytes still stands in a queue other than that of a slice: a byte that a group reaches
by two addresses may have two slices, and its accesses keep program order (R159, R334). -/
def State.aliasBefore (s : State) (g q seq : Nat) (runs : List (Nat × Nat)) : Bool :=
  (upFrom 0 4).any fun p => p != q && (((s.group g).slice p).any (fun a => decide (a.seq < seq) && runsMeet (s.accessRuns g a) runs) ||
    (s.group g).sent.any fun w => decide (sliceOf w.va.toNat = p ∧ w.seq < seq) && (match w.held with | some (_, rs) => runsMeet rs runs | none => false))

/-- Whether an access is later than a load whose data are still to come. -/
def Group.pastLoad (G : Group) (seq : Nat) : Bool := match G.late with | some l => decide (l.seq ≤ seq) | none => false

/-- Whether an access must wait in its queue: for a load of its slice whose data are to come, or one whose failure must be precise
(R334, R4); for its element group (R193); for the reads of a
posted entry (R334); and on a host-shared page for the accesses of its instruction before it (R336). -/
def State.mustStay (s : State) (g q : Nat) (a : Access) : Bool :=
  let G := s.group g
  (match G.late with
   | some l => decide (l.seq ≤ a.seq) && (sliceOf l.va.toNat == q || l.runs.any fun r => decide (reachOf g r.1 = .die ∨ reachOf g r.1 = .module))
   | none => false) ||
  G.unissued a || s.readAhead g q a.seq ||
  (match a.hs with
   | some first =>
     G.slices.toList.any (fun l => l.any fun b => decide (b.hs = some first ∧ b.seq < a.seq)) || G.sent.any fun w => decide (first ≤ w.seq ∧ w.seq < a.seq)
   | none => false)

/-- Whether an access bound for some places would pass a write of its slice that is on its way to another die, or an earlier access to one
of its bytes (R334, R403). -/
def State.outOfOrder (s : State) (g q : Nat) (a : Access) (runs : List (Nat × Nat)) : Bool :=
  (s.group g).heldBehind q (fun d => runs.any fun r => decide (reachOf g r.1 ≠ .die ∨ paDie r.1 ≠ d)) || s.aliasBefore g q a.seq runs

/-- The head of a slice queue, whose place is known, leaves it. Behind a load whose data are to come it leaves only to be performed at once: an
access that is performed stays performed when that load fails, one on its way could no longer be taken back (R4, R487). -/
def State.performAt (s : State) (g q : Nat) (a : Access) (rest : List Access) (runs : List (Nat × Nat)) : State :=
  let past := (s.group g).pastLoad a.seq
  if s.outOfOrder g q a runs || (past && !s.performsNow g a runs) then s
  else (s.putGroup g ((s.group g).setSlice q rest)).sendAccess g a runs (s.lateLoads && !past)

/-- The head of a slice queue is performed: translated and sent, or its failure recorded. It stays at the head
while it must (State.mustStay), while its translation is awaited, and while the record queue is full (R366). -/
def State.performHead (s : State) (g q : Nat) : State :=
  let G := s.group g
  match G.slice q with
  | [] => s
  | a :: rest =>
    if s.mustStay g q a then s
    else
      match a.pa with
      | some runs => s.performAt g q a rest runs
      | none =>
        match s.spotOf g a with
        | (s1, .here runs _) => s1.performAt g q a rest runs
        | (s1, .fail sub) =>
          if G.pastLoad a.seq then s
          else if G.over then s1.putGroup g (G.setSlice q rest)
          else if G.sfrq.length < 16 then s1.putGroup g ((G.setSlice q rest).addRecord (a.record sub s.clock)) else s
        | (s1, .range) => s1.putGroup g (G.setSlice q rest)
        | (s1, .wait) => s1

/-- Heads performed until a queue is empty or its head stays. -/
def State.drainSlice (s : State) (g q : Nat) : Nat → State
  | 0 => s
  | n + 1 =>
    let s1 := s.performHead g q
    if ((s1.group g).slice q).length < ((s.group g).slice q).length then State.drainSlice s1 g q n else s1

/-- A queue emptied as far as it goes. -/
def State.drain (s : State) (g q : Nat) : State := s.drainSlice g q ((s.group g).slice q).length

/-- Heads performed while a queue holds an access that a test names. -/
def State.drainUntil (s : State) (g q : Nat) (p : State → Access → Bool) : Nat → State
  | 0 => s
  | n + 1 =>
    if ((s.group g).slice q).any (p s) then
      let s1 := s.performHead g q
      if ((s1.group g).slice q).length < ((s.group g).slice q).length then State.drainUntil s1 g q p n else s1
    else s

/-- The queues emptied as far as the last access of each that a test names. -/
def State.drainThose (s : State) (g : Nat) (p : State → Access → Bool) : State :=
  (upFrom 0 4).foldl (fun st q => st.drainUntil g q p ((st.group g).slice q).length) s

/-- An access at the tail of its queue (R334). -/
def Group.enqueue (G : Group) (a : Access) : Group :=
  let q := sliceOf a.va.toNat
  { G.setSlice q (G.slice q ++ [{ a with seq := G.seq }]) with seq := G.seq + 1 }

/-! ## Asynchronous-path writes (R347) -/

/-- An asynchronous-path write applied at its places: on this module or at the host at once; to another module a packet for each line,
which awaits its acknowledgement (R345, R408). `none` while a link holds it back. -/
def State.applyAsync (s : State) (g : Nat) (w : AsyncWrite) (runs : List (Nat × Nat)) : Option State :=
  let va := match w.place with | .virt va => va | .phys p => BitVec.ofNat 64 p
  match runs with
  | [] => some s
  | (pa, _) :: _ =>
    if s.unreachable g pa then some (s.deliver g 0xF 2 va)
    else if s.heldTo g pa then none
    else if paFar pa then
      some ((lineRuns runs).foldl (fun (p : State × Nat) r =>
        let d := takeBytes w.data p.2 r.2
        let q := p.1.emitWrite r.1 (if w.mark then .marked d else .write d) g
        let G := q.1.group g
        let sw : SentWrite :=
          { va := va, die := s.farDie g pa, atomic := false, msg := false, seq := G.seq, elem := w.row, path := true, held := none, joined := q.2
            inst := 0 }
        (q.1.putGroup g { G with sent := G.sent ++ [sw] }, p.2 + r.2)) (s, 0)).1
    else
      let s3 := s.writeRuns (some g) w.tag w.poison runs w.data
      some (if w.mark then runs.foldl (fun st r => st.mark r.1 r.2) s3 else s3)

/-- A group's contribution ended: DONE, and FAILN or the result's marks (R420, R423). -/
def Group.collEnd (G : Group) (failed : Bool) (fl : BitVec 6) (of : Bool) : Group :=
  { G with
    collDone := G.collDone + 1
    collFailn := if failed then G.collFailn + 1 else G.collFailn
    collFl := G.collFl ||| fl
    collOf := G.collOf || of }

/-- The last write of a collective's result performed: its contribution has ended (R423). -/
def Group.wrote (G : Group) (w : AsyncWrite) : Group :=
  match w.coll with
  | some (fl, of) => G.collEnd false fl of
  | none => G

/-- Where an ACCST row or another write of the asynchronous path lands, as a miss knows it. -/
def State.asyncSpot (s : State) (g : Nat) (va : Word) (n : Nat) : State × Spot := s.look g .store va.toNat n (engineId 0)

/-- The oldest asynchronous-path write of a group performed; a failing ACCST row adds its record (R276, R364). -/
def State.performAsync (s : State) (g : Nat) : State :=
  let G := s.group g
  match G.async with
  | [] => s
  | w :: rest =>
    let put := fun (s1 : State) (runs : List (Nat × Nat)) =>
      match (s1.putGroup g { G with async := rest }).applyAsync g w runs with
      | some s2 => s2.putGroup g ((s2.group g).wrote w)
      | none => s
    match w.place with
    | .phys pa => put s [(pa, w.data.length)]
    | .virt va =>
      match s.asyncSpot g va w.data.length with
      | (s1, .here runs _) => put s1 runs
      | (s1, .fail sub) =>
        if G.over then s1.putGroup g { G with async := rest }
        else if G.sfrq.length < 16 then
          s1.putGroup g ({ G with async := rest }.addRecord
            { pc := w.pc, addr := va, data := 0, src := 3, wlog := 7, sub := sub, elem := w.row, reported := false, came := s.clock })
        else s
      | (s1, .range) => s1.putGroup g { G with async := rest }
      | (s1, .wait) => s1

/-- Writes of some places handed to a group's asynchronous path (R347); `mark`, `tag`, `poison` and `strip` as in AsyncWrite. -/
def Group.sendWrites (G : Group) (runs : List (Nat × Nat)) (data : List Byte) (w : AsyncWrite) : Group :=
  (runs.foldl (fun (p : Group × Nat) r =>
    ({ p.1 with async := p.1.async ++ [{ w with place := .phys r.1, data := takeBytes data p.2 r.2 }] }, p.2 + r.2)) (G, 0)).1

/-- An asynchronous-path write of nothing in particular, by the instruction at a group's PC. -/
def Group.asyncWrite (G : Group) : AsyncWrite :=
  { place := .phys 0, data := [], mark := false, tag := none, poison := none, pc := G.pc, row := 0, strip := false, coll := none }

/-- Plain writes of some places handed to a group's asynchronous path. -/
def Group.sendAsync (G : Group) (runs : List (Nat × Nat)) (data : List Byte) (bad strip : Bool) : Group :=
  G.sendWrites runs data { G.asyncWrite with mark := bad, strip := strip }

/-- A collective's result handed to its group's asynchronous path: with its last byte the contribution ends (R423). -/
def Group.sendResult (G : Group) (runs : List (Nat × Nat)) (data : List Byte) (fl : BitVec 6) (of : Bool) : Group :=
  match runs.getLast? with
  | none => G.collEnd false fl of
  | some last =>
    let n := (runs.dropLast.map Prod.snd).sum
    (G.sendAsync runs.dropLast data false false).sendWrites [last] (data.drop n) { G.asyncWrite with coll := some (fl, of) }

/-- Asynchronous-path writes performed as far as they go. -/
def State.flushAsync (s : State) (g : Nat) : Nat → State
  | 0 => s
  | n + 1 =>
    let s1 := s.performAsync g
    if (s1.group g).async.length < (s.group g).async.length then State.flushAsync s1 g n else s1

/-- A group's asynchronous-path writes performed before an engine entry of the group reads (R261, R290). -/
def State.flush (s : State) (g : Nat) : State := s.flushAsync g (s.group g).async.length

/-- Whether a strip of a copy on its way to some places is not performed yet (R312). -/
def Group.stripOver (G : Group) (runs : List (Nat × Nat)) : Bool :=
  G.async.any fun w => w.strip && (match w.place with | .phys p => runs.any fun r => decide (r.1 < p + w.data.length ∧ p < r.1 + r.2) | .virt _ => false)

/-- The strips of a copy that have arrived or been committed. -/
def Channel.nextStrip (c : Channel) : Nat := (c.filled + 127) / 128 + c.arrived.length

/-! ## What fences and releases wait for (R333, R337, R341) -/

/-- The scope of the place that a queued access is bound for; 6 when it translates to none. -/
def State.accessScope (s : State) (g : Nat) (a : Access) : Nat :=
  match a.pa with
  | some runs => (runs.map fun r => scopeOf g r.1).foldl max 0
  | none =>
    match (s.spotOf g a).2 with
    | .here ((pa, _) :: _) _ => scopeOf g pa
    | .wait => 1
    | _ => 6

/-- The scope of a sent write's place. -/
def SentWrite.scope (w : SentWrite) : Nat := if w.die ≥ 8 then 5 else 4

/-- Whether a store or atomic of a group to a place within a scope is not yet performed and acknowledged. Asynchronous-path
writes count once a CPFENCE has joined them, which it does only when they are acknowledged (R345). -/
def State.storesLeft (s : State) (g scope : Nat) : Bool :=
  let G := s.group g
  G.slices.toList.any (fun l => l.any fun a => decide (s.accessScope g a ≤ scope)) ||
  G.sent.any (fun w => !w.msg && !w.path && decide (w.scope ≤ scope))

/-- Whether runs have a place within a scope of a group. -/
def runsWithin (g scope : Nat) (runs : List (Nat × Nat)) : Bool := runs.any fun r => decide (scopeOf g r.1 ≤ scope)

/-- Whether a load of a group from a place within a scope has not returned its data: LD's, or a read of a posted TLD, BLD or transform
entry, or one that a stream channel has made (R331, R337; notes/assumptions/64). -/
def State.loadsLeft (s : State) (g scope : Nat) : Bool :=
  let G := s.group g
  (match G.late with | some l => runsWithin g scope l.runs | none => false) ||
  (s.cell (cellOf g)).mq.any (fun e => e.group == g && runsWithin g scope e.unread) ||
  ((s.cell (cellOf g)).tq0 ++ (s.cell (cellOf g)).tq1).any (fun e => e.group == g && (e.reads.any fun r => (match (s.look g .load r.1.toNat r.2 (engineId 1)).2 with
    | .here rs _ => runsWithin g scope rs
    | .wait => true
    | _ => false))) ||
  G.chan.toList.any (fun c => decide (c.st = .copying) && decide (c.asked > c.nextStrip) && decide (5 ≤ scope))

/-- The accesses of a group within a scope performed as far as they go. -/
def State.drainScope (s : State) (g scope : Nat) : State := s.drainThose g fun st a => decide (st.accessScope g a ≤ scope)

/-- Every slice queue emptied as far as it goes. -/
def State.drainAll (s : State) (g : Nat) : State := (upFrom 0 4).foldl (fun st q => st.drain g q) s

/-- Whether a slice queue still holds an access. -/
def Group.queued (G : Group) : Bool := G.slices.toList.any fun l => !l.isEmpty

/-! ## B-store tiles that posted entries write (R261) -/

/-- The B-store tiles that runs of places touch. -/
def runTiles (runs : List (Nat × Nat)) : List Nat :=
  (runs.map fun r =>
    match paBstore r.1 with
    | some (cell, off) => (tilesOf off r.2).map (tileKey cell)
    | none => []).flatten

/-- The runs of a group's B-store tile; none when the tile is not valid (R257). -/
def State.tileRuns (s : State) (g n : Nat) : Option (List (Nat × Nat)) := s.window g 0xF2 (n * tileBytes) tileBytes

/-- The B-store tiles that a matrix entry writes. -/
def State.entryTiles (s : State) (e : MatrixEntry) : List Nat :=
  match e.op with
  | .bld n _ _ => runTiles ((s.tileRuns e.group n).getD [])
  | .bst n _ => runTiles ((s.tileRuns e.group n).getD [])
  | .accst _ base stride =>
    ((upFrom 0 16).map fun i => runTiles (s.look e.group .store (base + stride * BitVec.ofNat 64 i).toNat 128 (engineId 0)).2.runs).flatten
  | _ => []

/-- The B-store tiles that a group's entries still in the matrix queue write. -/
def State.tilesPending (s : State) (g : Nat) : List Nat :=
  (((s.cell (cellOf g)).mq.filter fun e => e.group == g).map s.entryTiles).flatten

/-- Whether a row of a posted ACCST of a group still waits for its translation. -/
def State.rowUnknown (s : State) (g : Nat) : Bool :=
  (s.cell (cellOf g)).mq.any fun e => e.group == g && (match e.op with
    | .accst _ base stride => (upFrom 0 16).any fun i => decide ((s.look g .store (base + stride * BitVec.ofNat 64 i).toNat 128 (engineId 0)).2 = .wait)
    | _ => false)

/-- Whether a group has an entry that writes B-store tiles. -/
def State.tileWriters (s : State) (g : Nat) : Bool :=
  (s.cell (cellOf g)).mq.any fun e => e.group == g && (match e.op with
    | .bld .. => true
    | .bst .. => true
    | .accst .. => true
    | _ => false)

/-- Whether an access to runs must wait for a BLD, BST or ACCST of its group (R261); a row whose translation is awaited may be any tile. -/
def State.tileBusy (s : State) (g : Nat) (runs : List (Nat × Nat)) : Bool :=
  let t := runTiles runs
  !t.isEmpty && ((s.tilesPending g).any (fun k => t.contains k) || s.rowUnknown g)

/-- Whether a store must wait for a BLD, BST or ACCST of its group: one whose own translation is awaited may be bound for any tile (R261). -/
def State.storeWaits (s : State) (g : Nat) (p : Spot) : Bool :=
  match p with
  | .here runs _ => s.tileBusy g runs
  | .wait => s.tileWriters g
  | _ => false

/-! ## Loads through a slice queue (R158, R159, R334) -/

/-- Whether an access and `n` bytes at an address share a byte. -/
def Access.overlaps (a : Access) (va n : Nat) : Bool := decide (a.va.toNat < va + n ∧ va < a.va.toNat + a.len)

/-- The last queued access that shares a byte with a load, by its address or by any other that maps the byte, when it is a plain
store that covers the load: the load takes its value from the queue once the store has translated, and the store keeps that
translation (R159, R364). -/
def State.forward (s : State) (g va n : Nat) (runs : List (Nat × Nat)) : Option (State × List Byte) :=
  let meet := fun (a : Access) => a.overlaps va n || runsMeet (s.accessRuns g a) runs
  let last := ((s.group g).slices.toList.map fun l => (l.filter meet).getLast?).filterMap id
  match last.foldl (fun (b : Option Access) a => match b with | some c => if c.seq < a.seq then some a else b | none => some a) none with
  | some a =>
    if a.op = .store ∧ a.va.toNat ≤ va ∧ va + n ≤ a.va.toNat + a.len then
      let b := takeBytes (toBytes a.len a.data) (va - a.va.toNat) n
      match a.pa, s.spotOf g a with
      | some _, _ => some (s, b)
      | none, (s1, .here rs _) =>
        let G := s1.group g
        let q := sliceOf a.va.toNat
        some (s1.putGroup g (G.setSlice q ((G.slice q).map fun x => if x.seq = a.seq then { x with pa := some rs } else x)), b)
      | none, _ => none
    else none
  | none => none

/-- Whether no store or atomic of a group stands before a load of some places through a slice: no queued access, no write that is on its
way, and no access to one of its bytes in another queue (R159, R334, R403). -/
def State.storesClear (s : State) (g q : Nat) (runs : List (Nat × Nat)) : Bool :=
  ((s.group g).slice q).isEmpty && !(s.group g).heldBehind q (fun _ => true) && !s.aliasBefore g q (s.group g).seq runs

/-- Whether nothing of a group stands before a load of some places through a slice, rows that a posted TLD or BLD has still to read there
among it (R273, R334). -/
def State.sliceClear (s : State) (g q : Nat) (runs : List (Nat × Nat)) : Bool := s.storesClear g q runs && !s.readAhead g q (s.group g).seq

/-- The queues emptied as far as a load of some places through a slice needs: its own, and of the others what shares a byte with it. -/
def State.drainBefore (s : State) (g q : Nat) (runs : List (Nat × Nat)) : State :=
  (s.drain g q).drainThose g fun st a => runsMeet (st.accessRuns g a) runs

/-- A load made ready: its value is in a queued store, or its bytes stand at places; or a trap, or a wait. -/
inductive Prep where
  | value (b : List Byte)
  | place (runs : List (Nat × Nat)) (leaf : Nat)
  | trap (code sub : Nat) (addr : Word)
  | wait
  deriving DecidableEq, Repr

/-- A group's load through its slice queue made ready: checks 2 to 4 of R158, the stall of R261, then the queued
store that holds its value, or its place once the earlier accesses of the slice are performed. -/
def State.prepare (s : State) (g : Nat) (va : Word) (n : Nat) : State × Prep :=
  match s.look g .load va.toNat n with
  | (s1, .range) => (s1, .trap 6 0 va)
  | (s1, .fail sub) => (s1, .trap 4 sub va)
  | (s1, .wait) => (s1, .wait)
  | (s1, .here runs leaf) =>
    if s1.tileBusy g runs then (s1, .wait)
    else
      match s1.forward g va.toNat n runs with
      | some (s2, b) => (s2, .value b)
      | none =>
        let s2 := s1.drainBefore g (sliceOf va.toNat) runs
        if s2.sliceClear g (sliceOf va.toNat) runs then (s2, .place runs leaf) else (s2, .wait)

/-- A group's load through its slice queue. Alignment is the caller's check. -/
def State.load (s : State) (g : Nat) (va : Word) (n : Nat) : State × Got :=
  match s.prepare g va n with
  | (s1, .value b) => (s1, .data b)
  | (s1, .place runs _) => s1.readFor g va runs
  | (s1, .trap code sub addr) => (s1, .trap code sub addr)
  | (s1, .wait) => (s1, .wait)

end Sys2Proof.Machine
end

