-- ==== Sys2Proof/Machine/Load.lean ====
section
/-!
DEFINITION. Sys2Proof/Machine/Load.lean: LD, ST and the scalar atomics (spec/08_control_thread R157 to R159,
spec/11_places R251 to R254, spec/16_order R487).
-/

namespace Sys2Proof.Machine

/-- The bytes that LD's width codes read (R157). -/
def loadWidth (w : Nat) : Nat :=
  match w with
  | 0 => 1 | 1 => 2 | 2 => 4 | 3 => 1 | 4 => 2 | 5 => 4 | _ => 8

/-- What LD writes of the bytes it read: codes 0 to 2 sign-extended, the rest zero-extended (R157). -/
def loadValue (w v : Nat) : Word := if w < 3 then sext64 (8 * loadWidth w) v else BitVec.ofNat 64 v

/-- A load whose data are still to come: the registers are kept, and the thread goes on (R487). -/
def State.postpone (s : State) (w : Nat) (d : Reg) (va : Word) (runs : List (Nat × Nat)) (len : Nat) : State :=
  let G := s.own
  let s1 := s.putOwn ({ G with
    late := some { pc := G.pc, d := d, va := va, w := w, runs := runs, ckX := G.x, ckFlags := G.ctlFlags, ckRetired := G.retired,
                   ckVl := G.vl, ckVcfg := G.vcfg, ckXmod := G.xmod, ckXctl := G.xctl, ckColl := (G.collg, G.collop, G.collstride), seq := G.seq } }.retire len)
  s1.emitReads s.cur runs

/-- Whether an earlier load of the group, whose data are to come, holds back a load at an address: in the same slice (R334). -/
def Group.lateSlice (G : Group) (va : Nat) : Bool := match G.late with | some l => sliceOf l.va.toNat == sliceOf va | none => false

/-- LD's effect (R157 to R159): alignment, then the access. Data of another die, another module or the host, and
data that the turn delays, come later; while one load's data are to come, another stalls unless its own are at hand and it lies in
another slice (R334, R487; notes/assumptions/5). -/
def State.loadReg (s : State) (w : Nat) (d a : Reg) (disp : Word) (len : Nat) : State :=
  let va := s.x a + disp
  let n := loadWidth w
  let s0 := s.close
  if va.toNat % n ≠ 0 then s.misaligned va
  else if s.own.lateSlice va.toNat then s0
  else
    match s0.prepare s.cur va n with
    | (s1, .trap code sub addr) => s1.raise code sub addr
    | (s1, .wait) => s1
    | (s1, .value b) => s1.done d (loadValue w (natOfBytes b)) len
    | (s1, .place runs _) =>
      if runs.any (fun r => s1.unreachable s.cur r.1) then s1.raise 0xF 2 va
      else if s.lateLoads || !runsLocal s.cur runs then (if s.own.late.isSome then s1 else s1.postpone w d va runs len)
      else if s1.runsBad runs then s1.uncorrectable va
      else s1.done d (loadValue w (natOfBytes (s1.readRuns runs))) len

/-- LD (R157). -/
def execLd (w : BitVec 3) (d a : Reg) (n : BitVec 11) (s : State) : Res := .next (s.loadReg w.toNat d a (n.signExtend 64) 4)
/-- LD_LONG (R157). -/
def execLdLong (w : BitVec 3) (d a : Reg) (v : BitVec 32) (s : State) : Res := .next (s.loadReg w.toNat d a (v.signExtend 64) 8)

/-- A group as it stood before a load that fails (R4, R487): its registers, the CSRs that a later instruction may have written and PC, and no
access of a later instruction that was not performed yet. -/
def Group.undo (G : Group) (l : LateLoad) : Group :=
  { G with
    late := none, x := l.ckX, ctlFlags := l.ckFlags, retired := l.ckRetired, pc := l.pc, dataWait := none
    vl := l.ckVl, vcfg := l.ckVcfg, xmod := l.ckXmod, xctl := l.ckXctl, collg := l.ckColl.1, collop := l.ckColl.2.1, collstride := l.ckColl.2.2
    slices := G.slices.map fun q => q.filter fun a => decide (a.seq < l.seq) }

/-- The data of a late load have come: written as LD writes them, or UNCORR at the load, with the registers as
they stood before it and the later stores not performed yet taken back (R487). -/
def State.finishLate (s : State) (g : Nat) (l : LateLoad) (b : List Byte) (bad : Bool) : State :=
  let G := { s.group g with late := none }
  if bad then
    (s.putGroup g (G.undo l)).trap g { code := 0xC, sub := 0, kind := 0, addr := l.va, elem := none, vec := false, pc := l.pc, wait := none }
  else s.putGroup g (G.setReg l.d (loadValue l.w (natOfBytes b)))

/-- Whether an address of the executing group's window is out of range (R158, check 3). -/
def State.windowOut (s : State) (g : Nat) (va n : Nat) : Bool :=
  inWindow va && (s.window g (va / 2 ^ 48) (va % 2 ^ 48) n).isNone

/-- ST's effect (R157 to R159): MISALIGN, RANGE, then into the slice queue of its address; translation comes
later. The thread stalls while the queue is full and while R261 holds the tile. -/
def State.storeReg (s : State) (w : Nat) (d a : Reg) (disp : Word) (len : Nat) : State :=
  let va := s.x a + disp
  let n := 2 ^ w
  let s0 := s.close
  if va.toNat % n ≠ 0 then s.misaligned va
  else if s.windowOut s.cur va.toNat n then s.outOfRange va
  else if (s0.own.slice (sliceOf va.toNat)).length ≥ 64 || s0.storeWaits s.cur (s0.look s.cur .store va.toNat n).2 then s0
  else
    let acc : Access := { op := .store, va := va, pa := none, len := n, data := (s.x d).toNat % 2 ^ (8 * n), pc := s.own.pc, src := 0
                          elem := 0, replica := false, tag := none, seq := 0, hs := none, inst := 0 }
    (s0.putOwn (s0.own.enqueue acc)).retire len

/-- ST (R157). -/
def execSt (w : BitVec 2) (d a : Reg) (n : BitVec 11) (s : State) : Res := .next (s.storeReg w.toNat d a (n.signExtend 64) 4)
/-- ST_LONG (R157). -/
def execStLong (w : BitVec 2) (d a : Reg) (v : BitVec 32) (s : State) : Res := .next (s.storeReg w.toNat d a (v.signExtend 64) 8)

/-! ## Atomics (R251 to R254) -/

/-- The new value of an atomic's word (R251): F code, the unsigned form, old value, xb, and xd for AMOCAS. -/
def atomicValue (op : BitVec 3) (uns : Bool) (old b expect : Word) : Word :=
  match op.toNat with
  | 0 => old + b
  | 1 => if uns then (if b.toNat < old.toNat then b else old) else (if b.toInt < old.toInt then b else old)
  | 2 => if uns then (if old.toNat < b.toNat then b else old) else (if old.toInt < b.toInt then b else old)
  | 3 => old &&& b
  | 4 => old ||| b
  | 5 => old ^^^ b
  | 6 => b
  | _ => if old = expect then b else old

/-- The indivisible step of an atomic at the port of its word (R252): the old value, and the word written unless
an AMOCAS does not match. -/
def State.atomicStep (s : State) (by_ : Option Nat) (runs : List (Nat × Nat)) (op : BitVec 3) (uns : Bool) (b expect : Word) : State × Word :=
  let old := BitVec.ofNat 64 (natOfBytes (s.readRuns runs))
  if op = 7 ∧ old ≠ expect then (s, old)
  else (s.writeRuns by_ none none runs (toBytes 8 (atomicValue op uns old b expect).toNat), old)

/-- An atomic (R252, R253): its checks, then the step at the port once the earlier accesses of its slice and
every earlier load are performed; the thread goes on when the reply has come. -/
def State.atomic (s : State) (op : BitVec 3) (uns : Bool) (d a b : Reg) : State :=
  let va := s.x a
  let g := s.cur
  let s0 := s.close
  if va.toNat % 8 ≠ 0 then s.misaligned va
  else
    match s0.look g .atomic va.toNat 8 with
    | (s1, .fail sub) => s1.pageLoad sub va
    | (s1, .range) => s1.outOfRange va
    | (s1, .wait) => s1
    | (s1, .here runs leaf) =>
      if leafHS leaf && !leafSA leaf then s1.raise 0xA 0 va
      else if s1.tileBusy g runs || s1.own.late.isSome then s1
      else
        let s2 := s1.drainBefore g (sliceOf va.toNat) runs
        if !s2.sliceClear g (sliceOf va.toNat) runs then s2
        else if runs.any (fun r => s2.unreachable g r.1) then s2.raise 0xF 2 va
        else if runsLocal g runs || (s2.own.dataWait.map DataWait.arrived).getD false then
          (if (s2.own.dataWait.map fun w => w.spoilt runs).getD false || s2.runsBad runs then s2.uncorrectable va
           else
             match runs with
             | (pa, _) :: _ =>
               if paModule pa && !paHost pa then
                 (match s2.runsBytes g runs with
                  | some old => s2.done d (BitVec.ofNat 64 (natOfBytes old)) 4
                  | none => s2)
               else
                 let r := s2.atomicStep (some g) runs op uns (s.x b) (s.x d)
                 r.1.done d r.2 4
             | [] => s2)
        else if s2.own.dataWait.isSome then s2
        else
          let act := runs.head?.map fun r => (r.1, RemoteKind.atomic op uns (s.x b) (s.x d))
          let w : DataWait := { pc := s2.own.pc, va := va, arrived := false, bad := [], inbox := [], asked := runs, act := act }
          (runs.filter fun r => paFar r.1).foldl (fun st r => st.emit (.request r.1 (.atomic op uns (s.x b) (s.x d)) g)) (s2.putOwn { s2.own with dataWait := some w })

/-- AMOADD (R251). -/
def execAmoadd (d a b : Reg) (s : State) : Res := .next (s.atomic 0 false d a b)
/-- AMOMIN (R251). -/
def execAmomin (u : Bool) (d a b : Reg) (s : State) : Res := .next (s.atomic 1 u d a b)
/-- AMOMAX (R251). -/
def execAmomax (u : Bool) (d a b : Reg) (s : State) : Res := .next (s.atomic 2 u d a b)
/-- AMOAND (R251). -/
def execAmoand (d a b : Reg) (s : State) : Res := .next (s.atomic 3 false d a b)
/-- AMOOR (R251). -/
def execAmoor (d a b : Reg) (s : State) : Res := .next (s.atomic 4 false d a b)
/-- AMOXOR (R251). -/
def execAmoxor (d a b : Reg) (s : State) : Res := .next (s.atomic 5 false d a b)
/-- AMOSWAP (R251). -/
def execAmoswap (d a b : Reg) (s : State) : Res := .next (s.atomic 6 false d a b)
/-- AMOCAS (R251): D holds the expected value. -/
def execAmocas (d a b : Reg) (s : State) : Res := .next (s.atomic 7 false d a b)

end Sys2Proof.Machine
end

