-- ==== Sys2Proof/Machine/Order.lean ====
section
/-!
DEFINITION. Sys2Proof/Machine/Order.lean: FENCE, CPFENCE, VSYNC, LDA and STRL (spec/16_order R340 to R346).
-/

namespace Sys2Proof.Machine

/-- Whether an atomic of a group to a place within a scope, an element of VSTXA, is not yet performed and
acknowledged. -/
def State.atomicsLeft (s : State) (g scope : Nat) : Bool :=
  let G := s.group g
  G.slices.toList.any (fun l => l.any fun a => a.isAtomic && decide (s.accessScope g a ≤ scope)) ||
  G.sent.any (fun w => w.atomic && decide (w.scope ≤ scope))

/-- FENCE (R341): kind 1 waits for loads and atomics, 2 for stores and atomics, 3 for all; scope group orders
nothing. The accesses that it covers leave their queues, with those before them (R334); the wait is a stall. -/
def execFence (kd : BitVec 2) (sc : BitVec 3) (s : State) : Res :=
  .next <|
    let g := s.cur
    if sc = 0 then s.close.retire 4
    else
      let s1 := s.close.drainThose g fun st a => decide (st.accessScope g a ≤ sc.toNat) && (decide (kd ≠ 1) || a.isAtomic)
      let left := (kd ≠ 2 && s1.loadsLeft g sc.toNat) || (if kd = 1 then s1.atomicsLeft g sc.toNat else s1.storesLeft g sc.toNat)
      if left then s1 else s1.retire 4

/-- CPFENCE (R345): the asynchronous-path writes of entries, strips and results that are done are performed, those on other modules
acknowledged. -/
def execCpfence (s : State) : Res :=
  .next <|
    let s1 := s.close.flush s.cur
    if s1.own.async.isEmpty && !s1.own.sent.any (fun w => w.path) then s1.retire 4 else s1

/-- VSYNC (R342): the accesses to places of the cluster leave their queues first; acknowledgements are not
awaited. -/
def execVsync (s : State) : Res :=
  .next <|
    let g := s.cur
    let s1 := s.close.drainScope g 2
    if s1.own.slices.toList.any (fun l => l.any fun a => decide (s1.accessScope g a ≤ 2)) || s1.loadsLeft g 2 then s1 else s1.retire 4

/-- LDA (R343): a load of an aligned word that the thread waits for, so that every later access follows it. -/
def execLda (d a : Reg) (_ : BitVec 3) (s : State) : Res :=
  .next <|
    let va := s.x a
    let s0 := s.close
    if va.toNat % 8 ≠ 0 then s.misaligned va
    else if s.own.lateSlice va.toNat then s0
    else
      match s0.load s.cur va 8 with
      | (s1, .trap code sub addr) => s1.raise code sub addr
      | (s1, .wait) => s1
      | (s1, .data b) => s1.done d (BitVec.ofNat 64 (natOfBytes b)) 4

/-- STRL's access. -/
def State.releaseAccess (s : State) (va data : Word) : Access :=
  { op := .store, va := va, pa := none, len := 8, data := data.toNat, pc := s.own.pc, src := 0, elem := 0, replica := false, tag := none, seq := s.own.seq, hs := none
    inst := 0 }

/-- STRL (R344): earlier accesses within the scope are performed and every earlier store is translated, then the
word is translated and written. PAGE_STORE here names the STRL. -/
def execStrl (d a : Reg) (sc : BitVec 3) (s : State) : Res :=
  .next <|
    let va := s.x a
    let g := s.cur
    let s0 := s.close
    if va.toNat % 8 ≠ 0 then s.misaligned va
    else if s.windowOut g va.toNat 8 then s.outOfRange va
    else
      let s1 := s0.drainThose g fun st a => decide (st.accessScope g a ≤ sc.toNat) || (a.pa.isNone && !a.isAtomic)
      if s1.own.slices.toList.any (fun l => l.any fun a => a.pa.isNone && !a.isAtomic) || s1.storesLeft g sc.toNat || s1.loadsLeft g sc.toNat ||
          !s1.sliceClear g (sliceOf va.toNat) [] then s1
      else if !s1.own.sfrq.isEmpty then s1.pageStore g
      else
        let acc := s1.releaseAccess va (s.x d)
        match s1.look g .store va.toNat 8 with
        | (s2, .wait) => s2
        | (s2, .range) => s2.outOfRange va
        | (s2, .fail sub) => (s2.putOwn (s2.own.addRecord (acc.record sub s.clock))).pageStore g
        | (s2, .here runs _) => if s2.tileBusy g runs || s2.outOfOrder g (sliceOf va.toNat) acc runs then s2 else (s2.sendAccess g acc runs).retire 4

end Sys2Proof.Machine
end

