-- ==== Sys2Proof/Machine/Barrier.lean ====
section
/-!
DEFINITION. Sys2Proof/Machine/Barrier.lean: barriers, their handles, arrivals and departures, and the five barrier
instructions (spec/15_barrier R319 to R330).
-/

namespace Sys2Proof.Machine

/-! ## Units and handles (R319 to R321) -/

/-- SCOPE, INDEX, HOME and GEN of a handle (R320). -/
def barScope (h : Word) : Nat := bits h 0 3
def barIndex (h : Word) : Nat := bits h 4 8
def barHome (h : Word) : Nat := bits h 12 12
def barGen (h : Word) : Nat := bits h 24 8

/-- The kernel barrier's handle (R320). -/
def kernelHandle : Word := 4

/-- The greatest count of a scope, and its entries per slot set (R319). -/
def barLimit (scope : Nat) : Nat :=
  match scope with | 0 => 4 | 1 => 32 | 2 => 256 | _ => 2048
def barEntries (scope : Nat) : Nat :=
  match scope with | 0 => 8 | 1 => 32 | _ => 128

/-- The home unit of a group's barrier of a scope (R319). -/
def barUnit (scope g : Nat) : Nat :=
  match scope with | 0 => cellOf g | 1 => clusterOf g | _ => dieOf g

/-- The die of a home unit. -/
def barDie (h : Word) : Nat :=
  match barScope h with
  | 0 => barHome h / 64
  | 1 => barHome h / 8
  | 4 => 0
  | _ => barHome h

/-- The key of an entry in the table of barriers. -/
def barKey (set scope home index : Nat) : Nat := ((scope * 4096 + home) * 256 + index) * 2 + set

/-- The entry of a number. -/
def State.barEntry (s : State) (k : Nat) : BarEntry := s.bars.findD k BarEntry.fresh

/-- The kernel of a group. -/
def State.kernelOf (s : State) (g : Nat) : Option Kernel := (s.slotSet (setOf g)).kernel? (s.group g).kernid

/-- Where a live handle leads: the kernel barrier, or an entry (R321). -/
inductive BarPlace where
  | kernel (k : Kernel)
  | entry (key : Nat)
  deriving DecidableEq, Repr

/-- Whether a group may use the barriers of a unit (R319). -/
def barAllowed (scope home g : Nat) : Bool :=
  match scope with
  | 0 => decide (home = cellOf g)
  | 1 => decide (home = clusterOf g)
  | 2 => decide (home = dieOf g)
  | _ => decide (home < 8)

/-- The check of R321: the place, or the sub-code of ILLEGAL. -/
def State.liveHandle (s : State) (g : Nat) (h : Word) : Except Nat BarPlace :=
  if h = kernelHandle then
    match s.kernelOf g with
    | some k => if k.cohort then .ok (.kernel k) else .error 3
    | none => .error 3
  else
    let key := barKey (setOf g) (barScope h) (barHome h) (barIndex h)
    let e := s.barEntry key
    if bits h 32 32 = 0 ∧ bits h 3 1 = 0 ∧ barScope h ≤ 3 ∧ barIndex h < barEntries (barScope h) ∧ e.used = true ∧ e.gen = barGen h ∧
        barAllowed (barScope h) (barHome h) g = true then .ok (.entry key)
    else .error 1

/-- The scope of R333 that a barrier's order has (R324). -/
def barOrder (h : Word) : Nat :=
  match barScope h with | 0 => 1 | 1 => 2 | 2 => 3 | _ => 4

/-! ## Phases (R323, R326) -/

/-- A phase completes when enough have arrived; a count of 0 leaves the barrier complete (R323, R326). -/
def BarEntry.settle (e : BarEntry) : BarEntry :=
  if e.arrivals ≥ e.count then { e with phase := e.phase + 1, arrivals := 0 } else e

/-- An arrival: the phase returned, and the entry after it (R323). -/
def BarEntry.arrive (e : BarEntry) : BitVec 32 × BarEntry := (e.phase, { e with arrivals := e.arrivals + 1 }.settle)

/-- An arrival of a group at a place: the phase, or the sub-code of ILLEGAL (R323). -/
def State.arriveAt (s : State) (g : Nat) (p : BarPlace) : State × Except Nat (BitVec 32) :=
  match p with
  | .kernel k =>
    if (s.group g).lastPhase = some k.bar.phase then (s, .error 2)
    else
      let r := k.bar.arrive
      let S := s.slotSet (setOf g)
      let s1 := s.putSet (setOf g) (S.putKernel { k with bar := r.2 })
      (s1.putGroup g { s1.group g with lastPhase := some r.1 }, .ok r.1)
  | .entry key =>
    let r := (s.barEntry key).arrive
    ({ s with bars := s.bars.put key r.2 }, .ok r.1)

/-- A group of a cohort kernel has gone: the count falls, its arrival is withdrawn, the phase may complete
(R326). -/
def State.barDepart (s : State) (g num : Nat) : State :=
  match (s.slotSet (setOf g)).kernel? num with
  | none => s
  | some k =>
    if !k.cohort then s
    else
      let here := (s.group g).lastPhase = some k.bar.phase
      let b := { k.bar with count := k.bar.count - 1, arrivals := if here then k.bar.arrivals - 1 else k.bar.arrivals }
      s.putSet (setOf g) ((s.slotSet (setOf g)).putKernel { k with bar := b.settle })

/-- Whether phase `p` of a barrier has completed (R330). -/
def BarEntry.past (e : BarEntry) (p : BitVec 32) : Bool := decide (1 ≤ (e.phase - p).toNat ∧ (e.phase - p).toNat < 2 ^ 31)

/-- Whether a wait on a handle's phase is over for a group: completed, or freed. -/
def State.barOver (s : State) (g : Nat) (h : Word) (p : BitVec 32) : Option Bool :=
  match s.liveHandle g h with
  | .ok (.kernel k) => if k.bar.past p || decide (k.bar.count = 0) then some true else none
  | .ok (.entry key) => if (s.barEntry key).past p then some true else none
  | .error _ => some false

/-- The answer of a wait that is over (R330). -/
def barAnswer (bar done : Bool) (p : BitVec 32) : Word :=
  if done then (if bar then p.setWidth 64 else 0) else BitVec.allOnes 64

/-- A group waits for a phase, or goes on at once (R330). -/
def State.barAwait (s : State) (h : Word) (p : BitVec 32) (d : Reg) (bar : Bool) : State :=
  match s.barOver s.cur h p with
  | some done => s.done d (barAnswer bar done p) 4
  | none => s.wait (.barrier h p d bar)

/-! ## The instructions (R330) -/

/-- The least free entry of a unit. -/
def State.freeEntry (s : State) (set scope home : Nat) : Option Nat :=
  (upFrom 0 (barEntries scope)).find? fun i => !(s.barEntry (barKey set scope home i)).used

/-- BARINIT (R330). -/
def execBarinit (d a b : Reg) (s : State) : Res :=
  .next <|
    let sc := (s.x a).toNat
    let n := (s.x b).toNat
    let g := s.cur
    if sc > 3 ∨ n < 1 ∨ n > barLimit sc then s.illegal
    else
      let home := barUnit sc g
      match s.freeEntry (setOf g) sc home with
      | none => s.close.done d 0 4
      | some i =>
        let key := barKey (setOf g) sc home i
        let gen := (s.barEntry key).gen % 255 + 1
        let e : BarEntry := { used := true, gen := gen, count := n, phase := 0, arrivals := 0 }
        let s1 := { s.close with bars := s.bars.put key e }
        s1.done d (BitVec.ofNat 64 (gen * 2 ^ 24 + home * 2 ^ 12 + i * 2 ^ 4 + sc)) 4

/-- An arrival that an instruction makes: the release, then the arrival at its unit, at once on the own die or as a
remote request (R324, R325). Answers the phase when it is known. -/
def State.arrival (s : State) (h : Word) (bar : Bool) : State × Option (BitVec 32) :=
  let g := s.cur
  match s.own.barPending with
  | some (_, _, some (.ok p)) => (s.putOwn { s.own with barPending := none }, some p)
  | some (_, _, some (.error sub)) => ((s.putOwn { s.own with barPending := none }).illegalSub sub, none)
  | some (_, _, none) => (s, none)
  | none =>
    match s.liveHandle g h with
    | .error sub => (s.illegalSub sub, none)
    | .ok place =>
      let s1 := s.close.drainScope g (barOrder h)
      if s1.storesLeft g (barOrder h) || s1.loadsLeft g (barOrder h) then (s1, none)
      else if barDie h = dieOf g then
        match s1.arriveAt g place with
        | (s2, .ok p) => (s2, some p)
        | (_, .error sub) => (s1.illegalSub sub, none)
      else if s1.noRoute (dieOf g) (barDie h) then (s1.raise 0xF 2 h, none)
      else (s1.putOwn { s1.own with barPending := some (h, bar, none) }, none)

/-- BARARR (R330). -/
def execBararr (d a : Reg) (s : State) : Res :=
  .next <|
    match s.arrival (s.x a) false with
    | (s1, some p) => s1.done d (p.setWidth 64) 4
    | (s1, none) => s1

/-- BAR (R330). -/
def execBar (d a : Reg) (s : State) : Res :=
  .next <|
    match s.arrival (s.x a) true with
    | (s1, some p) =>
      if s1.own.barPast then (s1.putOwn { s1.own with barPast := false }).done d (p.setWidth 64) 4 else s1.barAwait (s.x a) p d true
    | (s1, none) => s1

/-- BARWAIT (R330). -/
def execBarwait (d a b : Reg) (s : State) : Res :=
  .next <|
    match s.liveHandle s.cur (s.x a) with
    | .error sub => s.illegalSub sub
    | .ok _ => s.close.barAwait (s.x a) ((s.x b).setWidth 32) d false

/-- A wait on a barrier that is freed, its entry `e` before that: it ends with the freed status, or as a wait whose phase had
completed. -/
def freedWait (h : Word) (e : BarEntry) (w : Wait) : Wait :=
  match w with
  | .barrier h' p d bar => if h' = h then (if e.past p then .passed d (barAnswer bar true p) else .freed d) else w
  | _ => w

/-- Whether a BAR of a group whose arrival at another unit has been answered finds its phase completed. -/
def Group.barCompleted (h : Word) (e : BarEntry) (G : Group) : Bool :=
  match G.barPending with
  | some (h', true, some (.ok p)) => decide (h' = h) && e.past p
  | _ => false

/-- A group told that a barrier is freed. -/
def Group.freeBar (h : Word) (e : BarEntry) (G : Group) : Group :=
  { G with
    phase := (match G.phase with | .waiting w => .waiting (freedWait h e w) | p => p)
    interrupted := G.interrupted.map fun q => (q.1, freedWait h e q.2)
    barPast := G.barPast || G.barCompleted h e }

/-- BARFREE (R330). -/
def execBarfree (a : Reg) (s : State) : Res :=
  .next <|
    let h := s.x a
    match s.liveHandle s.cur h with
    | .error sub => s.illegalSub sub
    | .ok (.kernel _) => s.illegalSub 1
    | .ok (.entry key) =>
      let e := s.barEntry key
      let s1 := s.close.mapSet (setOf s.cur) fun _ G => G.freeBar h e
      ({ s1 with bars := s1.bars.put key { e with used := false, count := 0, phase := 0, arrivals := 0 } }).retire 4

end Sys2Proof.Machine
end

