-- ==== Sys2Proof/Machine/Csr.lean ====
section
/-!
DEFINITION. Sys2Proof/Machine/Csr.lean: the CSR map, its checks and the CSR instructions
(spec/08_control_thread R169 to R177), with the capability list (spec/21_system R454 to R456).
-/

namespace Sys2Proof.Machine

/-! ## The capability list (R454 to R456) -/

/-- The link state codes of R456. -/
def LinkState.code : LinkState → Nat
  | .down => 0 | .training => 1 | .up => 2 | .degraded => 3 | .retraining => 4 | .failed => 5

/-- The state code of a link or port; links start Down (R403). -/
def State.linkCode (s : State) (k : Nat) : Nat := ((s.links.find k).map fun l => l.st.code).getD 0

/-- Values of a number of bits packed from bit 0 up. -/
def packBits (w : Nat) : List Nat → Nat
  | [] => 0
  | v :: t => v % 2 ^ w + 2 ^ w * packBits w t

/-- LIMITED of R456: a CAP or a GRANT is below its maximum. -/
def State.limited (s : State) : Bool := s.cells.any fun c => decide (c.2.cap < 256 ∨ c.2.grant < 8)

/-- The CSRs of the capability list; a number in no capability reads 0 (R454). -/
def State.capability (s : State) (n : Nat) : Word :=
  BitVec.ofNat 64 <|
  match n with
  | 0x200 => 0x0000000300010203
  | 0x201 => Config.step + Config.fwrel * 2 ^ 16
  | 0x202 => ownModule
  | 0x203 => 0x0000000200020205
  | 0x204 => bitNat s.reduced + s.hbmok.toNat * 2 ^ 16 + (if s.reduced then 18 else 36) * 2 ^ 32 + s.pciw.toNat * 2 ^ 40 + s.hbmuse.toNat * 2 ^ 48
  | 0x205 => 0x000000050003020A
  | 0x206 => packBits 4 ((upFrom 0 16).map fun k => Config.fusedRow k % 9)
  | 0x207 => packBits 4 ((upFrom 16 16).map fun k => Config.fusedRow k % 9)
  | 0x208 => packBits 4 ((upFrom 32 16).map fun k => Config.fusedRow k % 9)
  | 0x209 => packBits 4 ((upFrom 48 16).map fun k => Config.fusedRow k % 9)
  | 0x20A => 0x000000050004020F
  | 0x20B => packBits 3 ((upFrom 0 10).map s.linkCode)
  | 0x20C => packBits 3 ((upFrom 16 21).map s.linkCode)
  | 0x20D => packBits 3 ((upFrom 37 21).map s.linkCode)
  | 0x20E => packBits 3 ((upFrom 58 6).map s.linkCode)
  | 0x20F => 0x0000000200050000
  | 0x210 => s.plim % 2 ^ 13 + s.pnow % 2 ^ 13 * 2 ^ 16 + bitNat s.limited * 2 ^ 32
  | _ => 0

/-! ## Reading (R174) -/

/-- VXSTAT (R75). -/
def Group.vxstat (G : Group) : Word :=
  BitVec.ofNat 64 (G.vfl.toNat + G.mfl.toNat * 2 ^ 12 + G.xfl.toNat * 2 ^ 18 + G.xen.toNat * 2 ^ 24)

/-- CTXID and CTXPEER of a slot set (R81). -/
def SlotSet.ident (S : SlotSet) : Word := BitVec.ofNat 64 (S.num % 2 ^ 16 + S.st.code * 2 ^ 16)

/-- CELLID (R132). -/
def cellId (g : Nat) : Word := BitVec.ofNat 64 (cellOf g % 512 + slotOf g * 2 ^ 12 + setOf g * 2 ^ 14 + ownModule * 2 ^ 16)

/-- The state codes of SCHSTAT (R315). -/
def ChState.code : ChState → Nat
  | .free => 0 | .bound => 1 | .copying => 2 | .done => 3 | .failed => 4

/-- SCHSTATn (R315). -/
def Group.schstat (G : Group) (n : Nat) : Word :=
  if n < G.hold.chans then
    let c := G.chan[n]?.getD Channel.free
    BitVec.ofNat 64 (c.st.code + c.depth % 256 * 2 ^ 8 + (if c.st = .failed then c.why % 16 * 2 ^ 16 + c.fstrip % 2 ^ 40 * 2 ^ 24 else 0))
  else 0

/-- LIM in force for a slot set's context on a cell (R266, R488). -/
def State.limOf (s : State) (t c : Nat) : Nat :=
  let C := s.cell c
  (if t = 0 then C.lim0 else C.lim1).getD (((s.slotSet t).img.bind Image.lim).getD 256)

/-- COLLSTAT (R420). -/
def Group.collstat (G : Group) : Word :=
  BitVec.ofNat 64 (G.collDone.toNat + bitNat G.collOf * 2 ^ 40 + G.collFl.toNat * 2 ^ 42 + G.collFailn.toNat * 2 ^ 48)

/-- The core clocks of a cell since the module left reset (R176): one or more for each clock of the model, with no bound, since no reading of
two cells' counts says anything of order (R25; notes/assumptions/4). -/
def cellCycle (c : Nat) : Nat → Nat
  | 0 => 0
  | n + 1 => cellCycle c n + 1 + Config.extraClocks c n

/-- The value of a CSR as a read of the executing group returns it (R170, R174). -/
def State.csrRead (s : State) (n : Nat) : Word :=
  let G := s.own
  let g := s.cur
  if 0x200 ≤ n then s.capability n
  else if 0x050 ≤ n ∧ n ≤ 0x05F then G.schstat (n - 0x050)
  else
    match n with
    | 0x000 => BitVec.ofNat 64 G.vl
    | 0x001 => G.vcfg
    | 0x002 => G.vresume
    | 0x003 => G.vxstat
    | 0x004 => BitVec.ofNat 64 (1024 * G.lmul + (s.cell (cellOf g)).grant % 16 * 2 ^ 16)
    | 0x005 => G.xmod
    | 0x006 => G.xctl
    | 0x008 => BitVec.ofNat 64 (s.limOf (setOf g) (cellOf g) + (s.cell (cellOf g)).cap * 2 ^ 16)
    | 0x010 => G.collg
    | 0x011 => G.collop
    | 0x012 => G.collstride
    | 0x013 => G.collstat
    | 0x020 => BitVec.ofNat 64 G.grpid
    | 0x021 => BitVec.ofNat 64 G.kernid
    | 0x022 => (s.slotSet (setOf g)).ident
    | 0x023 => cellId g
    | 0x024 => BitVec.ofNat 64 G.ngroups
    | 0x025 => G.kargs
    | 0x026 => (s.slotSet (1 - setOf g)).ident
    | 0x030 => BitVec.ofNat 64 (cellCycle (cellOf g) s.clock)
    | 0x031 => G.retired
    | 0x040 => G.melided
    | 0x041 => G.missued
    | 0x100 => G.trapcause
    | 0x101 => G.trappc
    | 0x102 => G.trapaddr
    | 0x103 => G.trapelem
    | 0x104 => G.trapvec
    | 0x105 => G.trapstat
    | 0x106 => G.scratch[0]
    | 0x107 => G.scratch[1]
    | 0x108 => G.scratch[2]
    | 0x109 => G.scratch[3]
    | 0x10A => (match G.sfrq with | r :: _ => pcField r.pc | [] => 0)
    | 0x10B => BitVec.ofNat 64 (G.sfrq.length + (G.sfrq.filter fun r => !r.reported).length * 2 ^ 8)
    | 0x110 => G.wdoglim
    | _ => 0

/-! ## Writing (R170 to R175) -/

/-- The CSRs that R174 gives to supervisor level. -/
def csrSupervisor (n : Nat) : Bool := n == 0x002 || decide (0x100 ≤ n ∧ n ≤ 0x10B) || n == 0x110

/-- The CSRs whose write column is "none" (R174, R315, R420). DESIGN CHOICE (notes/assumptions/67): the defect map at 0x205 to 0x209 is
among them, so that a write raises ILLEGAL as R171 and R174 state; R16 says that writes to the map are ignored, which the model
keeps for the register file of BAR 0. -/
def csrNoWrite (n : Nat) : Bool :=
  n == 0x004 || n == 0x013 || decide (0x020 ≤ n ∧ n ≤ 0x05F) || n == 0x10A || n == 0x10B || decide (0x200 ≤ n)

/-- The bits of a CSR that are not reserved. -/
def csrFields (n : Nat) : Word :=
  match n with
  | 0x000 => 0x7FFF
  | 0x001 => 0x7FF
  | 0x002 => 0x1FFFF
  | 0x003 => 0x3FFFF03F
  | 0x005 => 0x7FFFFFFF
  | 0x006 => 0x7F
  | 0x008 => 0x1FF01FF
  | 0x010 => 0x3FFFFFFFFF000001
  | 0x011 => 0x1F
  | 0x012 => 0x7FFF7FFF
  | 0x100 => 0xFFFF
  | 0x101 => 0x00FFFFFFFFFFFFFC
  | 0x103 => 0xFFFF
  | 0x104 => 0x007FFFFFFFFFFFFF
  | 0x105 => 0xFF
  | 0x110 => 0xFFFFFFFFFFFF
  | _ => BitVec.allOnes 64

/-- The W1C fields: those of VXSTAT (R75). -/
def csrW1C (n : Nat) : Word := if n = 0x003 then 0xFFF03F else 0

/-- A value of VCFG that R60 and R69 allow. -/
def vcfgOk (v : Word) : Bool := decide (bits v 2 3 ≤ 4) && decide (1 ≤ bits v 5 4 ∧ bits v 5 4 ≤ 8)

/-- The value rules of a CSR (R171, check 5). -/
def csrValueOk (n : Nat) (v : Word) : Bool :=
  match n with
  | 0x000 => decide (v.toNat ≤ 16384)
  | 0x001 => vcfgOk v
  | 0x005 => bitOf v 0 && decide (3 ≤ v.toNat)
  | 0x006 => decide (bits v 5 2 ≤ 2) && decide (bits v 0 5 ≤ 24)
  | 0x008 => decide (1 ≤ bits v 0 9 ∧ bits v 0 9 ≤ 256)
  | 0x011 => decide (bits v 3 2 ≤ 1) && decide (bits v 0 3 ≤ 5)
  | 0x012 => decide (bits v 16 15 ≠ 0)
  | _ => true

/-- LIM written for the executing group's context on its cell; in force from the next window (R266). -/
def State.setLim (s : State) (v : Nat) : State :=
  let c := cellOf s.cur
  let C := s.cell c
  s.putCell c (if setOf s.cur = 0 then { C with lim0 := some v } else { C with lim1 := some v })

/-- The fields of a CSR written (R8, R170). -/
def State.csrPut (s : State) (n : Nat) (v : Word) : State :=
  let G := s.own
  match n with
  | 0x000 => s.putOwn { G with vl := v.toNat }
  | 0x001 => s.putOwn { G with vcfg := v }
  | 0x002 => s.putOwn { G with vresume := v }
  | 0x003 =>
    let G1 := G.clearVfl (BitVec.ofNat 6 (bits v 0 6))
    s.putOwn { G1 with mfl := G.mfl &&& ~~~(BitVec.ofNat 6 (bits v 12 6)), xfl := G.xfl &&& ~~~(BitVec.ofNat 6 (bits v 18 6))
                       xen := BitVec.ofNat 6 (bits v 24 6) }
  | 0x005 => s.putOwn { G with xmod := v }
  | 0x006 => s.putOwn { G with xctl := v }
  | 0x008 => s.setLim (bits v 0 9)
  | 0x010 => s.putOwn { G with collg := v }
  | 0x011 => s.putOwn { G with collop := v }
  | 0x012 => s.putOwn { G with collstride := v }
  | 0x101 => s.putOwn { G with trappc := v }
  | 0x104 => s.putOwn { G with trapvec := BitVec.ofNat 64 (bits v 1 54 * 2 + bits G.trapvec 0 1) }
  | 0x106 => s.putOwn { G with scratch := G.scratch.set 0 v }
  | 0x107 => s.putOwn { G with scratch := G.scratch.set 1 v }
  | 0x108 => s.putOwn { G with scratch := G.scratch.set 2 v }
  | 0x109 => s.putOwn { G with scratch := G.scratch.set 3 v }
  | 0x110 => s.putOwn { G with wdoglim := v }
  | _ => s

/-- The checks of R171 before a write takes effect. -/
def State.csrWrite (s : State) (d : Reg) (n : Nat) (new : Word) : State :=
  if !csrAssigned n then s.illegal
  else if (csrSupervisor n || n == 0x008) && !s.isSupervisor then s.priv
  else if csrNoWrite n then s.illegal
  else if new &&& ~~~(csrFields n) ≠ 0 then s.illegal
  else if !csrValueOk n new then s.illegal
  else (s.close.csrPut n new).done d (s.csrRead n) 4

/-- A CSR's value with every W1C field taken as 0 (R170). -/
def State.csrBase (s : State) (n : Nat) : Word := s.csrRead n &&& ~~~(csrW1C n)

/-- CSRR (R170): of VXSTAT it ends the open convoy (R38). -/
def execCsrr (d : Reg) (n : BitVec 11) (s : State) : Res :=
  .next <|
    if !csrAssigned n.toNat then s.illegal
    else if csrSupervisor n.toNat && !s.isSupervisor then s.priv
    else (if n.toNat = 0x003 then s.close else s).done d (s.csrRead n.toNat) 4

/-- CSRW (R170). -/
def execCsrw (d a : Reg) (n : BitVec 11) (s : State) : Res := .next (s.csrWrite d n.toNat (s.x a))
/-- CSRS (R170). -/
def execCsrs (d a : Reg) (n : BitVec 11) (s : State) : Res := .next (s.csrWrite d n.toNat (s.csrBase n.toNat ||| s.x a))
/-- CSRC (R170). -/
def execCsrc (d a : Reg) (n : BitVec 11) (s : State) : Res := .next (s.csrWrite d n.toNat (s.csrBase n.toNat &&& ~~~(s.x a)))

end Sys2Proof.Machine
end

