-- ==== Sys2Proof/Machine/Trans.lean ====
section
/-!
DEFINITION. Sys2Proof/Machine/Trans.lean: the functions of R74 and the correctly rounded sines of R300. A
value is reckoned in fixed point to 2^-460 and carried with a sticky bit; the two neighbours it lies
between do not depend on more. Which of the two the device stores is free (Config.cut), within the
monotonicity that R74 demands.
-/

namespace Sys2Proof.Machine

/-- The fixed point of this file: 460 bits below the point. -/
def fxBits : Nat := 460

/-- One in fixed point. -/
def fxOne : Int := (2 ^ fxBits : Nat)

/-- A product in fixed point. -/
def fxMul (a b : Int) : Int := a * b / fxOne

/-- A finite value in fixed point, rounded down. -/
def fxOf (neg : Bool) (mag : Nat) (exp : Int) : Int :=
  let e := exp + fxBits
  let m : Int := if e ≥ 0 then (mag * 2 ^ e.toNat : Nat) else (mag / 2 ^ (-e).toNat : Nat)
  if neg then -m else m

/-- ln 2 = Σ 1 / (k 2^k). -/
def lnTwoFrom : Nat → Int → Int
  | 0, acc => acc
  | k + 1, acc => lnTwoFrom k (acc + fxOne / (((k + 1) * 2 ^ (k + 1) : Nat) : Int))

/-- ln 2 in fixed point. -/
def fxLnTwo : Int := lnTwoFrom 480 0

/-- Σ y^k / k! by Horner's rule from the `n`-th term down. -/
def expSeries : Nat → Int → Int → Int
  | 0, _, acc => acc
  | n + 1, y, acc => expSeries n y (fxOne + fxMul y acc / ((n + 1 : Nat) : Int))

/-- A value squared `n` times. -/
def squareTimes : Nat → Int → Int
  | 0, a => a
  | n + 1, a => squareTimes n (fxMul a a)

/-- exp of a fixed-point value below 1 in magnitude. -/
def fxExp (y : Int) : Int := squareTimes 8 (expSeries 60 (y / 256) fxOne)

/-- Σ z^(2k+1) / (2k+1). -/
def atanhSeries : Nat → Nat → Int → Int → Int → Int
  | 0, _, _, _, acc => acc
  | n + 1, k, p, z2, acc => atanhSeries n (k + 1) (fxMul p z2) z2 (acc + p / ((2 * k + 1 : Nat) : Int))

/-- ln of a fixed-point value from 1 to 2. -/
def fxLn (m : Int) : Int :=
  let z := (m - fxOne) * fxOne / (m + fxOne)
  2 * atanhSeries 160 0 z (fxMul z z) 0

/-- A fixed-point result times a power of two, as a value with a sticky bit. -/
def fxNum (a : Int) (e : Int) : Num := .fin (decide (a < 0)) (2 * a.natAbs + 1) (e - fxBits - 1)

/-- A value a little off one: above it, or below it. -/
def nearOne (above : Bool) : Num := .fin false (if above then 2 ^ 400 + 1 else 2 ^ 400 - 1) (-400)

/-- 2^x for a finite nonzero x that is no integer, or e^x (R74). -/
def expNum (base2 neg : Bool) (mag : Nat) (exp : Int) : Num :=
  if exp + (bitLen mag : Int) < -300 then nearOne !neg
  else if exp + (bitLen mag : Int) > 14 then .fin false 1 (if neg then -40000 else 40000)
  else
    let x := fxOf neg mag exp
    let y := if base2 then x else x * fxOne / fxLnTwo
    let i := y / fxOne
    fxNum (fxExp (fxMul (y - i * fxOne) fxLnTwo)) i

/-- log2 x or ln x of a finite positive value (R74). -/
def logNum (base2 : Bool) (mag : Nat) (exp : Int) : Num :=
  let n := bitLen mag
  let m := fxOf false mag (1 - (n : Int))
  let e := exp + (n : Int) - 1
  let r := if base2 then e * fxOne + fxLn m * fxOne / fxLnTwo else e * fxLnTwo + fxLn m
  fxNum r 0

/-- tanh x of a finite nonzero value (R74). -/
def tanhNum (neg : Bool) (mag : Nat) (exp : Int) : Num :=
  if exp + (bitLen mag : Int) < -100 then .fin neg (mag * 2 ^ 400 - 1) (exp - 400)
  else if exp + (bitLen mag : Int) > 8 then .fin neg (2 ^ 400 - 1) (-400)
  else
    match expNum false false mag (exp + 1) with
    | .fin _ m x =>
      let e := fxOf false m x
      (match fxNum ((e - fxOne) * fxOne / (e + fxOne)) 0 with
       | .fin _ m' x' => .fin neg m' x'
       | other => other)
    | other => other

/-- 1/√x of a finite positive value, with a sticky bit, or exact (R74). -/
def rsqrtNum (mag : Nat) (exp : Int) : Num :=
  let k : Nat := if exp % 2 = 0 then 2 * (400 + bitLen mag) else 2 * (400 + bitLen mag) + 1
  let q := 2 ^ k / mag
  let r := isqrt q
  let exact := decide (r * r * mag = 2 ^ k)
  .fin false (2 * r + (if exact then 0 else 1)) ((-exp - k) / 2 - 1)

/-- The functions of major 0x28 in F order (R213). -/
inductive Fn where
  | rcp | rsqrt | exp2 | log2 | exp | log | tanh
  deriving DecidableEq, Repr

/-- A function's number among the gaps of Config.cut. -/
def Fn.index : Fn → Nat
  | .rcp => 0 | .rsqrt => 1 | .exp2 => 2 | .log2 => 3 | .exp => 4 | .log => 5 | .tanh => 6

/-- The tags that the functions accept (R74). -/
def fnTag : Tag → Bool
  | .f16 | .bf16 | .f32 | .f64 => true
  | _ => false

/-- The exact value, a special value of R74's table, or a value to be placed between its neighbours. -/
def fnValue (f : Fn) (x : Num) : Num × BitVec 6 :=
  match f, x with
  | _, .nan s => (.nan false, if s then flagNV else 0)
  | .rcp, .inf n => (.fin n 0 0, 0)
  | .rcp, .fin n m e => if m = 0 then (.inf n, flagDZ) else divNum (.fin false 1 0) (.fin n m e)
  | .rsqrt, .inf n => if n then (.nan false, flagNV) else (.fin false 0 0, 0)
  | .rsqrt, .fin n m e =>
    if m = 0 then (.inf n, flagDZ) else if n then (.nan false, flagNV) else (rsqrtNum m e, 0)
  | .exp2, .inf n => if n then (.fin false 0 0, 0) else (.inf false, 0)
  | .exp2, .fin n m e =>
    if m = 0 then (.fin false 1 0, 0)
    else
      let big := decide (e + (bitLen m : Int) > 14)
      let r := if big then (0, true) else roundTo 1 n m e 0
      if r.2 then (expNum true n m e, 0) else (.fin false 1 (if n then -(r.1 : Int) else r.1), 0)
  | .exp, .inf n => if n then (.fin false 0 0, 0) else (.inf false, 0)
  | .exp, .fin n m e => if m = 0 then (.fin false 1 0, 0) else (expNum false n m e, 0)
  | .log2, .inf n => if n then (.nan false, flagNV) else (.inf false, 0)
  | .log2, .fin n m e =>
    if m = 0 then (.inf true, flagDZ)
    else if n then (.nan false, flagNV)
    else if m = 2 ^ (bitLen m - 1) then (Num.ofInt (e + bitLen m - 1), 0)
    else (logNum true m e, 0)
  | .log, .inf n => if n then (.nan false, flagNV) else (.inf false, 0)
  | .log, .fin n m e =>
    if m = 0 then (.inf true, flagDZ)
    else if n then (.nan false, flagNV)
    else if m = 2 ^ (bitLen m - 1) ∧ e + bitLen m - 1 = 0 then (.fin false 0 0, 0)
    else (logNum false m e, 0)
  | .tanh, .inf n => (.fin n 1 0, 0)
  | .tanh, .fin n m e => if m = 0 then (.fin n 0 0, 0) else (tanhNum n m e, 0)

/-- A float pattern's place in the order of its format: negative patterns below zero. -/
def patOrder (t : Tag) (p : Nat) : Int :=
  let top := 2 ^ (tagWidth t - 1)
  if p ≥ top then -((p - top : Nat) : Int) else p

/-- A decreasing function on each sign (R74). -/
def Fn.decreasing : Fn → Bool
  | .rcp | .rsqrt => true
  | _ => false

/-- The stored result of a function on one element, with its flags (R74): the exact value where it is
representable, else one of its two neighbours, the upper one from the gap's free cut on. DESIGN CHOICE (notes/assumptions/69): at
the edge of the normal range the result is tiny when rounding towards the stored neighbour would make it so, whatever the mode. -/
def fnElem (f : Fn) (t : Tag) (mode : Nat) (p : Nat) : Nat × BitVec 6 :=
  let r := fnValue f (unpack t p)
  match r.1 with
  | .fin n m e =>
    let y := roundNum t mode (.fin n m e)
    if y.2 &&& flagOF ≠ 0 then (y.1, y.2 ||| r.2)
    else
      let lo := roundNum t 3 (.fin n m e)
      let hi := roundNum t 2 (.fin n m e)
      if lo.1 = hi.1 then (lo.1, lo.2 ||| r.2)
      else if hi.2 &&& flagOF ≠ 0 then (lo.1, lo.2 ||| r.2)
      else if lo.2 &&& flagOF ≠ 0 then (hi.1, hi.2 ||| r.2)
      else
        let c := Config.cut f.index t.code (patOrder t lo.1)
        let up := if f.decreasing then decide (patOrder t p ≤ c) else decide (c ≤ patOrder t p)
        if up then (hi.1, hi.2 ||| r.2) else (lo.1, lo.2 ||| r.2)
  | x => let y := roundNum t mode x; (y.1, y.2 ||| r.2)

/-- EXP2 on f32 as VEXP2 (R388). -/
def exp2f32 (p : Nat) : Nat × BitVec 6 := fnElem .exp2 .f32 0 p

/-- Σ of the sine or cosine series: `p` the current term, `j` the index of its last factor. -/
def trigSeries : Nat → Nat → Int → Int → Int → Int
  | 0, _, _, _, acc => acc
  | n + 1, j, p, y2, acc =>
    let p' := -(fxMul p y2) / (((j + 1) * (j + 2) : Nat) : Int)
    trigSeries n (j + 2) p' y2 (acc + p')

/-- arctan (1/k) in fixed point. -/
def atanInv : Nat → Nat → Int → Int → Int → Int
  | 0, _, _, _, acc => acc
  | n + 1, j, p, k2, acc => atanInv n (j + 2) (-(p / k2)) k2 (acc + p / (j : Int))

/-- π in fixed point, by Machin's formula. -/
def fxPi : Int := 4 * (4 * atanInv 200 1 (fxOne / 5) 25 0 - atanInv 80 1 (fxOne / 239) 57121 0)

/-- sin and cos of `2π a / n` for `0 ≤ a < n`, as values: exact at the quarter turns. -/
def turnNum (a n : Nat) : Num × Num :=
  let quarter := 4 * a / n
  let rest := 4 * a % n
  -- the angle within a quarter turn is (rest / n) × π / 2
  let y := fxPi * (rest : Int) / ((2 * n : Nat) : Int)
  let y2 := fxMul y y
  let s := if rest = 0 then Num.fin false 0 0 else fxNum (trigSeries 70 1 y y2 y) 0
  let c := if rest = 0 then Num.fin false 1 0 else fxNum (trigSeries 70 0 fxOne y2 fxOne) 0
  match quarter % 4 with
  | 0 => (s, c)
  | 1 => (c, s.negate)
  | 2 => (s.negate, c.negate)
  | _ => (c.negate, s)

end Sys2Proof.Machine
end

