-- ==== Sys2Proof/Machine/Vector.lean ====
section
/-!
DEFINITION. Sys2Proof/Machine/Vector.lean: how a vector instruction issues: groups, tags and masks, convoys
and pipes, token pops, streams bound to registers, and the element loop with its traps (spec/09_vector
R178 to R193, R197; spec/02_formats R36, R38, R39; spec/14_stream R309, R310, R316). A vector instruction
takes its whole effect at issue; its convoy keeps pipes, element groups, pushes and interlocks (notes/assumptions/18).
-/

namespace Sys2Proof.Machine

/-! ## Groups, tags and masks -/

/-- The bits of `k` registers from register `n` up as one string (R178). -/
def groupBits (v : Vector (BitVec 8192) 32) (n : Nat) : Nat → Nat
  | 0 => 0
  | k + 1 => (v[n]?.getD 0).toNat + 2 ^ 8192 * groupBits v (n + 1) k

/-- The registers of a group with a bit string written. -/
def putGroupBits (v : Vector (BitVec 8192) 32) (n b : Nat) : Nat → Vector (BitVec 8192) 32
  | 0 => v
  | k + 1 => putGroupBits (v.setIfInBounds n (BitVec.ofNat 8192 b)) (n + 1) (b / 2 ^ 8192) k

/-- The tags of a group's registers set. -/
def putTags (v : Vector Tag 32) (n : Nat) (t : Tag) : Nat → Vector Tag 32
  | 0 => v
  | k + 1 => putTags (v.setIfInBounds n t) (n + 1) t k

/-- A register group's bit string under the LMUL in force. -/
def Group.vbits (G : Group) (r : Reg) : Nat := groupBits G.v r.toNat G.lmul

/-- A register group written. -/
def Group.setBits (G : Group) (r : Reg) (b : Nat) : Group := { G with v := putGroupBits G.v r.toNat b G.lmul }

/-- Tag(v) of a group (R180). -/
def Group.tag (G : Group) (r : Reg) : Tag := G.vtag[r.toNat]

/-- A group's tag written (R180). -/
def Group.setTag (G : Group) (r : Reg) (t : Tag) : Group := { G with vtag := putTags G.vtag r.toNat t G.lmul }

/-- VLMAX of a tag (R178). -/
def Group.vlmax (G : Group) (t : Tag) : Nat := 8192 * G.lmul / tagWidth t

/-- VL within a tag's VLMAX (R189). -/
def Group.fits (G : Group) (t : Tag) : Bool := decide (G.vl ≤ G.vlmax t)

/-- A group field aligned to the LMUL in force (R32). -/
def Group.aligned (G : Group) (r : Reg) : Bool := decide (r.toNat % G.lmul = 0)

/-- A mask register's bits. -/
def Group.mask (G : Group) (k : BitVec 3) : Nat := G.m[k.toNat].toNat

/-- A mask register written. -/
def Group.setMask (G : Group) (k : BitVec 3) (b : Nat) : Group := { G with m := G.m.set k.toNat (BitVec.ofNat 8192 b) }

/-- Active(i) of R12. -/
def Group.active (G : Group) (k : Option (BitVec 3)) : Nat → Bool :=
  match k with
  | none => fun i => decide (i < G.vl)
  | some m => let b := G.mask m; fun i => decide (i < G.vl) && bitAtNat b i

/-! ## The head of a vector instruction -/

/-- The classes of R194; a memory member's data are taken or handed over in its own beat. -/
def Timing.move : Timing := { k := 1, lam := 1, mult := false, waits := false, gathers := false }
def Timing.simple : Timing := { Timing.move with lam := 2 }
def Timing.multiply : Timing := { Timing.move with lam := 4, mult := true }
def Timing.function : Timing := { Timing.move with k := 2, lam := 8 }
def Timing.long : Timing := { Timing.move with k := 4, lam := 16 }

/-- The kinds S, C and W of the cross-lane instructions (R215). -/
def Timing.streams (k lam : Nat) : Timing := { Timing.move with k := k, lam := lam }
def Timing.collects (k lam : Nat) : Timing := { Timing.streams k lam with gathers := true }
def Timing.whole (k lam : Nat) : Timing := { Timing.collects k lam with waits := true }

/-- What every vector instruction carries: its length, pipe, CE, token requests, mask field, the groups it names,
those it reads and the one it writes, whether it reads or writes an m register, an x register written at its
end, whether it reads its sources beyond its active positions, the number of its first access, the elements of an element
group with the number of groups where they do not follow from its widest operand (R193); the access indices of an element group where they
are not its elements; its class (R194, R215); the m registers it reads beside its mask and those it writes (R195); whether it
runs in serial mode whatever XEN holds (R231); and the elements of its sources that it uses where its mask does not say so. -/
structure VHead where
  len : Nat
  pipe : Pipe
  ce : Bool
  tk : TokenReq
  mask : Option (BitVec 3)
  reads : List Reg
  writes : Option Reg
  usesMask : Bool
  xdst : Option Reg
  whole : Bool := false
  first : Option Nat := none
  beat : Option (Nat × Nat) := none
  unit : Option Nat := none
  time : Timing := Timing.simple
  mreads : List (BitVec 3) := []
  mwrites : List (BitVec 3) := []
  serial : Bool := false
  act : Option (Nat → Bool) := none

/-- ALU-A or ALU-B (R39). -/
def aluPipe (p : Bool) : Pipe := if p then .aluB else .aluA

/-- The pipes held by the open convoy. -/
def Group.openPipes (G : Group) : List Pipe :=
  match G.convoys.getLast? with
  | some c => if c.ended then [] else c.members.map Member.pipe
  | none => []

/-- Whether the vector instruction queue has no room for a member (R192). -/
def Group.vqFull (G : Group) : Bool :=
  match G.convoys.getLast? with
  | some c => (c.ended || c.torn) && decide (G.convoys.length ≥ 2)
  | none => false

/-- A convoy that a member opens (R38). -/
def Convoy.opened (mb : Member) (ce : Bool) (vl : Nat) : Convoy :=
  { members := [mb], ended := ce, torn := false, vl := vl, beats := 0, bypass := 0, aged := none, stop := none }

/-- A member joins the open convoy or opens one, and ends it with CE (R38). -/
def addMember (mb : Member) (ce : Bool) (vl : Nat) : List Convoy → List Convoy
  | [] => [Convoy.opened mb ce vl]
  | [c] => if c.ended || c.torn then [{ c with ended := true }, Convoy.opened mb ce vl] else [{ c with members := c.members ++ [{ mb with floor := c.beats }], ended := ce }]
  | c :: d :: t => c :: addMember mb ce vl (d :: t)

/-- The elements of an element group of elements of a width, and the element groups of VL elements (R193). -/
def Group.beatsOf (G : Group) (w : Nat) : Nat × Nat := (1024 / w, (G.vl + 1024 / w - 1) / (1024 / w))

/-- The elements of an element group of an instruction, 1,024 bits of its widest vector operand or result, and its element groups
(R193). -/
def Group.beats (G : Group) (h : VHead) : Nat × Nat :=
  h.beat.getD (G.beatsOf ((h.reads ++ h.writes.toList).foldl (fun w r => max w (tagWidth (G.tag r))) 1))

/-- The registers of a group by number. -/
def Group.regsOf (G : Group) (r : Reg) : List Nat := (List.range G.lmul).map fun k => r.toNat + k

/-- The member that an instruction makes (R38, R193, R195); it runs in serial mode while any XEN bit is 1 (R197). -/
def Group.member (G : Group) (h : VHead) : Member :=
  { pipe := h.pipe, push := h.tk.push, xdst := h.xdst, lo := h.first.getD G.seq, hi := G.seq, per := (G.beats h).1
    unit := h.unit.getD (G.beats h).1, total := (G.beats h).2, issued := 0
    time := match h.pipe with | .ld => Timing.move | .st => Timing.move | _ => h.time
    reads := h.reads.flatMap G.regsOf ++ (h.mask.toList ++ h.mreads).map fun k => 32 + k.toNat
    writes := h.writes.toList.flatMap G.regsOf ++ h.mwrites.map fun k => 32 + k.toNat
    serial := h.serial || decide (G.xen ≠ 0), floor := 0, base := 0, lag := 0, fed := [] }

/-- The vector queue with an instruction's member. -/
def Group.join (G : Group) (h : VHead) : List Convoy := addMember (G.member h) h.ce G.vl G.convoys

/-- Whether a member has written its last result, or handed over its last element group (R193, R196). -/
def Member.complete (m : Member) : Bool := decide (m.total ≤ m.issued) && decide (m.lag = 0)

/-- The channel that is bound to a group, if any (R309). -/
def Group.boundTo (G : Group) (r : Reg) : Option Nat :=
  (upFrom 0 16).find? fun n =>
    let c := G.chan[n]?.getD Channel.free
    decide (c.st = .bound) && decide (c.vd = r)

/-- The uses of bound groups that raise ILLEGAL (R309): a write of one, or a read under another LMUL. A group of
another LMUL that shares registers with a bound one counts as that group. -/
def Group.boundOk (G : Group) (reads : List Reg) (writes : Option Reg) : Bool :=
  let shares := fun (r : Reg) (c : Channel) =>
    decide (c.st = .bound) && decide (r.toNat < c.vd.toNat + c.lmul ∧ c.vd.toNat < r.toNat + G.lmul)
  G.chan.toList.all fun c =>
    !(match writes with | some r => shares r c | none => false) &&
    !(reads.any fun r => shares r c && decide (c.lmul ≠ G.lmul))

/-! ## Streams bound to registers (R307 to R310) -/

/-- The address of element `e` of a pattern (R307). -/
def Channel.elemAddr (c : Channel) (e : Nat) : Word :=
  let n := fun k => c.n[k]?.getD 1
  let st := fun k => c.s[k]?.getD 0
  let i0 := e % n 0
  let i1 := e / n 0 % n 1
  let i2 := e / n 0 / n 1 % n 2
  let i3 := e / n 0 / n 1 / n 2
  c.base + BitVec.ofNat 64 i0 * st 0 + BitVec.ofNat 64 i1 * st 1 + BitVec.ofNat 64 i2 * st 2 + BitVec.ofNat 64 i3 * st 3

/-- The number of elements of a pattern. -/
def Channel.total (c : Channel) : Nat := c.n.foldl (· * ·) 1

/-- Where an element's trap stands: its index, cause, sub-code and TRAPADDR. -/
structure Stop where
  e : Nat
  code : Nat
  sub : Nat
  addr : Word
  deriving DecidableEq, Repr

/-- The elements of a popped strip: those in the buffer, the others read now as a vector load reads them; past
the pattern's end they are zero. It ends at the first active element that cannot be read, and `none` is a
strip whose data are still to come. -/
def State.strip (s : State) (g : Nat) (c : Channel) (act : Nat → Bool) (first : Nat) : Nat → Nat → Nat → State × Option (Nat × Option Stop)
  | 0, _, b => (s, some (b, none))
  | k + 1, i, b =>
    let e := first + i
    let w := 8 * c.esz
    if decide (e ≥ c.total) then State.strip s g c act first k (i + 1) (elemPut b w i 0)
    else if !act i then State.strip s g c act first k (i + 1) b
    else
      match c.buf.find? (fun p => p.1 == e) with
      | some (_, v) => State.strip s g c act first k (i + 1) (elemPut b w i v)
      | _ =>
        match s.load g (c.elemAddr e) c.esz with
        | (s1, .data d) => State.strip s1 g c act first k (i + 1) (elemPut b w i (natOfBytes d))
        | (s1, .trap code sub addr) => (s1, some (b, some { e := i, code := code, sub := sub, addr := addr }))
        | (s1, .wait) => (s1, none)

/-- A channel replaced. -/
def Group.setChan (G : Group) (n : Nat) (c : Channel) : Group := { G with chan := G.chan.setIfInBounds n c }

/-- The strip an instruction pops: the one it holds already, or the next (R309, R310). -/
def Group.popStrip (G : Group) (n : Nat) : Group × Channel × Nat :=
  let c := G.chan[n]?.getD Channel.free
  match c.held.find? fun h => h.pc == G.pc with
  | some h => (G, c, h.first)
  | none =>
    let c1 := { c with held := c.held ++ [{ pc := G.pc, first := c.taken }], taken := c.taken + G.vl }
    (G.setChan n c1, c1, c.taken)

/-- A source group's bits at issue: the group's register, or a bound stream's strip, with the trap that reading
an element of it meets. -/
structure Source where
  reg : Reg
  bits : Nat
  stop : Option Stop

/-- The sources of an instruction, each bound group popped once; `none` while data of a strip are to come. -/
def State.takeSources (s : State) (act : Nat → Bool) : List Reg → List Source → State × Option (List Source)
  | [], acc => (s, some acc)
  | r :: rs, acc =>
    if acc.any (fun q => q.reg == r) then State.takeSources s act rs acc
    else
      match s.own.boundTo r with
      | none => State.takeSources s act rs (acc ++ [{ reg := r, bits := s.own.vbits r, stop := none }])
      | some n =>
        let p := s.own.popStrip n
        let s1 := s.putOwn p.1
        match s1.strip s.cur p.2.1 act p.2.2 s1.own.vl 0 (s.own.vbits r) with
        | (s2, some (b, st)) => State.takeSources s2 act rs (acc ++ [{ reg := r, bits := b, stop := st }])
        | (s2, none) => (s2, none)

/-- A source's bits. -/
def srcBits (l : List Source) (r : Reg) : Nat := ((l.find? fun q => q.reg == r).map Source.bits).getD 0

/-- The earliest stop of the sources. -/
def srcStop (l : List Source) : Option Stop :=
  l.foldl (fun best q =>
    match best, q.stop with
    | some x, some y => if y.e < x.e then some y else some x
    | none, y => y
    | x, none => x) none

/-- A channel without the held strips that a test names; its buffer keeps what lies ahead and what a strip still held needs. -/
def Channel.dropHeld (c : Channel) (p : HeldStrip → Bool) : Channel :=
  if c.held.any p then
    let kept := c.held.filter fun h => !p h
    let low := kept.foldl (fun l h => min l h.first) c.taken
    { c with held := kept, buf := c.buf.filter fun q => decide (low ≤ q.1) }
  else c

/-- The strips of other instructions than the one at a group's PC, given up at a return from a trap (R310). -/
def Group.otherStrips (G : Group) : Group := { G with chan := G.chan.map fun c => c.dropHeld fun h => h.pc != G.pc }

/-- The strips of an instruction that has completed, given up. -/
def Group.dropStrips (G : Group) : Group := { G with chan := G.chan.map fun c => c.dropHeld fun h => h.pc == G.pc }

/-! ## Issue -/

/-- The element a vector instruction starts at: VRESUME.ELEM when an RTE with VALID has led to it (R94). -/
def Group.startElem (G : Group) : Nat := if G.resume then bits G.vresume 0 16 else 0

/-- The trap of an element (R77, R241); LINKFAIL names no element, and the whole instruction repeats (R409). -/
def State.stopAt (s : State) (st : Stop) : State :=
  if st.code = 0xF then s.raise st.code st.sub st.addr else s.raiseAt st.code st.sub st.addr st.e

/-- The start element consumed when an instruction enters the vector queue (R94). -/
def Group.begin (G : Group) : Group := { G with vresume := if G.resume then 0 else G.vresume, resume := false }

/-- What a pop of a token makes visible: every write that the group's engines and channels have made (R316, R347). -/
def State.joinPushed (s : State) (pop : Option (BitVec 4)) : State := if pop.isSome then s.flush s.cur else s

/-- The strips that an instruction which does not issue yet would have taken stay in their channels (R309). -/
def State.unpop (s old : State) (l : List Reg) : State :=
  if l.any (fun r => (old.own.boundTo r).isSome) then s.putOwn { s.own with chan := old.own.chan } else s

/-- The elements of the sources that an instruction uses: from its start element on those that its mask lets through, or every one below VL
where it reads its sources beyond them. -/
def Group.used (G : Group) (h : VHead) : Nat → Bool :=
  h.act.getD (if h.whole then fun i => decide (i < G.vl) else fun i => decide (G.startElem ≤ i) && G.active h.mask i)

/-- The issue of a vector instruction (R36 steps 7 and 9, R187, R189, R192, R309, R316): its checks, room in the
vector queue, its strips, its token, what it must find ready; then its body. -/
def State.vectorWith {α : Type} (s : State) (h : VHead) (legal : Bool) (ready : State → List Source → Nat → State × Option α)
    (body : State → α → State) : State :=
  let G := s.own
  if !((h.reads ++ h.writes.toList).all G.aligned) then s.illegal
  else if G.openPipes.contains h.pipe then s.convoyTrap
  else if !legal || ((h.mask.isSome || h.usesMask) && decide (G.vl > 8192)) || !G.boundOk h.reads h.writes then s.illegal
  else if G.vqFull then s
  else
    match h.tk.pop.filter fun f => decide (G.fifos[f.toNat] = 0) with
    | some f => s.wait (.vecToken f)
    | none =>
      match s.takeSources (G.used h) h.reads [] with
      | (s1, none) => s1.unpop s h.reads
      | (s1, some srcs) =>
        match if h.whole then srcStop srcs else none with
        | some st => s1.stopAt st
        | none =>
          let s2 := s1.joinPushed h.tk.pop
          if h.tk.pop.isSome && !s2.own.async.isEmpty then s2.unpop s h.reads
          else
            match ready s2 srcs s2.own.startElem with
            | (s3, none) => s3.unpop s h.reads
            | (s3, some v) => body (s3.putOwn s3.own.begin) v

/-- A vector instruction with nothing more to make ready: its body, given the sources and the element to start
at. -/
def State.vector (s : State) (h : VHead) (legal : Bool) (body : State → List Source → Nat → State) : State :=
  s.vectorWith h legal (fun s1 srcs e => (s1, some (srcs, e))) fun s1 p => body s1 p.1 p.2

/-- A token taken from a FIFO (R316). -/
def Group.popToken (G : Group) (f : Option (BitVec 4)) : Group :=
  match f with
  | some k => { G with fifos := G.fifos.set k.toNat (G.fifos[k.toNat] - 1) }
  | none => G

/-- A vector instruction that has taken its effect: its token is gone, it is a member of its convoy, and the thread
goes on to the next instruction. -/
def State.vdone (s : State) (h : VHead) : State :=
  let G := s.own.dropStrips.popToken h.tk.pop
  (s.putOwn { G with convoys := G.join h }).retire h.len

/-- The element loop of R188 and R77 from element `i` on: inactive elements are left, the first stop of a source
or of an enabled flag ends it, flags go to the lane of the element at width `lw`. -/
def elemLoop (act : Nat → Bool) (bad : Option Stop) (xen : BitVec 6) (w lw : Nat) (f : Nat → Nat × BitVec 6) :
    Nat → Nat → Nat → Group → Nat × Group × Option Stop
  | 0, _, b, G => (b, G, none)
  | k + 1, i, b, G =>
    if !act i then elemLoop act bad xen w lw f k (i + 1) b G
    else
      match bad with
      | some st =>
        if st.e = i then (b, G, some st)
        else
          let r := f i
          let G1 := if r.2 = 0 then G else G.accrueLane (laneOf lw i) r.2
          if r.2 &&& xen ≠ 0 then (b, G1, some { e := i, code := 8, sub := 0, addr := 0 })
          else elemLoop act bad xen w lw f k (i + 1) (elemPut b w i r.1) G1
      | none =>
        let r := f i
        let G1 := if r.2 = 0 then G else G.accrueLane (laneOf lw i) r.2
        if r.2 &&& xen ≠ 0 then (b, G1, some { e := i, code := 8, sub := 0, addr := 0 })
        else elemLoop act bad xen w lw f k (i + 1) (elemPut b w i r.1) G1

/-- An instruction that writes group `d` under tag `t` element by element. -/
def State.elementwise (s : State) (h : VHead) (legal : Bool) (d : Reg) (t : Tag) (lw : Nat) (f : List Source → Nat → Nat × BitVec 6) : State :=
  s.vector h legal fun s1 srcs e =>
    let G := s1.own
    let r := elemLoop (G.active h.mask) (srcStop srcs) G.xen (tagWidth t) lw (f srcs) (G.vl - e) e (G.vbits d) G
    match r.2.2 with
    | some st => (s1.putOwn (r.2.1.setBits d r.1)).stopAt st
    | none => (s1.putOwn ((r.2.1.setBits d r.1).setTag d t)).vdone h

/-- An instruction that writes mask `d` bit by bit. -/
def State.maskwise (s : State) (h : VHead) (legal : Bool) (d : BitVec 3) (lw : Nat) (f : List Source → Nat → Nat × BitVec 6) : State :=
  s.vector h legal fun s1 srcs e =>
    let G := s1.own
    let r := elemLoop (G.active h.mask) (srcStop srcs) G.xen 1 lw (f srcs) (G.vl - e) e (G.mask d) G
    match r.2.2 with
    | some st => (s1.putOwn (r.2.1.setMask d r.1)).stopAt st
    | none => (s1.putOwn (r.2.1.setMask d r.1)).vdone h

/-- Check 4 of R189: the destination is no source group whose tag has another width than the result. -/
def Group.overlapOk (G : Group) (d : Reg) (t : Tag) (srcs : List Reg) : Bool :=
  srcs.all fun r => decide (r ≠ d) || decide (tagWidth (G.tag r) = tagWidth t)

/-- Checks 2 to 4 of R189 for a result tag and source groups. -/
def Group.lengthsOk (G : Group) (d : Reg) (t : Tag) (srcs : List Reg) : Bool :=
  G.fits t && srcs.all (fun r => G.fits (G.tag r)) && G.overlapOk d t srcs

/-- The widest width among operands and result (R179). -/
def Group.widest (G : Group) (t : Tag) (srcs : List Reg) : Nat := srcs.foldl (fun w r => max w (tagWidth (G.tag r))) (tagWidth t)

/-- An element of a source under its tag. -/
def Group.elem (G : Group) (l : List Source) (r : Reg) (i : Nat) : Nat := elemOf (srcBits l r) (tagWidth (G.tag r)) i

end Sys2Proof.Machine
end

