-- ==== Sys2Proof/Machine/VecArith.lean ====
section
/-!
DEFINITION. Sys2Proof/Machine/VecArith.lean: the instructions of majors 0x20 to 0x29 (spec/09_vector R184,
R185, R200 to R214; spec/03_numbers R53, R58, R62 to R65, R74).
-/

namespace Sys2Proof.Machine

/-! ## VSETL and VCFG (R184, R185) -/

/-- VSETL (R184): D = A other than x0 raises ILLEGAL. -/
def execVsetl (d a : Reg) (t : Tag) (s : State) : Res :=
  .next <|
    if d = a ∧ d ≠ 0 then s.illegal
    else
      let w := tagWidth t
      let top := 8192 * s.own.lmul / w * (s.cell (cellOf s.cur)).grant / 8
      let n := (s.x a).toNat
      let vl := if a = 0 then top else min n top
      let s1 := s.close.putOwn { s.own.closeConvoy with vl := vl }
      let s2 := if a = 0 then s1 else s1.setX a (BitVec.ofNat 64 (n - vl))
      s2.done d (BitVec.ofNat 64 ((vl * w + 7) / 8)) 4

/-- VCFG (R185). -/
def execVcfg (d a b : Reg) (s : State) : Res :=
  .next <|
    let old := s.own.vcfg
    let new := (old &&& ~~~(s.x b)) ||| (s.x a &&& s.x b)
    if new &&& ~~~(csrFields 0x001) ≠ 0 || !vcfgOk new then s.illegal
    else (s.close.putOwn { s.own.closeConvoy with vcfg := new }).done d old 4

/-! ## Heads -/

/-- The head of an ALU instruction. -/
def aluHead (p ce : Bool) (k : Option (BitVec 3)) (tk : TokenReq) (len : Nat) (reads : List Reg) (writes : Option Reg)
    (t : Timing := Timing.simple) : VHead :=
  { len := len, pipe := aluPipe p, ce := ce, tk := tk, mask := k, reads := reads, writes := writes, usesMask := false, xdst := none, time := t }

/-- The head of VXMV: one element group, which waits for the whole register (R193, R195, R202). -/
def vxmvHead (G : Group) (p ce : Bool) (d a : Reg) (tk : TokenReq) (len : Nat) : VHead :=
  { aluHead p ce none tk len [a] none { Timing.move with waits := true } with xdst := some d, beat := some (1024 / tagWidth (G.tag a), 1) }

/-- The head of VTAG, which takes no beat (R194). -/
def vtagHead (p ce : Bool) (d : Reg) (t : Tag) (tk : TokenReq) (len : Nat) : VHead :=
  { aluHead p ce none tk len [] (some d) Timing.move with beat := some (1024 / tagWidth t, 0) }

/-- The head of VMERGE, whose mask chooses (R201). -/
def vmergeHead (p ce : Bool) (mk : BitVec 3) (d a b : Reg) (tk : TokenReq) (len : Nat) : VHead :=
  { aluHead p ce none tk len [a, b] (some d) Timing.move with usesMask := true, mreads := [mk] }

/-- The head of VADC and VSBC, which read and write their mask (R209). -/
def vcarryHead (p ce : Bool) (mk : BitVec 3) (d a b : Reg) (tk : TokenReq) (len : Nat) : VHead :=
  { aluHead p ce none tk len [a, b] (some d) with usesMask := true, mreads := [mk], mwrites := [mk] }

/-- The head of VCMP, which writes a mask (R211). -/
def vcmpHead (p ce : Bool) (k : Option (BitVec 3)) (d : BitVec 3) (a b : Reg) (tk : TokenReq) (len : Nat) : VHead :=
  { aluHead p ce k tk len [a, b] none with usesMask := true, mwrites := [d] }

/-! ## Moves and tags (R200 to R202) -/

/-- VMV's effect. -/
def State.vmove (s : State) (p ce : Bool) (k : Option (BitVec 3)) (d a : Reg) (tk : TokenReq) (len : Nat) : State :=
  let G := s.own
  let t := G.tag a
  s.elementwise (aluHead p ce k tk len [a] (some d) Timing.move) (G.lengthsOk d t [a]) d t (tagWidth t) fun src i => (G.elem src a i, 0)

/-- VMVX's effect. -/
def State.vmoveX (s : State) (p ce : Bool) (k : Option (BitVec 3)) (d a : Reg) (tk : TokenReq) (len : Nat) : State :=
  let G := s.own
  let t := G.tag d
  s.elementwise (aluHead p ce k tk len [] (some d) Timing.move) (G.fits t) d t (tagWidth t) fun _ _ => ((s.x a).toNat % 2 ^ tagWidth t, 0)

/-- VXMV's effect (R202): one element into an x register; VL and masks are ignored. -/
def State.vextract (s : State) (p ce : Bool) (d a b : Reg) (tk : TokenReq) (len : Nat) : State :=
  let G := s.own
  let t := G.tag a
  let i := (s.x b).toNat
  let h := vxmvHead G p ce d a tk len
  if !G.aligned a then s.illegal
  else
    s.vector { h with reads := [], mask := none } ((G.boundTo a).isNone && G.boundOk [] (some a)) fun s1 _ _ =>
      let v := if i ≥ G.vlmax t then 0
        else if tagIsSigned t then sext64 (tagWidth t) (elemOf (G.vbits a) (tagWidth t) i)
        else BitVec.ofNat 64 (elemOf (G.vbits a) (tagWidth t) i)
      (s1.setX d v).vdone h

/-- VID's effect. -/
def State.vindex (s : State) (p ce : Bool) (k : Option (BitVec 3)) (d : Reg) (tk : TokenReq) (len : Nat) : State :=
  let G := s.own
  let t := G.tag d
  s.elementwise (aluHead p ce k tk len [] (some d) Timing.move) (G.fits t) d t (tagWidth t) fun _ i =>
    convert .n64 t G.rm G.sat G.modulus i

/-- VTAG's effect: tags only. -/
def State.vretag (s : State) (p ce : Bool) (d : Reg) (t : Tag) (tk : TokenReq) (len : Nat) : State :=
  let h := vtagHead p ce d t tk len
  s.vector h (s.own.fits t) fun s1 _ _ => (s1.putOwn (s1.own.setTag d t)).vdone h

/-- VMERGE's effect (R201). -/
def State.vmerge (s : State) (p ce : Bool) (mk : BitVec 3) (d a b : Reg) (tk : TokenReq) (len : Nat) : State :=
  let G := s.own
  let t := G.tag a
  let m := G.mask mk
  s.elementwise (vmergeHead p ce mk d a b tk len) (decide (t = G.tag b) && G.lengthsOk d t [a, b]) d t
    (tagWidth t) fun src i => (if bitAtNat m i then G.elem src a i else G.elem src b i, 0)

/-! ## Mixed tags (R64) -/

/-- An integer tag by width and signedness. -/
def intTag (signed : Bool) (w : Nat) : Tag :=
  if signed then (if w ≤ 8 then .s8 else if w ≤ 16 then .s16 else if w ≤ 32 then .s32 else .s64)
  else (if w ≤ 8 then .n8 else if w ≤ 16 then .n16 else if w ≤ 32 then .n32 else .n64)

/-- The result tag of two operands (R64); none where R64 raises ILLEGAL. -/
def promoteTag (a b : Tag) : Option Tag :=
  if a = b then some a
  else if a = .q32 ∨ b = .q32 then none
  else if tagIsInt a && tagIsInt b then
    if tagIsSigned a = tagIsSigned b then some (intTag (tagIsSigned a) (max (tagWidth a) (tagWidth b)))
    else
      let ws := if tagIsSigned a then tagWidth a else tagWidth b
      let wn := if tagIsSigned a then tagWidth b else tagWidth a
      some (intTag true (max ws (2 * wn)))
  else if tagIsFloat a && tagIsFloat b then
    if (a = .e4m3 ∧ b = .e5m2) ∨ (a = .e5m2 ∧ b = .e4m3) then some .f16
    else if (a = .f16 ∧ b = .bf16) ∨ (a = .bf16 ∧ b = .f16) then some .f32
    else some (if tagWidth a < tagWidth b then b else a)
  else
    let i := if tagIsInt a then a else b
    let f := if tagIsInt a then b else a
    some (if tagWidth i ≥ 32 ∨ f = .f64 then .f64 else .f32)

/-- The result tag of three operands (R64). -/
def promoteTag3 (a b d : Tag) : Option Tag := (promoteTag a b).bind fun t => promoteTag t d

/-- An operand converted to the result tag (R64): a pattern of the same tag is kept. -/
def promoteElem (G : Group) (src t : Tag) (p : Nat) : Nat × BitVec 6 :=
  if src = t then (p, 0) else convert src t G.rm G.sat G.modulus p

/-! ## Arithmetic (R203 to R207) -/

/-- The two-operand and fused operations of majors 0x22 and 0x23. -/
inductive ArithOp where
  | add | sub | mul | mulh | min | max | div | rem | fma | fms | nfma
  deriving DecidableEq, Repr

/-- The operations that read vd as a third operand. -/
def ArithOp.three : ArithOp → Bool
  | .fma | .fms | .nfma => true
  | _ => false

/-- The operations that saturate under VCFG.SAT (R203). -/
def ArithOp.sats : ArithOp → Bool
  | .add | .sub | .mul | .div | .fma | .fms | .nfma => true
  | _ => false

/-- Whether an operation accepts a result tag (R203). -/
def ArithOp.accepts (op : ArithOp) (t : Tag) : Bool :=
  if tagIsInt t then true
  else if tagIsFloat t then (match op with | .mulh | .rem => false | _ => true)
  else (match op with | .add | .sub | .mul | .fma | .fms => true | _ => false)

/-- An operation on exact integers of the result tag (R204). -/
def ArithOp.onInt (op : ArithOp) (t : Tag) (sat : Bool) (a b d : Int) : Nat × BitVec 6 :=
  let w := tagWidth t
  let put := fun (x : Int) => putInt t (sat && op.sats) x
  match op with
  | .add => (put (a + b), 0)
  | .sub => (put (a - b), 0)
  | .mul => (put (a * b), 0)
  | .mulh => (wrapTo w (a * b / (2 ^ w : Nat)), 0)
  | .min => (put (if a ≤ b then a else b), 0)
  | .max => (put (if a ≤ b then b else a), 0)
  | .div => if b = 0 then (2 ^ w - 1, flagDZ) else (put (divT a b), 0)
  | .rem => if b = 0 then (wrapTo w a, flagDZ) else (put (modT a b), 0)
  | .fma => (put (a * b + d), 0)
  | .fms => (put (a * b - d), 0)
  | .nfma => (put (d - a * b), 0)

/-- An operation on float patterns of the result tag (R205, R62). -/
def ArithOp.onFloat (op : ArithOp) (t : Tag) (rm : Nat) (pa pb pd : Nat) : Nat × BitVec 6 :=
  let a := unpack t pa
  let b := unpack t pb
  let d := unpack t pd
  let once := fun (v : Num × BitVec 6) => let r := roundNum t rm v.1; (r.1, r.2 ||| v.2)
  let basic := fun (v : Num × BitVec 6) => let r := roundOp t rm v.1; (r.1, r.2 ||| v.2)
  match op with
  | .add => basic (addNum rm a b)
  | .sub => basic (addNum rm a b.negate)
  | .mul => basic (mulNum a b)
  | .div => basic (divNum a b)
  | .min => minMax t false pa pb
  | .max => minMax t true pa pb
  | .fma => once (fmaNum rm a b d)
  | .fms => once (fmaNum rm a b d.negate)
  | .nfma => once (fmaNum rm a.negate b d)
  | .mulh => (0, 0)
  | .rem => (0, 0)

/-- An operation on residues (R206): operands out of range are reduced and set MD (R58). -/
def ArithOp.onResidue (op : ArithOp) (q a b d : Nat) : Nat × BitVec 6 :=
  let md : BitVec 6 := if a ≥ q ∨ b ≥ q ∨ (op.three = true ∧ d ≥ q) then flagMD else 0
  let a := a % q
  let b := b % q
  let d := d % q
  match op with
  | .add => ((a + b) % q, md)
  | .sub => ((a + (q - b)) % q, md)
  | .mul => (a * b % q, md)
  | .fma => ((a * b + d) % q, md)
  | .fms => ((a * b + (q - d)) % q, md)
  | _ => (0, md)

/-- One element of an operation, its operands converted to the result tag first (R64). -/
def ArithOp.elem (op : ArithOp) (G : Group) (t ta tb td : Tag) (a b d : Nat) : Nat × BitVec 6 :=
  if t = .q32 then op.onResidue G.modulus a b d
  else
    let x := promoteElem G ta t a
    let y := promoteElem G tb t b
    let z := if op.three then promoteElem G td t d else (0, 0)
    let r := if tagIsFloat t then op.onFloat t G.rm x.1 y.1 z.1 else op.onInt t G.sat (intOf t x.1) (intOf t y.1) (intOf t z.1)
    (r.1, r.2 ||| x.2 ||| y.2 ||| z.2)

/-- The class of an operation (R194). -/
def ArithOp.time : ArithOp → Timing
  | .mul | .mulh | .fma | .fms | .nfma => Timing.multiply
  | .div | .rem => Timing.long
  | .add | .sub | .min | .max => Timing.simple

/-- A vector instruction of R203 with two sources, and vd as the third of a fused one. -/
def State.varith (s : State) (op : ArithOp) (p ce : Bool) (k : Option (BitVec 3)) (d a b : Reg) (tk : TokenReq) (len : Nat) : State :=
  let G := s.own
  let reads := if op.three then [a, b, d] else [a, b]
  let rt := if op.three then promoteTag3 (G.tag a) (G.tag b) (G.tag d) else promoteTag (G.tag a) (G.tag b)
  let t := rt.getD .s8
  s.elementwise (aluHead p ce k tk len reads (some d) op.time) (rt.isSome && op.accepts t && G.lengthsOk d t reads) d t (G.widest t reads)
    fun src i => op.elem G t (G.tag a) (G.tag b) (G.tag d) (G.elem src a i) (G.elem src b i) (if op.three then G.elem src d i else 0)

/-- VABS and VNEG of one element (R204 to R206). -/
def absNeg (neg : Bool) (G : Group) (t : Tag) (v : Nat) : Nat × BitVec 6 :=
  let w := tagWidth t
  if t = .q32 then ((G.modulus - v % G.modulus) % G.modulus, if v ≥ G.modulus then flagMD else 0)
  else if tagIsFloat t then
    (if neg then (if v ≥ 2 ^ (w - 1) then v - 2 ^ (w - 1) else v + 2 ^ (w - 1)) else v % 2 ^ (w - 1), 0)
  else
    let x := intOf t v
    (putInt t G.sat (if neg then -x else if x < 0 then -x else x), 0)

/-- VABS and VNEG. -/
def State.vsign (s : State) (neg p ce : Bool) (k : Option (BitVec 3)) (d a : Reg) (tk : TokenReq) (len : Nat) : State :=
  let G := s.own
  let t := G.tag a
  s.elementwise (aluHead p ce k tk len [a] (some d)) ((neg || decide (t ≠ .q32)) && G.lengthsOk d t [a]) d t (tagWidth t)
    fun src i => absNeg neg G t (G.elem src a i)

/-- VSQRT (R205). -/
def State.vroot (s : State) (p ce : Bool) (k : Option (BitVec 3)) (d a : Reg) (tk : TokenReq) (len : Nat) : State :=
  let G := s.own
  let t := G.tag a
  s.elementwise (aluHead p ce k tk len [a] (some d) Timing.long) (tagIsFloat t && G.lengthsOk d t [a]) d t (tagWidth t) fun src i =>
    let v := sqrtNum (unpack t (G.elem src a i))
    let r := roundOp t G.rm v.1
    (r.1, r.2 ||| v.2)

/-- A value times a power of two (R207). -/
def scaleNum (x : Num) (n : Int) : Num :=
  match x with
  | .fin s m e => .fin s m (e + n)
  | other => other

/-- An exponent kept within what a rounding can tell apart. -/
def clampExp (n : Int) : Int := if n > 40000 then 40000 else if n < -40000 then -40000 else n

/-- VSCALE (R207). -/
def State.vscale (s : State) (p ce : Bool) (k : Option (BitVec 3)) (d a b : Reg) (tk : TokenReq) (len : Nat) : State :=
  let G := s.own
  let t := G.tag a
  s.elementwise (aluHead p ce k tk len [a, b] (some d) Timing.multiply) (tagIsFloat t && tagIsInt (G.tag b) && G.lengthsOk d t [a, b]) d t
    (G.widest t [a, b]) fun src i =>
      let x := unpack t (G.elem src a i)
      let r := roundOp t G.rm (scaleNum x (clampExp (intOf (G.tag b) (G.elem src b i))))
      (r.1, r.2 ||| sigFlag [x])

/-! ## Logic, counts, carries and shifts (R208 to R210) -/

/-- VAND, VOR, VXOR: all operand tags of one width, none q32. -/
def State.vlogic (s : State) (f : Nat → Nat → Nat) (p ce : Bool) (k : Option (BitVec 3)) (d a b : Reg) (tk : TokenReq) (len : Nat) : State :=
  let G := s.own
  let t := G.tag a
  s.elementwise (aluHead p ce k tk len [a, b] (some d))
    (decide (t ≠ .q32) && decide (G.tag b ≠ .q32) && decide (tagWidth t = tagWidth (G.tag b)) && G.lengthsOk d t [a, b]) d t (tagWidth t)
    fun src i => (f (G.elem src a i) (G.elem src b i), 0)

/-- VNOT. -/
def State.vnot (s : State) (p ce : Bool) (k : Option (BitVec 3)) (d a : Reg) (tk : TokenReq) (len : Nat) : State :=
  let G := s.own
  let t := G.tag a
  s.elementwise (aluHead p ce k tk len [a] (some d)) (decide (t ≠ .q32) && G.lengthsOk d t [a]) d t (tagWidth t) fun src i =>
    (2 ^ tagWidth t - 1 - G.elem src a i, 0)

/-- VCLZ and VPOPC: integer tags only. -/
def State.vcount (s : State) (f : Nat → Nat → Nat) (p ce : Bool) (k : Option (BitVec 3)) (d a : Reg) (tk : TokenReq) (len : Nat) : State :=
  let G := s.own
  let t := G.tag a
  s.elementwise (aluHead p ce k tk len [a] (some d)) (tagIsInt t && G.lengthsOk d t [a]) d t (tagWidth t) fun src i =>
    (f (tagWidth t) (G.elem src a i), 0)

/-- The carry bits that VADC or VSBC leaves below VL. -/
def carryBits (f : Nat → Bool) : Nat → Nat → Nat → Nat
  | 0, _, m => m
  | n + 1, i, m => carryBits f n (i + 1) (elemPut m 1 i (bitNat (f i)))

/-- VADC and VSBC (R209): every i < VL, the carry mask read and written. -/
def State.vcarry (s : State) (sub p ce : Bool) (mk : BitVec 3) (d a b : Reg) (tk : TokenReq) (len : Nat) : State :=
  let G := s.own
  let t := G.tag a
  let w := tagWidth t
  let m := G.mask mk
  let h := vcarryHead p ce mk d a b tk len
  let legal := tagIsInt t && tagIsInt (G.tag b) && decide (w = tagWidth (G.tag b)) && G.lengthsOk d t [a, b]
  let sum := fun (src : List Source) (i : Nat) =>
    if sub then (G.elem src a i : Int) - G.elem src b i - bitNat (bitAtNat m i) else (G.elem src a i : Int) + G.elem src b i + bitNat (bitAtNat m i)
  s.vector h legal fun s1 srcs e =>
    let r := elemLoop (G.active none) (srcStop srcs) s1.own.xen w w (fun i => (wrapTo w (sum srcs i), 0)) (G.vl - e) e (s1.own.vbits d) s1.own
    let last := match r.2.2 with | some st => st.e | none => G.vl
    let m1 := carryBits (fun i => decide (sum srcs i < 0 ∨ sum srcs i ≥ (2 ^ w : Nat))) (last - e) e m
    match r.2.2 with
    | some st => (s1.putOwn ((r.2.1.setBits d r.1).setMask mk m1)).stopAt st
    | none => (s1.putOwn (((r.2.1.setBits d r.1).setTag d t).setMask mk m1)).vdone h

/-- The shifts of R210: value, second value and amount. -/
inductive ShiftOp where
  | shl | shr | shra | rol | fshl | fshr
  deriving DecidableEq, Repr

/-- One element of a shift. -/
def ShiftOp.elem (op : ShiftOp) (w a b n : Nat) : Nat :=
  match op with
  | .shl => a * 2 ^ n % 2 ^ w
  | .shr => a / 2 ^ n
  | .shra => wrapTo w (signedOf w a / (2 ^ n : Nat))
  | .rol => rotl w a n
  | .fshl => (a * 2 ^ w + b) * 2 ^ n / 2 ^ w % 2 ^ w
  | .fshr => (a * 2 ^ w + b) / 2 ^ n % 2 ^ w

/-- The amount comes from vd for the funnel shifts (R210). -/
def ShiftOp.funnel : ShiftOp → Bool
  | .fshl | .fshr => true
  | _ => false

/-- A vector shift. -/
def State.vshift (s : State) (op : ShiftOp) (p ce : Bool) (k : Option (BitVec 3)) (d a b : Reg) (tk : TokenReq) (len : Nat) : State :=
  let G := s.own
  let t := G.tag a
  let w := tagWidth t
  let reads := if op.funnel then [a, b, d] else [a, b]
  s.elementwise (aluHead p ce k tk len reads (some d))
    (reads.all (fun r => tagIsInt (G.tag r) && decide (tagWidth (G.tag r) = w)) && G.lengthsOk d t reads) d t w
    fun src i => (op.elem w (G.elem src a i) (G.elem src b i) ((if op.funnel then G.elem src d i else G.elem src b i) % w), 0)

/-! ## Compare, convert, functions (R211 to R213) -/

/-- One comparison of R211 in the result tag. -/
def vcompare (c : BitVec 3) (t : Tag) (pa pb : Nat) : Bool × BitVec 6 :=
  if tagIsFloat t then
    let x := unpack t pa
    let y := unpack t pb
    let nan := x.isNan || y.isNan
    let sig := sigFlag [x, y]
    let quiet := if nan then flagNV else 0
    match c.toNat with
    | 0 => (!nan && decide (cmpNum x y = 0), sig)
    | 1 => (nan || decide (cmpNum x y ≠ 0), sig)
    | 2 => (!nan && decide (cmpNum x y < 0), quiet)
    | 3 => (!nan && decide (cmpNum x y ≤ 0), quiet)
    | 4 => (!nan && decide (cmpNum x y > 0), quiet)
    | 5 => (!nan && decide (cmpNum x y ≥ 0), quiet)
    | _ => (nan, sig)
  else
    let x := intOf t pa
    let y := intOf t pb
    (match c.toNat with
     | 0 => decide (x = y) | 1 => decide (x ≠ y) | 2 => decide (x < y) | 3 => decide (x ≤ y) | 4 => decide (x > y) | 5 => decide (x ≥ y)
     | _ => false, 0)

/-- VCMP. Check 2 of R189 is made for the tags of its sources alone, as the rule states it; the tag of R64 is no tag of a group (DESIGN
CHOICE, notes/assumptions/80). -/
def State.vcmp (s : State) (c : BitVec 3) (p ce : Bool) (k : Option (BitVec 3)) (d : BitVec 3) (a b : Reg) (tk : TokenReq) (len : Nat) : State :=
  let G := s.own
  let rt := promoteTag (G.tag a) (G.tag b)
  let t := rt.getD .s8
  s.maskwise (vcmpHead p ce k d a b tk len)
    (rt.isSome && decide (c ≠ 7) && (decide (t ≠ .q32) || decide (c.toNat ≤ 1)) && G.fits (G.tag a) && G.fits (G.tag b)) d (G.widest t [a, b])
    fun src i =>
      if t = .q32 then
        let x := G.elem src a i
        let y := G.elem src b i
        let q := G.modulus
        let eq := decide (x % q = y % q)
        (bitNat (if c = 0 then eq else !eq), if x ≥ q ∨ y ≥ q then flagMD else 0)
      else
        let x := promoteElem G (G.tag a) t (G.elem src a i)
        let y := promoteElem G (G.tag b) t (G.elem src b i)
        let r := vcompare c t x.1 y.1
        (bitNat r.1, r.2 ||| x.2 ||| y.2)

/-- The pairings that R63 and R212 allow. -/
def convertible (src dst : Tag) : Bool :=
  let q := fun (t : Tag) => t = .n32 || t = .s32 || t = .n64 || t = .s64 || t = .q32
  if src = .q32 then q dst else if dst = .q32 then q src else true

/-- VCVT. -/
def State.vconvert (s : State) (p ce : Bool) (k : Option (BitVec 3)) (d a : Reg) (t : Tag) (tk : TokenReq) (len : Nat) : State :=
  let G := s.own
  let ta := G.tag a
  s.elementwise (aluHead p ce k tk len [a] (some d) Timing.multiply) (convertible ta t && G.lengthsOk d t [a]) d t (G.widest t [a]) fun src i =>
    convert ta t G.rm G.sat G.modulus (G.elem src a i)

/-- The instructions of major 0x28. -/
def State.vfunction (s : State) (f : Fn) (p ce : Bool) (k : Option (BitVec 3)) (d a : Reg) (tk : TokenReq) (len : Nat) : State :=
  let G := s.own
  let t := G.tag a
  s.elementwise (aluHead p ce k tk len [a] (some d) Timing.function) (fnTag t && G.lengthsOk d t [a]) d t (tagWidth t) fun src i =>
    fnElem f t G.rm (G.elem src a i)

/-! ## Mask instructions (R214) -/

/-- The head of a mask instruction, with the masks that it reads and writes. -/
def maskHead (p ce : Bool) (tk : TokenReq) (len : Nat) (xdst : Option Reg) (reads writes : List (BitVec 3)) : VHead :=
  { len := len, pipe := aluPipe p, ce := ce, tk := tk, mask := none, reads := [], writes := none, usesMask := true, xdst := xdst
    mreads := reads, mwrites := writes }

/-- The low bits of a new mask over an old one: bits at and above VL are kept. -/
def Group.maskBelow (G : Group) (d : BitVec 3) (new : Nat) : Nat :=
  G.mask d / 2 ^ G.vl * 2 ^ G.vl + new % 2 ^ G.vl

/-- An instruction that writes a mask from its bits. -/
def State.maskOp (s : State) (new : Nat) (reads : List (BitVec 3)) (p ce : Bool) (d : BitVec 3) (tk : TokenReq) (len : Nat) : State :=
  let h := maskHead p ce tk len none reads [d]
  s.vector h true fun s1 _ _ => (s1.putOwn (s1.own.setMask d (s1.own.maskBelow d new))).vdone h

/-- An instruction that writes an x register from a mask's bits below VL. -/
def State.maskCount (s : State) (f : Nat → Word) (p ce : Bool) (d : Reg) (a : BitVec 3) (tk : TokenReq) (len : Nat) : State :=
  let h := maskHead p ce tk len (some d) [a] []
  s.vector h true fun s1 _ _ => (s1.setX d (f (s.own.mask a % 2 ^ s.own.vl))).vdone h

/-- The least index of a set bit, or all ones. -/
def firstSet (vl m : Nat) : Word := if m = 0 then BitVec.allOnes 64 else BitVec.ofNat 64 (trailingZeros vl m)

/-- VMV (R200). -/
def execVmv (p : Bool) (ce : Bool) (k : Option (BitVec 3)) (d : Reg) (a : Reg) (s : State) : Res := .next (s.vmove p ce k d a TokenReq.idle 4)
/-- VMV (R200), with the extension word. -/
def execVmvLong (p : Bool) (ce : Bool) (k : Option (BitVec 3)) (d : Reg) (a : Reg) (tk : TokenReq) (s : State) : Res := .next (s.vmove p ce k d a tk 8)
/-- VMVX (R200). -/
def execVmvx (p : Bool) (ce : Bool) (k : Option (BitVec 3)) (d : Reg) (a : Reg) (s : State) : Res := .next (s.vmoveX p ce k d a TokenReq.idle 4)
/-- VMVX (R200), with the extension word. -/
def execVmvxLong (p : Bool) (ce : Bool) (k : Option (BitVec 3)) (d : Reg) (a : Reg) (tk : TokenReq) (s : State) : Res := .next (s.vmoveX p ce k d a tk 8)
/-- VXMV (R202). -/
def execVxmv (p : Bool) (ce : Bool) (d : Reg) (a : Reg) (b : Reg) (s : State) : Res := .next (s.vextract p ce d a b TokenReq.idle 4)
/-- VXMV (R202), with the extension word. -/
def execVxmvLong (p : Bool) (ce : Bool) (d : Reg) (a : Reg) (b : Reg) (tk : TokenReq) (s : State) : Res := .next (s.vextract p ce d a b tk 8)
/-- VID (R200). -/
def execVid (p : Bool) (ce : Bool) (k : Option (BitVec 3)) (d : Reg) (s : State) : Res := .next (s.vindex p ce k d TokenReq.idle 4)
/-- VID (R200), with the extension word. -/
def execVidLong (p : Bool) (ce : Bool) (k : Option (BitVec 3)) (d : Reg) (tk : TokenReq) (s : State) : Res := .next (s.vindex p ce k d tk 8)
/-- VTAG (R200). -/
def execVtag (p : Bool) (ce : Bool) (d : Reg) (t : Tag) (s : State) : Res := .next (s.vretag p ce d t TokenReq.idle 4)
/-- VTAG (R200), with the extension word. -/
def execVtagLong (p : Bool) (ce : Bool) (d : Reg) (t : Tag) (tk : TokenReq) (s : State) : Res := .next (s.vretag p ce d t tk 8)
/-- VMERGE (R201). -/
def execVmerge (p : Bool) (ce : Bool) (mk : BitVec 3) (d : Reg) (a : Reg) (b : Reg) (s : State) : Res := .next (s.vmerge p ce mk d a b TokenReq.idle 4)
/-- VMERGE (R201), with the extension word. -/
def execVmergeLong (p : Bool) (ce : Bool) (mk : BitVec 3) (d : Reg) (a : Reg) (b : Reg) (tk : TokenReq) (s : State) : Res := .next (s.vmerge p ce mk d a b tk 8)
/-- VADD (R203 to R206). -/
def execVadd (p : Bool) (ce : Bool) (k : Option (BitVec 3)) (d : Reg) (a : Reg) (b : Reg) (s : State) : Res := .next (s.varith .add p ce k d a b TokenReq.idle 4)
/-- VADD (R203 to R206), with the extension word. -/
def execVaddLong (p : Bool) (ce : Bool) (k : Option (BitVec 3)) (d : Reg) (a : Reg) (b : Reg) (tk : TokenReq) (s : State) : Res := .next (s.varith .add p ce k d a b tk 8)
/-- VSUB (R203 to R206). -/
def execVsub (p : Bool) (ce : Bool) (k : Option (BitVec 3)) (d : Reg) (a : Reg) (b : Reg) (s : State) : Res := .next (s.varith .sub p ce k d a b TokenReq.idle 4)
/-- VSUB (R203 to R206), with the extension word. -/
def execVsubLong (p : Bool) (ce : Bool) (k : Option (BitVec 3)) (d : Reg) (a : Reg) (b : Reg) (tk : TokenReq) (s : State) : Res := .next (s.varith .sub p ce k d a b tk 8)
/-- VMUL (R203 to R206). -/
def execVmul (p : Bool) (ce : Bool) (k : Option (BitVec 3)) (d : Reg) (a : Reg) (b : Reg) (s : State) : Res := .next (s.varith .mul p ce k d a b TokenReq.idle 4)
/-- VMUL (R203 to R206), with the extension word. -/
def execVmulLong (p : Bool) (ce : Bool) (k : Option (BitVec 3)) (d : Reg) (a : Reg) (b : Reg) (tk : TokenReq) (s : State) : Res := .next (s.varith .mul p ce k d a b tk 8)
/-- VMULH (R203 to R206). -/
def execVmulh (p : Bool) (ce : Bool) (k : Option (BitVec 3)) (d : Reg) (a : Reg) (b : Reg) (s : State) : Res := .next (s.varith .mulh p ce k d a b TokenReq.idle 4)
/-- VMULH (R203 to R206), with the extension word. -/
def execVmulhLong (p : Bool) (ce : Bool) (k : Option (BitVec 3)) (d : Reg) (a : Reg) (b : Reg) (tk : TokenReq) (s : State) : Res := .next (s.varith .mulh p ce k d a b tk 8)
/-- VMIN (R203 to R206). -/
def execVmin (p : Bool) (ce : Bool) (k : Option (BitVec 3)) (d : Reg) (a : Reg) (b : Reg) (s : State) : Res := .next (s.varith .min p ce k d a b TokenReq.idle 4)
/-- VMIN (R203 to R206), with the extension word. -/
def execVminLong (p : Bool) (ce : Bool) (k : Option (BitVec 3)) (d : Reg) (a : Reg) (b : Reg) (tk : TokenReq) (s : State) : Res := .next (s.varith .min p ce k d a b tk 8)
/-- VMAX (R203 to R206). -/
def execVmax (p : Bool) (ce : Bool) (k : Option (BitVec 3)) (d : Reg) (a : Reg) (b : Reg) (s : State) : Res := .next (s.varith .max p ce k d a b TokenReq.idle 4)
/-- VMAX (R203 to R206), with the extension word. -/
def execVmaxLong (p : Bool) (ce : Bool) (k : Option (BitVec 3)) (d : Reg) (a : Reg) (b : Reg) (tk : TokenReq) (s : State) : Res := .next (s.varith .max p ce k d a b tk 8)
/-- VABS (R203 to R206). -/
def execVabs (p : Bool) (ce : Bool) (k : Option (BitVec 3)) (d : Reg) (a : Reg) (s : State) : Res := .next (s.vsign false p ce k d a TokenReq.idle 4)
/-- VABS (R203 to R206), with the extension word. -/
def execVabsLong (p : Bool) (ce : Bool) (k : Option (BitVec 3)) (d : Reg) (a : Reg) (tk : TokenReq) (s : State) : Res := .next (s.vsign false p ce k d a tk 8)
/-- VNEG (R203 to R206). -/
def execVneg (p : Bool) (ce : Bool) (k : Option (BitVec 3)) (d : Reg) (a : Reg) (s : State) : Res := .next (s.vsign true p ce k d a TokenReq.idle 4)
/-- VNEG (R203 to R206), with the extension word. -/
def execVnegLong (p : Bool) (ce : Bool) (k : Option (BitVec 3)) (d : Reg) (a : Reg) (tk : TokenReq) (s : State) : Res := .next (s.vsign true p ce k d a tk 8)
/-- VFMA (R203 to R206). -/
def execVfma (p : Bool) (ce : Bool) (k : Option (BitVec 3)) (d : Reg) (a : Reg) (b : Reg) (s : State) : Res := .next (s.varith .fma p ce k d a b TokenReq.idle 4)
/-- VFMA (R203 to R206), with the extension word. -/
def execVfmaLong (p : Bool) (ce : Bool) (k : Option (BitVec 3)) (d : Reg) (a : Reg) (b : Reg) (tk : TokenReq) (s : State) : Res := .next (s.varith .fma p ce k d a b tk 8)
/-- VFMS (R203 to R206). -/
def execVfms (p : Bool) (ce : Bool) (k : Option (BitVec 3)) (d : Reg) (a : Reg) (b : Reg) (s : State) : Res := .next (s.varith .fms p ce k d a b TokenReq.idle 4)
/-- VFMS (R203 to R206), with the extension word. -/
def execVfmsLong (p : Bool) (ce : Bool) (k : Option (BitVec 3)) (d : Reg) (a : Reg) (b : Reg) (tk : TokenReq) (s : State) : Res := .next (s.varith .fms p ce k d a b tk 8)
/-- VNFMA (R203 to R206). -/
def execVnfma (p : Bool) (ce : Bool) (k : Option (BitVec 3)) (d : Reg) (a : Reg) (b : Reg) (s : State) : Res := .next (s.varith .nfma p ce k d a b TokenReq.idle 4)
/-- VNFMA (R203 to R206), with the extension word. -/
def execVnfmaLong (p : Bool) (ce : Bool) (k : Option (BitVec 3)) (d : Reg) (a : Reg) (b : Reg) (tk : TokenReq) (s : State) : Res := .next (s.varith .nfma p ce k d a b tk 8)
/-- VDIV (R203 to R206). -/
def execVdiv (p : Bool) (ce : Bool) (k : Option (BitVec 3)) (d : Reg) (a : Reg) (b : Reg) (s : State) : Res := .next (s.varith .div p ce k d a b TokenReq.idle 4)
/-- VDIV (R203 to R206), with the extension word. -/
def execVdivLong (p : Bool) (ce : Bool) (k : Option (BitVec 3)) (d : Reg) (a : Reg) (b : Reg) (tk : TokenReq) (s : State) : Res := .next (s.varith .div p ce k d a b tk 8)
/-- VREM (R203 to R206). -/
def execVrem (p : Bool) (ce : Bool) (k : Option (BitVec 3)) (d : Reg) (a : Reg) (b : Reg) (s : State) : Res := .next (s.varith .rem p ce k d a b TokenReq.idle 4)
/-- VREM (R203 to R206), with the extension word. -/
def execVremLong (p : Bool) (ce : Bool) (k : Option (BitVec 3)) (d : Reg) (a : Reg) (b : Reg) (tk : TokenReq) (s : State) : Res := .next (s.varith .rem p ce k d a b tk 8)
/-- VSQRT (R205). -/
def execVsqrt (p : Bool) (ce : Bool) (k : Option (BitVec 3)) (d : Reg) (a : Reg) (s : State) : Res := .next (s.vroot p ce k d a TokenReq.idle 4)
/-- VSQRT (R205), with the extension word. -/
def execVsqrtLong (p : Bool) (ce : Bool) (k : Option (BitVec 3)) (d : Reg) (a : Reg) (tk : TokenReq) (s : State) : Res := .next (s.vroot p ce k d a tk 8)
/-- VSCALE (R207). -/
def execVscale (p : Bool) (ce : Bool) (k : Option (BitVec 3)) (d : Reg) (a : Reg) (b : Reg) (s : State) : Res := .next (s.vscale p ce k d a b TokenReq.idle 4)
/-- VSCALE (R207), with the extension word. -/
def execVscaleLong (p : Bool) (ce : Bool) (k : Option (BitVec 3)) (d : Reg) (a : Reg) (b : Reg) (tk : TokenReq) (s : State) : Res := .next (s.vscale p ce k d a b tk 8)
/-- VAND (R208). -/
def execVand (p : Bool) (ce : Bool) (k : Option (BitVec 3)) (d : Reg) (a : Reg) (b : Reg) (s : State) : Res := .next (s.vlogic (fun x y => x &&& y) p ce k d a b TokenReq.idle 4)
/-- VAND (R208), with the extension word. -/
def execVandLong (p : Bool) (ce : Bool) (k : Option (BitVec 3)) (d : Reg) (a : Reg) (b : Reg) (tk : TokenReq) (s : State) : Res := .next (s.vlogic (fun x y => x &&& y) p ce k d a b tk 8)
/-- VOR (R208). -/
def execVor (p : Bool) (ce : Bool) (k : Option (BitVec 3)) (d : Reg) (a : Reg) (b : Reg) (s : State) : Res := .next (s.vlogic (fun x y => x ||| y) p ce k d a b TokenReq.idle 4)
/-- VOR (R208), with the extension word. -/
def execVorLong (p : Bool) (ce : Bool) (k : Option (BitVec 3)) (d : Reg) (a : Reg) (b : Reg) (tk : TokenReq) (s : State) : Res := .next (s.vlogic (fun x y => x ||| y) p ce k d a b tk 8)
/-- VXOR (R208). -/
def execVxor (p : Bool) (ce : Bool) (k : Option (BitVec 3)) (d : Reg) (a : Reg) (b : Reg) (s : State) : Res := .next (s.vlogic (fun x y => x ^^^ y) p ce k d a b TokenReq.idle 4)
/-- VXOR (R208), with the extension word. -/
def execVxorLong (p : Bool) (ce : Bool) (k : Option (BitVec 3)) (d : Reg) (a : Reg) (b : Reg) (tk : TokenReq) (s : State) : Res := .next (s.vlogic (fun x y => x ^^^ y) p ce k d a b tk 8)
/-- VNOT (R208). -/
def execVnot (p : Bool) (ce : Bool) (k : Option (BitVec 3)) (d : Reg) (a : Reg) (s : State) : Res := .next (s.vnot p ce k d a TokenReq.idle 4)
/-- VNOT (R208), with the extension word. -/
def execVnotLong (p : Bool) (ce : Bool) (k : Option (BitVec 3)) (d : Reg) (a : Reg) (tk : TokenReq) (s : State) : Res := .next (s.vnot p ce k d a tk 8)
/-- VCLZ (R208). -/
def execVclz (p : Bool) (ce : Bool) (k : Option (BitVec 3)) (d : Reg) (a : Reg) (s : State) : Res := .next (s.vcount leadingZeros p ce k d a TokenReq.idle 4)
/-- VCLZ (R208), with the extension word. -/
def execVclzLong (p : Bool) (ce : Bool) (k : Option (BitVec 3)) (d : Reg) (a : Reg) (tk : TokenReq) (s : State) : Res := .next (s.vcount leadingZeros p ce k d a tk 8)
/-- VPOPC (R208). -/
def execVpopc (p : Bool) (ce : Bool) (k : Option (BitVec 3)) (d : Reg) (a : Reg) (s : State) : Res := .next (s.vcount popCount p ce k d a TokenReq.idle 4)
/-- VPOPC (R208), with the extension word. -/
def execVpopcLong (p : Bool) (ce : Bool) (k : Option (BitVec 3)) (d : Reg) (a : Reg) (tk : TokenReq) (s : State) : Res := .next (s.vcount popCount p ce k d a tk 8)
/-- VADC (R209). -/
def execVadc (p : Bool) (ce : Bool) (mk : BitVec 3) (d : Reg) (a : Reg) (b : Reg) (s : State) : Res := .next (s.vcarry false p ce mk d a b TokenReq.idle 4)
/-- VADC (R209), with the extension word. -/
def execVadcLong (p : Bool) (ce : Bool) (mk : BitVec 3) (d : Reg) (a : Reg) (b : Reg) (tk : TokenReq) (s : State) : Res := .next (s.vcarry false p ce mk d a b tk 8)
/-- VSBC (R209). -/
def execVsbc (p : Bool) (ce : Bool) (mk : BitVec 3) (d : Reg) (a : Reg) (b : Reg) (s : State) : Res := .next (s.vcarry true p ce mk d a b TokenReq.idle 4)
/-- VSBC (R209), with the extension word. -/
def execVsbcLong (p : Bool) (ce : Bool) (mk : BitVec 3) (d : Reg) (a : Reg) (b : Reg) (tk : TokenReq) (s : State) : Res := .next (s.vcarry true p ce mk d a b tk 8)
/-- VSHL (R210). -/
def execVshl (p : Bool) (ce : Bool) (k : Option (BitVec 3)) (d : Reg) (a : Reg) (b : Reg) (s : State) : Res := .next (s.vshift .shl p ce k d a b TokenReq.idle 4)
/-- VSHL (R210), with the extension word. -/
def execVshlLong (p : Bool) (ce : Bool) (k : Option (BitVec 3)) (d : Reg) (a : Reg) (b : Reg) (tk : TokenReq) (s : State) : Res := .next (s.vshift .shl p ce k d a b tk 8)
/-- VSHR (R210). -/
def execVshr (p : Bool) (ce : Bool) (k : Option (BitVec 3)) (d : Reg) (a : Reg) (b : Reg) (s : State) : Res := .next (s.vshift .shr p ce k d a b TokenReq.idle 4)
/-- VSHR (R210), with the extension word. -/
def execVshrLong (p : Bool) (ce : Bool) (k : Option (BitVec 3)) (d : Reg) (a : Reg) (b : Reg) (tk : TokenReq) (s : State) : Res := .next (s.vshift .shr p ce k d a b tk 8)
/-- VSHRA (R210). -/
def execVshra (p : Bool) (ce : Bool) (k : Option (BitVec 3)) (d : Reg) (a : Reg) (b : Reg) (s : State) : Res := .next (s.vshift .shra p ce k d a b TokenReq.idle 4)
/-- VSHRA (R210), with the extension word. -/
def execVshraLong (p : Bool) (ce : Bool) (k : Option (BitVec 3)) (d : Reg) (a : Reg) (b : Reg) (tk : TokenReq) (s : State) : Res := .next (s.vshift .shra p ce k d a b tk 8)
/-- VROL (R210). -/
def execVrol (p : Bool) (ce : Bool) (k : Option (BitVec 3)) (d : Reg) (a : Reg) (b : Reg) (s : State) : Res := .next (s.vshift .rol p ce k d a b TokenReq.idle 4)
/-- VROL (R210), with the extension word. -/
def execVrolLong (p : Bool) (ce : Bool) (k : Option (BitVec 3)) (d : Reg) (a : Reg) (b : Reg) (tk : TokenReq) (s : State) : Res := .next (s.vshift .rol p ce k d a b tk 8)
/-- VFSHL (R210). -/
def execVfshl (p : Bool) (ce : Bool) (k : Option (BitVec 3)) (d : Reg) (a : Reg) (b : Reg) (s : State) : Res := .next (s.vshift .fshl p ce k d a b TokenReq.idle 4)
/-- VFSHL (R210), with the extension word. -/
def execVfshlLong (p : Bool) (ce : Bool) (k : Option (BitVec 3)) (d : Reg) (a : Reg) (b : Reg) (tk : TokenReq) (s : State) : Res := .next (s.vshift .fshl p ce k d a b tk 8)
/-- VFSHR (R210). -/
def execVfshr (p : Bool) (ce : Bool) (k : Option (BitVec 3)) (d : Reg) (a : Reg) (b : Reg) (s : State) : Res := .next (s.vshift .fshr p ce k d a b TokenReq.idle 4)
/-- VFSHR (R210), with the extension word. -/
def execVfshrLong (p : Bool) (ce : Bool) (k : Option (BitVec 3)) (d : Reg) (a : Reg) (b : Reg) (tk : TokenReq) (s : State) : Res := .next (s.vshift .fshr p ce k d a b tk 8)
/-- VCMP (R211). -/
def execVcmp (p : Bool) (ce : Bool) (k : Option (BitVec 3)) (c : BitVec 3) (d : BitVec 3) (a : Reg) (b : Reg) (s : State) : Res := .next (s.vcmp c p ce k d a b TokenReq.idle 4)
/-- VCMP (R211), with the extension word. -/
def execVcmpLong (p : Bool) (ce : Bool) (k : Option (BitVec 3)) (c : BitVec 3) (d : BitVec 3) (a : Reg) (b : Reg) (tk : TokenReq) (s : State) : Res := .next (s.vcmp c p ce k d a b tk 8)
/-- VCVT (R212). -/
def execVcvt (p : Bool) (ce : Bool) (k : Option (BitVec 3)) (d : Reg) (a : Reg) (t : Tag) (s : State) : Res := .next (s.vconvert p ce k d a t TokenReq.idle 4)
/-- VCVT (R212), with the extension word. -/
def execVcvtLong (p : Bool) (ce : Bool) (k : Option (BitVec 3)) (d : Reg) (a : Reg) (t : Tag) (tk : TokenReq) (s : State) : Res := .next (s.vconvert p ce k d a t tk 8)
/-- VRCP (R213). -/
def execVrcp (p : Bool) (ce : Bool) (k : Option (BitVec 3)) (d : Reg) (a : Reg) (s : State) : Res := .next (s.vfunction .rcp p ce k d a TokenReq.idle 4)
/-- VRCP (R213), with the extension word. -/
def execVrcpLong (p : Bool) (ce : Bool) (k : Option (BitVec 3)) (d : Reg) (a : Reg) (tk : TokenReq) (s : State) : Res := .next (s.vfunction .rcp p ce k d a tk 8)
/-- VRSQRT (R213). -/
def execVrsqrt (p : Bool) (ce : Bool) (k : Option (BitVec 3)) (d : Reg) (a : Reg) (s : State) : Res := .next (s.vfunction .rsqrt p ce k d a TokenReq.idle 4)
/-- VRSQRT (R213), with the extension word. -/
def execVrsqrtLong (p : Bool) (ce : Bool) (k : Option (BitVec 3)) (d : Reg) (a : Reg) (tk : TokenReq) (s : State) : Res := .next (s.vfunction .rsqrt p ce k d a tk 8)
/-- VEXP2 (R213). -/
def execVexp2 (p : Bool) (ce : Bool) (k : Option (BitVec 3)) (d : Reg) (a : Reg) (s : State) : Res := .next (s.vfunction .exp2 p ce k d a TokenReq.idle 4)
/-- VEXP2 (R213), with the extension word. -/
def execVexp2Long (p : Bool) (ce : Bool) (k : Option (BitVec 3)) (d : Reg) (a : Reg) (tk : TokenReq) (s : State) : Res := .next (s.vfunction .exp2 p ce k d a tk 8)
/-- VLOG2 (R213). -/
def execVlog2 (p : Bool) (ce : Bool) (k : Option (BitVec 3)) (d : Reg) (a : Reg) (s : State) : Res := .next (s.vfunction .log2 p ce k d a TokenReq.idle 4)
/-- VLOG2 (R213), with the extension word. -/
def execVlog2Long (p : Bool) (ce : Bool) (k : Option (BitVec 3)) (d : Reg) (a : Reg) (tk : TokenReq) (s : State) : Res := .next (s.vfunction .log2 p ce k d a tk 8)
/-- VEXP (R213). -/
def execVexp (p : Bool) (ce : Bool) (k : Option (BitVec 3)) (d : Reg) (a : Reg) (s : State) : Res := .next (s.vfunction .exp p ce k d a TokenReq.idle 4)
/-- VEXP (R213), with the extension word. -/
def execVexpLong (p : Bool) (ce : Bool) (k : Option (BitVec 3)) (d : Reg) (a : Reg) (tk : TokenReq) (s : State) : Res := .next (s.vfunction .exp p ce k d a tk 8)
/-- VLOG (R213). -/
def execVlog (p : Bool) (ce : Bool) (k : Option (BitVec 3)) (d : Reg) (a : Reg) (s : State) : Res := .next (s.vfunction .log p ce k d a TokenReq.idle 4)
/-- VLOG (R213), with the extension word. -/
def execVlogLong (p : Bool) (ce : Bool) (k : Option (BitVec 3)) (d : Reg) (a : Reg) (tk : TokenReq) (s : State) : Res := .next (s.vfunction .log p ce k d a tk 8)
/-- VTANH (R213). -/
def execVtanh (p : Bool) (ce : Bool) (k : Option (BitVec 3)) (d : Reg) (a : Reg) (s : State) : Res := .next (s.vfunction .tanh p ce k d a TokenReq.idle 4)
/-- VTANH (R213), with the extension word. -/
def execVtanhLong (p : Bool) (ce : Bool) (k : Option (BitVec 3)) (d : Reg) (a : Reg) (tk : TokenReq) (s : State) : Res := .next (s.vfunction .tanh p ce k d a tk 8)
/-- MAND (R214). -/
def execMand (p : Bool) (ce : Bool) (d : BitVec 3) (a : BitVec 3) (b : BitVec 3) (s : State) : Res := .next (s.maskOp (s.own.mask a &&& s.own.mask b) [a, b] p ce d TokenReq.idle 4)
/-- MAND (R214), with the extension word. -/
def execMandLong (p : Bool) (ce : Bool) (d : BitVec 3) (a : BitVec 3) (b : BitVec 3) (tk : TokenReq) (s : State) : Res := .next (s.maskOp (s.own.mask a &&& s.own.mask b) [a, b] p ce d tk 8)
/-- MOR (R214). -/
def execMor (p : Bool) (ce : Bool) (d : BitVec 3) (a : BitVec 3) (b : BitVec 3) (s : State) : Res := .next (s.maskOp (s.own.mask a ||| s.own.mask b) [a, b] p ce d TokenReq.idle 4)
/-- MOR (R214), with the extension word. -/
def execMorLong (p : Bool) (ce : Bool) (d : BitVec 3) (a : BitVec 3) (b : BitVec 3) (tk : TokenReq) (s : State) : Res := .next (s.maskOp (s.own.mask a ||| s.own.mask b) [a, b] p ce d tk 8)
/-- MXOR (R214). -/
def execMxor (p : Bool) (ce : Bool) (d : BitVec 3) (a : BitVec 3) (b : BitVec 3) (s : State) : Res := .next (s.maskOp (s.own.mask a ^^^ s.own.mask b) [a, b] p ce d TokenReq.idle 4)
/-- MXOR (R214), with the extension word. -/
def execMxorLong (p : Bool) (ce : Bool) (d : BitVec 3) (a : BitVec 3) (b : BitVec 3) (tk : TokenReq) (s : State) : Res := .next (s.maskOp (s.own.mask a ^^^ s.own.mask b) [a, b] p ce d tk 8)
/-- MNOT (R214). -/
def execMnot (p : Bool) (ce : Bool) (d : BitVec 3) (a : BitVec 3) (s : State) : Res := .next (s.maskOp (2 ^ 8192 - 1 - s.own.mask a) [a] p ce d TokenReq.idle 4)
/-- MNOT (R214), with the extension word. -/
def execMnotLong (p : Bool) (ce : Bool) (d : BitVec 3) (a : BitVec 3) (tk : TokenReq) (s : State) : Res := .next (s.maskOp (2 ^ 8192 - 1 - s.own.mask a) [a] p ce d tk 8)
/-- MCNT (R214). -/
def execMcnt (p : Bool) (ce : Bool) (d : Reg) (a : BitVec 3) (s : State) : Res := .next (s.maskCount (fun m => BitVec.ofNat 64 (popCount s.own.vl m)) p ce d a TokenReq.idle 4)
/-- MCNT (R214), with the extension word. -/
def execMcntLong (p : Bool) (ce : Bool) (d : Reg) (a : BitVec 3) (tk : TokenReq) (s : State) : Res := .next (s.maskCount (fun m => BitVec.ofNat 64 (popCount s.own.vl m)) p ce d a tk 8)
/-- MFIRST (R214). -/
def execMfirst (p : Bool) (ce : Bool) (d : Reg) (a : BitVec 3) (s : State) : Res := .next (s.maskCount (firstSet s.own.vl) p ce d a TokenReq.idle 4)
/-- MFIRST (R214), with the extension word. -/
def execMfirstLong (p : Bool) (ce : Bool) (d : Reg) (a : BitVec 3) (tk : TokenReq) (s : State) : Res := .next (s.maskCount (firstSet s.own.vl) p ce d a tk 8)
/-- MSHL (R214). -/
def execMshl (p : Bool) (ce : Bool) (d : BitVec 3) (a : BitVec 3) (b : Reg) (s : State) : Res := .next (s.maskOp (if (s.x b).toNat ≥ 8192 then 0 else s.own.mask a * 2 ^ (s.x b).toNat) [a] p ce d TokenReq.idle 4)
/-- MSHL (R214), with the extension word. -/
def execMshlLong (p : Bool) (ce : Bool) (d : BitVec 3) (a : BitVec 3) (b : Reg) (tk : TokenReq) (s : State) : Res := .next (s.maskOp (if (s.x b).toNat ≥ 8192 then 0 else s.own.mask a * 2 ^ (s.x b).toNat) [a] p ce d tk 8)

end Sys2Proof.Machine
end

