-- ==== Sys2Proof/Machine/Cross.lean ====
section
/-!
DEFINITION. Sys2Proof/Machine/Cross.lean: the cross-lane and sparse instructions of majors 0x2A to 0x2C
(spec/10_vector_cross R215 to R227).
-/

namespace Sys2Proof.Machine

/-- The head of an instruction of the XL pipe (R39). -/
def xlHead (ce : Bool) (k : Option (BitVec 3)) (tk : TokenReq) (len : Nat) (reads : List Reg) (writes : Option Reg) (t : Timing) : VHead :=
  { len := len, pipe := .xl, ce := ce, tk := tk, mask := k, reads := reads, writes := writes, usesMask := false, xdst := none, time := t }

/-- The heads of the cross-lane instructions with their kinds (R215); one that needs its lower elements again when it restarts uses every
active element. VRED's element groups are those of its source. -/
def vredHead (G : Group) (ce : Bool) (k : Option (BitVec 3)) (d a : Reg) (tk : TokenReq) (len : Nat) : VHead :=
  { xlHead ce k tk len [a] (some d) (Timing.collects 1 8) with beat := some (G.beatsOf (tagWidth (G.tag a))), act := some (G.active k) }

/-- The head of VSCAN: a float sum has step 4. -/
def vscanHead (ce : Bool) (k sm : Option (BitVec 3)) (d a : Reg) (fsum : Bool) (tk : TokenReq) (len : Nat) : VHead :=
  { xlHead ce k tk len [a] (some d) (Timing.streams (if fsum then 4 else 1) 6) with usesMask := sm.isSome, mreads := sm.toList }

/-- The head of VPREFIXPOP. -/
def prefixHead (ce : Bool) (k : Option (BitVec 3)) (d : Reg) (ma : BitVec 3) (tk : TokenReq) (len : Nat) : VHead :=
  { xlHead ce k tk len [] (some d) (Timing.streams 1 4) with usesMask := true, mreads := [ma] }

/-- The head of VCOMPRESS and VEXPAND. -/
def packHead (G : Group) (expand ce : Bool) (k : Option (BitVec 3)) (d a : Reg) (tk : TokenReq) (len : Nat) : VHead :=
  { xlHead ce k tk len [a] (some d) (Timing.collects 1 6) with whole := expand, act := if expand then none else some (G.active k) }

/-- The head of VCONFLICT. -/
def conflictHead (G : Group) (ce : Bool) (k : Option (BitVec 3)) (d a : Reg) (tk : TokenReq) (len : Nat) : VHead :=
  { xlHead ce k tk len [a] (some d) (Timing.whole 2 8) with act := some (G.active k) }

/-- The head of the permutes. -/
def permuteHead (ce : Bool) (k : Option (BitVec 3)) (d : Reg) (reads : List Reg) (tk : TokenReq) (len : Nat) : VHead :=
  { xlHead ce k tk len reads (some d) (Timing.whole 1 8) with whole := true }

/-- The head of VTOPK. -/
def topkHead (G : Group) (ce : Bool) (k : Option (BitVec 3)) (d a : Reg) (tk : TokenReq) (len : Nat) : VHead :=
  { xlHead ce k tk len [a] (some d) (Timing.whole 4 16) with act := some (G.active k) }

/-- The head of VISECT, VUNION and VMRG: 2 S + 8 beats in all, S the length of a segment, and the result in the last of them (DEDUCED: each
counts as an element group, notes/assumptions/80). -/
def setsHead (G : Group) (ce : Bool) (d a b : Reg) (tk : TokenReq) (len : Nat) : VHead :=
  { xlHead ce none tk len [a, b] (some d) (Timing.whole 1 1) with
    whole := true, beat := some (1024 / tagWidth (G.tag a), if G.vl = 0 then 0 else 2 * (G.vl / 16) + 8) }

/-! ## Reductions and scans (R218, R219) -/

/-- The accumulation format of a sum (R78). -/
def sumTag (t : Tag) : Tag :=
  match t with
  | .e2m1 | .e4m3 | .e5m2 | .f16 | .bf16 => .f32
  | .q32 => .q32
  | t => if tagIsInt t then (if tagIsSigned t then .s64 else .n64) else t

/-- The result tag of an operation selector (R218). -/
def foldTag (op : Nat) (t : Tag) : Tag := if op = 0 then sumTag t else t

/-- The tags that an operation selector accepts (R218). -/
def foldAccepts (op : Nat) (t : Tag) : Bool :=
  match op with
  | 0 => true
  | 1 => decide (t ≠ .q32)
  | 2 => decide (t ≠ .q32)
  | _ => tagIsInt t

/-- One combination of R218 under a mode, saturation and modulus. -/
def foldStep (op : Nat) (t : Tag) (rm : Nat) (sat : Bool) (q a b : Nat) : Nat × BitVec 6 :=
  match op with
  | 0 =>
    if t = .q32 then ((a + b) % q, 0)
    else if tagIsFloat t then (let v := addNum rm (unpack t a) (unpack t b); let r := roundOp t rm v.1; (r.1, r.2 ||| v.2))
    else (putInt t sat (intOf t a + intOf t b), 0)
  | 1 => if tagIsFloat t then minMax t false a b else (if intOf t b < intOf t a then b else a, 0)
  | 2 => if tagIsFloat t then minMax t true a b else (if intOf t a < intOf t b then b else a, 0)
  | 3 => (a &&& b, 0)
  | 4 => (a ||| b, 0)
  | _ => (a ^^^ b, 0)

/-- An element converted to the format of a fold (R218); a residue is reduced (R58), and a pattern of the fold's own tag is kept, a
NaN's among them (notes/assumptions/66). -/
def foldLift (src t : Tag) (rm : Nat) (q p : Nat) : Nat × BitVec 6 :=
  if src = .q32 then (p % q, if p ≥ q then flagMD else 0) else if src = t then (p, 0) else convert src t rm false q p

/-- The identity of an operation selector (R218). R56 gives e2m1 no NaN; its minimum and maximum of no element is 0 (DESIGN CHOICE,
notes/assumptions/81). -/
def foldUnit (op : Nat) (t : Tag) : Nat :=
  let nan := (layout t).nan.getD 0
  match op with
  | 1 => if tagIsFloat t then nan else wrapTo (tagWidth t) (intMax t)
  | 2 => if tagIsFloat t then nan else wrapTo (tagWidth t) (intMin t)
  | 3 => 2 ^ tagWidth t - 1
  | _ => 0

/-- One level of the tree of R78: pairs combined, an empty position passing the other through. -/
def treeLevel (f : Nat → Nat → Nat × BitVec 6) : List (Option Nat) → List (Option Nat) × BitVec 6
  | [] => ([], 0)
  | [a] => ([a], 0)
  | a :: b :: t =>
    let r := treeLevel f t
    match a, b with
    | some x, some y => let c := f x y; (some c.1 :: r.1, r.2 ||| c.2)
    | some x, none => (some x :: r.1, r.2)
    | none, y => (y :: r.1, r.2)

/-- The tree of R78 over at most 2^k positions. -/
def treeFold (f : Nat → Nat → Nat × BitVec 6) : Nat → List (Option Nat) → BitVec 6 → Option Nat × BitVec 6
  | 0, l, fl => (l.head?.getD none, fl)
  | k + 1, l, fl => let r := treeLevel f l; treeFold f k r.1 (fl ||| r.2)

/-- The flags of the combinations of one level, in their order. -/
def levelFlags (f : Nat → Nat → Nat × BitVec 6) : List (Option Nat) → List (BitVec 6)
  | some x :: some y :: t => (f x y).2 :: levelFlags f t
  | _ :: _ :: t => levelFlags f t
  | _ => []

/-- The flags of the combinations of the tree, level by level. -/
def treeFlags (f : Nat → Nat → Nat × BitVec 6) : Nat → List (Option Nat) → List (BitVec 6)
  | 0, _ => []
  | k + 1, l => levelFlags f l ++ treeFlags f k (treeLevel f l).1

/-- The flags raised up to the first operation that raises an enabled one (R77, R227). -/
def stopFlags (xen : BitVec 6) : List (BitVec 6) → BitVec 6
  | [] => 0
  | f :: fs => if f &&& xen ≠ 0 then f else f ||| stopFlags xen fs

/-- VRED (R218, R227). A reduction whose one active element is a NaN passes its pattern through (R78) and raises no flag: DESIGN
CHOICE, notes/assumptions/66. Every flag of it goes to lane 0, also one that an element raises before a combination (DESIGN CHOICE,
notes/assumptions/81). In serial mode the conversions come before the combinations, and nothing after the first enabled
flag has an effect. -/
def State.vred (s : State) (ce : Bool) (k : Option (BitVec 3)) (d a : Reg) (op : Nat) (tk : TokenReq) (len : Nat) : State :=
  let G := s.own
  let ta := G.tag a
  let t := foldTag op ta
  let h := vredHead G ce k d a tk len
  s.vector h (foldAccepts op ta && G.fits ta && G.overlapOk d t [a]) fun s1 srcs _ =>
    match srcStop srcs with
    | some st => s1.stopAt st
    | none =>
      let G1 := s1.own
      let act := G1.active k
      let lifted := (upFrom 0 G1.vl).map fun i => if act i then some (foldLift ta t G1.rm G1.modulus (G1.elem srcs a i)) else none
      let fl0 := lifted.foldl (fun f o => match o with | some p => f ||| p.2 | none => f) (0 : BitVec 6)
      let step := foldStep op t G1.rm G1.sat G1.modulus
      let leaves := lifted.map fun o => o.map Prod.fst
      let r := treeFold step 15 leaves fl0
      let G2 := if r.2 = 0 then G1 else G1.accrueLane 0 r.2
      if r.2 &&& G1.xen ≠ 0 then
        (s1.putOwn (G1.accrueLane 0 (stopFlags G1.xen (lifted.filterMap (fun o => o.map Prod.snd) ++ treeFlags step 15 leaves)))).raiseAt 8 0 0 0
      else
        let b := if G1.vl = 0 then G1.vbits d else elemPut (G1.vbits d) (tagWidth t) 0 (r.1.getD (foldUnit op t))
        (s1.putOwn ((G2.setBits d b).setTag d t)).vdone h

/-- One step of a scan: the element taken into the running value, and its flags (R219). -/
def scanStep (op : Nat) (ta t : Tag) (G : Group) (y : Option Nat) (p : Nat) : Nat × BitVec 6 :=
  let x := foldLift ta t G.rm G.modulus p
  match y with
  | some v => let r := foldStep op t G.rm G.sat G.modulus v x.1; (r.1, r.2 ||| x.2)
  | none => if tagIsFloat t ∧ ta = t then convert t t G.rm G.sat G.modulus p else x

/-- The scan from element `i` on (R219): segment starts, the running value, the bits written. -/
def scanLoop (op : Nat) (ta t : Tag) (srcs : List Source) (a : Reg) (act seg : Nat → Bool) (bad : Option Stop) :
    Nat → Nat → Option Nat → Nat → Group → Nat × Group × Option Stop
  | 0, _, _, b, G => (b, G, none)
  | k + 1, i, y, b, G =>
    let y0 := if seg i then none else y
    if !act i then scanLoop op ta t srcs a act seg bad k (i + 1) y0 b G
    else
      match bad.filter fun st => decide (st.e = i) with
      | some st => (b, G, some st)
      | none =>
        let r := scanStep op ta t G y0 (G.elem srcs a i)
        let G1 := if r.2 = 0 then G else G.accrueLane (laneOf (tagWidth t) i) r.2
        if r.2 &&& G.xen ≠ 0 then (b, G1, some { e := i, code := 8, sub := 0, addr := 0 })
        else scanLoop op ta t srcs a act seg bad k (i + 1) (some r.1) (elemPut b (tagWidth t) i r.1) G1

/-- The running value that a scan restarting at element `e` takes from the element written before it (R227). -/
def scanResume (act seg : Nat → Bool) (b w e : Nat) : Option Nat :=
  (upFrom 0 e).foldl (fun y i => if act i then some (elemOf b w i) else if seg i then none else y) none

/-- VSCAN, with `sm` the segment mask of the segmented form (R219, R227). -/
def State.vscan (s : State) (ce : Bool) (k sm : Option (BitVec 3)) (d a : Reg) (op : Nat) (tk : TokenReq) (len : Nat) : State :=
  let G := s.own
  let ta := G.tag a
  let t := foldTag op ta
  let h := vscanHead ce k sm d a (decide (op = 0) && tagIsFloat t) tk len
  s.vector h (foldAccepts op ta && G.lengthsOk d t [a]) fun s1 srcs e =>
    let G1 := s1.own
    let act := G1.active k
    let seg := fun (i : Nat) => match sm with | some m => bitAtNat (G1.mask m) i | none => false
    let r := scanLoop op ta t srcs a act seg (srcStop srcs) (G1.vl - e) e (scanResume act seg (G1.vbits d) (tagWidth t) e) (G1.vbits d) G1
    match r.2.2 with
    | some st => (s1.putOwn (r.2.1.setBits d r.1)).stopAt st
    | none => (s1.putOwn ((r.2.1.setBits d r.1).setTag d t)).vdone h

/-! ## Counts, compress and expand (R220 to R222) -/

/-- A count stored under a tag (R220, R222, R224). -/
def Group.count (G : Group) (t : Tag) (n : Nat) : Nat := putInt t G.sat (n : Int)

/-- VPREFIXPOP (R220). -/
def State.vprefixpop (s : State) (ce : Bool) (k : Option (BitVec 3)) (d : Reg) (ma : BitVec 3) (tk : TokenReq) (len : Nat) : State :=
  let G := s.own
  let t := G.tag d
  let m := G.mask ma
  s.elementwise (prefixHead ce k d ma tk len) (tagIsInt t && G.fits t) d t (tagWidth t) fun _ i =>
    (G.count t (popCount i (m % 2 ^ i)), 0)

/-- VCONFLICT (R222). -/
def State.vconflict (s : State) (ce : Bool) (k : Option (BitVec 3)) (d a : Reg) (tk : TokenReq) (len : Nat) : State :=
  let G := s.own
  let t := G.tag d
  let act := G.active k
  s.elementwise (conflictHead G ce k d a tk len) (tagIsInt t && tagIsInt (G.tag a) && G.lengthsOk d t [a]) d t (tagWidth t) fun srcs i =>
    (G.count t ((upFrom 0 i).filter fun j => act j && G.elem srcs a j == G.elem srcs a i).length, 0)

/-- Elements packed or scattered in ascending order: source and destination index of each step (R221). -/
def packLoop (w src : Nat) (act : Nat → Bool) (expand : Bool) : Nat → Nat → Nat → Nat → Nat
  | 0, _, _, b => b
  | n + 1, i, c, b =>
    if act i then
      packLoop w src act expand n (i + 1) (c + 1) (if expand then elemPut b w i (elemOf src w c) else elemPut b w c (elemOf src w i))
    else packLoop w src act expand n (i + 1) c b

/-- VCOMPRESS and VEXPAND (R221). -/
def State.vpack (s : State) (expand ce : Bool) (k : Option (BitVec 3)) (d a : Reg) (tk : TokenReq) (len : Nat) : State :=
  let G := s.own
  let t := G.tag a
  let w := tagWidth t
  let h := packHead G expand ce k d a tk len
  s.vector h (G.lengthsOk d t [a]) fun s1 srcs _ =>
    let G1 := s1.own
    match srcStop srcs with
    | some st => (s1.putOwn (G1.setBits d (packLoop w (srcBits srcs a) (G1.active k) expand st.e 0 0 (G1.vbits d)))).stopAt st
    | none =>
      (s1.putOwn ((G1.setBits d (packLoop w (srcBits srcs a) (G1.active k) expand G1.vl 0 0 (G1.vbits d))).setTag d t)).vdone h

/-! ## Permutes (R223) -/

/-- The element of a source at a position; positions outside the register read zero (R223). -/
def Group.pick (G : Group) (srcs : List Source) (r : Reg) (p : Int) : Nat :=
  if p < 0 ∨ p ≥ G.vlmax (G.tag r) then 0 else G.elem srcs r p.toNat

/-- The permutes. -/
inductive PermOp where
  | perm | up | down | zip | unzip
  deriving DecidableEq, Repr

/-- A permute: its second operand is a vector group, or a number in an x register. -/
def State.vpermute (s : State) (op : PermOp) (ce : Bool) (k : Option (BitVec 3)) (d a b : Reg) (tk : TokenReq) (len : Nat) : State :=
  let G := s.own
  let t := G.tag a
  let two := op = .perm ∨ op = .zip
  let reads := if two then [a, b] else [a]
  let n := (s.x b).toNat
  let legal := match op with
    | .perm => tagIsInt (G.tag b)
    | .zip => decide (G.tag b = t)
    | _ => true
  s.elementwise (permuteHead ce k d reads tk len) (legal && G.lengthsOk d t reads) d t (tagWidth t) fun srcs i =>
    (match op with
     | .perm => G.pick srcs a (intOf (G.tag b) (G.elem srcs b i))
     | .up => if i ≥ n then G.pick srcs a ((i : Int) - n) else elemOf (G.vbits d) (tagWidth t) i
     | .down => G.pick srcs a ((i : Int) + n)
     | .zip => if i % 2 = 0 then G.pick srcs a ((i / 2 : Nat) : Int) else G.pick srcs b ((i / 2 : Nat) : Int)
     | .unzip => G.pick srcs a ((2 * i + n % 2 : Nat) : Int), 0)

/-! ## Top-k (R224) -/

/-- The rank of an element: higher ranks first; none for one that is no candidate (R224). -/
def rankOf (t : Tag) (nanx : Bool) (p : Nat) : Option Int :=
  if tagIsFloat t then
    match unpack t p with
    | .nan _ => if nanx then none else some (2 ^ 64 : Nat)
    | _ =>
      let h := 2 ^ (tagWidth t - 1)
      some (if p ≥ h then -((p - h : Nat) : Int) - 1 else (p : Int))
  else some (intOf t p)

/-- A candidate put into a list in rank order, behind its equals. -/
def rankInsert (c : Int × Nat) : List (Int × Nat) → List (Int × Nat)
  | [] => [c]
  | x :: t => if c.1 > x.1 then c :: x :: t else x :: rankInsert c t

/-- VTOPK (R224). -/
def State.vtopk (s : State) (ce : Bool) (k : Option (BitVec 3)) (d a b : Reg) (tk : TokenReq) (len : Nat) : State :=
  let G := s.own
  let ta := G.tag a
  let t := G.tag d
  let h := topkHead G ce k d a tk len
  s.vector h (decide (ta ≠ .q32) && tagIsInt t && G.lengthsOk d t [a]) fun s1 srcs _ =>
    match srcStop srcs with
    | some st => s1.stopAt st
    | none =>
      let G1 := s1.own
      let act := G1.active k
      let cands := (upFrom 0 G1.vl).filterMap fun i =>
        if act i then (rankOf ta (bitOf G1.vcfg 10) (G1.elem srcs a i)).map fun r => (r, i) else none
      let order := (cands.foldl (fun l c => rankInsert c l) []).map Prod.snd
      let kk := min (s.x b).toNat G1.vl
      let v := fun (j : Nat) => match order[j]? with | some i => G1.count t i | none => 2 ^ tagWidth t - 1
      (s1.putOwn ((G1.setBits d (foldUp kk (fun j bb => elemPut bb (tagWidth t) j (v j)) (G1.vbits d))).setTag d t)).vdone h

/-! ## Intersect, union and merge (R225, R226) -/

/-- The three passes. -/
inductive SetOp where
  | isect | union | merge
  deriving DecidableEq, Repr

/-- The pass of R226 over two lists, with room for one step per element. -/
def setPass (op : SetOp) : Nat → List Int → List Int → List Int
  | 0, _, _ => []
  | _ + 1, [], [] => []
  | n + 1, a :: as, [] => (if op = .isect then [] else [a]) ++ setPass op n as []
  | n + 1, [], b :: bs => (if op = .isect then [] else [b]) ++ setPass op n [] bs
  | n + 1, a :: as, b :: bs =>
    if a < b then (if op = .isect then [] else [a]) ++ setPass op n as (b :: bs)
    else if b < a then (if op = .isect then [] else [b]) ++ setPass op n (a :: as) bs
    else (if op = .merge then [a, b] else [a]) ++ setPass op n as bs

/-- A segment's list: up to the first sentinel (R225). -/
def segList (t : Tag) (b lo n : Nat) : List Int :=
  ((upFrom lo n).map fun i => intOf t (elemOf b (tagWidth t) i)).takeWhile fun v => decide (v ≠ intMax t)

/-- VISECT, VUNION and VMRG (R225, R226). -/
def State.vsets (s : State) (op : SetOp) (ce : Bool) (d a b : Reg) (tk : TokenReq) (len : Nat) : State :=
  let G := s.own
  let t := G.tag a
  let w := tagWidth t
  let h := setsHead G ce d a b tk len
  s.vector h (tagIsInt t && decide (G.tag b = t) && decide (G.vl % 16 = 0 ∧ 2 * G.vl ≤ G.vlmax t)) fun s1 srcs _ =>
    let G1 := s1.own
    let n := G1.vl / 16
    let seg := fun (l : Nat) => setPass op (2 * n) (segList t (srcBits srcs a) (l * n) n) (segList t (srcBits srcs b) (l * n) n)
    let one := fun (l bb : Nat) =>
      let out := seg l
      foldUp (2 * n) (fun o b2 => elemPut b2 w (2 * l * n + o) (wrapTo w ((out[o]?).getD (intMax t)))) bb
    (s1.putOwn ((G1.setBits d (foldUp 16 one (G1.vbits d))).setTag d t)).vdone h

/-- VRED (R218). -/
def execVred (ce : Bool) (k : Option (BitVec 3)) (d : Reg) (a : Reg) (o : Reg) (s : State) : Res := .next (s.vred ce k d a o.toNat TokenReq.idle 4)
/-- VRED (R218), with the extension word. -/
def execVredLong (ce : Bool) (k : Option (BitVec 3)) (d : Reg) (a : Reg) (o : Reg) (tk : TokenReq) (s : State) : Res := .next (s.vred ce k d a o.toNat tk 8)
/-- VSCAN (R219). -/
def execVscan (ce : Bool) (k : Option (BitVec 3)) (d : Reg) (a : Reg) (o : Reg) (s : State) : Res := .next (s.vscan ce k none d a o.toNat TokenReq.idle 4)
/-- VSCAN (R219), with the extension word. -/
def execVscanLong (ce : Bool) (k : Option (BitVec 3)) (d : Reg) (a : Reg) (o : Reg) (tk : TokenReq) (s : State) : Res := .next (s.vscan ce k none d a o.toNat tk 8)
/-- VSCAN.seg (R219). -/
def execVscanSeg (ce : Bool) (mk : BitVec 3) (d : Reg) (a : Reg) (o : Reg) (s : State) : Res := .next (s.vscan ce none (some mk) d a o.toNat TokenReq.idle 4)
/-- VSCAN.seg (R219), with the extension word. -/
def execVscanSegLong (ce : Bool) (mk : BitVec 3) (d : Reg) (a : Reg) (o : Reg) (tk : TokenReq) (s : State) : Res := .next (s.vscan ce none (some mk) d a o.toNat tk 8)
/-- VPREFIXPOP (R220). -/
def execVprefixpop (ce : Bool) (k : Option (BitVec 3)) (d : Reg) (a : BitVec 3) (s : State) : Res := .next (s.vprefixpop ce k d a TokenReq.idle 4)
/-- VPREFIXPOP (R220), with the extension word. -/
def execVprefixpopLong (ce : Bool) (k : Option (BitVec 3)) (d : Reg) (a : BitVec 3) (tk : TokenReq) (s : State) : Res := .next (s.vprefixpop ce k d a tk 8)
/-- VCONFLICT (R222). -/
def execVconflict (ce : Bool) (k : Option (BitVec 3)) (d : Reg) (a : Reg) (s : State) : Res := .next (s.vconflict ce k d a TokenReq.idle 4)
/-- VCONFLICT (R222), with the extension word. -/
def execVconflictLong (ce : Bool) (k : Option (BitVec 3)) (d : Reg) (a : Reg) (tk : TokenReq) (s : State) : Res := .next (s.vconflict ce k d a tk 8)
/-- VCOMPRESS (R221). -/
def execVcompress (ce : Bool) (k : Option (BitVec 3)) (d : Reg) (a : Reg) (s : State) : Res := .next (s.vpack false ce k d a TokenReq.idle 4)
/-- VCOMPRESS (R221), with the extension word. -/
def execVcompressLong (ce : Bool) (k : Option (BitVec 3)) (d : Reg) (a : Reg) (tk : TokenReq) (s : State) : Res := .next (s.vpack false ce k d a tk 8)
/-- VEXPAND (R221). -/
def execVexpand (ce : Bool) (k : Option (BitVec 3)) (d : Reg) (a : Reg) (s : State) : Res := .next (s.vpack true ce k d a TokenReq.idle 4)
/-- VEXPAND (R221), with the extension word. -/
def execVexpandLong (ce : Bool) (k : Option (BitVec 3)) (d : Reg) (a : Reg) (tk : TokenReq) (s : State) : Res := .next (s.vpack true ce k d a tk 8)
/-- VPERM (R223). -/
def execVperm (ce : Bool) (k : Option (BitVec 3)) (d : Reg) (a : Reg) (b : Reg) (s : State) : Res := .next (s.vpermute .perm ce k d a b TokenReq.idle 4)
/-- VPERM (R223), with the extension word. -/
def execVpermLong (ce : Bool) (k : Option (BitVec 3)) (d : Reg) (a : Reg) (b : Reg) (tk : TokenReq) (s : State) : Res := .next (s.vpermute .perm ce k d a b tk 8)
/-- VSLIDEUP (R223). -/
def execVslideup (ce : Bool) (k : Option (BitVec 3)) (d : Reg) (a : Reg) (b : Reg) (s : State) : Res := .next (s.vpermute .up ce k d a b TokenReq.idle 4)
/-- VSLIDEUP (R223), with the extension word. -/
def execVslideupLong (ce : Bool) (k : Option (BitVec 3)) (d : Reg) (a : Reg) (b : Reg) (tk : TokenReq) (s : State) : Res := .next (s.vpermute .up ce k d a b tk 8)
/-- VSLIDEDN (R223). -/
def execVslidedn (ce : Bool) (k : Option (BitVec 3)) (d : Reg) (a : Reg) (b : Reg) (s : State) : Res := .next (s.vpermute .down ce k d a b TokenReq.idle 4)
/-- VSLIDEDN (R223), with the extension word. -/
def execVslidednLong (ce : Bool) (k : Option (BitVec 3)) (d : Reg) (a : Reg) (b : Reg) (tk : TokenReq) (s : State) : Res := .next (s.vpermute .down ce k d a b tk 8)
/-- VZIP (R223). -/
def execVzip (ce : Bool) (k : Option (BitVec 3)) (d : Reg) (a : Reg) (b : Reg) (s : State) : Res := .next (s.vpermute .zip ce k d a b TokenReq.idle 4)
/-- VZIP (R223), with the extension word. -/
def execVzipLong (ce : Bool) (k : Option (BitVec 3)) (d : Reg) (a : Reg) (b : Reg) (tk : TokenReq) (s : State) : Res := .next (s.vpermute .zip ce k d a b tk 8)
/-- VUNZIP (R223). -/
def execVunzip (ce : Bool) (k : Option (BitVec 3)) (d : Reg) (a : Reg) (b : Reg) (s : State) : Res := .next (s.vpermute .unzip ce k d a b TokenReq.idle 4)
/-- VUNZIP (R223), with the extension word. -/
def execVunzipLong (ce : Bool) (k : Option (BitVec 3)) (d : Reg) (a : Reg) (b : Reg) (tk : TokenReq) (s : State) : Res := .next (s.vpermute .unzip ce k d a b tk 8)
/-- VTOPK (R224). -/
def execVtopk (ce : Bool) (k : Option (BitVec 3)) (d : Reg) (a : Reg) (b : Reg) (s : State) : Res := .next (s.vtopk ce k d a b TokenReq.idle 4)
/-- VTOPK (R224), with the extension word. -/
def execVtopkLong (ce : Bool) (k : Option (BitVec 3)) (d : Reg) (a : Reg) (b : Reg) (tk : TokenReq) (s : State) : Res := .next (s.vtopk ce k d a b tk 8)
/-- VISECT (R225, R226). -/
def execVisect (ce : Bool) (d : Reg) (a : Reg) (b : Reg) (s : State) : Res := .next (s.vsets .isect ce d a b TokenReq.idle 4)
/-- VISECT (R225, R226), with the extension word. -/
def execVisectLong (ce : Bool) (d : Reg) (a : Reg) (b : Reg) (tk : TokenReq) (s : State) : Res := .next (s.vsets .isect ce d a b tk 8)
/-- VUNION (R225, R226). -/
def execVunion (ce : Bool) (d : Reg) (a : Reg) (b : Reg) (s : State) : Res := .next (s.vsets .union ce d a b TokenReq.idle 4)
/-- VUNION (R225, R226), with the extension word. -/
def execVunionLong (ce : Bool) (d : Reg) (a : Reg) (b : Reg) (tk : TokenReq) (s : State) : Res := .next (s.vsets .union ce d a b tk 8)
/-- VMRG (R225, R226). -/
def execVmrg (ce : Bool) (d : Reg) (a : Reg) (b : Reg) (s : State) : Res := .next (s.vsets .merge ce d a b TokenReq.idle 4)
/-- VMRG (R225, R226), with the extension word. -/
def execVmrgLong (ce : Bool) (d : Reg) (a : Reg) (b : Reg) (tk : TokenReq) (s : State) : Res := .next (s.vsets .merge ce d a b tk 8)

end Sys2Proof.Machine
end

