-- ==== Sys2Proof/Machine/VecMem.lean ====
section
/-!
DEFINITION. Sys2Proof/Machine/VecMem.lean: the vector loads and stores of majors 0x30 and 0x31, PFETCH and the
collective contribution (spec/11_places R229 to R250; spec/14_stream R312; spec/16_order R336, R487;
spec/19_link R417 to R421).
-/

namespace Sys2Proof.Machine

/-! ## The watermark of a copy (R311, R312) -/

/-- Bytes of a copy's pattern. -/
def Channel.bytes (c : Channel) : Nat := c.total * c.esz

/-- Bytes of a copy's destination range (R311). -/
def Channel.span (c : Channel) : Nat := if c.depth = 0 then c.bytes else c.depth * 1536

/-- The runs of a copy's destination range, with the offset of each in the range. -/
def State.destRuns (s : State) (g : Nat) (c : Channel) : List (Nat × Nat × Nat) :=
  let rs := (s.window g (c.dst.toNat / 2 ^ 48) (c.dst.toNat % 2 ^ 48) c.span).getD []
  (rs.foldl (fun (acc : List (Nat × Nat × Nat) × Nat) r => (acc.1 ++ [(r.1, r.2, acc.2)], acc.2 + r.2)) ([], 0)).1

/-- Whether an offset of the destination range holds a committed and unreleased stream byte (R312). -/
def Channel.holds (c : Channel) (off : Nat) : Bool :=
  if c.depth = 0 then decide (c.released ≤ off ∧ off < c.filled)
  else
    let ring := c.depth * 1536
    decide (c.released + (off + ring - c.released % ring) % ring < c.filled)

/-- Whether some byte of a run lies in the destination range of a copy and is not there (R312). -/
def Channel.misses (c : Channel) (dest : List (Nat × Nat × Nat)) (r : Nat × Nat) : Bool :=
  dest.any fun q =>
    let lo := max r.1 q.1
    let hi := min (r.1 + r.2) (q.1 + q.2.1)
    (upFrom lo (hi - lo)).any fun p => !c.holds (q.2.2 + (p - q.1))

/-- Whether an access of a group to runs must wait for a copy of the group (R312). -/
def State.behind (s : State) (g : Nat) (runs : List (Nat × Nat)) : Bool :=
  (s.group g).chan.toList.any fun c => decide (c.st = .copying) && runs.any (c.misses (s.destRuns g c))

/-! ## The elements of an access (R240, R241) -/

/-- An active element that has passed its checks: its index, address, and the runs of its bytes with the leaf that
maps them; no runs for a store whose translation failed. -/
structure VElem where
  i : Nat
  va : Word
  runs : List (Nat × Nat)
  leaf : Nat
  deriving DecidableEq, Repr

/-- How the walk over the elements ends: all passed, one waits for translation, one stops, or one is out of range in
a window. -/
inductive WalkEnd where
  | all
  | wait
  | stop (st : Stop)
  | range (e : Nat) (va : Word)
  deriving DecidableEq, Repr

/-- What an access checks of its elements (R241): the kind its translation needs, whether a failed translation is
left to the store's own time, the bytes and the alignment of an element, whether repeats stop it and
whether its elements are atomics. -/
structure WalkRule where
  kind : Kind
  late : Bool
  bytes : Nat
  align : Nat
  distinct : Bool
  atomic : Bool

/-- Steps 2, 3 and 5 of R241 for an address. -/
def State.elemSpot (s : State) (r : WalkRule) (va : Word) : State × Spot := s.look s.cur r.kind va.toNat r.bytes

/-- The checks of R241 over the active elements from `i` on, in ascending index. -/
def State.walkElems (s : State) (r : WalkRule) (act : Nat → Bool) (addr : Nat → Word) (bad : Option Stop) :
    Nat → Nat → List VElem → State × List VElem × WalkEnd
  | 0, _, acc => (s, acc, .all)
  | k + 1, i, acc =>
    if !act i then State.walkElems s r act addr bad k (i + 1) acc
    else
      match bad.filter fun st => decide (st.e = i) with
      | some st => (s, acc, .stop st)
      | none =>
        let va := addr i
        let stop := fun (code sub : Nat) => WalkEnd.stop { e := i, code := code, sub := sub, addr := va }
        if va.toNat % r.align ≠ 0 then (s, acc, stop 3 0)
        else
          let repeated := r.distinct && (upFrom 0 i).any fun j => act j && addr j == va
          match s.elemSpot r va with
          | (s1, .here runs leaf) =>
            if repeated then (s1, acc, stop 7 0)
            else if r.atomic && leafHS leaf && !leafSA leaf then (s1, acc, stop 0xA 0)
            else if r.kind == .load && runs.any (fun q => s1.unreachable s1.cur q.1) then (s1, acc, stop 0xF 2)
            else State.walkElems s1 r act addr bad k (i + 1) (acc ++ [{ i := i, va := va, runs := runs, leaf := leaf }])
          | (s1, .range) => (s1, acc, .range i va)
          | (s1, .fail sub) =>
            if repeated && decide (sub ≠ 4) then (s1, acc, stop 7 0)
            else if r.late then State.walkElems s1 r act addr bad k (i + 1) (acc ++ [{ i := i, va := va, runs := [], leaf := 0 }])
            else (s1, acc, stop 4 sub)
          | (s1, .wait) => if repeated then (s1, acc, stop 7 0) else (s1, acc, .wait)

/-- Every run of some elements. -/
def allRuns (l : List VElem) : List (Nat × Nat) := (l.map VElem.runs).flatten

/-- Slice queues emptied for some addresses that lie at some places. -/
def State.drainFor (s : State) (g : Nat) (vas : List Word) (runs : List (Nat × Nat)) : State :=
  (((upFrom 0 4).filter fun q => vas.any fun va => sliceOf va.toNat == q).foldl (fun st q => st.drain g q) s).drainThose g fun st a =>
    runsMeet (st.accessRuns g a) runs

/-- Whether nothing of a group stands before loads at some addresses, which lie at some places. -/
def State.clearFor (s : State) (g : Nat) (vas : List Word) (runs : List (Nat × Nat)) : Bool :=
  ((upFrom 0 4).filter fun q => vas.any fun va => sliceOf va.toNat == q).all fun q => s.sliceClear g q runs

/-- An access that passes the watermark sees the committed bytes (R312): strips on their way to its places come first. The answer says
whether they have been performed. -/
def State.joinCopies (s : State) (g : Nat) (runs : List (Nat × Nat)) : State × Bool :=
  if (s.group g).stripOver runs then
    let s1 := s.flush g
    (s1, !(s1.group g).stripOver runs)
  else (s, true)

/-- The elements of an access made ready: the walk, the stall of R261, the watermark of R312. -/
def State.readyElems (s : State) (r : WalkRule) (act : Nat → Bool) (addr : Nat → Word) (bad : Option Stop) (e n : Nat) :
    State × Option (List VElem × WalkEnd) :=
  match s.walkElems r act addr bad (n - e) e [] with
  | (s1, _, .wait) => (s1, none)
  | (s1, l, w) =>
    if s1.tileBusy s1.cur (allRuns l) then (s1, none)
    else if s1.behind s1.cur (allRuns l) then (s1.wait (.place (allRuns l)), none)
    else
      match s1.joinCopies s1.cur (allRuns l) with
      | (s2, true) => (s2, some (l, w))
      | (s2, false) => (s2, none)

/-! ## Vector loads (R231, R238 to R243) -/

/-- The bits of an element in its bytes: a nibble of e2m1 (R55, R240). -/
def elemBits (mt : Tag) (i : Nat) (b : List Byte) : Nat :=
  let n := natOfBytes b
  if mt = .e2m1 then (if i % 2 = 0 then n % 16 else n / 16 % 16) else n % 2 ^ tagWidth mt

/-- The bytes of an element, and of its alignment (R240). -/
def elemBytes (mt : Tag) : Nat := max 1 (tagWidth mt / 8)

/-- Whether some bytes have been read already for an instruction, or have come with bad data. -/
def DataWait.has (w : DataWait) (runs : List (Nat × Nat)) : Bool :=
  runs.all fun r => (upFrom r.1 r.2).all fun a => (inboxByte w.inbox a).isSome || w.bad.contains a

/-- Whether an element's data are uncorrectable or poisoned (R241, R486): as its read found them. -/
def State.elemBad (s : State) (e : VElem) : Bool :=
  match s.own.dataWait with
  | none => s.runsBad e.runs
  | some w =>
    (e.runs.any fun r => w.bad.any fun a => decide (r.1 ≤ a ∧ a < r.1 + r.2)) ||
    s.runsBad (e.runs.filter fun r => (inboxByte w.inbox r.1).isNone)

/-- Some bytes of this module or the host read for the executing group's instruction, which keeps them. -/
def State.collect (s : State) (w : DataWait) (runs : List (Nat × Nat)) : State :=
  let fresh := (runs.map fun r => upFrom r.1 r.2).flatten.filter fun a => !paFar a && (inboxByte w.inbox a).isNone
  s.putOwn { s.own with
    dataWait := some { w with
      inbox := w.inbox ++ fresh.map fun a => (a, (s.readAt a 1).headD 0), bad := w.bad ++ fresh.filter fun a => s.runsBad [(a, 1)] } }

/-- The parts of some runs that lie on another die or module or at the host and have not been asked for. -/
def DataWait.unasked (g : Nat) (w : DataWait) (runs : List (Nat × Nat)) : List (Nat × Nat) :=
  runs.filter fun r => decide (reachOf g r.1 ≠ .local_) && !(upFrom r.1 r.2).all fun a => w.asked.any fun q => decide (q.1 ≤ a ∧ a < q.1 + q.2)

/-- The data of a load's elements, each line read once. On the group's own die they are read at once, or with the turn's delay a line at a time,
so that other agents may come between two lines (R243); those of other places have been asked for and have arrived (R408). Elements on host-shared
pages are read one after another, each asked for when the one before it has been read (R336). -/
def State.readyData (s : State) (l : List VElem) : State × Bool :=
  let g := s.cur
  let runs := allRuns l
  if runs.all (fun r => decide (reachOf g r.1 = .local_)) && !s.lateLoads && s.own.dataWait.isNone then (s, true)
  else
    let at_ := (l.head?.map VElem.va).getD 0
    let w := s.own.dataWait.getD { pc := s.own.pc, va := at_, arrived := true, bad := [], inbox := [], asked := [], act := none }
    if !w.arrived then (s, false)
    else
      match l.find? (fun e => leafHS e.leaf && !w.has e.runs) with
      | some e => if (w.unasked g e.runs).isEmpty then (s.collect w e.runs, false) else (s.ask g e.va (w.unasked g e.runs), false)
      | none =>
        if !(w.unasked g runs).isEmpty then (s.ask g at_ (w.unasked g runs), false)
        else
          match (lines (runs.filter fun r => !paFar r.1)).find? (fun r => !w.has [r]) with
          | some r => if s.lateLoads then (s.collect w [r], false) else (s, true)
          | none => (s, true)

/-- The elements written in ascending index (R242): UNCORR, and the flags of a conversion (R77), in the lane of the element at width
`lw`, the widest of the memory element, the index group and the result (R179; DEDUCED, notes/assumptions/79). -/
def State.loadElems (s : State) (mt t : Tag) (cv : Bool) (lw : Nat) : List VElem → Nat → Group → Nat × Group × Option Stop
  | [], b, G => (b, G, none)
  | e :: es, b, G =>
    if s.elemBad e then (b, G, some { e := e.i, code := 0xC, sub := 0, addr := e.va })
    else
      let p := elemBits mt e.i ((s.runsBytes s.cur e.runs).getD [])
      let r := if cv then convert mt t G.rm G.sat G.modulus p else (p, 0)
      let G1 := if r.2 = 0 then G else G.accrueLane (laneOf lw e.i) r.2
      if r.2 &&& G.xen ≠ 0 then (b, G1, some { e := e.i, code := 8, sub := 0, addr := 0 })
      else State.loadElems s mt t cv lw es (elemPut b (tagWidth t) e.i r.1) G1

/-- The addressing forms of R240. -/
inductive VForm where
  | unit | strided (xb : Word) | indexed (vb : Reg)
  deriving DecidableEq, Repr

/-- The index groups of a form. -/
def VForm.index : VForm → List Reg
  | .indexed vb => [vb]
  | _ => []

/-- The address of an element (R240). -/
def VForm.addr (f : VForm) (G : Group) (srcs : List Source) (base : Word) (mt : Tag) (i : Nat) : Word :=
  match f with
  | .unit => base + BitVec.ofNat 64 (i * tagWidth mt / 8)
  | .strided xb => base + BitVec.ofNat 64 i * xb
  | .indexed vb => base + BitVec.ofInt 64 (intOf (G.tag vb) (G.elem srcs vb i))

/-- The checks of R239 that every form makes. -/
def VForm.legal (f : VForm) (G : Group) (mt : Tag) : Bool :=
  (f.index.all fun r => tagIsInt (G.tag r)) && (decide (mt ≠ .e2m1) || (decide (f = .unit) && decide (G.vl % 2 = 0)))

/-- A vector load that has its data: its elements written, then what ends the walk: completion, a trap, or a
window load's trim (R231). -/
def State.loadEnd (s : State) (h : VHead) (d : Reg) (mt t : Tag) (cv windowed : Bool) (k : Option (BitVec 3)) (l : List VElem)
    (w : WalkEnd) : State :=
  let G := s.own
  let r := s.loadElems mt t cv (max (tagWidth mt) (G.widest t h.reads)) l (G.vbits d) G
  match r.2.2 with
  | some st => (s.putOwn (r.2.1.setBits d r.1)).stopAt st
  | none =>
    match w with
    | .stop st => if st.code = 0xF then s.stopAt st else (s.putOwn (r.2.1.setBits d r.1)).stopAt st
    | .range e va =>
      if windowed && (upFrom 0 e).any (G.active k) then
        (s.putOwn { (r.2.1.setBits d r.1).setTag d t with vl := e }).vdone h
      else s.raiseAt 6 0 va 0
    | _ => (s.putOwn ((r.2.1.setBits d r.1).setTag d t)).vdone h

/-- The head of a vector load; one whose base lies in a window runs in serial mode (R231). -/
def loadHead (f : VForm) (ce : Bool) (k : Option (BitVec 3)) (d : Reg) (windowed : Bool) (tk : TokenReq) (len : Nat) : VHead :=
  { len := len, pipe := .ld, ce := ce, tk := tk, mask := k, reads := f.index, writes := some d, usesMask := false, xdst := none, serial := windowed }

/-- VLD, VLDS and VLDX (R237 to R243). -/
def State.vload (s : State) (f : VForm) (ce : Bool) (k : Option (BitVec 3)) (d a : Reg) (tk : TokenReq) (mtag : BitVec 4) (cv : Bool)
    (te : Option Tag) (len : Nat) : State :=
  let G := s.own
  let t := te.getD (G.tag d)
  let mt := if cv then Tag.ofCode mtag.toNat else t
  let h := loadHead f ce k d (inWindow (s.x a).toNat) tk len
  let legal := (!cv || (te.isSome && convertible mt t)) && f.legal G mt && G.lengthsOk d t f.index
  let base := s.x a
  s.vectorWith h legal
    (fun s1 srcs e =>
      let rule : WalkRule := { kind := .load, late := false, bytes := elemBytes mt, align := elemBytes mt, distinct := false, atomic := false }
      match s1.readyElems rule (s1.own.active k) (f.addr s1.own srcs base mt) (srcStop srcs) e s1.own.vl with
      | (s2, none) => (s2, none)
      | (s2, some p) =>
        let q := s2.drainFor s2.cur (p.1.map VElem.va) (allRuns p.1)
        if !q.clearFor q.cur (p.1.map VElem.va) (allRuns p.1) then (q, none)
        else
          let z := q.readyData p.1
          if z.2 then (z.1, some p) else (z.1, none))
    (fun s1 p => s1.loadEnd h d mt t cv (inWindow base.toNat) k p.1 p.2)

/-! ## Vector stores (R232, R244 to R247) -/

/-- The elements of a store that have passed their checks, into their slice queues in ascending index; those on host-shared pages are
marked, so that one is performed after another (R336). -/
def State.storeElems (s : State) (op : Nat → AccessOp) (mt : Tag) (src n : Nat) (early : Bool) (bits : Nat → Nat) (l : List VElem) : State :=
  let first := s.own.seq
  l.foldl (fun st e =>
    st.putOwn (st.own.enqueue
      { op := op e.i, va := e.va, pa := if early then some e.runs else none, len := n, data := bits e.i, pc := st.own.pc
        src := src, elem := e.i, replica := false, tag := some mt, seq := 0, hs := if leafHS e.leaf then some first else none
        inst := first })) s

/-- A store whose elements have entered their queues: completion, or the trap of the element that stopped it. -/
def State.storeEnd (s : State) (h : VHead) (w : WalkEnd) : State :=
  match w with
  | .stop st => s.stopAt st
  | .range e va => s.raiseAt 6 0 va e
  | _ => s.vdone h

/-- The head of a vector store. -/
def storeHead (f : VForm) (ce : Bool) (k : Option (BitVec 3)) (d : Reg) (tk : TokenReq) (len : Nat) : VHead :=
  { len := len, pipe := .st, ce := ce, tk := tk, mask := k, reads := d :: f.index, writes := none, usesMask := false, xdst := none }

/-- VST, VSTS, VSTX and VSTXA: `upd` is the update of a VSTXA (R244 to R247). -/
def State.vstore (s : State) (f : VForm) (upd : Option (BitVec 2)) (ce : Bool) (k : Option (BitVec 3)) (d a : Reg) (tk : TokenReq) (len : Nat) :
    State :=
  let G := s.own
  let t := G.tag d
  let reads := d :: f.index
  let h := storeHead f ce k d tk len
  let tagOk := match upd with
    | some _ => decide (t ≠ .q32) && (tagIsInt t || decide (tagWidth t ≥ 16))
    | none => true
  let legal := tagOk && f.legal G t && reads.all (fun r => G.fits (G.tag r))
  let base := s.x a
  let indexed := !f.index.isEmpty
  s.vectorWith h legal
    (fun s1 srcs e =>
      let rule : WalkRule :=
        { kind := if upd.isSome then .atomic else .store, late := upd.isNone, bytes := elemBytes t, align := elemBytes t
          distinct := indexed && upd.isNone, atomic := upd.isSome }
      match s1.readyElems rule (s1.own.active k) (f.addr s1.own srcs base t) (srcStop srcs) e s1.own.vl with
      | (s2, none) => (s2, none)
      | (s2, some p) => (s2, some (srcs, p)))
    (fun s1 v =>
      let op := fun (i : Nat) => match upd with
        | some o => AccessOp.scatter o t
        | none => if t = .e2m1 then .nibble (decide (i % 2 = 1)) else .store
      (s1.storeElems op t 1 (elemBytes t) upd.isSome (fun i => elemOf (srcBits v.1 d) (tagWidth t) i) v.2.1).storeEnd
        { h with first := some s1.own.seq } v.2.2)

/-- The byte of an element's register from which VSTB goes on after a trap at an index, an element's or a byte's (R232, R310): no later than
either (notes/assumptions/82). -/
def vstbStart (t : Tag) (e : Nat) : Nat := min e (e * tagWidth t / 8)

/-- Whether a byte of an element that VSTB enables lies at or after a byte. -/
def vstbUses (m : Nat) (t : Tag) (from_ i : Nat) : Bool :=
  (upFrom (i * tagWidth t / 8) (elemBytes t)).any fun j => decide (from_ ≤ j) && bitAtNat m j

/-- The head of VSTB: an element group spans 128 bytes, and an element is used when a byte of it is enabled (R193, R246). -/
def vstbHead (G : Group) (ce : Bool) (mk : BitVec 3) (d : Reg) (tk : TokenReq) (len : Nat) : VHead :=
  { len := len, pipe := .st, ce := ce, tk := tk, mask := none, reads := [d], writes := none, usesMask := true, xdst := none
    unit := some 128, mreads := [mk]
    act := some fun i => decide (i < G.vl) && vstbUses (G.mask mk) (G.tag d) (vstbStart (G.tag d) G.startElem) i }

/-- VSTB (R246): the bytes that a mask enables. A stop of the source stands at the first byte of its element that is stored, and is reported
at the element (R310). -/
def State.vstoreBytes (s : State) (ce : Bool) (mk : BitVec 3) (d a : Reg) (tk : TokenReq) (len : Nat) : State :=
  let G := s.own
  let t := G.tag d
  let h := vstbHead G ce mk d tk len
  let base := s.x a
  let n := (G.vl * tagWidth t + 7) / 8
  let m := G.mask mk
  let from_ := vstbStart t G.startElem
  let firstByte := fun (st : Stop) =>
    { st with e := ((upFrom (st.e * tagWidth t / 8) (elemBytes t)).find? fun j => decide (from_ ≤ j) && bitAtNat m j).getD 0 }
  s.vectorWith h (G.fits t)
    (fun s1 srcs _ =>
      let rule : WalkRule := { kind := .store, late := true, bytes := 1, align := 1, distinct := false, atomic := false }
      match s1.readyElems rule (bitAtNat m) (fun j => base + BitVec.ofNat 64 j) ((srcStop srcs).map firstByte) from_ n with
      | (s2, none) => (s2, none)
      | (s2, some p) => (s2, some (srcs, p)))
    (fun s1 v =>
      let stopped := match srcStop v.1, v.2.2 with
        | some x, .stop y => if y = firstByte x then .stop x else v.2.2
        | _, w => w
      (s1.storeElems (fun _ => .store) t 2 1 false (fun i => elemOf (srcBits v.1 d) 8 i) v.2.1).storeEnd { h with first := some s1.own.seq } stopped)

/-! ## Collective contributions (R417 to R421) -/

/-- EN, CID, RANK and NRM1 of COLLG (R417). -/
def Group.collEn (G : Group) : Bool := bitOf G.collg 0

/-- The global die on which a rank stands (R419). -/
def rankDie (base stride r : Nat) : Nat := (base + r * stride) % 32768

/-- The contribution that a group's COLL registers and elements make (R417 to R419). -/
def Group.contribution (G : Group) (g : Nat) (t : Tag) (elems : List Nat) : RemoteContribution :=
  { cid := bits G.collg 24 8, nrm1 := bits G.collg 47 15, rank := bits G.collg 32 15, op := bits G.collop 0 3, kind := bits G.collop 3 2
    base := bits G.collstride 0 15, stride := bits G.collstride 16 15, tag := t, set := setOf g, elems := elems, fate := none }

/-- The dies of other modules on which ranks of a collective stand. -/
def farDies (c : RemoteContribution) : List Nat :=
  ((upFrom 0 (c.nrm1 + 1)).map (rankDie c.base c.stride)).filter fun d => decide (d / 8 ≠ ownModule)

/-- The dies of this module on which ranks of a collective stand. -/
def nearDies (c : RemoteContribution) : List Nat :=
  (((upFrom 0 (c.nrm1 + 1)).map (rankDie c.base c.stride)).filter fun d => decide (d / 8 = ownModule)).map fun d => d % 8

/-- A contribution handed to the die's collective unit: recorded, sent to the ranks of other modules, in the slot set that the aperture
entry for the module names (R419); a lost link fails it with LINKFAIL (R405, R421, R423). -/
def State.giveContribution (s : State) (buffer : Word) (runs : List (Nat × Nat)) (c : RemoteContribution) : State :=
  let g := s.cur
  let far := farDies c
  let lost := far.any (fun d => s.noExit (dieOf g) (d / 8)) || (nearDies c).any fun d => s.noRoute (dieOf g) d
  let G := s.own
  let s1 := s.putOwn { G with collIssued := G.collIssued + 1 }
  let s2 := { s1 with
    colls := s1.colls ++ [{ group := some g, num := G.collIssued.toNat, from_ := c, buffer := buffer, runs := runs, failed := if lost then some 2 else none, done := false }] }
  let s3 := far.foldl (fun st d => st.emit (.contribution d { c with set := st.setOn g d, fate := if lost then some 2 else none })) s2
  if lost then s3.deliver g 0xF 2 buffer else s3

/-- A VST under COLLG.EN (R421). It contributes nothing before all its elements have passed their checks, so that after a trap of one every
element is walked again. -/
def State.contribute (s : State) (ce : Bool) (k : Option (BitVec 3)) (d a : Reg) (tk : TokenReq) (len : Nat) : State :=
  let G := s.own
  let g := s.cur
  let t := G.tag d
  let c := G.contribution g t []
  let h := storeHead .unit ce none d tk len
  let legal := foldAccepts c.op t && decide (t ≠ .q32) && G.fits t && VForm.unit.legal G t && G.boundOk [d] none
  let own := decide (rankDie c.base c.stride c.rank = 8 * ownModule + dieOf g)
  let base := s.x a
  if G.aligned d && !(G.openPipes.contains .st) && legal && (k.isSome || decide (c.rank > c.nrm1) || !own) then s.illegalSub 7
  else if decide ((G.collIssued - G.collDone).toNat ≥ 4) && G.aligned d && !(G.openPipes.contains .st) && legal then s
  else
    s.vectorWith h legal
      (fun s1 srcs _ =>
        let rule : WalkRule := { kind := .store, late := false, bytes := elemBytes t, align := elemBytes t, distinct := false, atomic := true }
        match s1.readyElems rule (s1.own.active none) (VForm.unit.addr s1.own srcs base t) (srcStop srcs) 0 s1.own.vl with
        | (s2, none) => (s2, none)
        | (s2, some p) => (s2, some (srcs, p)))
      (fun s1 v =>
        match v.2.2 with
        | .stop st => s1.stopAt st
        | .range e va => s1.raiseAt 6 0 va e
        | _ =>
          if (allRuns v.2.1).all fun r => decide (reachOf g r.1 = .local_) then
            let elems := (upFrom 0 s1.own.vl).map fun i => elemOf (srcBits v.1 d) (tagWidth t) i
            let runs := allRuns (if t = .e2m1 then v.2.1.filter (fun e => decide (e.i % 2 = 0)) else v.2.1)
            (s1.giveContribution base runs (s1.own.contribution g t elems)).vdone h
          else s1.illegalSub 7)

/-- VST (R244), or with COLLG.EN = 1 a contribution (R421). -/
def State.vstoreUnit (s : State) (ce : Bool) (k : Option (BitVec 3)) (d a : Reg) (tk : TokenReq) (len : Nat) : State :=
  if s.own.collEn then s.contribute ce k d a tk len else s.vstore .unit none ce k d a tk len

/-! ## PFETCH (R249) -/

/-- The translations of 4 KiB granules requested into the die's last-level TLB: a hit or a walk installs, a miss of a
host-assisted context is recorded; failures are dropped. -/
def State.prefetch (s : State) : Nat → Nat → State
  | 0, _ => s
  | k + 1, va =>
    let s1 := s.prefetchPage (setOf s.cur) (dieOf s.cur) va
    State.prefetch s1 k ((va / 4096 + 1) * 4096)

/-- The head of PFETCH: one beat of the LD pipe (R249). -/
def pfetchHead (ce : Bool) (tk : TokenReq) (len : Nat) : VHead :=
  { len := len, pipe := .ld, ce := ce, tk := tk, mask := none, reads := [], writes := none, usesMask := false, xdst := none, beat := some (1024, 1) }

/-- PFETCH's effect. -/
def State.prefetchOp (s : State) (ce : Bool) (a b : Reg) (tk : TokenReq) (len : Nat) : State :=
  let h := pfetchHead ce tk len
  let va := (s.x a).toNat
  let n := min (s.x b).toNat (2 ^ 24)
  let pages := if n = 0 then 0 else (va + n - 1) / 4096 + 1 - va / 4096
  s.vector h true fun s1 _ _ => (s1.prefetch pages va).vdone h

/-- VLD (R240 to R243). -/
def execVld (ce : Bool) (k : Option (BitVec 3)) (d : Reg) (a : Reg) (s : State) : Res := .next (s.vload .unit ce k d a TokenReq.idle 0 false none 4)
/-- VLD (R240 to R243), with the extension word. -/
def execVldLong (ce : Bool) (k : Option (BitVec 3)) (d : Reg) (a : Reg) (tk : TokenReq) (mtag : BitVec 4) (cv : Bool) (te : Option Tag) (s : State) : Res := .next (s.vload .unit ce k d a tk mtag cv te 8)
/-- VLDS (R240 to R243). -/
def execVlds (ce : Bool) (k : Option (BitVec 3)) (d : Reg) (a : Reg) (b : Reg) (s : State) : Res := .next (s.vload (.strided (s.x b)) ce k d a TokenReq.idle 0 false none 4)
/-- VLDS (R240 to R243), with the extension word. -/
def execVldsLong (ce : Bool) (k : Option (BitVec 3)) (d : Reg) (a : Reg) (b : Reg) (tk : TokenReq) (mtag : BitVec 4) (cv : Bool) (te : Option Tag) (s : State) : Res := .next (s.vload (.strided (s.x b)) ce k d a tk mtag cv te 8)
/-- VLDX (R240 to R243). -/
def execVldx (ce : Bool) (k : Option (BitVec 3)) (d : Reg) (a : Reg) (b : Reg) (s : State) : Res := .next (s.vload (.indexed b) ce k d a TokenReq.idle 0 false none 4)
/-- VLDX (R240 to R243), with the extension word. -/
def execVldxLong (ce : Bool) (k : Option (BitVec 3)) (d : Reg) (a : Reg) (b : Reg) (tk : TokenReq) (mtag : BitVec 4) (cv : Bool) (te : Option Tag) (s : State) : Res := .next (s.vload (.indexed b) ce k d a tk mtag cv te 8)
/-- PFETCH (R249). -/
def execPfetch (ce : Bool) (a : Reg) (b : Reg) (s : State) : Res := .next (s.prefetchOp ce a b TokenReq.idle 4)
/-- PFETCH (R249), with the extension word. -/
def execPfetchLong (ce : Bool) (a : Reg) (b : Reg) (tk : TokenReq) (s : State) : Res := .next (s.prefetchOp ce a b tk 8)
/-- VST (R244), a contribution with COLLG.EN = 1 (R421). -/
def execVst (ce : Bool) (k : Option (BitVec 3)) (d : Reg) (a : Reg) (s : State) : Res := .next (s.vstoreUnit ce k d a TokenReq.idle 4)
/-- VST (R244), a contribution with COLLG.EN = 1 (R421), with the extension word. -/
def execVstLong (ce : Bool) (k : Option (BitVec 3)) (d : Reg) (a : Reg) (tk : TokenReq) (s : State) : Res := .next (s.vstoreUnit ce k d a tk 8)
/-- COLLECTIVE_CONTRIBUTION (R421): the VST of a group whose COLLG.EN is 1. -/
def execCollectiveContribution (ce : Bool) (d a : Reg) (s : State) : Res := .next (s.contribute ce none d a TokenReq.idle 4)
/-- VSTS (R244). -/
def execVsts (ce : Bool) (k : Option (BitVec 3)) (d : Reg) (a : Reg) (b : Reg) (s : State) : Res := .next (s.vstore (.strided (s.x b)) none ce k d a TokenReq.idle 4)
/-- VSTS (R244), with the extension word. -/
def execVstsLong (ce : Bool) (k : Option (BitVec 3)) (d : Reg) (a : Reg) (b : Reg) (tk : TokenReq) (s : State) : Res := .next (s.vstore (.strided (s.x b)) none ce k d a tk 8)
/-- VSTX (R244, R245). -/
def execVstx (ce : Bool) (k : Option (BitVec 3)) (d : Reg) (a : Reg) (b : Reg) (s : State) : Res := .next (s.vstore (.indexed b) none ce k d a TokenReq.idle 4)
/-- VSTX (R244, R245), with the extension word. -/
def execVstxLong (ce : Bool) (k : Option (BitVec 3)) (d : Reg) (a : Reg) (b : Reg) (tk : TokenReq) (s : State) : Res := .next (s.vstore (.indexed b) none ce k d a tk 8)
/-- VSTXA (R247). -/
def execVstxaAdd (ce : Bool) (k : Option (BitVec 3)) (d : Reg) (a : Reg) (b : Reg) (s : State) : Res := .next (s.vstore (.indexed b) (some 0) ce k d a TokenReq.idle 4)
/-- VSTXA (R247), with the extension word. -/
def execVstxaAddLong (ce : Bool) (k : Option (BitVec 3)) (d : Reg) (a : Reg) (b : Reg) (tk : TokenReq) (s : State) : Res := .next (s.vstore (.indexed b) (some 0) ce k d a tk 8)
/-- VSTXA (R247). -/
def execVstxaMin (ce : Bool) (k : Option (BitVec 3)) (d : Reg) (a : Reg) (b : Reg) (s : State) : Res := .next (s.vstore (.indexed b) (some 1) ce k d a TokenReq.idle 4)
/-- VSTXA (R247), with the extension word. -/
def execVstxaMinLong (ce : Bool) (k : Option (BitVec 3)) (d : Reg) (a : Reg) (b : Reg) (tk : TokenReq) (s : State) : Res := .next (s.vstore (.indexed b) (some 1) ce k d a tk 8)
/-- VSTXA (R247). -/
def execVstxaMax (ce : Bool) (k : Option (BitVec 3)) (d : Reg) (a : Reg) (b : Reg) (s : State) : Res := .next (s.vstore (.indexed b) (some 2) ce k d a TokenReq.idle 4)
/-- VSTXA (R247), with the extension word. -/
def execVstxaMaxLong (ce : Bool) (k : Option (BitVec 3)) (d : Reg) (a : Reg) (b : Reg) (tk : TokenReq) (s : State) : Res := .next (s.vstore (.indexed b) (some 2) ce k d a tk 8)
/-- VSTB (R246). -/
def execVstb (ce : Bool) (mk : BitVec 3) (d : Reg) (a : Reg) (s : State) : Res := .next (s.vstoreBytes ce mk d a TokenReq.idle 4)
/-- VSTB (R246), with the extension word. -/
def execVstbLong (ce : Bool) (mk : BitVec 3) (d : Reg) (a : Reg) (tk : TokenReq) (s : State) : Res := .next (s.vstoreBytes ce mk d a tk 8)

end Sys2Proof.Machine
end

