-- ==== Sys2Proof/Machine/Stream.lean ====
section
/-!
DEFINITION. Sys2Proof/Machine/Stream.lean: stream channels, copies and their watermarks, token FIFOs, the stream
instructions and the channel events (spec/14_stream R307 to R318).
-/

namespace Sys2Proof.Machine

/-! ## Long reads -/

/-- A read of bytes that may cross slices: the queues of both ends drained first. -/
def State.loadWide (s : State) (g : Nat) (va : Word) (n : Nat) : State × Got :=
  match s.look g .load va.toNat n with
  | (s1, .range) => (s1, .trap 6 0 va)
  | (s1, .fail sub) => (s1, .trap 4 sub va)
  | (s1, .wait) => (s1, .wait)
  | (s1, .here runs _) =>
    if s1.tileBusy g runs then (s1, .wait)
    else
      let vas := [va, va + BitVec.ofNat 64 (n - 1)]
      let r := s1.drainFor g vas runs
      if r.clearFor g vas runs then r.readFor g va runs else (r, .wait)

/-! ## SBIND and SCOPY (R307, R308, R311, R317) -/

/-- A channel with the pattern of a descriptor's bytes (R307). -/
def Channel.withPattern (c : Channel) (d : List Byte) : Channel :=
  { c with n := (upFrom 0 4).map fun k => natOfBytes (takeBytes d (4 * k) 4)
           s := (upFrom 0 4).map fun k => BitVec.ofNat 64 (natOfBytes (takeBytes d (16 + 8 * k) 8)) }

/-- The limits of R307 on counts. -/
def Channel.sizeOk (c : Channel) : Bool := c.n.all (fun n => decide (1 ≤ n ∧ n ≤ 2 ^ 24)) && decide (c.total ≤ 2 ^ 40)

/-- The alignment of R307 on the base and the strides. -/
def Channel.alignOk (c : Channel) : Bool :=
  let al := min c.esz 16
  decide (c.base.toNat % al = 0) && c.s.all fun k => decide (k.toNat % al = 0)

/-- Whether two copies' destination ranges overlap (R312). -/
def Channel.overlaps (c q : Channel) : Bool :=
  decide (q.st = .copying ∨ q.st = .done ∨ q.st = .failed) &&
  decide (c.dst.toNat < q.dst.toNat + q.span ∧ q.dst.toNat < c.dst.toNat + c.span)

/-- Whether a destination range lies in the group's part of one of the three windows (R311). -/
def State.destOk (s : State) (c : Channel) : Bool :=
  let win := c.dst.toNat / 2 ^ 48
  decide (win = 0xF0 ∨ win = 0xF1 ∨ win = 0xF2) && (s.window s.cur win (c.dst.toNat % 2 ^ 48) c.span).isSome

/-- Whether some channel of the group is bound to registers that a group of registers shares (R309). -/
def Group.bound (G : Group) (r : Reg) : Bool := !G.boundOk [] (some r)

/-- SBIND and SCOPY up to their effect: the checks of R317 in order, with the descriptor read as a load reads. Of a descriptor that
cannot be read only the checks that need none of it come before its trap, a range of at least one element among them
(notes/assumptions/70). -/
def State.channelStart (s : State) (ch : BitVec 4) (c : Channel) (desc : Word) (copy : Bool) (finish : State → Channel → State) : State :=
  let G := s.own
  let misplaced := fun (s1 : State) (c1 : Channel) =>
    if desc.toNat % 16 ≠ 0 then some (s1.misaligned desc)
    else if !c1.alignOk then some (s1.misaligned c1.base)
    else if copy && decide (c1.dst.toNat % 128 ≠ 0) then some (s1.misaligned c1.dst)
    else if copy && !s1.destOk c1 then some (s1.outOfRange c1.dst)
    else none
  if ch.toNat ≥ G.hold.chans then s.illegal
  else if (G.chan[ch.toNat]).st ≠ .free || (!copy && G.bound c.vd) then s.illegal
  else
    match s.close.loadWide s.cur desc 48 with
    | (s1, .wait) => s1
    | (s1, .trap code sub addr) =>
      if copy && G.chan.toList.any c.overlaps then s1.illegal else (misplaced s1 c).getD (s1.raise code sub addr)
    | (s1, .data d) =>
      let c1 := c.withPattern d
      if !c1.sizeOk || (copy && G.chan.toList.any c1.overlaps) then s1.illegal else (misplaced s1 c1).getD (finish s1 c1)

/-- SBIND (R308 to R310): the group enters stream mode, its tag is set, its bits stay. -/
def execSbind (d a b : Reg) (ch : BitVec 4) (t : Tag) (s : State) : Res :=
  .next <|
    let G := s.own
    let c : Channel := { Channel.free with st := .bound, base := s.x a, esz := tagWidth t / 8, tag := t, vd := d, lmul := G.lmul }
    if t = .e2m1 ∨ !G.aligned d then s.illegal
    else s.channelStart ch c (s.x b) false fun s1 c1 => (s1.putOwn ((s1.own.setChan ch.toNat c1).setTag d t)).retire 8

/-- SCOPY (R308, R311). -/
def execScopy (d a b : Reg) (ch : BitVec 4) (esz : BitVec 3) (dep : BitVec 8) (tke : Bool) (tkf : BitVec 4) (s : State) : Res :=
  .next <|
    let c : Channel :=
      { Channel.free with st := .copying, base := s.x a, esz := 2 ^ esz.toNat, dst := s.x d, depth := dep.toNat, tke := tke, tkf := tkf }
    s.channelStart ch c (s.x b) true fun s1 c1 => (s1.putOwn (s1.own.setChan ch.toNat c1)).retire 8

/-! ## The short instructions (R318) -/

/-- Whether a channel has nothing on its way: the strips it has requested have landed and are committed, its tokens are pushed (R308,
R313). -/
def Channel.settled (c : Channel) : Bool :=
  (decide (c.st ≠ .copying) || (c.arrived.isEmpty && decide (c.asked ≤ c.nextStrip))) && decide (c.owed = 0)

/-- A channel that is to be freed requests nothing more; it becomes Free once it has nothing on its way (R308, R318). -/
def Channel.leave (c : Channel) : Channel := if c.settled then Channel.free else { c with closing := true }

/-- SUNBIND (R308, R318): it stalls until the channel's requests have landed; the channel becomes Free. -/
def execSunbind (h : BitVec 4) (s : State) : Res :=
  .next <|
    if h.toNat ≥ s.own.hold.chans then s.illegal
    else
      let c := s.own.chan[h.toNat]
      let s1 := s.close.putOwn (s.own.closeConvoy.setChan h.toNat c.leave)
      if c.settled then s1.retire 4 else s1

/-- Whether a channel holds a copy. -/
def Channel.isCopy (c : Channel) : Bool := decide (c.st = .copying ∨ c.st = .done ∨ c.st = .failed)

/-- SWMARK (R318). -/
def execSwmark (d a : Reg) (h : BitVec 4) (s : State) : Res :=
  .next <|
    let G := s.own
    let c := G.chan[h.toNat]
    let x := (s.x a).toNat
    if h.toNat ≥ G.hold.chans then s.illegal
    else if c.isCopy then
      if c.depth > 0 ∧ x > c.filled then s.illegal
      else
        let c1 := if c.depth > 0 then { c with released := max c.released x } else c
        (s.close.putOwn (G.closeConvoy.setChan h.toNat c1)).done d (BitVec.ofNat 64 c.filled) 4
    else if c.st = .bound then s.close.done d (BitVec.ofNat 64 c.taken) 4
    else s.illegal

/-- The answer of SWAIT when its wait is over (R318). -/
def Channel.answer (c : Channel) (target : Word) : Option Word :=
  if c.filled ≥ target.toNat then some 0 else if c.st = .failed then some 1 else if c.st = .copying then none else some 2

/-- SWAIT (R318). -/
def execSwait (d a : Reg) (h : BitVec 4) (s : State) : Res :=
  .next <|
    let G := s.own
    let c := G.chan[h.toNat]
    if h.toNat ≥ G.hold.chans || !c.isCopy then s.illegal
    else
      match c.answer (s.x a) with
      | some v => s.close.done d v 4
      | none => s.close.wait (.watermark d h (s.x a))

/-- A token pushed; the FIFO must have room (R316). -/
def Group.pushToken (G : Group) (f : BitVec 4) : Group := { G with fifos := G.fifos.set f.toNat (G.fifos[f.toNat] + 1) }

/-- TKPUSH (R318): earlier loads, stores and atomics first; it holds while the FIFO is full. -/
def execTkpush (f : BitVec 4) (s : State) : Res :=
  .next <|
    let s1 := s.close.drainAll s.cur
    if s1.own.queued || s1.own.sent.any (fun w => !w.msg && !w.path) || s1.own.late.isSome || decide (s1.own.fifos[f.toNat] ≥ 255) then s1
    else (s1.putOwn (s1.own.pushToken f)).retire 4

/-- TKPOP (R316, R318): what the token makes visible is performed first. -/
def execTkpop (f : BitVec 4) (s : State) : Res :=
  .next <|
    if s.own.fifos[f.toNat] = 0 then s.close.wait (.token f)
    else
      let s1 := s.close.joinPushed (some f)
      if s1.own.async.isEmpty then (s1.putOwn (s1.own.popToken (some f))).retire 4 else s1

/-! ## Events of a channel (R308, R309, R311, R313, R314) -/

/-- What a fetch of some bytes by a channel gives: bytes, a failure with the reason of R314 and its line, or nothing
yet; `poor` are bytes read with the marker or an error in them. -/
inductive Fetched where
  | data (b : List Byte)
  | poor (b : List Byte) (line : Word)
  | fail (why : Nat) (line : Word)
  | far (runs : List (Nat × Nat))
  | later
  deriving DecidableEq, Repr

/-- The 128-byte line of an address. -/
def lineOf (va : Word) : Word := BitVec.ofNat 64 (va.toNat / 128 * 128)

/-- Some bytes cut where a line ends: at most 128 of them lie in two lines. -/
def linePieces (va : Word) (n : Nat) : List (Word × Nat) :=
  let room := 128 - va.toNat % 128
  if n ≤ room then [(va, n)] else [(va, room), (va + BitVec.ofNat 64 room, n - room)]

/-- A channel's read of bytes of one line: earlier stores of its slice first. -/
def State.channelRead (s : State) (g : Nat) (va : Word) (n : Nat) (far : FarData) (lost : Bool) : State × Fetched :=
  match s.look g .load va.toNat n (engineId 2) with
  | (s1, .range) => (s1, .fail 2 (lineOf va))
  | (s1, .fail _) => (s1, .fail 2 (lineOf va))
  | (s1, .wait) => (s1, .later)
  | (s1, .here runs _) =>
    let r := s1.drainFor g [va] runs
    if !r.storesClear g (sliceOf va.toNat) runs || r.tileBusy g runs then (r, .later)
    else if runs.any (fun q => r.unreachable g q.1) then (r, .fail 3 (lineOf va))
    else if runs.any (fun q => paFar q.1) then
      if lost then (r, .fail 3 (lineOf va))
      else
        let places := (runs.map fun q => upFrom q.1 q.2).flatten
        match places.mapM (inboxByte far.cells) with
        | some b => (r, if places.any far.poor.contains then .poor b (lineOf va) else .data b)
        | none => (r, .far runs)
    else if r.runsBad runs then (r, .poor (r.readRuns runs) (lineOf va))
    else (r, .data (r.readRuns runs))

/-- The bytes of some pieces: the first failure with its line, poor bytes kept (R314), the places of other modules not answered yet.
Behind poor bytes, which fail the strip, bytes that cannot be read are 0 under the marker, where no reader sees them. -/
def State.channelReads (s : State) (g : Nat) (far : FarData) (lost : Bool) : List (Word × Nat) → List Byte → Option Word →
    List (Nat × Nat) → State × Fetched
  | [], acc, bad, [] => (s, match bad with | some line => .poor acc line | none => .data acc)
  | [], _, _, asks => (s, .far asks)
  | p :: ps, acc, bad, asks =>
    match s.channelRead g p.1 p.2 far lost with
    | (s1, .data b) => State.channelReads s1 g far lost ps (acc ++ b) bad asks
    | (s1, .poor b line) => State.channelReads s1 g far lost ps (acc ++ b) (some (bad.getD line)) asks
    | (s1, .fail why line) =>
      (match asks, bad with
       | _ :: _, _ => (s1, .far asks)
       | [], some l => (s1, .poor (acc ++ List.replicate ((p :: ps).map Prod.snd).sum 0) l)
       | [], none => (s1, .fail why line))
    | (s1, .far runs) => State.channelReads s1 g far lost ps acc bad (asks ++ runs)
    | (s1, .later) => (s1, .later)

/-- The pieces of a pattern's elements. -/
def Channel.pieces (c : Channel) (e k : Nat) : List (Word × Nat) := ((upFrom e k).map fun i => linePieces (c.elemAddr i) c.esz).flatten

/-- A copy's next strip requested and arrived (R311, R314). A channel that is closing requests none. -/
def State.fetchStrip (s : State) (g n : Nat) (c : Channel) (far : FarData) (lost : Bool) : State :=
  let k := c.nextStrip
  let lo := 128 * k
  let hi := min (lo + 128) c.bytes
  if lo ≥ c.bytes ∨ (c.depth > 0 ∧ 128 * (k + 1) - c.released > c.depth * 1536) ∨ (c.closing = true ∧ c.asked ≤ k) then s
  else
    let e0 := lo / c.esz
    let e1 := (hi + c.esz - 1) / c.esz
    let put := fun (st : State) (x : Strip) => st.putGroup g ((st.group g).setChan n { c with arrived := c.arrived ++ [x] })
    match s.channelReads g far lost (c.pieces e0 (e1 - e0)) [] none [] with
    | (s1, .data b) => put s1 { k := k, data := (b.drop (lo - e0 * c.esz)).take (hi - lo), why := 0, line := 0 }
    | (s1, .poor b line) => put s1 { k := k, data := (b.drop (lo - e0 * c.esz)).take (hi - lo), why := 1, line := line }
    | (s1, .fail why line) => put s1 { k := k, data := [], why := why, line := line }
    | (s1, .far runs) =>
      if c.asked > k then s1 else (s1.putGroup g ((s1.group g).setChan n { c with asked := k + 1 })).emitReads g runs
    | (s1, .later) => s1

/-- The element that a register stream fetches next. -/
def Channel.nextElem (c : Channel) : Nat := c.buf.foldl (fun m p => max m (p.1 + 1)) c.taken

/-- A register stream's next element fetched ahead, up to 4 KiB (R309); one that fails is read again by the
instruction that needs it (R310). -/
def State.fetchElem (s : State) (g n : Nat) (c : Channel) : State :=
  let e := c.nextElem
  if e ≥ c.total ∨ (e + 1 - c.taken) * c.esz > 4096 ∨ c.closing = true then s
  else
    match s.channelReads g FarData.none false (c.pieces e 1) [] none [] with
    | (s1, .data b) => s1.putGroup g ((s1.group g).setChan n { c with buf := c.buf ++ [(e, natOfBytes b)] })
    | (s1, _) => s1

/-- STREAM_FETCH_ARRIVAL (R308, R309, R311): while the context is Active, and for strips already requested while it is
Pre-empting (R84), of a terminated group among them (R141); `far` is what another module answered, `lost`
that a link lost it. -/
def execStreamFetchArrival (g : BitVec 12) (ch : BitVec 4) (far : FarData) (lost : Bool) (s : State) : Res :=
  .next <|
    let g := g.toNat
    let c := (s.group g).chan[ch.toNat]
    let st := (s.slotSet (setOf g)).st
    if ((s.group g).over || decide (st ≠ .active)) && !(decide (c.st = .copying) && decide (c.asked > c.nextStrip)) then s
    else
      match c.st with
      | .bound => s.fetchElem g ch.toNat c
      | .copying => s.fetchStrip g ch.toNat c far lost
      | _ => s

/-- The tokens that a channel's progress gives (R313). -/
def Channel.tokens (c : Channel) (old new : Nat) : Nat :=
  if c.tke then new / 1536 - old / 1536 + (if new = c.bytes ∧ new % 1536 ≠ 0 then 1 else 0) else 0

/-- The tokens a channel still owes, pushed as far as its FIFO has room (R313, R316). -/
def Group.payTokens (G : Group) (n : Nat) (c : Channel) : Group × Channel :=
  let room := 255 - G.fifos[c.tkf.toNat]
  let k := min room c.owed
  let c1 := { c with owed := c.owed - k }
  (({ G with fifos := G.fifos.set c.tkf.toNat (G.fifos[c.tkf.toNat] + k) }).setChan n c1, c1)

/-- STRIP_COMMIT (R311, R313, R314): the next strip in order, handed to the asynchronous path as one line (R331), or the failure it
carries. -/
def execStripCommit (g : BitVec 12) (ch : BitVec 4) (s : State) : Res :=
  .next <|
    let g := g.toNat
    let n := ch.toNat
    let r := (s.group g).payTokens n ((s.group g).chan[n])
    let c := r.2
    let s1 := s.putGroup g r.1
    if (s.groups.find g).isNone then s
    else if c.owed > 0 then s1
    else
      match c.st, c.arrived with
      | .copying, x :: rest =>
        let off := if c.depth = 0 then c.filled else c.filled % (c.depth * 1536)
        let runs := (s1.window g (c.dst.toNat / 2 ^ 48) (c.dst.toNat % 2 ^ 48 + off) x.data.length).getD []
        if x.why = 0 then
          let filled := c.filled + x.data.length
          let c1 := { c with filled := filled, arrived := rest, owed := c.tokens c.filled filled, st := if filled = c.bytes then .done else .copying }
          s1.putGroup g (((s1.group g).sendAsync runs x.data false true).payTokens n c1).1
        else
          let G1 := if x.why = 1 then (s1.group g).sendAsync runs x.data true true else s1.group g
          let s2 := s1.putGroup g (G1.setChan n { c with st := .failed, fstrip := x.k, why := x.why, arrived := [] })
          s2.deliver g 0x14 x.why x.line
      | _, _ => s1

end Sys2Proof.Machine
end

