-- ==== Sys2Proof/Machine/Mma.lean ====
section
/-!
DEFINITION. Sys2Proof/Machine/Mma.lean: the arithmetic of the matrix engine, element by element (spec/03_numbers
R66 to R70; spec/12_tile R255 to R257, R280, R281).
-/

namespace Sys2Proof.Machine

/-! ## Operands (R255 to R257) -/

/-- K, the depth of an operand row under a tag (R66, R280). -/
def depthOf (t : Tag) : Nat := 384 / tagWidth t

/-- A[i][k] of a tile register's bits (R255). -/
def aElem (a : Nat) (t : Tag) (i k : Nat) : Nat := a / 2 ^ (384 * i + k * tagWidth t) % 2 ^ tagWidth t

/-- B[k][j] of a B-store tile's bits (R257). -/
def bElem (b : Nat) (t : Tag) (k j : Nat) : Nat := b / 2 ^ (384 * j + k * tagWidth t) % 2 ^ tagWidth t

/-- The byte of a scale tile's row 0 (R67, R281). -/
def scaleByte (ts n : Nat) : Nat := ts / 2 ^ (8 * n) % 256

/-! ## R66 -/

/-- A value times a power of two. -/
def Num.shifted (e : Int) : Num → Num
  | .fin n m x => .fin n m (x + e)
  | other => other

/-- A product of R66 with its scale: a scale byte of 0xFF makes it NaN (R67). -/
def mmaProduct (atag btag : Tag) (pa pb : Nat) (scale : Option (Nat × Nat)) : Num × BitVec 6 :=
  let x := unpack atag pa
  let y := unpack btag pb
  let r := mulNum x y
  match scale with
  | none => r
  | some (sa, sb) => if sa = 0xFF ∨ sb = 0xFF then (.nan false, r.2) else (r.1.shifted ((sa : Int) - 127 + (sb : Int) - 127), r.2)

/-- The least exponent of some finite values. -/
def leastPlace (l : List Num) : Int := l.foldl (fun e x => match x with | .fin _ _ y => min e y | _ => e) 0

/-- An exact sum of finite values. -/
def exactSum (l : List Num) : Num :=
  let e := leastPlace l
  Num.ofScaled false (l.foldl (fun z x => z + x.scaled e) 0) e

/-- The result of R66 for an accumulator element and its products, to a tag under a mode. Infinities of both signs
count with the NaN branch, where the rule flags them. The accumulator element counts as an operand: a signalling NaN there, which an
accumulator of another tag can hold, raises NV (DESIGN CHOICE: the rule uses the word with and without it; notes/assumptions/20). -/
def mmaElem (t : Tag) (rm : Nat) (c : Num) (ps : List (Num × BitVec 6)) : Nat × BitVec 6 :=
  let all := c :: ps.map Prod.fst
  let inv := ps.foldl (fun f p => f ||| p.2) (sigFlag [c])
  let plus := all.any fun x => decide (x = .inf false)
  let minus := all.any fun x => decide (x = .inf true)
  if all.any Num.isNan || (plus && minus) then
    ((roundNum t rm (.nan false)).1, if plus && minus then inv ||| flagNV else inv)
  else if plus || minus then ((roundNum t rm (.inf minus)).1, 0)
  else
    match exactSum all with
    | .fin _ 0 _ => (0, 0)
    | x => roundNum t rm x

/-! ## R69 -/

/-- The seven digits of a split operand from d6 up: each recoded into −128 to 127 with a carry into the next
(R69). -/
def splitDigits : Nat → Int → List Int
  | 0, z => [z]
  | k + 1, z =>
    let low := z % 256
    let d := if low ≥ 128 then low - 256 else low
    d :: splitDigits k ((z - d) / 256)

/-- A finite nonzero operand as its digits d0 to d6 and the exponent of d6's place (R69). -/
def splitOperand (x : Num) : Option (List Int × Int) :=
  match x with
  | .fin n m e =>
    if m = 0 then none
    else
      let k := 53 - bitLen m
      let z : Int := (if n then -1 else 1) * ((2 * (m * 2 ^ k) : Nat) : Int)
      some ((splitDigits 6 z).reverse, e - k - 1)
  | _ => none

/-- The kept slice products of an operand pair, as one exact value (R69). -/
def splitProduct (n : Nat) (x y : Num) : Num :=
  match splitOperand x, splitOperand y with
  | some (dx, ex), some (dy, ey) =>
    let z := (dx.zipIdx.map fun p => (dy.zipIdx.map fun q => if p.2 + q.2 < n then p.1 * q.1 * ((2 ^ (96 - 8 * (p.2 + q.2)) : Nat) : Int) else 0).sum).sum
    Num.ofScaled false z (ex + ey)
  | _, _ => .fin false 0 0

/-- The kept pairs of a slice count (R70). -/
def keptPairs (n : Nat) : Nat := ((upFrom 0 7).map fun i => ((upFrom 0 7).filter fun j => decide (i + j < n)).length).sum

/-! ## The multiplies (R281) -/

/-- The kinds of multiply: the selector of major 0x52. -/
def resultTag (kind : BitVec 2) : Tag := if kind = 2 then .s32 else if kind = 3 then .f64 else .f32

/-- Element (i, j) of an MMA or MMAZ. -/
def mmaAt (atag btag : Tag) (rm : Nat) (a b : Nat) (ts : Option Nat) (c : Nat) (i j : Nat) : Nat × BitVec 6 :=
  let scale := ts.map fun t => (scaleByte t i, scaleByte t (16 + j))
  mmaElem .f32 rm (unpack .f32 c) ((upFrom 0 (depthOf atag)).map fun k => mmaProduct atag btag (aElem a atag i k) (bElem b btag k j) scale)

/-- Element (i, j) of an MMAI (R68). -/
def mmaiAt (atag btag : Tag) (a b c : Nat) (i j : Nat) : Nat :=
  wrapTo 32 ((c : Int) + ((upFrom 0 (depthOf atag)).map fun k => intOf atag (aElem a atag i k) * intOf btag (bElem b btag k j)).sum)

/-- Element (i, j) of an MMAS (R69): special operands go through their true product. -/
def mmasAt (rm slices : Nat) (a b c : Nat) (i j : Nat) : Nat × BitVec 6 :=
  mmaElem .f64 rm (unpack .f64 c) ((upFrom 0 (depthOf .f64)).map fun k =>
    let x := unpack .f64 (aElem a .f64 i k)
    let y := unpack .f64 (bElem b .f64 k j)
    match x, y with
    | .fin .., .fin .. => (splitProduct slices x y, 0)
    | _, _ => mulNum x y)

/-- An accumulator's 32-bit elements replaced, with their flags ORed. -/
def mapAcc32 (f : Nat → Nat → Nat → Nat × BitVec 6) (acc : Nat) : Nat × BitVec 6 :=
  foldUp 512 (fun n (p : Nat × BitVec 6) =>
    let r := f (n / 32) (n % 32) (elemOf acc 32 n)
    (elemPut p.1 32 n r.1, p.2 ||| r.2)) (acc, 0)

/-- An accumulator's 64-bit elements of one half of the columns replaced, with their flags ORed (R256). -/
def mapAcc64 (f : Nat → Nat → Nat → Nat × BitVec 6) (half acc : Nat) : Nat × BitVec 6 :=
  foldUp 256 (fun n (p : Nat × BitVec 6) =>
    let r := f (n / 16) (16 * half + n % 16) (elemOf acc 64 n)
    (elemPut p.1 64 n r.1, p.2 ||| r.2)) (acc, 0)

end Sys2Proof.Machine
end

