-- ==== Sys2Proof/Machine/Tile.lean ====
section
/-!
DEFINITION. Sys2Proof/Machine/Tile.lean: posting into the matrix queue, its events and the tile instructions
(spec/12_tile R258 to R284). An entry issues once no older entry of its group that has still to take its effect bears on it, or chained
to the TLD of its A tile; it takes its effect before it retires (notes/assumptions/21).
-/

namespace Sys2Proof.Machine

/-! ## Posting (R262) -/

/-- The entries of a group in its cell's queue. -/
def State.entriesOf (s : State) (g : Nat) : List MatrixEntry := (s.cell (cellOf g)).mq.filter fun e => e.group == g

/-- An entry put into the cell's queue of 64; the thread stalls while it is full. -/
def State.postMatrix (s : State) (op : MatrixOp) (rows : List (Word × List (Nat × Nat))) (tk : TokenReq) (len : Nat) : State :=
  let g := s.cur
  let C := s.cell (cellOf g)
  if C.mq.length ≥ 64 then s.close
  else
    let G := s.own
    let e : MatrixEntry :=
      { group := g, op := op, vcfg := G.vcfg, pc := G.pc, tok := tk, seq := G.seq, issued := false, chained := false, landed := 0, owed := 0
        snap := none, rows := rows, bad := none, got := [], poor := [], xmod := G.xmod, effected := false
        elided := none }
    (((s.putOwn { G with seq := G.seq + 1 }).putCell (cellOf g) { C with mq := C.mq ++ [e] }).close).retire len

/-- The window address of a B-store tile (R257). -/
def tileAddr (n : Word) : Word := 0x00F2000000000000 + n * 1536

/-- Whether tile `n` is valid for a group (R257). -/
def Group.tileValid (G : Group) (n : Word) : Bool := decide (1536 * (n.toNat + 1) ≤ G.hold.bstore)

/-- The rows of an access, each `n` bytes: their places, or the trap of the lowest failing row (R273, R276). With
`late` a failed translation is left to the row's own time. -/
def State.rowPlaces (s : State) (k : Kind) (late : Bool) (n : Nat) : List Word → List (Word × List (Nat × Nat)) →
    State × Option (Except (Nat × Nat × Word) (List (Word × List (Nat × Nat))))
  | [], acc => (s, some (.ok acc))
  | va :: rest, acc =>
    match s.look s.cur k va.toNat n with
    | (s1, .range) => (s1, some (.error (6, 0, va)))
    | (s1, .fail sub) =>
      if late then State.rowPlaces s1 k late n rest (acc ++ [(va, [])]) else (s1, some (.error (4, sub, va)))
    | (s1, .wait) => if late then State.rowPlaces s1 k late n rest (acc ++ [(va, [])]) else (s1, none)
    | (s1, .here runs _) => State.rowPlaces s1 k late n rest (acc ++ [(va, runs)])

/-- The addresses of 16 rows. -/
def rowAddrs (base stride : Word) : List Word := (upFrom 0 16).map fun i => base + BitVec.ofNat 64 i * stride

/-- The alignment check of rows: the base, then the second row. -/
def rowsMisaligned (base stride : Word) : Option Word :=
  if base.toNat % 16 ≠ 0 then some base else if stride.toNat % 16 ≠ 0 then some (base + stride) else none

/-! ## TLD, BLD, BST, ACCST (R273 to R276) -/

/-- TLD's posting. -/
def State.postTld (s : State) (d : BitVec 3) (a b : Reg) (tk : TokenReq) (t : Tag) (len : Nat) : State :=
  let base := s.x a
  let stride := s.x b
  if d.toNat ≥ s.own.hold.tiles then s.illegal
  else
    match rowsMisaligned base stride with
    | some va => s.misaligned va
    | none =>
      match s.rowPlaces .load false 48 (rowAddrs base stride) [] with
      | (s1, none) => s1
      | (s1, some (.error (code, sub, va))) => s1.raise code sub va
      | (s1, some (.ok rows)) => s1.postMatrix (.tld d base stride t) rows tk len

/-- BLD's posting. -/
def State.postBld (s : State) (d a : Reg) (tk : TokenReq) (t : Tag) (len : Nat) : State :=
  let n := s.x d
  let va := s.x a
  if va.toNat % 16 ≠ 0 then s.misaligned va
  else if !s.own.tileValid n then s.outOfRange (tileAddr n)
  else
    match s.rowPlaces .load false 128 ((upFrom 0 12).map fun i => va + BitVec.ofNat 64 (128 * i)) [] with
    | (s1, none) => s1
    | (s1, some (.error (code, sub, at_))) => s1.raise code sub at_
    | (s1, some (.ok rows)) => s1.postMatrix (.bld n.toNat va t) rows tk len

/-- BST's posting. -/
def State.postBst (s : State) (d : Reg) (a : BitVec 3) (tk : TokenReq) (len : Nat) : State :=
  let n := s.x d
  if a.toNat ≥ s.own.hold.tiles ∨ a.toNat % 2 = 1 ∨ a.toNat + 1 ≥ s.own.hold.tiles then s.illegal
  else if !s.own.tileValid n then s.outOfRange (tileAddr n)
  else s.postMatrix (.bst n.toNat a) [] tk len

/-- ACCST's posting. -/
def State.postAccst (s : State) (d : BitVec 2) (a b : Reg) (tk : TokenReq) (len : Nat) : State :=
  let base := s.x a
  let stride := s.x b
  if d.toNat ≥ s.own.hold.accs then s.illegal
  else
    match rowsMisaligned base stride with
    | some va => s.misaligned va
    | none =>
      match s.rowPlaces .store true 128 (rowAddrs base stride) [] with
      | (s1, some (.error (code, sub, va))) => s1.raise code sub va
      | (s1, _) => s1.postMatrix (.accst d base stride) [] tk len

/-- TLD (R273); its short form means e4m3. -/
def execTld (d : BitVec 3) (a b : Reg) (s : State) : Res := .next (s.postTld d a b TokenReq.idle .e4m3 4)
/-- TLD, with the extension word. -/
def execTldLong (d : BitVec 3) (a b : Reg) (tk : TokenReq) (ot : Tag) (s : State) : Res := .next (s.postTld d a b tk ot 8)
/-- BLD (R274); its short form means e4m3. -/
def execBld (d a : Reg) (s : State) : Res := .next (s.postBld d a TokenReq.idle .e4m3 4)
/-- BLD, with the extension word. -/
def execBldLong (d a : Reg) (tk : TokenReq) (ot : Tag) (s : State) : Res := .next (s.postBld d a tk ot 8)
/-- BST (R275). -/
def execBst (d : Reg) (a : BitVec 3) (s : State) : Res := .next (s.postBst d a TokenReq.idle 4)
/-- BST, with the extension word. -/
def execBstLong (d : Reg) (a : BitVec 3) (tk : TokenReq) (s : State) : Res := .next (s.postBst d a tk 8)
/-- ACCST (R276). -/
def execAccst (d : BitVec 2) (a b : Reg) (s : State) : Res := .next (s.postAccst d a b TokenReq.idle 4)
/-- ACCST, with the extension word. -/
def execAccstLong (d : BitVec 2) (a b : Reg) (tk : TokenReq) (s : State) : Res := .next (s.postAccst d a b tk 8)

/-! ## TMV, ACCMV, AZERO (R277 to R279) -/

/-- TMV's posting: the source's bits and tag are taken here. -/
def State.postTmv (s : State) (d : BitVec 3) (a : Reg) (tk : TokenReq) (len : Nat) : State :=
  let G := s.own
  if d.toNat ≥ G.hold.tiles ∨ !G.aligned a ∨ !G.boundOk [] (some a) then s.illegal
  else s.postMatrix (.tmv d (BitVec.ofNat 6144 (G.vbits a)) (G.tag a)) [] tk len

/-- TMV (R277). -/
def execTmv (d : BitVec 3) (a : Reg) (s : State) : Res := .next (s.postTmv d a TokenReq.idle 4)
/-- TMV, with the extension word. -/
def execTmvLong (d : BitVec 3) (a : Reg) (tk : TokenReq) (s : State) : Res := .next (s.postTmv d a tk 8)

/-- The tag that an entry gives an accumulator (R260). -/
def MatrixEntry.accTag (e : MatrixEntry) (n : Nat) : Option Tag :=
  match e.op with
  | .azero ad t => if ad.toNat = n ∨ (t = .f64 ∧ ad.toNat + 1 = n) then some t else none
  | .mul kind ad _ _ _ _ _ => if ad.toNat = n ∨ (kind = 3 ∧ ad.toNat + 1 = n) then some (resultTag kind) else none
  | _ => none

/-- The tag of an accumulator as a group's earlier entries leave it (R278). -/
def State.accTagAt (s : State) (g n : Nat) : Tag :=
  (s.entriesOf g).foldl (fun t e => (e.accTag n).getD t) ((((s.group g).adir)[n]?.map TileEntry.tag).getD .f32)

/-- The number of elements that ACCMV moves (R278). -/
def accElems (t : Tag) : Nat := if t = .f64 then 256 else 512

/-- ACCMV's posting: vd takes the tag here. -/
def State.postAccmv (s : State) (d : Reg) (a : BitVec 2) (t : Tag) (tk : TokenReq) (len : Nat) : State :=
  let G := s.own
  let src := s.accTagAt s.cur a.toNat
  if a.toNat ≥ G.hold.accs ∨ !G.aligned d ∨ !G.boundOk [] (some d) then s.illegal
  else if accElems src * tagWidth t > 8192 * G.lmul ∨ (t = .q32 ∧ src ≠ .s32) then s.illegal
  else if (s.cell (cellOf s.cur)).mq.length ≥ 64 then s.close
  else (s.putOwn (G.setTag d t)).postMatrix (.accmv d a t) [] tk len

/-- ACCMV (R278). -/
def execAccmv (d : Reg) (a : BitVec 2) (t : Tag) (s : State) : Res := .next (s.postAccmv d a t TokenReq.idle 4)
/-- ACCMV, with the extension word. -/
def execAccmvLong (d : Reg) (a : BitVec 2) (t : Tag) (tk : TokenReq) (s : State) : Res := .next (s.postAccmv d a t tk 8)

/-- AZERO's posting. -/
def State.postAzero (s : State) (d : BitVec 2) (t : Tag) (tk : TokenReq) (len : Nat) : State :=
  let n := s.own.hold.accs
  if d.toNat ≥ n then s.illegal
  else if t ≠ .f32 ∧ t ≠ .s32 ∧ t ≠ .f64 then s.illegal
  else if t = .f64 ∧ (d.toNat % 2 = 1 ∨ d.toNat + 1 ≥ n) then s.illegal
  else s.postMatrix (.azero d t) [] tk len

/-- AZERO (R279). -/
def execAzero (d : BitVec 2) (t : Tag) (s : State) : Res := .next (s.postAzero d t TokenReq.idle 4)
/-- AZERO, with the extension word. -/
def execAzeroLong (d : BitVec 2) (t : Tag) (tk : TokenReq) (s : State) : Res := .next (s.postAzero d t tk 8)

/-! ## MMA, MMAZ, MMAI, MMAS (R280) -/

/-- The operand tags that a multiply takes (R280). -/
def mulTagsOk (kind : BitVec 2) (a b : Tag) : Bool :=
  if kind = 2 then (a == .s8 || a == .n8) && (b == .s8 || b == .n8)
  else if kind = 3 then a == .f64 && b == .f64
  else ((a == .e4m3 || a == .e5m2) && (b == .e4m3 || b == .e5m2)) || (a == .e2m1 && b == .e2m1) || (a == .f16 && b == .f16) || (a == .bf16 && b == .bf16)

/-- A multiply's posting. -/
def State.postMul (s : State) (kind : BitVec 2) (d : BitVec 2) (a : BitVec 3) (b : Reg) (tk : TokenReq) (ta tb : Tag) (sct : Option (BitVec 3)) :
    State :=
  let H := s.own.hold
  let n := s.x b
  if d.toNat ≥ H.accs ∨ a.toNat ≥ H.tiles ∨ (sct.map fun t => decide (t.toNat ≥ H.tiles)) = some true then s.illegal
  else if !mulTagsOk kind ta tb ∨ (sct.isSome ∧ (kind = 2 ∨ kind = 3)) then s.illegal
  else if kind = 3 ∧ (d.toNat % 2 = 1 ∨ d.toNat + 1 ≥ H.accs) then s.illegal
  else if !s.own.tileValid n then s.outOfRange (tileAddr n)
  else s.postMatrix (.mul kind d a n.toNat ta tb sct) [] tk 8

/-- MMA (R280, R281). -/
def execMma (d : BitVec 2) (a : BitVec 3) (b : Reg) (tk : TokenReq) (atg btg : Tag) (sct : Option (BitVec 3)) (s : State) : Res :=
  .next (s.postMul 0 d a b tk atg btg sct)
/-- MMAZ (R280, R281). -/
def execMmaz (d : BitVec 2) (a : BitVec 3) (b : Reg) (tk : TokenReq) (atg btg : Tag) (sct : Option (BitVec 3)) (s : State) : Res :=
  .next (s.postMul 1 d a b tk atg btg sct)
/-- MMAI (R280, R281). -/
def execMmai (d : BitVec 2) (a : BitVec 3) (b : Reg) (tk : TokenReq) (atg btg : Tag) (sct : Option (BitVec 3)) (s : State) : Res :=
  .next (s.postMul 2 d a b tk atg btg sct)
/-- MMAS (R280, R281). -/
def execMmas (d : BitVec 2) (a : BitVec 3) (b : Reg) (tk : TokenReq) (atg btg : Tag) (sct : Option (BitVec 3)) (s : State) : Res :=
  .next (s.postMul 3 d a b tk atg btg sct)

/-! ## TCLASS and MSYNC (R258, R282, R283) -/

/-- The codes of CLASS (R258). -/
def TileClass.code : TileClass → Nat
  | .zero => 0 | .const => 1 | .ident => 2 | .general => 3

/-- An entry as TCLASS returns it (R258). -/
def TileEntry.word (e : TileEntry) : Word :=
  BitVec.ofNat 64 (e.cls.code + bitNat e.nf * 2 ^ 3 + bitNat e.poison * 2 ^ 8 + e.tag.code * 2 ^ 12 +
    (if e.cls = .const then e.cval.toNat * 2 ^ 32 else 0))

/-- Whether an entry writes a tile register. -/
def MatrixEntry.writesTile (e : MatrixEntry) (n : Nat) : Bool :=
  match e.op with
  | .tld td _ _ _ => decide (td.toNat = n)
  | .tmv td _ _ => decide (td.toNat = n)
  | _ => false

/-- The B-store tiles that a group's queued accesses write. -/
def State.tilesQueued (s : State) (g : Nat) : List Nat :=
  ((s.group g).slices.toList.map fun l => (l.map fun a =>
    match a.pa with
    | some rs => runTiles rs
    | none => runTiles (s.spotOf g a).2.runs).flatten).flatten

/-- TCLASS (R282). -/
def execTclass (d a : Reg) (s : State) : Res :=
  .next <|
    let x := s.x a
    let G := s.own
    let g := s.cur
    let n := bits x 0 16
    let none_ := s.close.done d (BitVec.allOnes 64) 4
    if bits x 18 46 ≠ 0 then none_
    else
      match bits x 16 2 with
      | 0 =>
        if n ≥ G.hold.tiles then none_
        else if (s.entriesOf g).any (fun e => e.writesTile n) then s.close
        else s.close.done d (((G.tdir[n]?).map TileEntry.word).getD 0) 4
      | 1 =>
        if n ≥ G.hold.accs then none_
        else if (s.entriesOf g).any (fun e => (e.accTag n).isSome) then s.close
        else s.close.done d (((G.adir[n]?).map TileEntry.word).getD 0) 4
      | 2 =>
        if !G.tileValid (BitVec.ofNat 64 n) then none_
        else
          let s1 := (s.close.drainAll g).flush g
          let keys := runTiles ((s1.tileRuns g n).getD [])
          if keys.any (fun k => (s1.tilesPending g).contains k || (s1.tilesQueued g).contains k) || !s1.own.async.isEmpty then s1
          else s1.done d (((keys.head?).map fun k => (s1.bdir.findD k (TileEntry.zero .e4m3)).word).getD 0) 4
      | _ => none_

/-- MSYNC (R283). -/
def execMsync (s : State) : Res := .next (if (s.entriesOf s.cur).isEmpty then s.close.retire 4 else s.close)

/-! ## Issue (R261, R263, R265 to R267, R270) -/

/-- A tile register's or accumulator's bits and entry. -/
def Group.tileBits (G : Group) (n : Nat) : Nat := ((G.t[n]?).map BitVec.toNat).getD 0
def Group.tileEntry (G : Group) (n : Nat) : TileEntry := (G.tdir[n]?).getD (TileEntry.zero .e4m3)
def Group.accBits (G : Group) (n : Nat) : Nat := ((G.a[n]?).map BitVec.toNat).getD 0
def Group.accEntry (G : Group) (n : Nat) : TileEntry := (G.adir[n]?).getD (TileEntry.zero .f32)

/-- A B operand read as one snapshot of bytes and entry (R261); a tile with a marked or uncorrectable word is a poisoned operand (R269,
R486). -/
def State.snapshot (s : State) (g n : Nat) : BitVec 12288 × TileEntry :=
  let runs := (s.tileRuns g n).getD []
  let key := (runTiles runs).head?
  let e := (key.map fun k => s.bdir.findD k (TileEntry.zero .e4m3)).getD (TileEntry.zero .e4m3)
  (BitVec.ofNat 12288 (natOfBytes (s.readRuns runs)), { e with poison := s.runsBad runs })

/-- The path of a multiply (R267): none is the full computation, otherwise the path clocks it takes. -/
def mulPath (G : Group) (kind : BitVec 2) (ad : BitVec 2) (td : BitVec 3) (ta tb : Tag) (sct : Option (BitVec 3)) (B : TileEntry) (chained : Bool) :
    Option Nat :=
  let A := G.tileEntry td.toNat
  let scaleOk := match sct with
    | some t => let S := G.tileEntry t.toNat; !S.nf && !S.poison
    | none => true
  let C := G.accEntry ad.toNat
  let C2 := if kind = 3 then G.accEntry (ad.toNat + 1) else C
  let accOk := kind = 1 || (C.tag == resultTag kind && !C.poison && C2.tag == resultTag kind && !C2.poison)
  let ok := !chained && !A.poison && !B.poison && A.tag == ta && B.tag == tb && scaleOk && accOk
  if !ok then none
  else if (A.cls = .zero ∧ !B.nf) ∨ (B.cls = .zero ∧ !A.nf) then some 0
  else if kind = 3 then none
  else if (B.cls = .ident ∧ !A.nf) ∨ (A.cls = .ident ∧ !B.nf) ∨ (B.cls = .const ∧ !A.nf) ∨ (A.cls = .const ∧ !B.nf) then some 1
  else none

/-- The array or path clocks of a multiply (R264, R265). -/
def mulClocks (kind : BitVec 2) (vcfg : Word) (path : Option Nat) (chained : Bool) : Nat :=
  match path with
  | some k => k
  | none => if chained then 4 else if kind = 3 then (keptPairs (bits vcfg 5 4) + 7) / 8 else 1

/-- The runs whose watermark an entry waits for (R312). -/
def State.entryRuns (s : State) (e : MatrixEntry) : List (Nat × Nat) :=
  match e.op with
  | .tld .. => (e.rows.map Prod.snd).flatten
  | .bld n _ _ => (e.rows.map Prod.snd).flatten ++ ((s.tileRuns e.group n).getD [])
  | .bst n _ => (s.tileRuns e.group n).getD []
  | .mul _ _ _ n _ _ _ => (s.tileRuns e.group n).getD []
  | .accst _ base stride => ((rowAddrs base stride).map fun va => (s.look e.group .store va.toNat 128 (engineId 0)).2.runs).flatten
  | _ => []

/-- Whether an access of a group is one that an entry, with its token's request and its place in program order, comes after: an earlier one, or
any that stands when the entry pops its token, since its producer's writes are among them (R316). -/
def precedes (tok : TokenReq) (seq n : Nat) : Bool := tok.pop.isSome || decide (n < seq)

/-- Whether an access of a group that stands before an entry is still queued, or on its way, in the queues that the entry reads through,
or in those that bear on its B-store tile (R261, R273, R316, R334). -/
def State.storesBefore (s : State) (e : MatrixEntry) : Bool :=
  let G := s.group e.group
  let older := fun (q : Nat) =>
    (G.slice q).any (fun a => precedes e.tok e.seq a.seq) ||
    G.sent.any fun w => w.held.isSome && precedes e.tok e.seq w.seq && sliceOf w.va.toNat == q
  if e.tok.pop.isSome then (upFrom 0 4).any older
  else
  match e.op with
  | .tld .. => e.slices.any older
  | .bld .. => (upFrom 0 4).any older
  | .mul .. => (upFrom 0 4).any older
  | .bst .. => (upFrom 0 4).any older
  | _ => false

/-! ### The scoreboard (R263)

What an entry reads and writes, as numbers: tile registers from 0, accumulators from 8, vector registers from 16, and 64 for memory
with the B-store. -/

/-- An accumulator pair of an f64 operation, or one accumulator. -/
def accPair (n : Nat) (both : Bool) : List Nat := if both then [8 + n, 9 + n] else [8 + n]

/-- What an entry reads. -/
def MatrixEntry.uses (e : MatrixEntry) : List Nat :=
  match e.op with
  | .tld .. => [64]
  | .bld .. => [64]
  | .bst _ ta => [ta.toNat, ta.toNat + 1]
  | .accst ad _ _ => [8 + ad.toNat]
  | .accmv _ aa _ => [8 + aa.toNat]
  | .mul kind ad td _ _ _ sct => td.toNat :: 64 :: (sct.toList.map BitVec.toNat ++ if kind = 1 then [] else accPair ad.toNat (decide (kind = 3)))
  | _ => []

/-- What an entry writes. -/
def MatrixEntry.makes (e : MatrixEntry) : List Nat :=
  match e.op with
  | .tld td _ _ _ => [td.toNat]
  | .tmv td _ _ => [td.toNat]
  | .accmv vd _ _ => upFrom (16 + vd.toNat) (2 ^ bits e.vcfg 0 2)
  | .azero ad t => accPair ad.toNat (decide (t = .f64))
  | .mul kind ad _ _ _ _ _ => accPair ad.toNat (decide (kind = 3))
  | _ => [64]

/-- Whether an entry depends on an earlier one, or would overwrite what that one reads. -/
def MatrixEntry.bearsOn (p e : MatrixEntry) : Bool :=
  p.makes.any (fun r => e.uses.contains r || e.makes.contains r) || p.uses.any fun r => e.makes.contains r

/-- Whether an entry's A tile is the destination of a TLD that is still landing (R265). -/
def MatrixEntry.chains (e p : MatrixEntry) : Bool :=
  match e.op, p.op with
  | .mul _ _ td _ _ _ _, .tld d _ _ _ => decide (td = d) && p.issued && !p.effected
  | _, _ => false

/-- Whether a context's engine entries may issue on a cell: the cell serves it, or it is Preempting and the cell drains (R84). -/
def State.mayIssue (s : State) (g : Nat) : Bool :=
  let S := s.slotSet (setOf g)
  s.serves (setOf g) (cellOf g) || (decide (S.st = .preempting) && !S.drained.contains (cellOf g))

/-- Whether an entry of the queue reads or writes memory as it issues or takes its effect. -/
def MatrixEntry.touchesMemory (e : MatrixEntry) : Bool := e.uses.contains 64 || e.makes.contains 64

/-- An entry issues when nothing holds it: the state with it issued. The older entries of its group have issued, those that bear on it
have taken their effects (R263), its group's earlier stores are performed and what its engines and channels have written (R261, R316). -/
def State.tryIssue (s : State) (c : Nat) (before : List MatrixEntry) (e : MatrixEntry) : Option State :=
  let g := e.group
  let mine := before.filter fun p => p.group == g
  let chained := mine.any e.chains
  if e.issued || !s.mayIssue g || !(mine.all fun p => p.issued && (p.effected || !p.bearsOn e || e.chains p)) then none
  else
    let s1 := (s.flush g).drainThose g fun _ a => precedes e.tok e.seq a.seq
    let pop := match e.tok.pop with | some f => decide ((s1.group g).fifos[f.toNat] = 0) | none => false
    if (!(s1.group g).async.isEmpty && (e.touchesMemory || e.tok.pop.isSome)) || s1.storesBefore e || pop || s1.behind g (s1.entryRuns e) then none
    else
      let G := (s1.group g).popToken e.tok.pop
      let e1 := match e.op with
        | .mul kind ad td n ta tb sct =>
          let sn := s1.snapshot g n
          { e with issued := true, chained := chained, snap := some sn, owed := mulClocks kind e.vcfg (mulPath G kind ad td ta tb sct sn.2 chained) chained }
        | _ => { e with issued := true }
      let C := s1.cell c
      some (((s1.putGroup g G).putCell c { C with mq := C.mq.map fun q => if q = e then e1 else q }).emitReads g (e.rows.map Prod.snd).flatten)

/-- The oldest entry that can proceed issues. -/
def State.issueFrom (s : State) (c : Nat) (before : List MatrixEntry) : List MatrixEntry → State
  | [] => s
  | e :: rest =>
    match s.tryIssue c before e with
    | some s1 => s1
    | none => State.issueFrom s c (before ++ [e]) rest

/-- MATRIX_ENTRY_ISSUE (R263). -/
def execMatrixEntryIssue (c : BitVec 9) (s : State) : Res := .next (s.issueFrom c.toNat [] (s.cell c.toNat).mq)

/-! ## Data of TLD and BLD (R265, R269, R273) -/

/-- A part of a line as the entry's group reads it: none while it is still to come, else nothing when a link has lost it, or its bytes
with the places among them that have bad data. -/
def State.readPart (s : State) (g : Nat) (far : FarData) (lost : Bool) (r : Nat × Nat) : Option (Option (List Byte × List Nat)) :=
  if s.unreachable g r.1 || (paFar r.1 && lost) then some none
  else if paFar r.1 then ((upFrom r.1 r.2).mapM (inboxByte far.cells)).map fun b => some (b, (upFrom r.1 r.2).filter far.poor.contains)
  else some (some (s.readAt r.1 r.2, if paHost r.1 then [] else (upFrom r.1 r.2).filter fun a => s.badData a 1))

/-- An entry with some parts of lines read. -/
def State.readParts (s : State) (far : FarData) (lost : Bool) : List (Nat × Nat) → MatrixEntry → Option MatrixEntry
  | [], e => some e
  | r :: rs, e =>
    match s.readPart e.group far lost r with
    | none => none
    | some none => State.readParts s far lost rs e
    | some (some p) => State.readParts s far lost rs { e with got := e.got ++ [(r.1, p.1)], poor := e.poor ++ p.2 }

/-- The parts of lines that make up a row, each with its address. -/
def rowParts (row : Word × List (Nat × Nat)) : List (Word × Nat × Nat) :=
  ((lineRuns row.2).foldl (fun (p : List (Word × Nat × Nat) × Nat) r => (p.1 ++ [(row.1 + BitVec.ofNat 64 p.2, r.1, r.2)], p.2 + r.2)) ([], 0)).1

/-- The bytes of a part of a line that an entry has read, 0 where a link has lost them. -/
def MatrixEntry.partBytes (e : MatrixEntry) (r : Nat × Nat) : List Byte :=
  ((e.got.find? fun c => c.1 == r.1 && c.2.length == r.2).map Prod.snd).getD (List.replicate r.2 0)

/-- What is wrong with a part of a line that an entry has read: the sub-code of R269 with the line. -/
def MatrixEntry.partBad (e : MatrixEntry) (p : Word × Nat × Nat) : Option (Nat × Word) :=
  if !(e.got.any fun c => c.1 == p.2.1 && c.2.length == p.2.2) then some (2, lineOf p.1)
  else if e.poor.any fun a => decide (p.2.1 ≤ a ∧ a < p.2.1 + p.2.2) then some (1, lineOf p.1)
  else none

/-- Some rows of an entry read: every line that they touch, for all rows of the entry at once, so that each is read once (R243); then the
rows' bytes and the first failure (R269). -/
def State.readRows (s : State) (e : MatrixEntry) (far : FarData) (lost : Bool) (rows : List (Word × List (Nat × Nat))) :
    Option (MatrixEntry × List Byte × Option (Nat × Word)) :=
  let ps := (rows.map rowParts).flatten
  let ls := ps.map fun p => p.2.1 / 128
  (s.readParts far lost (e.unread.filter fun r => ls.contains (r.1 / 128)) e).map fun e1 =>
    (e1, (ps.map fun p => e1.partBytes p.2).flatten, ps.findSome? e1.partBad)

/-- A tile register's bits replaced. -/
def Group.setTile (G : Group) (n b : Nat) : Group := { G with t := G.t.setIfInBounds n (BitVec.ofNat 6144 b) }

/-- A row-block of a TLD put into its tile register. -/
def Group.landRows (G : Group) (td : Nat) (r : Nat) (b : List Byte) : Group :=
  G.setTile td (elemPut (G.tileBits td) 1536 r (natOfBytes b))

/-! ## Retirement (R263, R266, R268, R269) -/

/-- Clocks spent against CAP and the context's LIM (R266): how many of `n` the window allows. -/
def State.spend (s : State) (c set n : Nat) : State × Nat :=
  let C := s.cell c
  let lim := (if set = 0 then C.limNow0 else C.limNow1).getD (((s.slotSet set).img.bind Image.lim).getD 256)
  let used := if set = 0 then C.spent0 else C.spent1
  let k := min n (min (C.capNow - C.spent) (lim - used))
  (s.putCell c (if set = 0 then { C with spent := C.spent + k, spent0 := used + k } else { C with spent := C.spent + k, spent1 := used + k }), k)

/-- An accumulator written whole and classified (R260, R281). -/
def Group.setAcc (G : Group) (n : Nat) (t : Tag) (b : Nat) : Group :=
  { G with a := G.a.setIfInBounds n (BitVec.ofNat 16384 b), adir := G.adir.setIfInBounds n (classify .acc t false b) }

/-- An accumulator's POISON set (R269). -/
def Group.poisonAcc (G : Group) (n : Nat) : Group := { G with adir := G.adir.setIfInBounds n { G.accEntry n with poison := true } }

/-- A tile register classified as a write left it (R260). -/
def Group.classTile (G : Group) (n : Nat) (t : Tag) (poison : Bool) : Group :=
  { G with tdir := G.tdir.setIfInBounds n (classify .reg t poison (G.tileBits n)) }

/-- An entry of a cell's queue replaced. -/
def State.putEntry (s : State) (c : Nat) (old new : MatrixEntry) : State :=
  s.putCell c { s.cell c with mq := (s.cell c).mq.map fun q => if q = old then new else q }

/-- MQFAULT of an entry with failed data (R269). -/
def State.mqFault (s : State) (g : Nat) (bad : Option (Nat × Word)) : State :=
  match bad with
  | some (sub, line) => s.deliver g 0x12 sub line
  | none => s

/-- The next row-block of a TLD, if its data have come; with the last one the register is classified and the entry has taken its effect
(R264, R273). -/
def State.landBlock (s : State) (c : Nat) (far : FarData) (lost : Bool) (e : MatrixEntry) : Option State :=
  match e.op with
  | .tld td _ _ t =>
    if !e.issued || e.effected then none
    else
      (s.readRows e far lost ((e.rows.drop (4 * e.landed)).take 4)).map fun r =>
        let last := decide (e.landed = 3)
        let bad := e.bad.or r.2.2
        let G := (s.group e.group).landRows td.toNat e.landed r.2.1
        let s1 := (s.putGroup e.group (if last then G.classTile td.toNat t bad.isSome else G)).putEntry c e
          { r.1 with landed := e.landed + 1, bad := bad, effected := last }
        if last then s1.mqFault e.group bad else s1
  | _ => none

/-- TLD_ROWBLOCK_LAND (R265): a row-block of the oldest TLD whose data have come; `far` is what another module has answered, `lost` that
a link lost it. -/
def execTldRowblockLand (c : BitVec 9) (far : FarData) (lost : Bool) (s : State) : Res :=
  .next (((s.cell c.toNat).mq.findSome? (s.landBlock c.toNat far lost)).getD s)

/-- The path that a multiply takes, as its counter shows it: elided, or full; none of another entry (R268). -/
def MatrixEntry.pathTaken (G : Group) (e : MatrixEntry) : Option Bool :=
  match e.op, e.snap with
  | .mul kind ad td _ ta tb sct, some sn => some (mulPath G kind ad td ta tb sct sn.2 e.chained).isSome
  | _, _ => none

/-- A multiply counted as it retires (R268, R284). -/
def Group.countPath (G : Group) (elided : Option Bool) : Group :=
  match elided with
  | some true => { G with melided := G.melided + 1 }
  | some false => { G with missued := G.missued + 1 }
  | none => G

/-- A multiply's effect with its flags (R66 to R69, R268, R269, R281). -/
def Group.multiply (G : Group) (e : MatrixEntry) (kind ad : BitVec 2) (td : BitVec 3) (ta tb : Tag) (sct : Option (BitVec 3))
    (sn : BitVec 12288 × TileEntry) : Group :=
  let n := ad.toNat
  let rm := bits e.vcfg 2 3
  let poison := (G.tileEntry td.toNat).poison || sn.2.poison || (match sct with | some t => (G.tileEntry t.toNat).poison | none => false) ||
    (decide (kind ≠ 1) && ((G.accEntry n).poison || (decide (kind = 3) && (G.accEntry (n + 1)).poison)))
  if poison then (if kind = 3 then (G.poisonAcc n).poisonAcc (n + 1) else G.poisonAcc n)
  else
    let a := G.tileBits td.toNat
    let b := sn.1.toNat
    let ts := sct.map fun t => G.tileBits t.toNat
    if kind = 3 then
      let slices := bits e.vcfg 5 4
      let lo := mapAcc64 (fun i j c => mmasAt rm slices a b c i j) 0 (G.accBits n)
      let hi := mapAcc64 (fun i j c => mmasAt rm slices a b c i j) 1 (G.accBits (n + 1))
      ((G.setAcc n .f64 lo.1).setAcc (n + 1) .f64 hi.1).accrueMatrix (lo.2 ||| hi.2)
    else if kind = 2 then
      G.setAcc n .s32 (mapAcc32 (fun i j c => (mmaiAt ta tb a b c i j, 0)) (G.accBits n)).1
    else
      let r := mapAcc32 (fun i j c => mmaAt ta tb rm a b ts (if kind = 1 then 0 else c) i j) (G.accBits n)
      (G.setAcc n .f32 r.1).accrueMatrix r.2

/-- ACCMV's elements (R278). -/
def Group.accMove (G : Group) (e : MatrixEntry) (vd : Reg) (n : Nat) (t : Tag) : Group :=
  let en := G.accEntry n
  if en.poison then G
  else
    let w := tagWidth en.tag
    let lm := 2 ^ bits e.vcfg 0 2
    let r := foldUp (accElems en.tag) (fun i (p : Nat × BitVec 6) =>
      let v := convert en.tag t (bits e.vcfg 2 3) (bitOf e.vcfg 9) e.xmod.toNat (elemOf (G.accBits n) w i)
      (elemPut p.1 (tagWidth t) i v.1, p.2 ||| v.2)) (groupBits G.v vd.toNat lm, 0)
    { G with v := putGroupBits G.v vd.toNat r.1 lm, mfl := G.mfl ||| r.2 }

/-- The asynchronous-path writes of an ACCST (R276, R269). -/
def Group.accRows (G : Group) (e : MatrixEntry) (n : Nat) (base stride : Word) : List AsyncWrite :=
  let en := G.accEntry n
  (upFrom 0 16).map fun i =>
    { place := .virt (base + BitVec.ofNat 64 i * stride), data := toBytes 128 (elemOf (G.accBits n) 1024 i), mark := en.poison, tag := some en.tag
      poison := none, pc := e.pc, row := i, strip := false
      coll := none }

/-- A write of a whole B-store tile handed to its group's asynchronous path: bytes and entry in one step (R260, R261, R331). -/
def State.tileWrite (s : State) (e : MatrixEntry) (n : Nat) (t : Tag) (poison : Bool) (b : List Byte) : State :=
  let G := s.group e.group
  s.putGroup e.group (G.sendWrites ((s.tileRuns e.group n).getD []) b { G.asyncWrite with tag := some t, poison := some poison, pc := e.pc })

/-- An entry's effect; none while its data are still to come. A TLD has taken its own when its last row-block landed. -/
def State.matrixEffect (s : State) (e : MatrixEntry) (far : FarData) (lost : Bool) : Option State :=
  let g := e.group
  let G := s.group g
  match e.op with
  | .tld .. => none
  | .bld n _ t => (s.readRows e far lost e.rows).map fun r => (s.tileWrite e n t r.2.2.isSome r.2.1).mqFault g r.2.2
  | .bst n ta =>
    let b := toBytes 768 (G.tileBits ta.toNat) ++ toBytes 768 (G.tileBits (ta.toNat + 1))
    some (s.tileWrite e n (G.tileEntry ta.toNat).tag ((G.tileEntry ta.toNat).poison || (G.tileEntry (ta.toNat + 1)).poison) b)
  | .accst ad base stride => some (s.putGroup g { G with async := G.async ++ G.accRows e ad.toNat base stride })
  | .tmv td b t => some (s.putGroup g ((G.setTile td.toNat b.toNat).classTile td.toNat t false))
  | .accmv vd aa t => some (s.putGroup g (G.accMove e vd aa.toNat t))
  | .azero ad t =>
    let G1 := G.setAcc ad.toNat t 0
    some (s.putGroup g (if t = .f64 then G1.setAcc (ad.toNat + 1) t 0 else G1))
  | .mul kind ad td _ ta tb sct => e.snap.map fun sn => s.putGroup g (G.multiply e kind ad td ta tb sct sn)

/-- Whether an entry's push finds room (R316). -/
def Group.pushRoom (G : Group) (f : Option (BitVec 4)) : Bool :=
  match f with
  | some k => decide (G.fifos[k.toNat] < 255)
  | none => true

/-- A push that has room. -/
def Group.pushOpt (G : Group) (f : Option (BitVec 4)) : Group :=
  match f with
  | some k => G.pushToken k
  | none => G

/-- An entry that has taken its effect retires, in posting order within its group, when its push has room; a multiply is counted then (R263,
R268, R316). -/
def State.leaveQueue (s : State) (c : Nat) (before : List MatrixEntry) (e : MatrixEntry) : Option State :=
  let g := e.group
  if before.any (fun p => p.group == g) || !(s.group g).pushRoom e.tok.push then none
  else
    let C := s.cell c
    some ((s.putCell c { C with mq := C.mq.erase e }).putGroup g (((s.group g).countPath e.elided).pushOpt e.tok.push))

/-- What an issued entry does next: it spends clocks, takes its effect once no older entry bears on it, and retires. -/
def State.tryRetire (s : State) (c : Nat) (before : List MatrixEntry) (e : MatrixEntry) (far : FarData) (lost : Bool) : Option State :=
  let mine := before.filter fun p => p.group == e.group
  if !e.issued then none
  else if e.effected then s.leaveQueue c before e
  else if e.owed > 0 then
    let r := s.spend c (setOf e.group) e.owed
    if r.2 = 0 then none else some (r.1.putEntry c e { e with owed := e.owed - r.2 })
  else if mine.any (fun p => !p.effected && p.bearsOn e) then none
  else
    (s.matrixEffect e far lost).map fun s1 =>
      let e1 := { e with effected := true, elided := e.pathTaken (s.group e.group) }
      let s2 := s1.putEntry c e e1
      (s2.leaveQueue c before e1).getD s2

/-- The oldest entry that can go on does. -/
def State.retireFrom (s : State) (c : Nat) (far : FarData) (lost : Bool) (before : List MatrixEntry) : List MatrixEntry → State
  | [] => s
  | e :: rest =>
    match s.tryRetire c before e far lost with
    | some s1 => s1
    | none => State.retireFrom s c far lost (before ++ [e]) rest

/-- MATRIX_ENTRY_RETIRE (R263): `far` is what another module answered for a BLD, `lost` that a link lost it. -/
def execMatrixEntryRetire (c : BitVec 9) (far : FarData) (lost : Bool) (s : State) : Res :=
  .next (s.retireFrom c.toNat far lost [] (s.cell c.toNat).mq)

/-- MATRIX_WINDOW (R266): CYCLE of the cell has passed a multiple of 256 since the window opened; the new one has CAP and LIM as they stand
now. -/
def execMatrixWindow (c : BitVec 9) (s : State) : Res :=
  .next <|
    let C := s.cell c.toNat
    let w := cellCycle c.toNat s.clock / 256
    if w ≤ C.window then s
    else s.putCell c.toNat { C with window := w, spent := 0, spent0 := 0, spent1 := 0, capNow := C.cap, limNow0 := C.lim0, limNow1 := C.lim1 }

end Sys2Proof.Machine
end

