-- ==== Sys2Proof/Machine/Engine.lean ====
section
/-!
DEFINITION. Sys2Proof/Machine/Engine.lean: the vector sequencer of a cell, which takes one beat in each clock, and the events of a group's
vector queue and slice queues (spec/04_context R84, R85, spec/07_group R134, spec/09_vector R193, R196, R197, spec/11_places R247, R250,
spec/14_stream R316, spec/16_order R331).
-/

namespace Sys2Proof.Machine

/-! ## Beats of a convoy (R193 to R195) -/

/-- A convoy's step k: the largest of its members', and at least 2 when both ALU pipes hold multiply-class members (R193). -/
def Convoy.step (c : Convoy) : Nat :=
  max (c.members.foldl (fun n m => max n m.time.k) 1) (if (c.members.filter fun m => m.time.mult).length ≥ 2 then 2 else 1)

/-- Whether two lists of registers share one. -/
def regsMeet (l m : List Nat) : Bool := l.any fun r => m.contains r

/-- The element groups that a member has before it since its convoy started or restarted. -/
def Member.todo (m : Member) : Nat := m.total - m.base

/-- The beat in which the whole result of a member is usable, with its offset (R193). -/
def Member.end_ (k : Nat) (p : Member × Nat) : Nat := if p.1.todo = 0 then 0 else p.2 + (p.1.todo - 1) * k + p.1.time.lam

/-- The earliest beat that an earlier member of the convoy, with its offset, leaves to a member (R195, R197, R215): in serial mode after its
completion; a reader of its result in its chain slot, or after its last result where the slot is missed; a writer of a register of it as soon as
no element is written before the earlier member has read or written it, and at its completion at the latest. -/
def Member.after (k : Nat) (m : Member) (p : Member × Nat) : Nat :=
  let q := p.1
  let last := Member.end_ k p
  let behind := p.2 + (q.todo - m.todo) * k + 1
  if m.serial then last
  else if q.todo = 0 then 0
  else if regsMeet m.reads q.writes then
    (if m.per = q.per ∧ m.time.waits = false ∧ q.time.gathers = false then p.2 + q.time.lam else last)
  else if regsMeet m.writes q.writes then min last (behind + q.time.lam - m.time.lam)
  else if regsMeet m.writes q.reads then (if q.time.waits then last else min last (behind - m.time.lam))
  else 0

/-- The members of a convoy with their offsets, each the smallest that every earlier member allows (R195). -/
def Convoy.offsets (c : Convoy) : List (Member × Nat) :=
  c.members.foldl (fun acc m => acc ++ [(m, acc.foldl (fun o p => max o (m.after c.step p)) m.floor)]) []

/-- The element groups that a member is to issue: all of them, or those below the boundary of a switch (R84). -/
def Convoy.goal (c : Convoy) (m : Member) : Nat :=
  match c.stop with
  | none => m.total
  | some e => min m.total ((e + m.per - 1) / m.per)

/-- A convoy's remaining count: the element groups that its least advanced member has still to issue (R134). -/
def Convoy.left (c : Convoy) : Nat := c.members.foldl (fun n m => max n (c.goal m - m.issued)) 0

/-- Whether a member, with its offset, issues an element group in the convoy's next beat (R193). -/
def Convoy.due (c : Convoy) (p : Member × Nat) : Bool :=
  decide (p.1.issued < c.goal p.1 ∧ p.2 ≤ c.beats ∧ (c.beats - p.2) % c.step = 0)

/-- A member after a beat: its next element group has issued, or its last result has come a beat nearer (R193). -/
def Convoy.advance (c : Convoy) (p : Member × Nat) : Member :=
  if c.due p then { p.1 with issued := p.1.issued + 1, lag := p.1.time.lam - 1 } else { p.1 with lag := p.1.lag - 1 }

/-- A convoy after a beat. -/
def Convoy.beat (c : Convoy) : Convoy := { c with members := c.offsets.map c.advance, beats := c.beats + 1 }

/-- Whether a convoy has begun or may: it is ended, a later instruction fails, or a member of it runs in serial mode (R191, R192, R197,
R231). -/
def Convoy.eligible (c : Convoy) : Bool := c.ended || c.torn || c.members.any fun m => m.serial && !m.complete

/-- A convoy that a switch has stopped starts again: its members go on at the boundary, with offsets of their own (R85). -/
def Convoy.resumed (c : Convoy) : Convoy :=
  if c.stop.isSome then
    { c with stop := none, beats := 0, members := c.members.map fun m => { m with base := m.issued, floor := 0 } }
  else c

/-- A group's first convoy replaced. -/
def Group.putHead (G : Group) (c : Convoy) : Group := { G with convoys := c :: G.convoys.tail }

/-- A group's first convoy replaced by one that has taken no beat, so that the boundary of a switch stays. -/
def Group.keepHead (G : Group) (c : Convoy) : Group := G.putHead { c with stop := G.convoys.head?.bind Convoy.stop }

/-! ## Element groups of stores (R250) -/

/-- The accesses of a slice queue that it has accepted. -/
def Group.accepted (G : Group) (q : Nat) : Nat := ((G.slice q).filter fun a => !G.unissued a).length

/-- The accesses of a member's next element group that a slice queue has not accepted. -/
def Group.pending (G : Group) (m : Member) (q : Nat) : List Access :=
  (G.slice q).filter fun a =>
    decide (m.lo ≤ a.seq ∧ a.seq < m.hi ∧ a.elem < (m.issued + 1) * m.unit) && G.unissued a

/-- A member of stores whose slice queues have accepted what one clock lets in: up to 16 accesses each, while they hold fewer than 64. -/
def Group.fed (G : Group) (m : Member) : Member :=
  { m with fed := (upFrom 0 4).map fun q =>
      match ((G.pending m q).take (min 16 (64 - G.accepted q))).getLast? with
      | some a => a.seq + 1
      | none => m.fed[q]?.getD 0 }

/-- A convoy whose stores due in the next beat have entered their slice queues as far as these take them. -/
def Group.feed (G : Group) (c : Convoy) : Convoy :=
  { c with members := c.offsets.map fun p => if c.due p && decide (p.1.pipe = .st) then G.fed p.1 else p.1 }

/-- Whether every member due in the next beat can proceed: the slice queues have accepted its stores (R193, R250). -/
def Group.takesBeat (G : Group) (c : Convoy) : Bool :=
  c.offsets.all fun p => !(c.due p && decide (p.1.pipe = .st)) || (upFrom 0 4).all fun q => (G.pending p.1 q).isEmpty

/-! ## The vector sequencer (R134) -/

/-- The convoy of a group that the sequencer may serve: the first of its queue, eligible, with an element group left (R134, R192, R197). While
a switch drains the cell only a convoy with a boundary moves (R84), and a later one is past it. -/
def Group.headConvoy (G : Group) (draining : Bool) : Option Convoy :=
  match G.convoys with
  | c0 :: _ =>
    let c := if draining then c0 else c0.resumed
    if c.eligible && decide (c.left > 0) && (!draining || c.stop.isSome) then some c else none
  | [] => none

/-- That convoy where it can take its next beat. -/
def Group.readyConvoy (G : Group) (draining : Bool) : Option Convoy := (G.headConvoy draining).filter G.takesBeat

/-- The slot set whose convoys a cell serves, and whether a switch drains it (R84, R134). -/
def State.vectorSet (s : State) (c : Nat) : Option (Nat × Bool) :=
  match [0, 1].find? fun t => decide ((s.slotSet t).st = .preempting) && !(s.slotSet t).drained.contains c with
  | some t => some (t, true)
  | none => ([0, 1].find? fun t => s.serves t c).map fun t => (t, false)

/-- The convoys of a cell that are ready, by group, in ascending slot. -/
def State.readyConvoys (s : State) (c : Nat) : List (Nat × Convoy) :=
  match s.vectorSet c with
  | none => []
  | some (t, draining) =>
    ((upFrom 0 4).map fun k => groupCode c t k).filterMap fun g => ((s.group g).readyConvoy draining).map fun x => (g, x)

/-- The least element of a list by a measure, the first among equals. -/
def leastBy (f : Nat × Convoy → Nat) : List (Nat × Convoy) → Option (Nat × Convoy)
  | [] => none
  | x :: xs =>
    match leastBy f xs with
    | some y => if f y < f x then some y else some x
    | none => some x

/-- The convoy that the sequencer serves: among aged ones the one aged first, else the one with the smallest remaining count; ties go to the
lowest slot (R134). -/
def chooseConvoy (l : List (Nat × Convoy)) : Option (Nat × Convoy) :=
  (leastBy (fun x => x.2.aged.getD 0) (l.filter fun x => x.2.aged.isSome)).or (leastBy (fun x => x.2.left) l)

/-- A convoy after a beat of its own: its bypass count returns to 0 when its last element group has issued (R134). -/
def Convoy.served (c : Convoy) (draining : Bool) : Convoy :=
  let c1 := c.beat
  if c1.left = 0 ∧ draining = false then { c1 with bypass := 0, aged := none } else c1

/-- A ready convoy that another one has bypassed (R134). -/
def Convoy.bypassed (c : Convoy) (now : Nat) : Convoy :=
  { c with bypass := c.bypass + 1, aged := if c.aged.isNone ∧ c.bypass + 1 ≥ 32 then some now else c.aged }

/-- Whether a group's first convoy stands at the boundary of a switch. -/
def Group.stopped (G : Group) : Bool :=
  match G.convoys with
  | c :: _ => c.stop.isSome
  | [] => false

/-- The stores of a cell's next element groups brought into their slice queues, as far as one clock takes them (R250). -/
def State.feedCell (s : State) (c : Nat) : State :=
  match s.vectorSet c with
  | none => s
  | some (t, draining) =>
    ((upFrom 0 4).map fun k => groupCode c t k).foldl (fun st g =>
      let G := st.group g
      match G.headConvoy draining with
      | some x => if G.takesBeat x then st else st.putGroup g (G.keepHead (G.feed x))
      | none => st) s

/-- Whether a group's first convoy has issued all its element groups and results of it are still on their way. -/
def Group.settling (G : Group) : Bool :=
  match G.convoys with
  | c :: _ => decide (c.left = 0) && c.members.any fun m => decide (0 < m.lag)
  | [] => false

/-- Such a convoy comes a clock nearer to its last results, without a beat (R193). -/
def Group.settleResults (G : Group) : Group :=
  match G.convoys with
  | c :: _ => if G.settling then G.putHead c.beat else G
  | [] => G

/-- One clock of a cell's sequencer. The first beat after a switch clears VRESUME (R85). -/
def State.serveCell (s : State) (c : Nat) : State :=
  let s0 := s.feedCell c
  let l := s0.readyConvoys c
  let rest := fun (st : State) (g : Nat) =>
    { st with groups := st.groups.map fun (e : Nat × Group) => if cellOf e.1 = c ∧ e.1 ≠ g then (e.1, e.2.settleResults) else e }
  match chooseConvoy l with
  | none => rest s0 4096
  | some (g, x) =>
    let draining := ((s0.vectorSet c).map Prod.snd).getD false
    let G := s0.group g
    let s1 := rest (s0.putGroup g { G.putHead (x.served draining) with vresume := if G.stopped && !draining then 0 else G.vresume }) g
    if x.offsets.any x.due then
      (l.filter fun y => y.1 != g).foldl (fun st y => st.putGroup y.1 ((st.group y.1).keepHead (y.2.bypassed s.clock))) s1
    else s1

/-- The cells that hold a convoy. -/
def State.vectorCells (s : State) : List Nat := ((s.groups.filter fun e => !e.2.convoys.isEmpty).map fun e => cellOf e.1).foldl setAdd []

/-- Whether a clock changes something in a cell's vector queues: a convoy is ready, or stores can enter their queues, or results are on their way. -/
def State.vectorMoves (s : State) (c : Nat) : Bool :=
  let draining := ((s.vectorSet c).map Prod.snd).getD false
  s.groups.any fun e => decide (cellOf e.1 = c) && (e.2.settling ||
    (decide ((s.vectorSet c).map Prod.fst = some (setOf e.1)) && match e.2.headConvoy draining with
     | some x => e.2.takesBeat x || decide (e.2.feed x ≠ x)
     | none => false))

/-- Clocks of the vector sequencers of all cells; they end early when no convoy can move. -/
def State.serveVectors : Nat → State → State
  | 0, s => s
  | n + 1, s =>
    let cells := s.vectorCells.filter s.vectorMoves
    if cells.isEmpty then { s with clock := s.clock + (n + 1) }
    else State.serveVectors n (cells.foldl State.serveCell { s with clock := s.clock + 1 })

/-! ## The end of a convoy (R196, R316) -/

/-- The pushes of completed members that find room made: a member's last result is written, or the last element group of its stores accepted
(R316). -/
def payPushes : List Member → Group → Group × List Member
  | [], G => (G, [])
  | m :: ms, G =>
    if m.complete && G.pushRoom m.push then
      let r := payPushes ms (G.pushOpt m.push)
      (r.1, { m with push := none } :: r.2)
    else
      let r := payPushes ms G
      (r.1, m :: r.2)

/-- CONVOY_DRAIN (R196, R250): the completed members of a group's first convoy push their tokens as their FIFOs have room; the convoy leaves
the vector queue once it is ended, all its members are complete and every token is pushed. R196's drain names no push: that a convoy whose
push waits keeps the next one back is a DESIGN CHOICE (notes/assumptions/80). -/
def execConvoyDrain (g : BitVec 12) (s : State) : Res :=
  .next <|
    let g := g.toNat
    let G := s.group g
    match G.convoys with
    | [] => s
    | c :: rest =>
      if !s.mayIssue g then s
      else
        let r := payPushes c.members G
        s.putGroup g { r.1 with
          convoys := if c.ended && r.2.all (fun m => m.complete && m.push.isNone) then rest else { c with members := r.2 } :: rest }

/-- The access at the head of a slice queue. -/
def State.headOf (s : State) (g q : Nat) : Option Access := ((s.group g).slice q).head?

/-- STORE_PERFORM (R331): the head of slice queue 0 to 3, or the oldest asynchronous-path write (4). -/
def execStorePerform (g : BitVec 12) (q : BitVec 3) (s : State) : Res :=
  .next <|
    let g := g.toNat
    if q.toNat = 4 then s.performAsync g
    else
      match s.headOf g q.toNat with
      | some a => if a.isAtomic then s else s.performHead g q.toNat
      | none => s

/-- SCATTER_ADD_UPDATE (R247): an element of VSTXA at the head of a slice queue. -/
def execScatterAddUpdate (g : BitVec 12) (q : BitVec 2) (s : State) : Res :=
  .next <|
    let g := g.toNat
    match s.headOf g q.toNat with
    | some a => if a.isAtomic then s.performHead g q.toNat else s
    | none => s

end Sys2Proof.Machine
end

