-- ==== Sys2Proof/Machine/Operands.lean ====
section
/-!
DEFINITION. Sys2Proof/Machine/Operands.lean: the scalar and vector registers that an instruction names, which the
interlocks of R190, R263 and R487 compare, and the instructions that may pass a load whose data are to come.
-/

namespace Sys2Proof.Machine

/-- The x registers that an instruction reads or writes (R145, R190). -/
def xUses : Instr → List Reg
  | .add d a b => [d, a, b]
  | .sub d a b => [d, a, b]
  | .and d a b => [d, a, b]
  | .or d a b => [d, a, b]
  | .xor d a b => [d, a, b]
  | .shl d a b => [d, a, b]
  | .shr d a b => [d, a, b]
  | .shra d a b => [d, a, b]
  | .mul d a b => [d, a, b]
  | .mulh d a b => [d, a, b]
  | .mulhn d a b => [d, a, b]
  | .div d a b => [d, a, b]
  | .divn d a b => [d, a, b]
  | .rem d a b => [d, a, b]
  | .remn d a b => [d, a, b]
  | .rol d a b => [d, a, b]
  | .clz d a => [d, a]
  | .ctz d a => [d, a]
  | .popc d a => [d, a]
  | .min d a b => [d, a, b]
  | .max d a b => [d, a, b]
  | .minn d a b => [d, a, b]
  | .maxn d a b => [d, a, b]
  | .slt d a b => [d, a, b]
  | .sltn d a b => [d, a, b]
  | .sel d a b => [d, a, b]
  | .addi d a _ => [d, a]
  | .addiLong d a _ => [d, a]
  | .andi d a _ => [d, a]
  | .andiLong d a _ => [d, a]
  | .ori d a _ => [d, a]
  | .oriLong d a _ => [d, a]
  | .xori d a _ => [d, a]
  | .xoriLong d a _ => [d, a]
  | .slti d a _ => [d, a]
  | .sltiLong d a _ => [d, a]
  | .shli d a _ => [d, a]
  | .shri d a _ => [d, a]
  | .shrai d a _ => [d, a]
  | .ldi d _ => [d]
  | .ldiLong d _ => [d]
  | .ldih d _ => [d]
  | .addpc d _ => [d]
  | .addpcLong d _ => [d]
  | .ld _ d a _ => [d, a]
  | .ldLong _ d a _ => [d, a]
  | .st _ d a _ => [d, a]
  | .stLong _ d a _ => [d, a]
  | .beq d a _ => [d, a]
  | .beqLong d a _ => [d, a]
  | .bne d a _ => [d, a]
  | .bneLong d a _ => [d, a]
  | .blt d a _ => [d, a]
  | .bltLong d a _ => [d, a]
  | .bge d a _ => [d, a]
  | .bgeLong d a _ => [d, a]
  | .bltn d a _ => [d, a]
  | .bltnLong d a _ => [d, a]
  | .bgen d a _ => [d, a]
  | .bgenLong d a _ => [d, a]
  | .jal d _ => [d]
  | .jalLong d _ => [d]
  | .jalr d a _ => [d, a]
  | .jalrLong d a _ => [d, a]
  | .loop d _ => [d]
  | .loopLong d _ => [d]
  | .fadd _ d a b => [d, a, b]
  | .fsub _ d a b => [d, a, b]
  | .fmul _ d a b => [d, a, b]
  | .fdiv _ d a b => [d, a, b]
  | .fsqrt _ d a => [d, a]
  | .fmin _ d a b => [d, a, b]
  | .fmax _ d a b => [d, a, b]
  | .ffma _ d a b => [d, a, b]
  | .fcmp _ _ d a b => [d, a, b]
  | .fcvt d a _ => [d, a]
  | .csrr d _ => [d]
  | .csrw d a _ => [d, a]
  | .csrs d a _ => [d, a]
  | .csrc d a _ => [d, a]
  | .amoadd d a b => [d, a, b]
  | .amomin _ d a b => [d, a, b]
  | .amomax _ d a b => [d, a, b]
  | .amoand d a b => [d, a, b]
  | .amoor d a b => [d, a, b]
  | .amoxor d a b => [d, a, b]
  | .amoswap d a b => [d, a, b]
  | .amocas d a b => [d, a, b]
  | .vsetl d a _ => [d, a]
  | .vcfg d a b => [d, a, b]
  | .vmv .. => []
  | .vmvLong .. => []
  | .vmvx _ _ _ _ a => [a]
  | .vmvxLong _ _ _ _ a _ => [a]
  | .vxmv _ _ d _ b => [d, b]
  | .vxmvLong _ _ d _ b _ => [d, b]
  | .vid .. => []
  | .vidLong .. => []
  | .vtag .. => []
  | .vtagLong .. => []
  | .vmerge .. => []
  | .vmergeLong .. => []
  | .vadd .. => []
  | .vaddLong .. => []
  | .vsub .. => []
  | .vsubLong .. => []
  | .vmul .. => []
  | .vmulLong .. => []
  | .vmulh .. => []
  | .vmulhLong .. => []
  | .vmin .. => []
  | .vminLong .. => []
  | .vmax .. => []
  | .vmaxLong .. => []
  | .vabs .. => []
  | .vabsLong .. => []
  | .vneg .. => []
  | .vnegLong .. => []
  | .vfma .. => []
  | .vfmaLong .. => []
  | .vfms .. => []
  | .vfmsLong .. => []
  | .vnfma .. => []
  | .vnfmaLong .. => []
  | .vdiv .. => []
  | .vdivLong .. => []
  | .vrem .. => []
  | .vremLong .. => []
  | .vsqrt .. => []
  | .vsqrtLong .. => []
  | .vscale .. => []
  | .vscaleLong .. => []
  | .vand .. => []
  | .vandLong .. => []
  | .vor .. => []
  | .vorLong .. => []
  | .vxor .. => []
  | .vxorLong .. => []
  | .vnot .. => []
  | .vnotLong .. => []
  | .vclz .. => []
  | .vclzLong .. => []
  | .vpopc .. => []
  | .vpopcLong .. => []
  | .vadc .. => []
  | .vadcLong .. => []
  | .vsbc .. => []
  | .vsbcLong .. => []
  | .vshl .. => []
  | .vshlLong .. => []
  | .vshr .. => []
  | .vshrLong .. => []
  | .vshra .. => []
  | .vshraLong .. => []
  | .vrol .. => []
  | .vrolLong .. => []
  | .vfshl .. => []
  | .vfshlLong .. => []
  | .vfshr .. => []
  | .vfshrLong .. => []
  | .vcmp .. => []
  | .vcmpLong .. => []
  | .vcvt .. => []
  | .vcvtLong .. => []
  | .vrcp .. => []
  | .vrcpLong .. => []
  | .vrsqrt .. => []
  | .vrsqrtLong .. => []
  | .vexp2 .. => []
  | .vexp2Long .. => []
  | .vlog2 .. => []
  | .vlog2Long .. => []
  | .vexp .. => []
  | .vexpLong .. => []
  | .vlog .. => []
  | .vlogLong .. => []
  | .vtanh .. => []
  | .vtanhLong .. => []
  | .mand .. => []
  | .mandLong .. => []
  | .mor .. => []
  | .morLong .. => []
  | .mxor .. => []
  | .mxorLong .. => []
  | .mnot .. => []
  | .mnotLong .. => []
  | .mcnt _ _ d _ => [d]
  | .mcntLong _ _ d _ _ => [d]
  | .mfirst _ _ d _ => [d]
  | .mfirstLong _ _ d _ _ => [d]
  | .mshl _ _ _ _ b => [b]
  | .mshlLong _ _ _ _ b _ => [b]
  | .vred .. => []
  | .vredLong .. => []
  | .vscan .. => []
  | .vscanLong .. => []
  | .vscanSeg .. => []
  | .vscanSegLong .. => []
  | .vprefixpop .. => []
  | .vprefixpopLong .. => []
  | .vconflict .. => []
  | .vconflictLong .. => []
  | .vcompress .. => []
  | .vcompressLong .. => []
  | .vexpand .. => []
  | .vexpandLong .. => []
  | .vperm .. => []
  | .vpermLong .. => []
  | .vslideup _ _ _ _ b => [b]
  | .vslideupLong _ _ _ _ b _ => [b]
  | .vslidedn _ _ _ _ b => [b]
  | .vslidednLong _ _ _ _ b _ => [b]
  | .vzip .. => []
  | .vzipLong .. => []
  | .vunzip _ _ _ _ b => [b]
  | .vunzipLong _ _ _ _ b _ => [b]
  | .vtopk _ _ _ _ b => [b]
  | .vtopkLong _ _ _ _ b _ => [b]
  | .visect .. => []
  | .visectLong .. => []
  | .vunion .. => []
  | .vunionLong .. => []
  | .vmrg .. => []
  | .vmrgLong .. => []
  | .vld _ _ _ a => [a]
  | .vldLong _ _ _ a _ _ _ _ => [a]
  | .vlds _ _ _ a b => [a, b]
  | .vldsLong _ _ _ a b _ _ _ _ => [a, b]
  | .vldx _ _ _ a _ => [a]
  | .vldxLong _ _ _ a _ _ _ _ _ => [a]
  | .pfetch _ a b => [a, b]
  | .pfetchLong _ a b _ => [a, b]
  | .vst _ _ _ a => [a]
  | .vstLong _ _ _ a _ => [a]
  | .collectiveContribution _ _ a => [a]
  | .vsts _ _ _ a b => [a, b]
  | .vstsLong _ _ _ a b _ => [a, b]
  | .vstx _ _ _ a _ => [a]
  | .vstxLong _ _ _ a _ _ => [a]
  | .vstxaAdd _ _ _ a _ => [a]
  | .vstxaAddLong _ _ _ a _ _ => [a]
  | .vstb _ _ _ a => [a]
  | .vstbLong _ _ _ a _ => [a]
  | .vstxaMin _ _ _ a _ => [a]
  | .vstxaMinLong _ _ _ a _ _ => [a]
  | .vstxaMax _ _ _ a _ => [a]
  | .vstxaMaxLong _ _ _ a _ _ => [a]
  | .tld _ a b => [a, b]
  | .tldLong _ a b _ _ => [a, b]
  | .bld d a => [d, a]
  | .bldLong d a _ _ => [d, a]
  | .bst d _ => [d]
  | .bstLong d _ _ => [d]
  | .accst _ a b => [a, b]
  | .accstLong _ a b _ => [a, b]
  | .tmv .. => []
  | .tmvLong .. => []
  | .accmv .. => []
  | .accmvLong .. => []
  | .azero .. => []
  | .azeroLong .. => []
  | .tclass d a => [d, a]
  | .msync => []
  | .mma _ _ b _ _ _ _ => [b]
  | .mmaz _ _ b _ _ _ _ => [b]
  | .mmai _ _ b _ _ _ _ => [b]
  | .mmas _ _ b _ _ _ _ => [b]
  | .xcfg d a b => [d, a, b]
  | .xtwid d a b _ => [d, a, b]
  | .xstage d a b _ _ _ _ _ _ => [d, a, b]
  | .xperm d a _ _ _ => [d, a]
  | .xpoint d a b _ _ _ => [d, a, b]
  | .xnorm d a _ _ => [d, a]
  | .xmodchk d a => [d, a]
  | .xsync => []
  | .sbind _ a b _ _ => [a, b]
  | .sunbind .. => []
  | .scopy d a b _ _ _ _ _ => [d, a, b]
  | .swmark d a _ => [d, a]
  | .swait d a _ => [d, a]
  | .tkpush .. => []
  | .tkpop .. => []
  | .barinit d a b => [d, a, b]
  | .bararr d a => [d, a]
  | .barwait d a b => [d, a, b]
  | .bar d a => [d, a]
  | .barfree a => [a]
  | .fence .. => []
  | .cpfence => []
  | .vsync => []
  | .lda d a _ => [d, a]
  | .strl d a _ => [d, a]
  | .mcst _ a b _ => [a, b]
  | .tickget d a b => [d, a, b]
  | .tickwait a => [a]
  | .tickdone a => [a]
  | .mpost d a _ => [d, a]
  | .msend d a b tr => [d, a, b, tr]
  | .mwait d a => [d, a]
  | .mprobe d a => [d, a]
  | .mcancel d a => [d, a]
  | .mdrip d a => [d, a]
  | .kvsub d a _ _ => [d, a]
  | .kvunsub d a => [d, a]
  | .kvpass d a b => [d, a, b]
  | .kvrecv d => [d]
  | .kvpart d _ b lr => [d, b, lr]
  | .kvdone d a => [d, a]
  | .kvstat d a => [d, a]
  | .trap a => [a]
  | .rte => []
  | .halt => []
  | .wfe a b => [a, b]
  | .ctxyield d => [d]
  | .ctxsave d => [d]
  | .ctxload d a => [d, a]
  | .qwait d a => [d, a]
  | .qprio d a b => [d, a, b]
  | .htokwait d a => [d, a]
  | .htokraise a b => [a, b]
  | .klaunch d a => [d, a]
  | .kend => []
  | .kstat d a => [d, a]
  | .gterm => []
  | .gyield => []
  | .sdrain => []
  | .sfrpop d => [d, d + 1, d + 2, d + 3]
  | .tlbinv a b => [a, b]
  | .pgprobe d a b => [d, a, b]
  | .asyncTrapDelivery .. => []
  | .pageStoreDelivery .. => []
  | .watchdog .. => []
  | .waitWake .. => []
  | .gyieldRelease .. => []
  | .cellDrainComplete .. => []
  | .contextLoadComplete .. => []
  | .contextSaveComplete .. => []
  | .slotStateUncorr .. => []
  | .placementDecision => []
  | .kernelLaunchable .. => []
  | .convoyDrain .. => []
  | .loadDataReturn .. => []
  | .storePerform .. => []
  | .scatterAddUpdate .. => []
  | .pageWalkComplete .. => []
  | .xlateDeadline .. => []
  | .matrixEntryIssue .. => []
  | .tldRowblockLand .. => []
  | .matrixEntryRetire .. => []
  | .matrixWindow .. => []
  | .transformEntryStart .. => []
  | .transformEntryRetire .. => []
  | .streamFetchArrival .. => []
  | .stripCommit .. => []
  | .barrierRequestArrival .. => []
  | .kvFetchStart .. => []
  | .kvPageMulticast .. => []
  | .kvCatchupStart .. => []
  | .remoteRequestArrival .. => []
  | .remoteReplyArrival .. => []
  | .remoteDeadline .. => []
  | .flitReplay .. => []
  | .linkCrcFail .. => []
  | .linkTrainingDone .. => []
  | .linkRetrainDone .. => []
  | .collectiveUnitAccept .. => []
  | .collectiveResultDelivery .. => []
  | .messageArrival .. => []
  | .messageLandingComplete .. => []
  | .retryTicketCall .. => []
  | .spillDeadline .. => []
  | .hostWrite .. => []
  | .hostRead .. => []
  | .ingressDoorbell .. => []
  | .egressRead .. => []
  | .hostRegisterWrite .. => []
  | .eventRingWrite => []
  | .cmdLoad => []
  | .cmdLoadsaved => []
  | .cmdSave => []
  | .cmdStop => []
  | .cmdFault => []
  | .cmdRelease => []
  | .cmdSwitch => []
  | .cmdResume => []
  | .cmdTerminate => []
  | .cmdSetplim => []
  | .cmdTrainlink .. => []
  | .cmdTrainhbm .. => []
  | .cmdXlate => []
  | .cmdSpillret => []
  | .cmdAttest .. => []
  | .cmdQuery => []
  | .powerInterval .. => []
  | .hotDie .. => []
  | .thermalTrip .. => []
  | .moduleReset .. => []
  | .firmwareVerify .. => []
  | .hbmRetrain .. => []
  | .powerOff => []
  | .firmwareFailure => []
  | .codeUnassigned => []
  | .mbgoWhileBusy => []
  | .atsTranslationCompletion .. => []
  | .priPageRequestResponse .. => []

/-- The vector groups that an instruction reads or writes, by their first register (R178, R263). -/
def vUses : Instr → List Reg
  | .add .. => []
  | .sub .. => []
  | .and .. => []
  | .or .. => []
  | .xor .. => []
  | .shl .. => []
  | .shr .. => []
  | .shra .. => []
  | .mul .. => []
  | .mulh .. => []
  | .mulhn .. => []
  | .div .. => []
  | .divn .. => []
  | .rem .. => []
  | .remn .. => []
  | .rol .. => []
  | .clz .. => []
  | .ctz .. => []
  | .popc .. => []
  | .min .. => []
  | .max .. => []
  | .minn .. => []
  | .maxn .. => []
  | .slt .. => []
  | .sltn .. => []
  | .sel .. => []
  | .addi .. => []
  | .addiLong .. => []
  | .andi .. => []
  | .andiLong .. => []
  | .ori .. => []
  | .oriLong .. => []
  | .xori .. => []
  | .xoriLong .. => []
  | .slti .. => []
  | .sltiLong .. => []
  | .shli .. => []
  | .shri .. => []
  | .shrai .. => []
  | .ldi .. => []
  | .ldiLong .. => []
  | .ldih .. => []
  | .addpc .. => []
  | .addpcLong .. => []
  | .ld .. => []
  | .ldLong .. => []
  | .st .. => []
  | .stLong .. => []
  | .beq .. => []
  | .beqLong .. => []
  | .bne .. => []
  | .bneLong .. => []
  | .blt .. => []
  | .bltLong .. => []
  | .bge .. => []
  | .bgeLong .. => []
  | .bltn .. => []
  | .bltnLong .. => []
  | .bgen .. => []
  | .bgenLong .. => []
  | .jal .. => []
  | .jalLong .. => []
  | .jalr .. => []
  | .jalrLong .. => []
  | .loop .. => []
  | .loopLong .. => []
  | .fadd .. => []
  | .fsub .. => []
  | .fmul .. => []
  | .fdiv .. => []
  | .fsqrt .. => []
  | .fmin .. => []
  | .fmax .. => []
  | .ffma .. => []
  | .fcmp .. => []
  | .fcvt .. => []
  | .csrr .. => []
  | .csrw .. => []
  | .csrs .. => []
  | .csrc .. => []
  | .amoadd .. => []
  | .amomin .. => []
  | .amomax .. => []
  | .amoand .. => []
  | .amoor .. => []
  | .amoxor .. => []
  | .amoswap .. => []
  | .amocas .. => []
  | .vsetl .. => []
  | .vcfg .. => []
  | .vmv _ _ _ d a => [d, a]
  | .vmvLong _ _ _ d a _ => [d, a]
  | .vmvx _ _ _ d _ => [d]
  | .vmvxLong _ _ _ d _ _ => [d]
  | .vxmv _ _ _ a _ => [a]
  | .vxmvLong _ _ _ a _ _ => [a]
  | .vid _ _ _ d => [d]
  | .vidLong _ _ _ d _ => [d]
  | .vtag _ _ d _ => [d]
  | .vtagLong _ _ d _ _ => [d]
  | .vmerge _ _ _ d a b => [d, a, b]
  | .vmergeLong _ _ _ d a b _ => [d, a, b]
  | .vadd _ _ _ d a b => [d, a, b]
  | .vaddLong _ _ _ d a b _ => [d, a, b]
  | .vsub _ _ _ d a b => [d, a, b]
  | .vsubLong _ _ _ d a b _ => [d, a, b]
  | .vmul _ _ _ d a b => [d, a, b]
  | .vmulLong _ _ _ d a b _ => [d, a, b]
  | .vmulh _ _ _ d a b => [d, a, b]
  | .vmulhLong _ _ _ d a b _ => [d, a, b]
  | .vmin _ _ _ d a b => [d, a, b]
  | .vminLong _ _ _ d a b _ => [d, a, b]
  | .vmax _ _ _ d a b => [d, a, b]
  | .vmaxLong _ _ _ d a b _ => [d, a, b]
  | .vabs _ _ _ d a => [d, a]
  | .vabsLong _ _ _ d a _ => [d, a]
  | .vneg _ _ _ d a => [d, a]
  | .vnegLong _ _ _ d a _ => [d, a]
  | .vfma _ _ _ d a b => [d, a, b]
  | .vfmaLong _ _ _ d a b _ => [d, a, b]
  | .vfms _ _ _ d a b => [d, a, b]
  | .vfmsLong _ _ _ d a b _ => [d, a, b]
  | .vnfma _ _ _ d a b => [d, a, b]
  | .vnfmaLong _ _ _ d a b _ => [d, a, b]
  | .vdiv _ _ _ d a b => [d, a, b]
  | .vdivLong _ _ _ d a b _ => [d, a, b]
  | .vrem _ _ _ d a b => [d, a, b]
  | .vremLong _ _ _ d a b _ => [d, a, b]
  | .vsqrt _ _ _ d a => [d, a]
  | .vsqrtLong _ _ _ d a _ => [d, a]
  | .vscale _ _ _ d a b => [d, a, b]
  | .vscaleLong _ _ _ d a b _ => [d, a, b]
  | .vand _ _ _ d a b => [d, a, b]
  | .vandLong _ _ _ d a b _ => [d, a, b]
  | .vor _ _ _ d a b => [d, a, b]
  | .vorLong _ _ _ d a b _ => [d, a, b]
  | .vxor _ _ _ d a b => [d, a, b]
  | .vxorLong _ _ _ d a b _ => [d, a, b]
  | .vnot _ _ _ d a => [d, a]
  | .vnotLong _ _ _ d a _ => [d, a]
  | .vclz _ _ _ d a => [d, a]
  | .vclzLong _ _ _ d a _ => [d, a]
  | .vpopc _ _ _ d a => [d, a]
  | .vpopcLong _ _ _ d a _ => [d, a]
  | .vadc _ _ _ d a b => [d, a, b]
  | .vadcLong _ _ _ d a b _ => [d, a, b]
  | .vsbc _ _ _ d a b => [d, a, b]
  | .vsbcLong _ _ _ d a b _ => [d, a, b]
  | .vshl _ _ _ d a b => [d, a, b]
  | .vshlLong _ _ _ d a b _ => [d, a, b]
  | .vshr _ _ _ d a b => [d, a, b]
  | .vshrLong _ _ _ d a b _ => [d, a, b]
  | .vshra _ _ _ d a b => [d, a, b]
  | .vshraLong _ _ _ d a b _ => [d, a, b]
  | .vrol _ _ _ d a b => [d, a, b]
  | .vrolLong _ _ _ d a b _ => [d, a, b]
  | .vfshl _ _ _ d a b => [d, a, b]
  | .vfshlLong _ _ _ d a b _ => [d, a, b]
  | .vfshr _ _ _ d a b => [d, a, b]
  | .vfshrLong _ _ _ d a b _ => [d, a, b]
  | .vcmp _ _ _ _ _ a b => [a, b]
  | .vcmpLong _ _ _ _ _ a b _ => [a, b]
  | .vcvt _ _ _ d a _ => [d, a]
  | .vcvtLong _ _ _ d a _ _ => [d, a]
  | .vrcp _ _ _ d a => [d, a]
  | .vrcpLong _ _ _ d a _ => [d, a]
  | .vrsqrt _ _ _ d a => [d, a]
  | .vrsqrtLong _ _ _ d a _ => [d, a]
  | .vexp2 _ _ _ d a => [d, a]
  | .vexp2Long _ _ _ d a _ => [d, a]
  | .vlog2 _ _ _ d a => [d, a]
  | .vlog2Long _ _ _ d a _ => [d, a]
  | .vexp _ _ _ d a => [d, a]
  | .vexpLong _ _ _ d a _ => [d, a]
  | .vlog _ _ _ d a => [d, a]
  | .vlogLong _ _ _ d a _ => [d, a]
  | .vtanh _ _ _ d a => [d, a]
  | .vtanhLong _ _ _ d a _ => [d, a]
  | .mand .. => []
  | .mandLong .. => []
  | .mor .. => []
  | .morLong .. => []
  | .mxor .. => []
  | .mxorLong .. => []
  | .mnot .. => []
  | .mnotLong .. => []
  | .mcnt .. => []
  | .mcntLong .. => []
  | .mfirst .. => []
  | .mfirstLong .. => []
  | .mshl .. => []
  | .mshlLong .. => []
  | .vred _ _ d a _ => [d, a]
  | .vredLong _ _ d a _ _ => [d, a]
  | .vscan _ _ d a _ => [d, a]
  | .vscanLong _ _ d a _ _ => [d, a]
  | .vscanSeg _ _ d a _ => [d, a]
  | .vscanSegLong _ _ d a _ _ => [d, a]
  | .vprefixpop _ _ d _ => [d]
  | .vprefixpopLong _ _ d _ _ => [d]
  | .vconflict _ _ d a => [d, a]
  | .vconflictLong _ _ d a _ => [d, a]
  | .vcompress _ _ d a => [d, a]
  | .vcompressLong _ _ d a _ => [d, a]
  | .vexpand _ _ d a => [d, a]
  | .vexpandLong _ _ d a _ => [d, a]
  | .vperm _ _ d a b => [d, a, b]
  | .vpermLong _ _ d a b _ => [d, a, b]
  | .vslideup _ _ d a _ => [d, a]
  | .vslideupLong _ _ d a _ _ => [d, a]
  | .vslidedn _ _ d a _ => [d, a]
  | .vslidednLong _ _ d a _ _ => [d, a]
  | .vzip _ _ d a b => [d, a, b]
  | .vzipLong _ _ d a b _ => [d, a, b]
  | .vunzip _ _ d a _ => [d, a]
  | .vunzipLong _ _ d a _ _ => [d, a]
  | .vtopk _ _ d a _ => [d, a]
  | .vtopkLong _ _ d a _ _ => [d, a]
  | .visect _ d a b => [d, a, b]
  | .visectLong _ d a b _ => [d, a, b]
  | .vunion _ d a b => [d, a, b]
  | .vunionLong _ d a b _ => [d, a, b]
  | .vmrg _ d a b => [d, a, b]
  | .vmrgLong _ d a b _ => [d, a, b]
  | .vld _ _ d _ => [d]
  | .vldLong _ _ d _ _ _ _ _ => [d]
  | .vlds _ _ d _ _ => [d]
  | .vldsLong _ _ d _ _ _ _ _ _ => [d]
  | .vldx _ _ d _ b => [d, b]
  | .vldxLong _ _ d _ b _ _ _ _ => [d, b]
  | .pfetch .. => []
  | .pfetchLong .. => []
  | .vst _ _ d _ => [d]
  | .vstLong _ _ d _ _ => [d]
  | .collectiveContribution _ d _ => [d]
  | .vsts _ _ d _ _ => [d]
  | .vstsLong _ _ d _ _ _ => [d]
  | .vstx _ _ d _ b => [d, b]
  | .vstxLong _ _ d _ b _ => [d, b]
  | .vstxaAdd _ _ d _ b => [d, b]
  | .vstxaAddLong _ _ d _ b _ => [d, b]
  | .vstb _ _ d _ => [d]
  | .vstbLong _ _ d _ _ => [d]
  | .vstxaMin _ _ d _ b => [d, b]
  | .vstxaMinLong _ _ d _ b _ => [d, b]
  | .vstxaMax _ _ d _ b => [d, b]
  | .vstxaMaxLong _ _ d _ b _ => [d, b]
  | .tld .. => []
  | .tldLong .. => []
  | .bld .. => []
  | .bldLong .. => []
  | .bst .. => []
  | .bstLong .. => []
  | .accst .. => []
  | .accstLong .. => []
  | .tmv _ a => [a]
  | .tmvLong _ a _ => [a]
  | .accmv .. => []
  | .accmvLong .. => []
  | .azero .. => []
  | .azeroLong .. => []
  | .tclass .. => []
  | .msync => []
  | .mma .. => []
  | .mmaz .. => []
  | .mmai .. => []
  | .mmas .. => []
  | .xcfg .. => []
  | .xtwid .. => []
  | .xstage .. => []
  | .xperm .. => []
  | .xpoint .. => []
  | .xnorm .. => []
  | .xmodchk .. => []
  | .xsync => []
  | .sbind .. => []
  | .sunbind .. => []
  | .scopy .. => []
  | .swmark .. => []
  | .swait .. => []
  | .tkpush .. => []
  | .tkpop .. => []
  | .barinit .. => []
  | .bararr .. => []
  | .barwait .. => []
  | .bar .. => []
  | .barfree .. => []
  | .fence .. => []
  | .cpfence => []
  | .vsync => []
  | .lda .. => []
  | .strl .. => []
  | .mcst d _ _ _ => [d]
  | .tickget .. => []
  | .tickwait .. => []
  | .tickdone .. => []
  | .mpost .. => []
  | .msend .. => []
  | .mwait .. => []
  | .mprobe .. => []
  | .mcancel .. => []
  | .mdrip .. => []
  | .kvsub .. => []
  | .kvunsub .. => []
  | .kvpass .. => []
  | .kvrecv .. => []
  | .kvpart _ a _ _ => [a]
  | .kvdone .. => []
  | .kvstat .. => []
  | .trap .. => []
  | .rte => []
  | .halt => []
  | .wfe .. => []
  | .ctxyield .. => []
  | .ctxsave .. => []
  | .ctxload .. => []
  | .qwait .. => []
  | .qprio .. => []
  | .htokwait .. => []
  | .htokraise .. => []
  | .klaunch .. => []
  | .kend => []
  | .kstat .. => []
  | .gterm => []
  | .gyield => []
  | .sdrain => []
  | .sfrpop .. => []
  | .tlbinv .. => []
  | .pgprobe .. => []
  | .asyncTrapDelivery .. => []
  | .pageStoreDelivery .. => []
  | .watchdog .. => []
  | .waitWake .. => []
  | .gyieldRelease .. => []
  | .cellDrainComplete .. => []
  | .contextLoadComplete .. => []
  | .contextSaveComplete .. => []
  | .slotStateUncorr .. => []
  | .placementDecision => []
  | .kernelLaunchable .. => []
  | .convoyDrain .. => []
  | .loadDataReturn .. => []
  | .storePerform .. => []
  | .scatterAddUpdate .. => []
  | .pageWalkComplete .. => []
  | .xlateDeadline .. => []
  | .matrixEntryIssue .. => []
  | .tldRowblockLand .. => []
  | .matrixEntryRetire .. => []
  | .matrixWindow .. => []
  | .transformEntryStart .. => []
  | .transformEntryRetire .. => []
  | .streamFetchArrival .. => []
  | .stripCommit .. => []
  | .barrierRequestArrival .. => []
  | .kvFetchStart .. => []
  | .kvPageMulticast .. => []
  | .kvCatchupStart .. => []
  | .remoteRequestArrival .. => []
  | .remoteReplyArrival .. => []
  | .remoteDeadline .. => []
  | .flitReplay .. => []
  | .linkCrcFail .. => []
  | .linkTrainingDone .. => []
  | .linkRetrainDone .. => []
  | .collectiveUnitAccept .. => []
  | .collectiveResultDelivery .. => []
  | .messageArrival .. => []
  | .messageLandingComplete .. => []
  | .retryTicketCall .. => []
  | .spillDeadline .. => []
  | .hostWrite .. => []
  | .hostRead .. => []
  | .ingressDoorbell .. => []
  | .egressRead .. => []
  | .hostRegisterWrite .. => []
  | .eventRingWrite => []
  | .cmdLoad => []
  | .cmdLoadsaved => []
  | .cmdSave => []
  | .cmdStop => []
  | .cmdFault => []
  | .cmdRelease => []
  | .cmdSwitch => []
  | .cmdResume => []
  | .cmdTerminate => []
  | .cmdSetplim => []
  | .cmdTrainlink .. => []
  | .cmdTrainhbm .. => []
  | .cmdXlate => []
  | .cmdSpillret => []
  | .cmdAttest .. => []
  | .cmdQuery => []
  | .powerInterval .. => []
  | .hotDie .. => []
  | .thermalTrip .. => []
  | .moduleReset .. => []
  | .firmwareVerify .. => []
  | .hbmRetrain .. => []
  | .powerOff => []
  | .firmwareFailure => []
  | .codeUnassigned => []
  | .mbgoWhileBusy => []
  | .atsTranslationCompletion .. => []
  | .priPageRequestResponse .. => []

/-- The CSRs that the control thread writes past a load whose data are to come: those that a failing load gives back (R487). -/
def lateCsr (n : Nat) : Bool := decide (n = 0x000 ∨ n = 0x001 ∨ n = 0x005 ∨ n = 0x006 ∨ n = 0x010 ∨ n = 0x011 ∨ n = 0x012)

/-- The instructions that the control thread issues past a load whose data are to come: the scalar ones that access no
memory, those that read a CSR other than VXSTAT or write one that a failing load gives back, ST, which enters its slice queue, and LD and LDA
of another slice (R173, R334, R343, R487). -/
def mayPass : Instr → Bool
  | .add .. => true
  | .sub .. => true
  | .and .. => true
  | .or .. => true
  | .xor .. => true
  | .shl .. => true
  | .shr .. => true
  | .shra .. => true
  | .mul .. => true
  | .mulh .. => true
  | .mulhn .. => true
  | .div .. => true
  | .divn .. => true
  | .rem .. => true
  | .remn .. => true
  | .rol .. => true
  | .clz .. => true
  | .ctz .. => true
  | .popc .. => true
  | .min .. => true
  | .max .. => true
  | .minn .. => true
  | .maxn .. => true
  | .slt .. => true
  | .sltn .. => true
  | .sel .. => true
  | .addi .. => true
  | .addiLong .. => true
  | .andi .. => true
  | .andiLong .. => true
  | .ori .. => true
  | .oriLong .. => true
  | .xori .. => true
  | .xoriLong .. => true
  | .slti .. => true
  | .sltiLong .. => true
  | .shli .. => true
  | .shri .. => true
  | .shrai .. => true
  | .ldi .. => true
  | .ldiLong .. => true
  | .ldih .. => true
  | .addpc .. => true
  | .addpcLong .. => true
  | .ld .. => true
  | .ldLong .. => true
  | .st .. => true
  | .stLong .. => true
  | .beq .. => true
  | .beqLong .. => true
  | .bne .. => true
  | .bneLong .. => true
  | .blt .. => true
  | .bltLong .. => true
  | .bge .. => true
  | .bgeLong .. => true
  | .bltn .. => true
  | .bltnLong .. => true
  | .bgen .. => true
  | .bgenLong .. => true
  | .jal .. => true
  | .jalLong .. => true
  | .jalr .. => true
  | .jalrLong .. => true
  | .loop .. => true
  | .loopLong .. => true
  | .fadd .. => true
  | .fsub .. => true
  | .fmul .. => true
  | .fdiv .. => true
  | .fsqrt .. => true
  | .fmin .. => true
  | .fmax .. => true
  | .ffma .. => true
  | .fcmp .. => true
  | .fcvt .. => true
  | .csrr _ n => decide (n ≠ 0x003)
  | .csrw _ _ n => lateCsr n.toNat
  | .csrs _ _ n => lateCsr n.toNat
  | .csrc _ _ n => lateCsr n.toNat
  | .amoadd .. => false
  | .amomin .. => false
  | .amomax .. => false
  | .amoand .. => false
  | .amoor .. => false
  | .amoxor .. => false
  | .amoswap .. => false
  | .amocas .. => false
  | .vsetl .. => true
  | .vcfg .. => true
  | .vmv .. => false
  | .vmvLong .. => false
  | .vmvx .. => false
  | .vmvxLong .. => false
  | .vxmv .. => false
  | .vxmvLong .. => false
  | .vid .. => false
  | .vidLong .. => false
  | .vtag .. => false
  | .vtagLong .. => false
  | .vmerge .. => false
  | .vmergeLong .. => false
  | .vadd .. => false
  | .vaddLong .. => false
  | .vsub .. => false
  | .vsubLong .. => false
  | .vmul .. => false
  | .vmulLong .. => false
  | .vmulh .. => false
  | .vmulhLong .. => false
  | .vmin .. => false
  | .vminLong .. => false
  | .vmax .. => false
  | .vmaxLong .. => false
  | .vabs .. => false
  | .vabsLong .. => false
  | .vneg .. => false
  | .vnegLong .. => false
  | .vfma .. => false
  | .vfmaLong .. => false
  | .vfms .. => false
  | .vfmsLong .. => false
  | .vnfma .. => false
  | .vnfmaLong .. => false
  | .vdiv .. => false
  | .vdivLong .. => false
  | .vrem .. => false
  | .vremLong .. => false
  | .vsqrt .. => false
  | .vsqrtLong .. => false
  | .vscale .. => false
  | .vscaleLong .. => false
  | .vand .. => false
  | .vandLong .. => false
  | .vor .. => false
  | .vorLong .. => false
  | .vxor .. => false
  | .vxorLong .. => false
  | .vnot .. => false
  | .vnotLong .. => false
  | .vclz .. => false
  | .vclzLong .. => false
  | .vpopc .. => false
  | .vpopcLong .. => false
  | .vadc .. => false
  | .vadcLong .. => false
  | .vsbc .. => false
  | .vsbcLong .. => false
  | .vshl .. => false
  | .vshlLong .. => false
  | .vshr .. => false
  | .vshrLong .. => false
  | .vshra .. => false
  | .vshraLong .. => false
  | .vrol .. => false
  | .vrolLong .. => false
  | .vfshl .. => false
  | .vfshlLong .. => false
  | .vfshr .. => false
  | .vfshrLong .. => false
  | .vcmp .. => false
  | .vcmpLong .. => false
  | .vcvt .. => false
  | .vcvtLong .. => false
  | .vrcp .. => false
  | .vrcpLong .. => false
  | .vrsqrt .. => false
  | .vrsqrtLong .. => false
  | .vexp2 .. => false
  | .vexp2Long .. => false
  | .vlog2 .. => false
  | .vlog2Long .. => false
  | .vexp .. => false
  | .vexpLong .. => false
  | .vlog .. => false
  | .vlogLong .. => false
  | .vtanh .. => false
  | .vtanhLong .. => false
  | .mand .. => false
  | .mandLong .. => false
  | .mor .. => false
  | .morLong .. => false
  | .mxor .. => false
  | .mxorLong .. => false
  | .mnot .. => false
  | .mnotLong .. => false
  | .mcnt .. => false
  | .mcntLong .. => false
  | .mfirst .. => false
  | .mfirstLong .. => false
  | .mshl .. => false
  | .mshlLong .. => false
  | .vred .. => false
  | .vredLong .. => false
  | .vscan .. => false
  | .vscanLong .. => false
  | .vscanSeg .. => false
  | .vscanSegLong .. => false
  | .vprefixpop .. => false
  | .vprefixpopLong .. => false
  | .vconflict .. => false
  | .vconflictLong .. => false
  | .vcompress .. => false
  | .vcompressLong .. => false
  | .vexpand .. => false
  | .vexpandLong .. => false
  | .vperm .. => false
  | .vpermLong .. => false
  | .vslideup .. => false
  | .vslideupLong .. => false
  | .vslidedn .. => false
  | .vslidednLong .. => false
  | .vzip .. => false
  | .vzipLong .. => false
  | .vunzip .. => false
  | .vunzipLong .. => false
  | .vtopk .. => false
  | .vtopkLong .. => false
  | .visect .. => false
  | .visectLong .. => false
  | .vunion .. => false
  | .vunionLong .. => false
  | .vmrg .. => false
  | .vmrgLong .. => false
  | .vld .. => false
  | .vldLong .. => false
  | .vlds .. => false
  | .vldsLong .. => false
  | .vldx .. => false
  | .vldxLong .. => false
  | .pfetch .. => false
  | .pfetchLong .. => false
  | .vst .. => false
  | .vstLong .. => false
  | .collectiveContribution .. => false
  | .vsts .. => false
  | .vstsLong .. => false
  | .vstx .. => false
  | .vstxLong .. => false
  | .vstxaAdd .. => false
  | .vstxaAddLong .. => false
  | .vstb .. => false
  | .vstbLong .. => false
  | .vstxaMin .. => false
  | .vstxaMinLong .. => false
  | .vstxaMax .. => false
  | .vstxaMaxLong .. => false
  | .tld .. => false
  | .tldLong .. => false
  | .bld .. => false
  | .bldLong .. => false
  | .bst .. => false
  | .bstLong .. => false
  | .accst .. => false
  | .accstLong .. => false
  | .tmv .. => false
  | .tmvLong .. => false
  | .accmv .. => false
  | .accmvLong .. => false
  | .azero .. => false
  | .azeroLong .. => false
  | .tclass .. => false
  | .msync => false
  | .mma .. => false
  | .mmaz .. => false
  | .mmai .. => false
  | .mmas .. => false
  | .xcfg .. => false
  | .xtwid .. => false
  | .xstage .. => false
  | .xperm .. => false
  | .xpoint .. => false
  | .xnorm .. => false
  | .xmodchk .. => false
  | .xsync => false
  | .sbind .. => false
  | .sunbind .. => false
  | .scopy .. => false
  | .swmark .. => false
  | .swait .. => false
  | .tkpush .. => false
  | .tkpop .. => false
  | .barinit .. => false
  | .bararr .. => false
  | .barwait .. => false
  | .bar .. => false
  | .barfree .. => false
  | .fence .. => false
  | .cpfence => false
  | .vsync => false
  | .lda .. => true
  | .strl .. => false
  | .mcst .. => false
  | .tickget .. => false
  | .tickwait .. => false
  | .tickdone .. => false
  | .mpost .. => false
  | .msend .. => false
  | .mwait .. => false
  | .mprobe .. => false
  | .mcancel .. => false
  | .mdrip .. => false
  | .kvsub .. => false
  | .kvunsub .. => false
  | .kvpass .. => false
  | .kvrecv .. => false
  | .kvpart .. => false
  | .kvdone .. => false
  | .kvstat .. => false
  | .trap .. => false
  | .rte => false
  | .halt => false
  | .wfe .. => false
  | .ctxyield .. => false
  | .ctxsave .. => false
  | .ctxload .. => false
  | .qwait .. => false
  | .qprio .. => false
  | .htokwait .. => false
  | .htokraise .. => false
  | .klaunch .. => false
  | .kend => false
  | .kstat .. => false
  | .gterm => false
  | .gyield => false
  | .sdrain => false
  | .sfrpop .. => false
  | .tlbinv .. => false
  | .pgprobe .. => false
  | .asyncTrapDelivery .. => false
  | .pageStoreDelivery .. => false
  | .watchdog .. => false
  | .waitWake .. => false
  | .gyieldRelease .. => false
  | .cellDrainComplete .. => false
  | .contextLoadComplete .. => false
  | .contextSaveComplete .. => false
  | .slotStateUncorr .. => false
  | .placementDecision => false
  | .kernelLaunchable .. => false
  | .convoyDrain .. => false
  | .loadDataReturn .. => false
  | .storePerform .. => false
  | .scatterAddUpdate .. => false
  | .pageWalkComplete .. => false
  | .xlateDeadline .. => false
  | .matrixEntryIssue .. => false
  | .tldRowblockLand .. => false
  | .matrixEntryRetire .. => false
  | .matrixWindow .. => false
  | .transformEntryStart .. => false
  | .transformEntryRetire .. => false
  | .streamFetchArrival .. => false
  | .stripCommit .. => false
  | .barrierRequestArrival .. => false
  | .kvFetchStart .. => false
  | .kvPageMulticast .. => false
  | .kvCatchupStart .. => false
  | .remoteRequestArrival .. => false
  | .remoteReplyArrival .. => false
  | .remoteDeadline .. => false
  | .flitReplay .. => false
  | .linkCrcFail .. => false
  | .linkTrainingDone .. => false
  | .linkRetrainDone .. => false
  | .collectiveUnitAccept .. => false
  | .collectiveResultDelivery .. => false
  | .messageArrival .. => false
  | .messageLandingComplete .. => false
  | .retryTicketCall .. => false
  | .spillDeadline .. => false
  | .hostWrite .. => false
  | .hostRead .. => false
  | .ingressDoorbell .. => false
  | .egressRead .. => false
  | .hostRegisterWrite .. => false
  | .eventRingWrite => false
  | .cmdLoad => false
  | .cmdLoadsaved => false
  | .cmdSave => false
  | .cmdStop => false
  | .cmdFault => false
  | .cmdRelease => false
  | .cmdSwitch => false
  | .cmdResume => false
  | .cmdTerminate => false
  | .cmdSetplim => false
  | .cmdTrainlink .. => false
  | .cmdTrainhbm .. => false
  | .cmdXlate => false
  | .cmdSpillret => false
  | .cmdAttest .. => false
  | .cmdQuery => false
  | .powerInterval .. => false
  | .hotDie .. => false
  | .thermalTrip .. => false
  | .moduleReset .. => false
  | .firmwareVerify .. => false
  | .hbmRetrain .. => false
  | .powerOff => false
  | .firmwareFailure => false
  | .codeUnassigned => false
  | .mbgoWhileBusy => false
  | .atsTranslationCompletion .. => false
  | .priPageRequestResponse .. => false

end Sys2Proof.Machine
end

