-- ==== Sys2Proof/Machine/Transform.lean ====
section
/-!
DEFINITION. Sys2Proof/Machine/Transform.lean: the transform queue, its engine's arithmetic and the transform
instructions (spec/13_transform R285 to R306; spec/03_numbers R71 to R73). An entry reads its regions at
retirement and puts its outputs on the asynchronous path there (notes/assumptions/22).
-/

namespace Sys2Proof.Machine

/-! ## Points (R285) -/

/-- MODE and LOGN of an entry (R286). -/
def TransformEntry.mode (e : TransformEntry) : Nat := bits e.xctl 5 2
def TransformEntry.logn (e : TransformEntry) : Nat := bits e.xctl 0 5
/-- The modulus of an entry. -/
def TransformEntry.q (e : TransformEntry) : Nat := bits e.xmod 0 31

/-- PB and TB of a mode. -/
def pointBytes (mode : Nat) : Nat := if mode = 0 then 8 else 4

/-- The width of a component. -/
def compWidth (mode : Nat) : Nat := if mode = 1 then 16 else 32

/-- The bytes of a region of `n` points. -/
def regionBytes (mode n : Nat) : Nat := if mode = 1 then 4 * n + n / 32 else pointBytes mode * n

/-- A point as its component patterns, and whether its data failed. -/
structure Point where
  re : Nat
  im : Nat
  bad : Bool
  deriving DecidableEq, Repr

/-- A point of zeros. -/
def Point.zero : Point := { re := 0, im := 0, bad := false }

/-- The place of some bytes of a region (R296). -/
def State.engineRuns (s : State) (g va n : Nat) : List (Nat × Nat) := (s.window g (va / 2 ^ 48) (va % 2 ^ 48) n).getD []

/-- A number read by the engine, and whether its data failed (R293). -/
def State.engineRead (s : State) (g va n : Nat) : Nat × Bool :=
  let r := s.engineRuns g va n
  (natOfBytes (s.readRuns r), s.runsBad r)

/-- A point or twiddle entry read. -/
def State.pointAt (s : State) (g mode va : Nat) : Point :=
  let r := s.engineRead g va (pointBytes mode)
  { re := r.1 % 2 ^ compWidth mode, im := r.1 / 2 ^ compWidth mode, bad := r.2 }

/-- A point's bytes. -/
def Point.bytes (mode : Nat) (p : Point) : List Byte := toBytes (pointBytes mode) (p.re + p.im * 2 ^ compWidth mode)

/-- The points of a region. -/
def State.points (s : State) (g mode base n : Nat) : Array Point :=
  ((upFrom 0 n).map fun p => s.pointAt g mode (base + p * pointBytes mode)).toArray

/-- The exponents of a BFP region (R285), each with whether its byte failed. -/
def State.exponents (s : State) (g base n : Nat) : Array (Int × Bool) :=
  ((upFrom 0 (n / 32)).map fun k =>
    let r := s.engineRead g (base + 4 * n + k) 1
    (signedOf 8 r.1, r.2)).toArray

/-- What an entry leaves: its writes, flags, largest recorded magnitude, and the first failed place it read. -/
structure XOut where
  writes : List AsyncWrite
  flags : BitVec 6
  top : Nat
  failed : Option Nat
  deriving DecidableEq, Repr

/-- No effect. -/
def XOut.none : XOut := { writes := [], flags := 0, top := 0, failed := Option.none }

/-- One output write, marked when it depends on failed data (R290, R293). -/
def outWrite (e : TransformEntry) (va : Nat) (b : List Byte) (bad : Bool) : AsyncWrite :=
  { place := .virt (BitVec.ofNat 64 va), data := b, mark := bad, tag := Option.none, poison := Option.none, pc := e.pc, row := 0
    strip := false, coll := Option.none }

/-- The first of some places that holds failed data, places in the order of reading (notes/assumptions/23). -/
def State.firstFailed (s : State) (g : Nat) (l : List (Nat × Nat)) : Option Nat :=
  (l.find? fun p => (s.engineRead g p.1 p.2).2).map Prod.fst

/-! ## Arithmetic (R298) -/

/-- A residue reduced, with MD when it was not (R58). -/
def residue (q v : Nat) : Nat × BitVec 6 := (v % q, if v ≥ q then flagMD else 0)

/-- A rounded f32 component. -/
def comp32 (rm : Nat) (x : Num × BitVec 6) : Nat × BitVec 6 := let r := roundNum .f32 rm x.1; (r.1, r.2 ||| x.2)

/-- Add and Sub. -/
def pointAdd (mode q rm : Nat) (minus : Bool) (a b : Point) : Point × BitVec 6 :=
  if mode = 2 then
    let x := residue q a.re
    let y := residue q b.re
    ({ re := (if minus then x.1 + (q - y.1) else x.1 + y.1) % q, im := 0, bad := a.bad || b.bad }, x.2 ||| y.2)
  else
    let f := fun (x y : Nat) => let v := unpack .f32 y; comp32 rm (addNum rm (unpack .f32 x) (if minus then v.negate else v))
    let r := f a.re b.re
    let i := f a.im b.im
    ({ re := r.1, im := i.1, bad := a.bad || b.bad }, r.2 ||| i.2)

/-- A sum or difference of two exact products. -/
def twoProducts (rm : Nat) (minus : Bool) (a b c d : Num) : Num × BitVec 6 :=
  let x := mulNum a b
  let y := mulNum c d
  let z := addNum rm x.1 (if minus then y.1.negate else y.1)
  (z.1, x.2 ||| y.2 ||| z.2)

/-- Mul. -/
def pointMul (mode q rm : Nat) (x w : Point) : Point × BitVec 6 :=
  if mode = 2 then
    let a := residue q x.re
    let b := residue q w.re
    ({ re := a.1 * b.1 % q, im := 0, bad := x.bad || w.bad }, a.2 ||| b.2)
  else
    let u := unpack .f32
    let r := comp32 rm (twoProducts rm true (u x.re) (u w.re) (u x.im) (u w.im))
    let i := comp32 rm (twoProducts rm false (u x.re) (u w.im) (u x.im) (u w.re))
    ({ re := r.1, im := i.1, bad := x.bad || w.bad }, r.2 ||| i.2)

/-- One output of a butterfly of CF32 or Q32 (R297): the first leg's or the second's. -/
def flyPoint (mode q rm : Nat) (dit second : Bool) (a y w : Point) : Point × BitVec 6 :=
  if dit then
    let t := pointMul mode q rm y w
    let r := pointAdd mode q rm second a t.1
    (r.1, r.2 ||| t.2)
  else if second then
    let d := pointAdd mode q rm true a y
    let r := pointMul mode q rm d.1 w
    (r.1, r.2 ||| d.2)
  else pointAdd mode q rm false a y

/-- A mantissa's value at an exponent of R71. -/
def bfpNum (e : Int) (m : Nat) : Num := let v := signedOf 16 m; .fin (decide (v < 0)) v.natAbs (e - 15)

/-- A BFP twiddle component's value (R285). -/
def twiddleNum (m : Nat) : Num := let v := signedOf 16 m; .fin (decide (v < 0)) v.natAbs (-14)

/-- Exact complex values. -/
abbrev Cplx := Num × Num

/-- Exact sum, difference and product. -/
def cplxAdd (minus : Bool) (a b : Cplx) : Cplx :=
  ((addNum 0 a.1 (if minus then b.1.negate else b.1)).1, (addNum 0 a.2 (if minus then b.2.negate else b.2)).1)
def cplxMul (a b : Cplx) : Cplx := ((twoProducts 0 true a.1 b.1 a.2 b.2).1, (twoProducts 0 false a.1 b.2 a.2 b.1).1)

/-- One output of a BFP butterfly. -/
def flyExact (dit second : Bool) (a y w : Cplx) : Cplx :=
  if dit then cplxAdd second a (cplxMul y w) else if second then cplxMul (cplxAdd true a y) w else cplxAdd false a y

/-- An integer divided by a power of two under RNE. -/
def rneShift (k sh : Int) : Int :=
  let r := (roundTo 0 (decide (k < 0)) k.natAbs 0 sh).1
  if k < 0 then -(r : Int) else r

/-- A value rounded under RNE to a multiple of a power of two. -/
def rneAt (q : Int) (x : Num) : Int :=
  match x with
  | .fin n m e => let r := (roundTo 0 n m e q).1; if n then -(r : Int) else r
  | _ => 0

/-- R72 for a block at an input exponent: its exponent, its mantissas, and the overflow flag. An exponent below −128
is R302's. -/
def renormBlock (e : Int) (v : List Num) : Int × List Int × BitVec 6 :=
  let ks := v.map (rneAt (e - 15))
  let s0 : Nat := bitLen (ks.foldl (fun t k => max t k.natAbs) 0) - 15
  let s1 : Nat := if (ks.map fun k => rneShift k s0).any (fun m => decide (m.natAbs = 2 ^ 15)) then s0 + 1 else s0
  if e + s1 > 127 then (127, ks.map fun k => satInt .s16 (rneShift k (127 - e)), flagOF)
  else if e + s1 < -128 then (-128, ks.map fun k => rneShift k (-128 - e), 0)
  else (e + s1, ks.map fun k => rneShift k s1, 0)

/-- The components of points in a row, paired up. -/
def pairUp (bad : Bool) : List Int → List Point
  | r :: i :: t => { re := wrapTo 16 r, im := wrapTo 16 i, bad := bad } :: pairUp bad t
  | _ => []

/-! ## XSTAGE (R297 to R299) -/

/-- The butterfly that a point belongs to at a span. -/
def flyIndex (sp p : Nat) : Nat := p / 2 ^ (sp + 1) * 2 ^ sp + p % 2 ^ sp

/-- The quad that a point belongs to. -/
def quadIndex (sp p : Nat) : Nat := p / 2 ^ (sp + 1) * 2 ^ (sp - 1) + p % 2 ^ (sp - 1)

/-- The first point of the butterfly of a point, and of its quad. -/
def flyBase (sp p : Nat) : Nat := p - p / 2 ^ sp % 2 * 2 ^ sp
def quadBase (sp p : Nat) : Nat := p - p / 2 ^ (sp - 1) % 4 * 2 ^ (sp - 1)

/-- The twiddle index of a butterfly. -/
def twiddleIndex (tm : Bool) (n sp b : Nat) : Nat := if tm then b else b % 2 ^ sp * n / 2 ^ (sp + 1)

/-- One radix-2 stage of CF32 or Q32 over the chosen points, with its flags: a failed leg or twiddle fails both outputs (R293). -/
def stagePoints (mode q rm sp : Nat) (dit : Bool) (sel : Nat → Bool) (tw : Nat → Point) (X : Array Point) : Array Point × BitVec 6 :=
  let r := X.mapIdx fun p x =>
    if sel p then
      let p0 := flyBase sp p
      let w := tw (flyIndex sp p)
      let o := flyPoint mode q rm dit (decide (p ≠ p0)) (X.getD p0 Point.zero) (X.getD (p0 + 2 ^ sp) Point.zero) w
      ({ o.1 with bad := o.1.bad || w.bad }, o.2)
    else (x, 0)
  (r.map Prod.fst, r.foldl (fun f x => if x.1.bad then f else f ||| x.2) 0)

/-- The exact value of a BFP point. -/
def bfpValue (X : Array Point) (E : Array Int) (p : Nat) : Cplx :=
  let x := X.getD p Point.zero
  let e := E.getD (p / 32) 0
  (bfpNum e x.re, bfpNum e x.im)

/-- Whether a block holds a point of failed data. -/
def blockBad (X : Array Point) (k : Nat) : Bool := (upFrom (32 * k) 32).any fun p => (X.getD p Point.zero).bad

/-- Blocks made of exact values: points, exponents and flags (R72). -/
def renormBlocks (n : Nat) (ein : Nat → Int) (bad : Nat → Bool) (value : Nat → Cplx) : Array Point × Array Int × BitVec 6 :=
  let r := (upFrom 0 (n / 32)).map fun k =>
    let b := renormBlock (ein k) ((upFrom (32 * k) 32).map fun p => [(value p).1, (value p).2]).flatten
    (pairUp (bad k) b.2.1, b.1, if bad k then 0 else b.2.2)
  ((r.map Prod.fst).flatten.toArray, (r.map fun x => x.2.1).toArray, r.foldl (fun f x => f ||| x.2.2) 0)

/-- One radix-2 stage of BFP. -/
def stageBlocks (sp : Nat) (dit : Bool) (tw : Nat → Point) (X : Array Point) (E : Array Int) : Array Point × Array Int × BitVec 6 :=
  let part := fun (p : Nat) => flyBase sp p
  let bad := fun (p : Nat) => (X.getD (part p) Point.zero).bad || (X.getD (part p + 2 ^ sp) Point.zero).bad || (tw (flyIndex sp p)).bad
  let value := fun (p : Nat) =>
    let w := tw (flyIndex sp p)
    flyExact dit (decide (p ≠ part p)) (bfpValue X E (part p)) (bfpValue X E (part p + 2 ^ sp)) (twiddleNum w.re, twiddleNum w.im)
  let ein := fun (k : Nat) =>
    let k' := if 2 ^ sp ≥ 32 then Nat.xor k (2 ^ sp / 32) else k
    max (E.getD k 0) (E.getD k' 0)
  renormBlocks X.size ein (fun k => (upFrom (32 * k) 32).any bad) value

/-- Points whose quad holds failed data fail (R293). -/
def quadBad (sp : Nat) (X : Array Point) : Array Point :=
  X.mapIdx fun p x =>
    let p0 := quadBase sp p
    { x with bad := (upFrom 0 4).any fun k => (X.getD (p0 + k * 2 ^ (sp - 1)) Point.zero).bad }

/-- The blocks that hold failed points fail whole (R293). -/
def spreadBad (X : Array Point) : Array Point := X.mapIdx fun p x => { x with bad := blockBad X (p / 32) }

/-- The writes of chosen points of a region. -/
def pointWrites (e : TransformEntry) (base : Nat) (sel : Nat → Bool) (X : Array Point) : List AsyncWrite :=
  ((upFrom 0 X.size).filter sel).map fun p =>
    let x := X.getD p Point.zero
    outWrite e (base + p * pointBytes e.mode) (x.bytes e.mode) x.bad

/-- The writes of a BFP region's exponents. -/
def exponentWrites (e : TransformEntry) (base : Nat) (X : Array Point) (E : Array Int) : List AsyncWrite :=
  (upFrom 0 E.size).map fun k => outWrite e (base + 4 * X.size + k) (toBytes 1 (wrapTo 8 (E.getD k 0))) (blockBad X k)

/-- The magnitude of a residue (R73). -/
def residueSize (q v : Nat) : Nat := min (v % q) (q - v % q)

/-- XSTAGE's sub-stages: the span of each with the table offset of its pairs (R299). -/
def subStages (n span : Nat) (quad dit tm : Bool) : List (Nat × Nat) :=
  let off := if tm then n / 2 else 0
  if quad then (if dit then [(span - 1, 0), (span, off)] else [(span, 0), (span - 1, off)]) else [(span, 0)]

/-- Whether an XSTAGE chooses a point (R297). -/
def stageTakes (first count span : Nat) (quad : Bool) (p : Nat) : Bool :=
  let b := if quad then quadIndex span p else flyIndex span p
  decide (first ≤ b ∧ b < first + count)

/-- Where a sub-stage's twiddle entry of a butterfly stands. -/
def twiddleAt (mode table n : Nat) (tm : Bool) (sub : Nat × Nat) (b : Nat) : Nat := table + (sub.2 + twiddleIndex tm n sub.1 b) * pointBytes mode

/-- The places that an XSTAGE reads, in the order in which it reads them: for each butterfly of a sub-stage its twiddle entry and its two
legs (R297), a leg of BFP with its exponent byte after it (notes/assumptions/23). -/
def stageReads (mode n base table first count span : Nat) (quad dit tm : Bool) : List (Nat × Nat) :=
  let pb := pointBytes mode
  let leg := fun (p : Nat) => (base + p * pb, pb) :: if mode = 1 then [(base + 4 * n + p / 32, 1)] else []
  let chosen := (upFrom 0 n).filter (stageTakes first count span quad)
  ((subStages n span quad dit tm).map fun sub => ((chosen.filter fun p => p == flyBase sub.1 p).map fun p =>
    (twiddleAt mode table n tm sub (flyIndex sub.1 p), pb) :: (leg p ++ leg (p + 2 ^ sub.1))).flatten).flatten

/-- XSTAGE's outcome. -/
def State.stageOut (s : State) (e : TransformEntry) (base table first count span : Nat) (quad dit tm : Bool) (rec : Nat) : XOut :=
  let g := e.group
  let n : Nat := 2 ^ e.logn
  if count = 0 then XOut.none
  else
    let sel := stageTakes first count span quad
    let X := s.points g e.mode base n
    let tw := fun (sub : Nat × Nat) (b : Nat) => s.pointAt g e.mode (twiddleAt e.mode table n tm sub b)
    let subs := subStages n span quad dit tm
    let chosen := (upFrom 0 n).filter sel
    let reads := stageReads e.mode n base table first count span quad dit tm
    let top := if rec = 0 then 0 else (chosen.map fun p => let x := X.getD p Point.zero; if x.bad then 0 else residueSize e.q x.re).foldl max 0
    if e.mode = 1 then
      let E0 := s.exponents g base n
      let X0 := X.mapIdx fun p x => { x with bad := x.bad || (E0.getD (p / 32) (0, false)).2 }
      let r := subs.foldl (fun (st : Array Point × Array Int × BitVec 6) sub =>
        let y := stageBlocks sub.1 dit (tw sub) st.1 st.2.1
        (y.1, y.2.1, st.2.2 ||| y.2.2)) (X0, E0.map Prod.fst, 0)
      let Y := spreadBad (if quad then quadBad span r.1 else r.1)
      { writes := pointWrites e base (fun _ => true) Y ++ exponentWrites e base Y r.2.1, flags := r.2.2, top := top, failed := s.firstFailed g reads }
    else
      let r := subs.foldl (fun (st : Array Point × BitVec 6) sub =>
        let y := stagePoints e.mode e.q e.rm sub.1 dit sel (tw sub) st.1
        (y.1, st.2 ||| y.2)) (X, 0)
      let Y := if quad then quadBad span r.1 else r.1
      { writes := pointWrites e base sel Y, flags := r.2, top := top, failed := s.firstFailed g reads }

/-! ## XTWID (R300) -/

/-- A correctly rounded f32 component; an exact zero is +0. -/
def twiddle32 (x : Num) : Nat := if x.isZero then 0 else (roundNum .f32 0 x).1

/-- A BFP component: RNE(2^14 × x). -/
def twiddle16 (x : Num) : Nat := wrapTo 16 (rneAt (-14) x)

/-- Powers of a residue from a start on. -/
def powersFrom (q x : Nat) : Nat → Nat → List Nat
  | 0, _ => []
  | k + 1, w => w :: powersFrom q x k (w * x % q)

/-- XTWID's outcome. -/
def twiddleOut (e : TransformEntry) (base root : Word) (count : Nat) : XOut :=
  let n : Nat := 2 ^ e.logn
  let entries : List Point :=
    if e.mode = 2 then (powersFrom e.q (root.toNat % e.q) count 1).map fun w => { re := w, im := 0, bad := false }
    else (upFrom 0 count).map fun k =>
      let t := turnNum (((k : Int) * root.toInt) % (n : Int)).toNat n
      if e.mode = 0 then { re := twiddle32 t.2, im := twiddle32 t.1.negate, bad := false }
      else { re := twiddle16 t.2, im := twiddle16 t.1.negate, bad := false }
  { writes := pointWrites e base.toNat (fun _ => true) entries.toArray, flags := if e.mode = 2 ∧ root.toNat ≥ e.q then flagMD else 0
    top := 0, failed := Option.none }

/-! ## XPERM (R301) -/

/-- The source point of an output point. -/
def permSource (logn rs : Nat) (stride : Bool) (p : Nat) : Nat :=
  if stride then p % 2 ^ rs * 2 ^ (logn - rs) + p / 2 ^ rs else revBits logn p

/-- The places of a region in the order of reading: points, then exponents. -/
def regionPlaces (mode base n : Nat) : List (Nat × Nat) :=
  ((upFrom 0 n).map fun p => (base + p * pointBytes mode, pointBytes mode)) ++
    (if mode = 1 then (upFrom 0 (n / 32)).map fun k => (base + 4 * n + k, 1) else [])

/-- XPERM's outcome. -/
def State.permOut (s : State) (e : TransformEntry) (dst src rs : Nat) (stride : Bool) : XOut :=
  let g := e.group
  let n : Nat := 2 ^ e.logn
  let X := s.points g e.mode src n
  let from_ := fun (p : Nat) => permSource e.logn rs stride p
  let failed := s.firstFailed g (regionPlaces e.mode src n)
  if e.mode = 1 then
    let E := s.exponents g src n
    let top := E.foldl (fun m x => max m x.1) (-128)
    let lost := E.any fun x => x.2
    let Y := ((upFrom 0 n).map fun p =>
      let x := X.getD (from_ p) Point.zero
      let sh := top - (E.getD (from_ p / 32) (0, false)).1
      { re := wrapTo 16 (rneShift (signedOf 16 x.re) sh), im := wrapTo 16 (rneShift (signedOf 16 x.im) sh), bad := x.bad || lost : Point }).toArray
    let Z := spreadBad Y
    { writes := pointWrites e dst (fun _ => true) Z ++ exponentWrites e dst Z (E.map fun _ => top), flags := 0, top := 0, failed := failed }
  else
    let Y := ((upFrom 0 n).map fun p => X.getD (from_ p) Point.zero).toArray
    { writes := pointWrites e dst (fun _ => true) Y, flags := 0, top := 0, failed := failed }

/-! ## XPOINT (R302) -/

/-- Writes put at their places in a copy of the state, so that a later point of the same entry reads them. -/
def State.applyOut (s : State) (g : Nat) (l : List AsyncWrite) : State :=
  l.foldl (fun st w =>
    match w.place with
    | .virt va =>
      let runs := st.engineRuns g va.toNat w.data.length
      let s1 := st.writeRuns Option.none Option.none Option.none runs w.data
      if w.mark then runs.foldl (fun st r => st.mark r.1 r.2) s1 else s1
    | .phys _ => st) s

/-- The conjugate of an f32 point. -/
def Point.conj32 (p : Point) : Point := { p with im := Nat.xor p.im 0x80000000 }

/-- XPOINT over points of CF32 and Q32 from a point on: the outputs, flags and first failure. -/
def State.pointLoop (s : State) (e : TransformEntry) (dst a b : Nat) (conj bcast : Bool) : Nat → Nat → XOut → XOut
  | 0, _, acc => acc
  | k + 1, p, acc =>
    let g := e.group
    let pb := pointBytes e.mode
    let ya := if bcast then b else b + p * pb
    let x := s.pointAt g e.mode (a + p * pb)
    let y := s.pointAt g e.mode ya
    let r := pointMul e.mode e.q e.rm x (if conj then y.conj32 else y)
    let w := [outWrite e (dst + p * pb) (r.1.bytes e.mode) r.1.bad]
    let acc1 : XOut :=
      { acc with writes := acc.writes ++ w, flags := if r.1.bad then acc.flags else acc.flags ||| r.2
                 failed := acc.failed.or (if x.bad then some (a + p * pb) else if y.bad then some ya else Option.none) }
    State.pointLoop (s.applyOut g w) e dst a b conj bcast k (p + 1) acc1

/-- XPOINT over blocks of BFP from a block on. -/
def State.blockLoop (s : State) (e : TransformEntry) (n dst a b : Nat) (conj bcast : Bool) : Nat → Nat → XOut → XOut
  | 0, _, acc => acc
  | k + 1, j, acc =>
    let g := e.group
    let ex := s.engineRead g (a + 4 * n + j) 1
    let ey := s.engineRead g (if bcast then b + 4 else b + 4 * n + j) 1
    let places := ((upFrom (32 * j) 32).map fun p => [(a + 4 * p, 4), (if bcast then b else b + 4 * p, 4)]).flatten ++
      [(a + 4 * n + j, 1), (if bcast then b + 4 else b + 4 * n + j, 1)]
    let bad := places.any fun p => (s.engineRead g p.1 p.2).2
    let e0 := signedOf 8 ex.1 + signedOf 8 ey.1
    let value := fun (p : Nat) =>
      let x := s.pointAt g 1 (a + 4 * p)
      let y := s.pointAt g 1 (if bcast then b else b + 4 * p)
      let yi := bfpNum (signedOf 8 ey.1) y.im
      cplxMul (bfpNum (signedOf 8 ex.1) x.re, bfpNum (signedOf 8 ex.1) x.im) (bfpNum (signedOf 8 ey.1) y.re, if conj then yi.negate else yi)
    let r := renormBlock e0 (((upFrom (32 * j) 32).map fun p => [(value p).1, (value p).2]).flatten)
    let pts := (pairUp bad r.2.1).zipIdx
    let w := (pts.map fun q => outWrite e (dst + 4 * (32 * j + q.2)) (q.1.bytes 1) bad) ++ [outWrite e (dst + 4 * n + j) (toBytes 1 (wrapTo 8 r.1)) bad]
    let acc1 : XOut :=
      { acc with writes := acc.writes ++ w, flags := if bad then acc.flags else acc.flags ||| r.2.2
                 failed := acc.failed.or (s.firstFailed g places) }
    State.blockLoop (s.applyOut g w) e n dst a b conj bcast k (j + 1) acc1

/-- XPOINT's outcome. -/
def State.productOut (s : State) (e : TransformEntry) (dst a b : Nat) (conj bcast : Bool) : XOut :=
  let n : Nat := 2 ^ e.logn
  if e.mode = 1 then s.blockLoop e n dst a b conj bcast (n / 32) 0 XOut.none else s.pointLoop e dst a b conj bcast n 0 XOut.none

/-! ## XNORM (R303) -/

/-- An f32 component as a mantissa at an exponent, saturated to s16. -/
def mantissaAt (e : Int) (x : Num) : Int :=
  match x with
  | .nan _ => 0
  | .inf n => if n then -32768 else 32767
  | .fin .. => satInt .s16 (rneAt (e - 15) x)

/-- The smallest exponent at which every finite component of a block fits. -/
def blockExponent (v : List Num) : Option Int :=
  ((upFrom 0 256).find? fun k => v.all fun x => decide ((rneAt ((k : Int) - 128 - 15) x).natAbs ≤ 32767)).map fun k => (k : Int) - 128

/-- `tobfp` of a block: exponent, mantissas, flags. -/
def toBfpBlock (v : List Num) : Int × List Int × BitVec 6 :=
  let nan : BitVec 6 := if v.any Num.isNan then flagNV else 0
  let inf := v.any fun x => match x with | .inf _ => true | _ => false
  let e := if inf then Option.none else blockExponent v
  let at_ := e.getD 127
  let ms := v.map (mantissaAt at_)
  let differs := (v.zip ms).any fun p => match p.1 with
    | .fin n m x => decide (cmpNum (.fin n m x) (.fin (decide (p.2 < 0)) p.2.natAbs (at_ - 15)) ≠ 0)
    | _ => true
  let lost := (v.zip ms).any fun p => match p.1 with | .fin _ m _ => decide (m ≠ 0 ∧ p.2 = 0) | _ => false
  (at_, ms, nan ||| (if e.isNone then flagOF else 0) ||| (if differs then flagNX else 0) ||| (if lost then flagUF else 0))

/-- `tof32` of a mantissa. -/
def toF32 (e : Int) (m : Nat) : Nat := if signedOf 16 m = 0 then 0 else (roundNum .f32 0 (bfpNum e m)).1

/-- `renorm` of a block: the smallest exponent that holds every mantissa exactly. -/
def renormFit (e : Int) (ms : List Int) : Option (Int × List Int) :=
  ((upFrom 0 256).find? fun k => ms.all fun m =>
    let sh := (k : Int) - 128 - e
    let r := rneShift m sh
    decide (r.natAbs ≤ 32767) && decide (r * 2 ^ sh.toNat = m * 2 ^ (-sh).toNat)).map fun k =>
      ((k : Int) - 128, ms.map fun m => rneShift m ((k : Int) - 128 - e))

/-- XNORM's outcome, with what the opaque answers for a block that nothing fits. -/
def State.normOut (s : State) (e : TransformEntry) (dst src dir : Nat) : XOut :=
  let g := e.group
  let n : Nat := 2 ^ e.logn
  let srcMode := if dir = 0 then 0 else 1
  let X := s.points g srcMode src n
  let E := if dir = 0 then #[] else s.exponents g src n
  let bad := fun (k : Nat) => blockBad X k || (E.getD k (0, false)).2
  let failed := s.firstFailed g (regionPlaces srcMode src n)
  let block := fun (k : Nat) => (upFrom (32 * k) 32).map fun p => X.getD p Point.zero
  if dir = 1 then
    { writes := (upFrom 0 n).map fun p =>
        let x := X.getD p Point.zero
        let ex := (E.getD (p / 32) (0, false))
        outWrite e (dst + 8 * p) (toBytes 8 (toF32 ex.1 x.re + toF32 ex.1 x.im * 2 ^ 32)) (x.bad || ex.2)
      flags := 0, top := 0, failed := failed }
  else
    let one := fun (k : Nat) =>
      if dir = 0 then toBfpBlock (((block k).map fun x => [unpack .f32 x.re, unpack .f32 x.im]).flatten)
      else
        let ms := ((block k).map fun x => [signedOf 16 x.re, signedOf 16 x.im]).flatten
        match renormFit (E.getD k (0, false)).1 ms with
        | some r => (r.1, r.2, 0)
        | Option.none => (signedOf 8 (Config.renormFree s.fresh k 0), (upFrom 1 64).map fun i => signedOf 16 (Config.renormFree s.fresh k i), 0)
    let rs := (upFrom 0 (n / 32)).map fun k => let r := one k; (pairUp (bad k) r.2.1, r.1, if bad k then 0 else r.2.2)
    let Y := (rs.map Prod.fst).flatten.toArray
    { writes := pointWrites e dst (fun _ => true) Y ++ exponentWrites e dst Y (rs.map fun r => r.2.1).toArray
      flags := rs.foldl (fun f r => f ||| r.2.2) 0, top := 0, failed := failed }

/-- An entry's outcome over the regions as they stand. -/
def State.transformOut (s : State) (e : TransformEntry) : XOut :=
  match e.op with
  | .twid base root count => twiddleOut e base root count
  | .stage base table first count span quad dit pair rec => s.stageOut e base.toNat table.toNat first count span quad dit pair rec
  | .perm dst src rs stride => s.permOut e dst.toNat src.toNat rs stride
  | .point dst a b conj bcast => s.productOut e dst.toNat a.toNat b.toNat conj bcast
  | .norm dst src dir => s.normOut e dst.toNat src.toNat dir

/-! ## Posting (R288, R296) -/

/-- A slot set's transform queue of a cell. -/
def CellState.tq (C : CellState) (t : Nat) : List TransformEntry := if t = 0 then C.tq0 else C.tq1

/-- It replaced. -/
def CellState.putTq (C : CellState) (t : Nat) (l : List TransformEntry) : CellState := if t = 0 then { C with tq0 := l } else { C with tq1 := l }

/-- The transform entries of a group. -/
def State.transformsOf (s : State) (g : Nat) : List TransformEntry := ((s.cell (cellOf g)).tq (setOf g)).filter fun e => e.group == g

/-- The lowest byte of a region outside the group's parts, or its base, when a byte lies outside them (R296). -/
def State.regionOut (s : State) (g : Nat) (r : Word × Nat) : Option Word :=
  let va := r.1.toNat
  let win := va / 2 ^ 48
  let size := if win = 0xF0 then (s.group g).hold.cstore else (((s.slotSet (setOf g)).img.map Image.cpool).getD 0)
  if r.2 = 0 then none
  else if win ≠ 0xF0 ∧ win ≠ 0xF1 then some r.1
  else if va % 2 ^ 48 + r.2 ≤ size then none
  else some (BitVec.ofNat 64 (max va (win * 2 ^ 48 + size)))

/-- An entry posted after the checks of R296: `own` are the instruction's own rules, `regions` its regions and tables
with their lengths, of which all but the first `writes` are read; RANGE names the lowest byte of any of them. -/
def State.postTransform (s : State) (op : TransformOp) (own : Bool) (writes : Nat) (regions : List (Word × Nat)) (tk : TokenReq) : State :=
  let G := s.own
  let g := s.cur
  let C := s.cell (cellOf g)
  if bits G.xctl 0 5 = 0 ∨ (bits G.xctl 5 2 = 1 ∧ bits G.xctl 0 5 < 5) ∨ !own then s.illegal
  else
    match regions.find? fun r => r.1.toNat % 16 ≠ 0 with
    | some r => s.misaligned r.1
    | none =>
      match (regions.filterMap (s.regionOut g)).foldl (fun (m : Option Word) va => some ((m.map fun w => if va < w then va else w).getD va)) none with
      | some va => s.outOfRange va
      | none =>
        if (C.tq (setOf g)).length ≥ 16 then s.close
        else
          let e : TransformEntry :=
            { group := g, op := op, xctl := G.xctl, xmod := G.xmod, rm := G.rm, pc := G.pc, tok := tk, seq := G.seq, started := false
              reads := (regions.drop writes).filter fun r => r.2 ≠ 0 }
          (((s.putOwn { G with seq := G.seq + 1 }).putCell (cellOf g) (C.putTq (setOf g) (C.tq (setOf g) ++ [e]))).close).retire 8

/-- XTWID (R300). -/
def execXtwid (d a b : Reg) (tk : TokenReq) (s : State) : Res :=
  .next <|
    let mode := bits s.own.xctl 5 2
    let n := (s.x b).toNat
    s.postTransform (.twid (s.x d) (s.x a) n) (decide (n ≤ 2 ^ 24)) 1 [(s.x d, n * pointBytes mode)] tk

/-- XSTAGE (R297). -/
def execXstage (d a b : Reg) (tk : TokenReq) (sp : BitVec 5) (quad dit tm : Bool) (rc : BitVec 2) (s : State) : Res :=
  .next <|
    let mode := bits s.own.xctl 5 2
    let logn := bits s.own.xctl 0 5
    let n := 2 ^ logn
    let x := s.x b
    let f := bits x 0 24
    let c := bits x 24 24
    let all := if quad then n / 4 else n / 2
    let own := decide (bits x 48 16 = 0 ∧ f + c ≤ all ∧ sp.toNat + 1 ≤ logn ∧ (quad = true → 1 ≤ sp.toNat) ∧ (mode = 1 → f = 0 ∧ c = all) ∧
      (rc ≠ 0 → mode = 2))
    s.postTransform (.stage (s.x d) (s.x a) f c sp.toNat quad dit tm rc.toNat) own 0
      [(s.x d, regionBytes mode n), (s.x a, (if tm && quad then n else n / 2) * pointBytes mode)] tk

/-- Whether two regions of a length are disjoint. -/
def disjoint (a b : Word) (la lb : Nat) : Bool := decide (a.toNat + la ≤ b.toNat ∨ b.toNat + lb ≤ a.toNat)

/-- XPERM (R301). -/
def execXperm (d a : Reg) (tk : TokenReq) (rs : BitVec 5) (str : Bool) (s : State) : Res :=
  .next <|
    let mode := bits s.own.xctl 5 2
    let logn := bits s.own.xctl 0 5
    let len := regionBytes mode (2 ^ logn)
    let own := decide (s.x d = s.x a ∨ disjoint (s.x d) (s.x a) len len = true) && decide (str = true → 1 ≤ rs.toNat ∧ rs.toNat + 1 ≤ logn)
    s.postTransform (.perm (s.x d) (s.x a) rs.toNat str) own 1 [(s.x d, len), (s.x a, len)] tk

/-- XPOINT (R302). -/
def execXpoint (d a b : Reg) (tk : TokenReq) (conj bc : Bool) (s : State) : Res :=
  .next <|
    let mode := bits s.own.xctl 5 2
    let len := regionBytes mode (2 ^ bits s.own.xctl 0 5)
    let one := if mode = 1 then 5 else pointBytes mode
    s.postTransform (.point (s.x d) (s.x a) (s.x b) conj bc) (!(conj && decide (mode = 2))) 1
      [(s.x d, len), (s.x a, len), (s.x b, if bc then one else len)] tk

/-- XNORM (R303). -/
def execXnorm (d a : Reg) (tk : TokenReq) (dir : BitVec 2) (s : State) : Res :=
  .next <|
    let mode := bits s.own.xctl 5 2
    let n := 2 ^ bits s.own.xctl 0 5
    let ld := regionBytes (if dir = 1 then 0 else 1) n
    let la := regionBytes (if dir = 0 then 0 else 1) n
    let own := decide (mode = 1) && (disjoint (s.x d) (s.x a) ld la || decide (dir = 2 ∧ s.x d = s.x a))
    s.postTransform (.norm (s.x d) (s.x a) dir.toNat) own 1 [(s.x d, ld), (s.x a, la)] tk

/-! ## XCFG, XMODCHK, XSYNC (R304 to R306) -/

/-- XCFG (R304). -/
def execXcfg (d a b : Reg) (s : State) : Res :=
  .next <|
    let old := s.own.xctl
    let new := (old &&& ~~~(s.x b)) ||| (s.x a &&& s.x b)
    if new &&& ~~~(csrFields 0x006) ≠ 0 ∨ csrValueOk 0x006 new = false then s.illegal
    else (s.close.putOwn { s.close.own with xctl := new }).done d old 4

/-- XMODCHK (R305). -/
def execXmodchk (d a : Reg) (s : State) : Res :=
  .next <|
    let G := s.own
    let w := s.x a
    if !(s.transformsOf s.cur).isEmpty then s.close
    else
      let ma := if bitOf w 60 then max G.maxa.toNat (bits w 0 30) else G.maxa.toNat
      let mb := if bitOf w 60 then max G.maxb.toNat (bits w 30 30) else G.maxb.toNat
      if !bitOf w 61 ∧ G.pmark then s.raise 9 2 0
      else if !bitOf w 61 ∧ 2 * 2 ^ bits G.xctl 0 5 * ma * mb ≥ G.modulus then s.raise 9 1 0
      else
        let s1 := s.close
        let G1 := s1.own
        let G2 := if bitOf w 62 then { G1 with maxa := 0, maxb := 0, pmark := false }
          else { G1 with maxa := BitVec.ofNat 30 ma, maxb := BitVec.ofNat 30 mb }
        (s1.putOwn G2).done d (BitVec.ofNat 64 (mb * 2 ^ 30 + ma)) 4

/-- XSYNC (R306). -/
def execXsync (s : State) : Res :=
  .next <|
    if !(s.transformsOf s.cur).isEmpty then s.close
    else
      let s1 := s.close.flush s.cur
      if s1.own.async.isEmpty then s1.retire 4 else s1

/-! ## The engine (R289, R290, R292) -/

/-- The bytes that an entry accesses, by address and length: of an XSTAGE those of its butterflies alone (R289, R312). -/
def TransformEntry.touches (e : TransformEntry) : List (Nat × Nat) :=
  let n : Nat := 2 ^ e.logn
  let len := regionBytes e.mode n
  match e.op with
  | .twid base _ count => [(base.toNat, count * pointBytes e.mode)]
  | .stage base table first count span quad dit pair _ => stageReads e.mode n base.toNat table.toNat first count span quad dit pair
  | .perm dst src _ _ => [(dst.toNat, len), (src.toNat, len)]
  | .point dst a b _ bcast =>
    [(dst.toNat, len), (a.toNat, len), (b.toNat, if bcast then (if e.mode = 1 then 5 else pointBytes e.mode) else len)]
  | .norm dst src dir => [(dst.toNat, regionBytes (if dir = 1 then 0 else 1) n), (src.toNat, regionBytes (if dir = 0 then 0 else 1) n)]

/-- Whether a store that a group issued before an entry has not been applied at its place: it stands in a queue, or on its way to another
die or module (R290). -/
def Group.storesOlder (G : Group) (tok : TokenReq) (seq : Nat) : Bool :=
  G.slices.toList.any (fun l => l.any fun a => precedes tok seq a.seq) ||
  G.sent.any fun w => !w.msg && !w.path && precedes tok seq w.seq && (w.held.isSome || decide (8 ≤ w.die))

/-- An entry starts when nothing holds it: the state with it started. Its group's earlier entries have retired, its earlier stores are
applied and its asynchronous-path writes performed (R289, R290). -/
def State.tryStart (s : State) (c t : Nat) (before : List TransformEntry) (e : TransformEntry) : Option State :=
  let g := e.group
  if before.any (fun p => p.group == g) then none
  else
    let s1 := (s.flush g).drainThose g fun _ a => precedes e.tok e.seq a.seq
    let G := s1.group g
    let pop := match e.tok.pop with | some f => decide (G.fifos[f.toNat] = 0) | none => false
    let runs := (e.touches.map fun r => s1.engineRuns g r.1 r.2).flatten
    if G.storesOlder e.tok e.seq || !G.async.isEmpty || pop || s1.behind g runs then none
    else
      let C := s1.cell c
      some ((s1.putGroup g (G.popToken e.tok.pop)).putCell c (C.putTq t ((C.tq t).map fun q => if q = e then { e with started := true } else q)))

/-- The oldest entry that can proceed starts. -/
def State.startFrom (s : State) (c t : Nat) (before : List TransformEntry) : List TransformEntry → State
  | [] => s
  | e :: rest =>
    match s.tryStart c t before e with
    | some s1 => s1
    | none => State.startFrom s c t (before ++ [e]) rest

/-- TRANSFORM_ENTRY_START (R289, R292): the engine is free and the cell serves a context. -/
def execTransformEntryStart (c : BitVec 9) (s : State) : Res :=
  .next <|
    let C := s.cell c.toNat
    if (C.tq0 ++ C.tq1).any TransformEntry.started then s
    else
      let t := if s.serves 0 c.toNat then 0 else 1
      if s.serves t c.toNat then s.startFrom c.toNat t [] (C.tq t) else s

/-- An entry's effect: its writes on the asynchronous path, its flags, its record, its token (R289, R293, R298). -/
def State.finishTransform (s : State) (e : TransformEntry) : State :=
  let g := e.group
  let o := s.transformOut e
  let G := s.group g
  let rec_ := match e.op with | .stage _ _ _ _ _ _ _ _ r => r | _ => 0
  let top := BitVec.ofNat 30 o.top
  let G1 := { G.accrueTransform o.flags with
    async := G.async ++ o.writes
    maxa := if rec_ = 1 ∧ G.maxa < top then top else G.maxa
    maxb := if rec_ = 2 ∧ G.maxb < top then top else G.maxb
    pmark := G.pmark || (decide (rec_ ≠ 0) && o.failed.isSome) }
  let C := s.cell (cellOf g)
  let s1 := ({ s with fresh := s.fresh + 1 }.putGroup g (if G.over then G1 else G1.pushOpt e.tok.push)).putCell (cellOf g) (C.putTq (setOf g) ((C.tq (setOf g)).erase e))
  match o.failed with
  | some va =>
    let line := va / 128 * 128
    let runs := (upFrom 0 128).map fun k => s.engineRuns g (line + k) 1
    let hard := runs.flatten.any fun r => s.uncorr.contains (r.1 / 8)
    s1.deliver g 0x13 (if hard then 1 else 2) (BitVec.ofNat 64 line)
  | none => s1

/-- TRANSFORM_ENTRY_RETIRE (R289): the started entry, when its push has room; a terminated group's entry pushes to no FIFO (R292, R316). -/
def execTransformEntryRetire (c : BitVec 9) (s : State) : Res :=
  .next <|
    let C := s.cell c.toNat
    match (C.tq0 ++ C.tq1).find? TransformEntry.started with
    | none => s
    | some e => if (s.group e.group).over || (s.group e.group).pushRoom e.tok.push then s.finishTransform e else s

end Sys2Proof.Machine
end

