-- ==== Sys2Proof/Machine/Fetch.lean ====
section
/-!
DEFINITION. Sys2Proof/Machine/Fetch.lean: the fetch of an instruction's words, the interlocks that stall it, and whether a
group's next instruction is ready (spec/02_formats R26 to R28, R36; spec/07_group R133, R144; spec/09_vector R190, R192,
R197; spec/12_tile R263; spec/16_order R487).
-/

namespace Sys2Proof.Machine

/-! ## Fetch (R26, R27) -/

/-- What a fetch gives: the first word with the second, 0 for a short instruction; or a trap; or a wait. -/
inductive Words where
  | words (w1 w2 : Nat)
  | trap (code sub : Nat) (addr : Word)
  | wait
  deriving DecidableEq, Repr

/-- Where a word of an instruction lies: its runs, or the trap or wait of its translation. A word of a window address beyond the
group's part raises RANGE with the word's address, and readFor raises LINKFAIL with SUB 2 for a word without a route (DESIGN CHOICE,
notes/assumptions/73). -/
def State.lookWord (s : State) (g : Nat) (va : Word) : State × Except Words (List (Nat × Nat)) :=
  match s.look g .fetch va.toNat 4 with
  | (s1, .here runs _) => (s1, .ok runs)
  | (s1, .fail sub) => (s1, .error (.trap 4 sub va))
  | (s1, .range) => (s1, .error (.trap 6 0 va))
  | (s1, .wait) => (s1, .error .wait)

/-- A word's data, which the fetch reads as a load does. -/
def State.readWord (s : State) (g : Nat) (va : Word) (runs : List (Nat × Nat)) : State × Except Words Nat :=
  match s.readFor g va runs with
  | (s1, .data b) => (s1, .ok (natOfBytes b))
  | (s1, .trap code sub addr) => (s1, .error (.trap code sub addr))
  | (s1, .wait) => (s1, .error .wait)

/-- The words at a group's PC (R27): the first word says whether a second follows; both are translated before UNCORR of
either is raised. A word that has been stored to is read as memory holds it at the fetch, one of the two values that R28 allows (DESIGN
CHOICE, notes/assumptions/74). -/
def State.fetchWords (s : State) (g : Nat) : State × Words :=
  let pc := (s.group g).pc
  match s.lookWord g pc with
  | (s1, .error w) => (s1, w)
  | (s1, .ok runs) =>
    match s1.readWord g pc runs with
    | (s2, .error (.trap code sub addr)) =>
      if bitOf (BitVec.ofNat 64 (natOfBytes ((s2.runsBytes g runs).getD (s2.readRuns runs)))) 0 then
        match s2.lookWord g (pc + 4) with
        | (s3, .error w) => (s3, w)
        | (s3, .ok _) => (s3, .trap code sub addr)
      else (s2, .trap code sub addr)
    | (s2, .error w) => (s2, w)
    | (s2, .ok w1) =>
      if w1 % 2 = 0 then (s2, .words w1 0)
      else
        match s2.lookWord g (pc + 4) with
        | (s3, .error w) => (s3, w)
        | (s3, .ok runs2) =>
          match s3.readWord g (pc + 4) runs2 with
          | (s4, .error w) => (s4, w)
          | (s4, .ok w2) => (s4, .words w1 w2)

/-! ## Interlocks -/

/-- Whether a member is still to write one of some x registers at its end. -/
def Member.holds (m : Member) (rs : List Reg) : Bool :=
  !m.complete && (match m.xdst with | some r => decide (r ≠ 0) && rs.contains r | none => false)

/-- Whether a member of a convoy still in the vector queue is to write one of some x registers (R190). -/
def Group.xHeld (G : Group) (rs : List Reg) : Bool := G.convoys.any fun c => c.members.any fun m => m.holds rs

/-- Whether a member of the open convoy writes one of them, so that the stall ends that convoy (R38, R192). In serial mode the member may have
completed already, and with VL = 0 it has nothing to do: convoys end as they do in the other mode (R197). -/
def Group.xHeldOpen (G : Group) (rs : List Reg) : Bool :=
  G.convoys.any fun c => !c.ended && c.members.any fun m => match m.xdst with | some r => decide (r ≠ 0) && rs.contains r | none => false

/-- Whether a vector instruction in serial mode has not completed, which the group's next instruction awaits (R197). -/
def Group.serialBusy (G : Group) : Bool := G.convoys.any fun c => c.members.any fun m => m.serial && !m.complete

/-- Whether a member of a convoy has not completed. -/
def Group.vectorBusy (G : Group) : Bool := G.convoys.any fun c => c.members.any fun m => !m.complete

/-- A read of VXSTAT, which waits for every earlier vector instruction (R76): CSRW, CSRS and CSRC return the old value too. -/
def readsFlags : Instr → Bool
  | .csrr _ n => decide (n = 0x003)
  | .csrw _ _ n => decide (n = 0x003)
  | .csrs _ _ n => decide (n = 0x003)
  | .csrc _ _ n => decide (n = 0x003)
  | _ => false

/-- LD, ST and the atomics of major 0x1C, which enter a slice queue themselves (R159). -/
def scalarAccess : Instr → Bool
  | .ld .. => true
  | .ldLong .. => true
  | .st .. => true
  | .stLong .. => true
  | .amoadd .. => true
  | .amomin .. => true
  | .amomax .. => true
  | .amoand .. => true
  | .amoor .. => true
  | .amoxor .. => true
  | .amoswap .. => true
  | .amocas .. => true
  | _ => false

/-- Whether elements of a vector load or store have still to enter their slice queues, which a scalar access awaits (R159). -/
def Group.vectorAccesses (G : Group) : Bool :=
  G.convoys.any fun c => c.members.any fun m => decide (m.pipe = .ld ∨ m.pipe = .st) && !m.complete

/-- Whether two vector groups share a register. -/
def groupsMeet (a la b lb : Nat) : Bool := decide (a < b + lb ∧ b < a + la)

/-- Whether an ACCMV entry of the group is still to write one of some vector groups (R263). -/
def State.accmvHeld (s : State) (g : Nat) (rs : List Reg) : Bool :=
  let l := (s.group g).lmul
  (s.entriesOf g).any fun e =>
    !e.effected && match e.op with
    | .accmv vd _ _ => rs.any fun r => groupsMeet r.toNat l vd.toNat (2 ^ bits e.vcfg 0 2)
    | _ => false

/-- Whether the executing group's instruction meets no interlock: no x register of it is still to be written by a
convoy member, no vector group of it by an ACCMV, no load's data are to come, no serial instruction is still at
work, no vector access is before it, and no vector instruction before a read of the flags. -/
def State.free (s : State) (i : Instr) : Bool :=
  !s.own.xHeld (xUses i) && !s.own.xHeldOpen (xUses i) && !s.accmvHeld s.cur (vUses i) && s.own.late.isNone && !s.own.serialBusy &&
  !(scalarAccess i && s.own.vectorAccesses) && !(readsFlags i && s.own.vectorBusy)

/-- Whether an instruction's stall ends the open convoy: a member of it writes an x register of the instruction, or its vector accesses or
flags come first (R38, R76, R159, R192). -/
def State.endsConvoy (s : State) (i : Instr) : Bool :=
  s.own.xHeldOpen (xUses i) || (scalarAccess i && s.own.vectorAccesses) || (readsFlags i && s.own.vectorBusy)

/-- Whether the executing group's instruction goes on past a load whose data are to come (R487). -/
def State.passes (s : State) (i : Instr) : Bool :=
  match s.own.late with
  | some l => mayPass i && !((xUses i).contains l.d && decide (l.d ≠ 0)) && !s.own.xHeld (xUses i) && decide (s.own.xen = 0) && !s.endsConvoy i
  | none => false

/-! ## Readiness (R133, R144) -/

/-- Whether the queue that an instruction enters, told by its first word's major and minor (R33), has room for it. -/
def State.roomFor (s : State) (g w1 : Nat) : Bool :=
  let major := w1 / 2 % 128
  let minor := w1 / 2 ^ 23 % 8
  let C := s.cell (cellOf g)
  if 0x21 ≤ major ∧ major ≤ 0x31 then !(s.group g).vqFull
  else if 0x50 ≤ major ∧ major ≤ 0x52 ∧ ¬(major = 0x51 ∧ 3 ≤ minor) then decide (C.mq.length < 64)
  else if major = 0x5C ∧ 1 ≤ minor ∧ minor ≤ 5 then decide ((C.tq (setOf g)).length < 16)
  else true

/-- Whether a group is Running and its next instruction's words are there, no data that it has asked for are still to come, and the queue
that the instruction enters has room. -/
def State.fetched (s : State) (g : Nat) : Bool :=
  let G := s.group g
  decide (G.phase = .running ∨ G.phase = .placed) && G.barPending.isNone &&
  (match G.dataWait with | some w => w.arrived | none => true) &&
  (match { s with cur := g }.fetchWords g with
   | (s1, .words w1 _) => s1.roomFor g w1
   | (_, .trap _ _ _) => true
   | (_, .wait) => false)

/-- Whether a group's next instruction is ready: it is fetched and meets no interlock, or goes on past the load that it would meet (R133;
notes/assumptions/40). A group that GYIELD has passed over may be ready: the set S of another's GYIELD takes it in (R144). -/
noncomputable def State.ready (s : State) (g : Nat) : Bool :=
  s.fetched g && (match { s with cur := g }.fetchWords g with
    | (s1, .words w1 w2) => (match decodeWords w1 w2 with | .ok i => s1.free i || s1.passes i | .error _ => true)
    | _ => true)

end Sys2Proof.Machine
end

