-- ==== Sys2Proof/Machine/Message.lean ====
section
/-!
DEFINITION. Sys2Proof/Machine/Message.lean: the receive engines, the drip tray, and the message instructions and
events (spec/20_message R424 to R445). An engine's die is that of its number; `SRC` carries the global die.
-/

namespace Sys2Proof.Machine

/-! ## Engines and matching (R424 to R429) -/

/-- The key of the receive engine of a die for a slot set. -/
def recvKey (die set : Nat) : Nat := die * 2 + set

/-- A receive engine. -/
def State.receiver (s : State) (k : Nat) : Receiver := s.receivers.findD k Receiver.fresh

/-- The state with a receive engine replaced. -/
def State.putReceiver (s : State) (k : Nat) (R : Receiver) : State := { s with receivers := s.receivers.put k R }

/-- SRC of a group (R425). -/
def messageSource (g : Nat) : BitVec 32 :=
  BitVec.ofNat 32 (setOf g * 2 ^ 23 + slotOf g * 2 ^ 21 + cellOf g % 64 * 2 ^ 15 + (8 * ownModule + dieOf g))

/-- Whether a message matches SRC, SMASK, TAG and TMASK. -/
def matchFields (src smask tag tmask : BitVec 32) (m : Msg) : Bool :=
  decide ((m.src ^^^ src) &&& smask = 0) && decide ((m.tag ^^^ tag) &&& tmask = 0)

/-- Whether a message matches a receive. -/
def Recv.takes (r : Recv) (m : Msg) : Bool := matchFields r.src r.smask r.tag r.tmask m

/-- The bytes that a message takes in the tray (R434). -/
def Msg.size (m : Msg) : Nat := 128 + (m.payload.length + 127) / 128 * 128

/-- Whether a message lies in the spill area (R434). -/
def Msg.spilled (m : Msg) : Bool := m.spill.isSome && !m.handed

/-- The bytes of the share in use, and of the spill area, where a message stays until it has landed (R434, R445). -/
def Receiver.shareUsed (R : Receiver) : Nat := ((R.tray.filter fun m => m.spill.isNone && !m.handed).map Msg.size).sum
def Receiver.spillUsed (R : Receiver) : Nat := (((R.tray ++ R.landing.map Prod.snd).filter Msg.spilled).map Msg.size).sum

/-- The context's conductor group, while it has not ended (R123, R435). -/
def State.conductorOf (s : State) (t : Nat) : Option Nat :=
  ((upFrom 0 4).map fun k => groupCode 511 t k).find? fun g =>
    match s.groups.find g with
    | some G => decide (G.kernid = 0) && decide (G.phase ≠ .ended) && decide (G.phase ≠ .terminated)
    | none => false

/-- DRIPFULL raised to the conductor (R435, R436). -/
def State.dripFull (s : State) (t sub : Nat) (addr : Word) : State :=
  match s.conductorOf t with
  | some g => s.deliver g 0xE sub addr
  | none => s

/-! ## Landing (R427, R431, R437) -/

/-- Where an engine of a die writes `n` bytes: a place of its own die, or the sub-code of MSGFAULT, or a wait for
translation. -/
def State.landingAt (s : State) (die t : Nat) (va : Word) : State × Except (Option Nat) Nat :=
  if inWindow va.toNat then (s, .error (some 4))
  else
    let r := s.translate t die none .store va.toNat
    let s1 := { s with tr := r.1 }
    match r.2 with
    | .wait => (s1, .error none)
    | .fail 2 => (s1, .error (some 2))
    | .fail _ => (s1, .error (some 1))
    | .ok pa _ _ => if paHost pa || paModule pa || decide (paDie pa ≠ die) then (s1, .error (some 4)) else (s1, .ok pa)

/-- The pattern of a receive's tensor. -/
def Recv.pattern (r : Recv) : Channel := { Channel.free with base := r.dest, n := r.n, s := r.s, esz := r.esz }

/-- The places of a landing, element by element, up to the first failure: none while a translation is awaited. -/
def State.landingRuns (s : State) (die t : Nat) (r : Recv) : Nat → Nat → Nat → List (Nat × Nat) →
    State × Option (List (Nat × Nat) × Option (Nat × Word))
  | 0, _, _, acc => (s, some (acc, none))
  | k + 1, e, left, acc =>
    let va := r.pattern.elemAddr e
    match s.landingAt die t va with
    | (s1, .ok pa) => State.landingRuns s1 die t r k (e + 1) (left - min left r.esz) (acc ++ [(pa, min left r.esz)])
    | (s1, .error (some sub)) => (s1, some (acc, some (sub, va)))
    | (s1, .error none) => (s1, none)

/-- A receive handle's state replaced. -/
def Group.recvIs (G : Group) (slot : Nat) (st : RecvState) : Group :=
  { G with recvs := G.recvs.put slot { G.recvs.findD slot { gen := 0, st := none } with st := some st } }

/-- A flag word (R432). -/
def flagWord (status mlen landed : Nat) : Word := BitVec.ofNat 64 (2 ^ 63 + status * 2 ^ 56 + mlen * 2 ^ 32 + landed)

/-- A receive that is Complete: its record written, its handle told; a record that cannot be written raises MSGFAULT.
False while the record's translation is awaited (R431, R433, R437). -/
def State.completeRecv (s : State) (die t : Nat) (r : Recv) (first : Word) (flag : Word) : State × Bool :=
  let tell := fun (st : State) =>
    match r.group with
    | some g =>
      st.putGroup g ((st.group g).recvIs r.slot (.complete flag))
    | none => st
  match s.landingAt die t r.flaga with
  | (s1, .ok pa) => (tell (s1.write none pa (toBytes 8 first.toNat ++ toBytes 8 flag.toNat)), true)
  | (s1, .error none) => (s1, false)
  | (s1, .error (some _)) =>
    (match r.group with
     | some g => (tell s1).deliver g 0x15 3 r.flaga
     | none => s1, true)

/-- Where a message stands in the spill area of an engine (R434). -/
def State.spillAddr (s : State) (k : Nat) (off : Nat) : Nat :=
  ((s.slotSet (k % 2)).img.map fun im => im.spillBase + k / 2 * im.spillStep + off).getD 0

/-- The first `n` bytes of a message's payload: kept by the engine, or read from the spill area, where a byte that does not translate or
holds bad data stops the landing (R434, R437; notes/assumptions/71). None while a translation is awaited. -/
def State.payloadOf (s : State) (k : Nat) (m : Msg) (n : Nat) : State × Option (List Byte × Option (Nat × Word)) :=
  match m.spilled, m.spill with
  | true, some off =>
    let va := s.spillAddr k off + 128
    let one := fun (x : Nat) => (s.translate (k % 2) (k / 2) none .load x).2
    let cut := fun (s1 : State) =>
       let good := (upFrom 0 n).takeWhile fun i => match one (va + i) with | .ok pa _ _ => !s1.runsBad [(pa, 1)] | _ => false
       let at_ := va + good.length
       let sub := match one at_ with | .fail 2 => 2 | _ => 1
       (s1, some ((good.map fun i => match one (va + i) with | .ok pa _ _ => s1.readAt pa 1 | _ => []).flatten, some (sub, BitVec.ofNat 64 at_)))
    (match s.pageRuns (k % 2) (k / 2) none .load 0 (n / 4096 + 2) va n with
     | (s1, .here runs _) => if s1.runsBad runs then cut s1 else (s1, some (s1.readRuns runs, none))
     | (s1, .wait) => (s1, none)
     | (s1, _) => cut s1)
  | _, _ => (s, some (m.payload.take n, none))

/-- The first word of a record: SRC and tag of the message. -/
def Msg.firstWord (m : Msg) : Word := BitVec.ofNat 64 (m.src.toNat + m.tag.toNat * 2 ^ 32)

/-- The end of a landing (R431, R437): `gone` says that the sender's link was lost, which one on the engine's own die has none of. MSGFAULT
of the landing comes before that of the record, which merges with it (R139). -/
def State.land (s : State) (k : Nat) (r : Recv) (m : Msg) (gone : Bool) : State :=
  let die := k / 2
  let t := k % 2
  let lost := gone && (m.sender.map dieOf) != some die
  let want := min m.payload.length r.count
  match s.payloadOf k m (if lost then Config.landedBytes s.fresh % (want + 1) else want) with
  | (s0, none) => s0
  | (s0, some (bytes, broken)) =>
    let n := bytes.length
    match s0.landingRuns die t r ((n + r.esz - 1) / r.esz) 0 n [] with
    | (s1, none) => s1
    | (s1, some (runs, bad0)) =>
      let bad := bad0.or broken
      let landed := (runs.map Prod.snd).sum
      let s2 := s1.writeRuns none none none runs (bytes.take landed)
      let status := if bad.isSome then 2 else if lost then 3 else if m.payload.length > r.count then 1 else 0
      let s3 := match bad, r.group with
        | some (sub, va), some g => s2.deliver g 0x15 sub va
        | _, _ => s2
      match s3.completeRecv die t r m.firstWord (flagWord status m.payload.length landed) with
      | (_, false) => s1
      | (s4, true) =>
        let s5 := match lost, m.sender with
          | true, some g => if bad.isNone then s4.deliver g 0xF 1 m.addr else s4
          | _, _ => s4
        let R := s5.receiver k
        { s5.putReceiver k { R with landing := R.landing.erase (r, m) } with fresh := s5.fresh + 1 }

/-- MESSAGE_LANDING_COMPLETE (R431): the landing of a number among those in progress. -/
def execMessageLandingComplete (e : BitVec 3) (t : BitVec 1) (ix : Nat) (lost : Bool) (s : State) : Res :=
  .next <|
    let k := recvKey e.toNat t.toNat
    match (s.receiver k).landing[ix]? with
    | some (r, m) => s.land k r m lost
    | none => s

/-- A message that a receive takes goes to landing, as the receive's handle then shows (R428, R429, R433). -/
def State.takeMessage (s0 : State) (k : Nat) (r : Recv) (m : Msg) : State :=
  let s := match r.group with | some g => s0.putGroup g ((s0.group g).recvIs r.slot .landing) | none => s0
  let R := s.receiver k
  s.putReceiver k { R with landing := R.landing ++ [(r, m)] }

/-- A message of the tray asked back from the host, which has it (R436, R452). -/
def State.askBack (s : State) (k : Nat) (m : Msg) : State :=
  let q := s.newRequest (.spill (k / 2) (k % 2))
  let R := q.1.receiver k
  (q.1.putReceiver k { R with waitingHost := R.waitingHost.filter (fun w => w.1 != m) ++ [(m, q.2)] }).post
    { kind := 4, set := k % 2, id := q.2
      body := leCells 8 8 (m.spill.getD 0) ++ leCells 16 4 m.payload.length ++ leCells 20 1 (k / 2) }

/-! ## Arrival and the tray (R428, R430, R434 to R438) -/

/-- Whether the engine accepts a message for a slot set (R438). -/
def State.acceptsCtx (s : State) (t ctx : Nat) : Bool :=
  let S := s.slotSet t
  decide (S.st = .active ∨ S.st = .preempting ∨ S.st = .standby) && decide (S.num = ctx)

/-- The places in use of an engine's spill area, and of the host's buffer, which the engines of a context's dies share (R434, R436,
R452). -/
def Receiver.spillPlaces (R : Receiver) (host : Bool) : List (Nat × Nat) :=
  (R.tray ++ R.landing.map Prod.snd).filterMap fun m => if m.handed = host then m.spill.map fun o => (o, m.size) else none
def State.spillPlaces (s : State) (k : Nat) (host : Bool) : List (Nat × Nat) :=
  if host then ((s.receivers.filter fun e => decide (e.1 % 2 = k % 2)).map fun e => e.2.spillPlaces true).flatten else (s.receiver k).spillPlaces false

/-- The offset of a new message in the spill area, or in the host's buffer. -/
def State.spillRoom (s : State) (k : Nat) (host : Bool) (size need : Nat) : Option Nat :=
  match allocate (s.spillPlaces k host) 0 size 128 need with
  | [(o, n)] => if n = need then some o else none
  | _ => none

/-- A message put into the drip tray: the state, or whether the tray is full, with the failing spill address when a
spill failed; none while the spill area's translation is awaited. -/
inductive TrayOut where
  | stored (s : State)
  | full (s : State)
  | broken (s : State) (addr : Word)
  | later (s : State)

/-- R434 to R436 for an unexpected message: the tray is full while spilling is paused, also for one that the share could hold. -/
def State.storeMessage (s : State) (k : Nat) (m : Msg) : TrayOut :=
  let R := s.receiver k
  let die := k / 2
  let t := k % 2
  match (s.slotSet t).img with
  | none => .full s
  | some im =>
    if R.paused then .full s
    else if R.shareUsed + m.size ≤ im.dquotaOn die then .stored (s.putReceiver k { R with tray := R.tray ++ [m] })
    else if im.spillOn die = 0 then .full s
    else
      match s.spillRoom k im.hostSpill (if im.hostSpill then im.hostSpillSize else im.spillOn die) m.size with
      | none => .full s
      | some off =>
        if im.hostSpill then
          let pa := 2 ^ 51 + im.hostSpillAddr + off
          let m1 := { m with spill := some off, handed := true }
          match s.hostAccess t pa m.payload.length with
          | (s1, .wait) => .later s1
          | (s1, .fail _) => .broken s1 0
          | (s1, .ok _ _ _) =>
            .stored (((s1.write none pa m.payload).putReceiver k { R with tray := R.tray ++ [m1] }).post
              { kind := 3, set := t, id := 0
                body := leCells 8 8 off ++ leCells 16 4 m.payload.length ++ leCells 20 4 m.src.toNat ++ leCells 24 4 m.tag.toNat ++ leCells 28 1 die })
        else
          let va := s.spillAddr k off
          match s.pageRuns t die none .atomic 0 (m.size / 4096 + 2) va m.size with
          | (s1, .here runs _) =>
            let s2 := s1.writeRuns none none none runs 
              ((upFrom 0 128).map (Config.spillByte s.fresh) ++ m.payload ++ (upFrom 128 (m.size - 128 - m.payload.length)).map (Config.spillByte s.fresh))
            .stored { s2.putReceiver k { R with tray := R.tray ++ [{ m with spill := some off }] } with fresh := s.fresh + 1 }
          | (s1, .wait) => .later s1
          | (s1, _) =>
            let bad := ((upFrom 0 m.size).find? fun i => match (s.translate t die none .atomic (va + i)).2 with | .ok _ _ _ => false | _ => true).getD 0
            .broken s1 (BitVec.ofNat 64 (va + bad))

/-- A refused message held at the link, with DRIPFULL when the tray begins to refuse (R435). -/
def State.refuse (s : State) (k : Nat) (m : Msg) : State :=
  let R := s.receiver k
  let s1 := s.putReceiver k { R with refused := R.refused ++ [m], refusals := R.refusals + 1, refusing := true }
  if R.refusing then s1 else s1.dripFull (k % 2) 1 (BitVec.ofNat 64 (8 * ownModule + k / 2))

/-- A message that enters the engine: matched, stored or refused; false while it has to wait for a translation. -/
def State.enter (s : State) (k : Nat) (m : Msg) : State × Bool :=
  let R := s.receiver k
  if !s.acceptsCtx (k % 2) m.ctx then (s, true)
  else if R.refused.any fun q => q.src == m.src then (s.putReceiver k { R with refused := R.refused ++ [m] }, true)
  else
    match R.posts.find? fun r => r.takes m with
    | some r => ((s.putReceiver k { R with posts := R.posts.erase r }).takeMessage k r m, true)
    | none =>
      match s.storeMessage k m with
      | .stored s1 => (s1.putReceiver k { s1.receiver k with refusing := false }, true)
      | .full s1 => (s1.refuse k m, true)
      | .broken s1 addr =>
        let R1 := s1.receiver k
        ((s1.putReceiver k { R1 with paused := true, refused := R1.refused ++ [m], refusals := R1.refusals + 1, refusing := true }).dripFull
          (k % 2) 2 addr, true)
      | .later s1 => (s1, false)

/-- Whether no earlier message of the same group to the same engine and set is still on its way (R430). -/
def firstOfSource (l : List FlyMsg) (ix : Nat) (f : FlyMsg) : Bool :=
  !((l.take ix).any fun q => q.msg.src == f.msg.src && q.die == f.die && q.set == f.set)

/-- A message of another module on its way to its engine. -/
def flyOf (m : RemoteMessage) : FlyMsg :=
  { die := m.die % 8, set := m.set % 2
    msg := { src := BitVec.ofNat 32 m.src, tag := BitVec.ofNat 32 m.tag, payload := m.payload.take (2 ^ 20), sender := none, addr := 0, ctx := m.ctx
             spill := none, handed := false, back := false } }

/-- Whether a link in Retraining holds a message on its way to an engine, and whether its way is lost (R403, R405). -/
def State.messageHeld (s : State) (m : Msg) (die : Nat) : Bool :=
  let from_ := m.src.toNat % 2 ^ 15
  if from_ / 8 = ownModule then s.heldRoute (from_ % 8) die else s.heldEntry die (from_ / 8)
def State.messageLost (s : State) (m : Msg) (die : Nat) : Bool :=
  let from_ := m.src.toNat % 2 ^ 15
  if from_ / 8 = ownModule then from_ % 8 != die && s.noRoute (from_ % 8) die else s.noEntry die (from_ / 8)

/-- A message of a number among those on their way reaches its engine, unless a link in Retraining holds it (R403); one that has lost its way
raises LINKFAIL to its sender (R405, R409). -/
def State.arriveMessage (s : State) (ix : Nat) : State :=
  match s.flying[ix]? with
  | none => s
  | some f =>
    if s.messageLost f.msg f.die then
      let s1 := { s with flying := s.flying.eraseIdx ix }
      match f.msg.sender with
      | some g => s1.deliver g 0xF 2 f.msg.addr
      | none => s1
    else if s.messageHeld f.msg f.die then s
    else if firstOfSource s.flying ix f then
      match s.enter (recvKey f.die f.set) f.msg with
      | (s1, true) => { s1 with flying := s1.flying.eraseIdx ix }
      | (s1, false) => s1
    else s

/-- MESSAGE_ARRIVAL (R428): one of this module's messages, or one of another module. -/
def execMessageArrival (ix : Nat) (ext : Option RemoteMessage) (s : State) : Res :=
  .next <|
    match ext with
    | none => s.arriveMessage ix
    | some m => ({ s with flying := s.flying ++ [flyOf m] }).arriveMessage s.flying.length

/-- RETRY_TICKET_CALL (R435, R438): the first refused message, when it can now be taken and no link in Retraining holds it. -/
def execRetryTicketCall (e : BitVec 3) (t : BitVec 1) (s : State) : Res :=
  .next <|
    let k := recvKey e.toNat t.toNat
    let R := s.receiver k
    match R.refused with
    | [] => s
    | m :: rest =>
      let s1 := s.putReceiver k { R with refused := rest }
      if !s.acceptsCtx t.toNat m.ctx then s1
      else if s.messageHeld m e.toNat then s
      else
        match R.posts.find? fun r => r.takes m with
        | some r => (s1.putReceiver k { R with refused := rest, posts := R.posts.erase r }).takeMessage k r m
        | none =>
          match s1.storeMessage k m with
          | .stored s2 => s2.putReceiver k { s2.receiver k with refusing := !rest.isEmpty }
          | .full _ => s
          | .broken s2 addr =>
            let R2 := s2.receiver k
            (s2.putReceiver k { R2 with refused := m :: R2.refused, paused := true }).dripFull t.toNat 2 addr
          | .later s2 => s2.putReceiver k { s2.receiver k with refused := R.refused }

/-- The host's answer to a spill return request (R436, R450): the message comes back from the host's buffer to its place in the tray, where the
MPOST that waits for it finds it, or spilling pauses. False while the access to the buffer awaits its ATS translation; one that fails counts as
a refusal (R446). -/
def State.spillAnswer (s : State) (id : Nat) (refused : Bool) : State × Bool :=
  match s.port.requests.find id with
  | some (.spill die t) =>
    let k := recvKey die t
    let R := s.receiver k
    let close := fun (st : State) => { st with port := { st.port with requests := st.port.requests.drop id } }
    match R.waitingHost.find? fun w => w.2 == id with
    | none => (close s, true)
    | some (m, _) =>
      let base := 2 ^ 51 + ((s.slotSet t).img.map Image.hostSpillAddr).getD 0 + m.spill.getD 0
      let pause := fun (st : State) =>
        (((close st).putReceiver k { R with paused := true, waitingHost := R.waitingHost.map fun w => if w.2 = id then (w.1, 0) else w }).dripFull t 2 0,
          true)
      if refused then pause s
      else
        match s.hostAccess t base m.payload.length with
        | (s1, .wait) => (s1, false)
        | (s1, .fail _) => pause s1
        | (s1, .ok _ _ _) =>
          let m1 := { m with payload := s1.readAt base m.payload.length, back := true, spill := none }
          ((close s1).putReceiver k { R with waitingHost := R.waitingHost.filter (fun w => w.2 != id), tray := R.tray.map fun q => if q = m then m1 else q },
            true)
  | _ => (s, true)

/-- SPILL_DEADLINE (R436): the host has not answered in time. -/
def execSpillDeadline (id : BitVec 32) (s : State) : Res := .next (s.spillAnswer id.toNat true).1

/-- Spill return requests posted anew for messages that have none open. -/
def State.askAgain (s : State) (k : Nat) : State :=
  (s.receiver k).waitingHost.foldl (fun st w => if w.2 ≠ 0 then st else st.askBack k w.1) s

/-! ## Handles (R433, R439) -/

/-- The slot that a group's handle names, when the group holds it. -/
def Group.recvHeld (G : Group) (h : Word) : Option (Nat × RecvState) :=
  let slot := bits h 0 6
  match G.recvs.find slot with
  | some q => if h = BitVec.ofNat 64 (q.gen * 256 + slot) then q.st.map fun st => (slot, st) else none
  | none => none

/-- A handle released. -/
def Group.dropRecv (G : Group) (slot : Nat) : Group :=
  { G with recvs := G.recvs.put slot { G.recvs.findD slot { gen := 0, st := none } with st := none } }

/-- The lowest free handle slot of a group. -/
def Group.freeRecv (G : Group) : Option Nat :=
  (upFrom 0 64).find? fun k => ((G.recvs.find k).bind RecvSlot.st).isNone

/-! ## MPOST and MPROBE (R440, R443) -/

/-- A number of a descriptor. -/
def descNat (d : List Byte) (lo n : Nat) : Nat := natOfBytes (takeBytes d lo n)

/-- A receive of a descriptor's bytes (R426). -/
def recvOf (d : List Byte) (z : Nat) (g slot : Nat) : Recv :=
  { group := some g, slot := slot, dest := BitVec.ofNat 64 (descNat d 0 8), flaga := BitVec.ofNat 64 (descNat d 8 8)
    src := BitVec.ofNat 32 (descNat d 16 4), smask := BitVec.ofNat 32 (descNat d 20 4), tag := BitVec.ofNat 32 (descNat d 24 4)
    tmask := BitVec.ofNat 32 (descNat d 28 4), count := descNat d 32 4, n := (upFrom 0 4).map fun k => descNat d (36 + 2 * k) 2
    s := (upFrom 0 4).map fun k => sext64 32 (descNat d (44 + 4 * k) 4), esz := z }

/-- The rules of R426 and R440 on a descriptor. -/
def Recv.ok (r : Recv) (d : List Byte) : Bool :=
  decide (descNat d 60 4 = 0) && decide (r.src.toNat < 2 ^ 24) && decide (r.smask.toNat < 2 ^ 24) && decide (r.count ≤ 2 ^ 20) &&
  r.n.all (fun k => decide (k ≠ 0)) && decide (r.dest.toNat % r.esz = 0) && r.s.all (fun k => decide (k.toNat % r.esz = 0)) &&
  decide (r.count ≤ r.n.foldl (· * ·) 1 * r.esz)

/-- MPOST (R440). One that finds a message which the host has waits until the host has returned it (R436). -/
def execMpost (d a : Reg) (esz : BitVec 3) (s : State) : Res :=
  .next <|
    let g := s.cur
    let va := s.x a
    if va.toNat % 64 ≠ 0 then s.misaligned va
    else
      match s.close.loadWide g va 64 with
      | (s1, .wait) => s1
      | (s1, .trap code sub addr) => s1.raise code sub addr
      | (s1, .data b) =>
        let G := s1.own
        let k := recvKey (dieOf g) (setOf g)
        let R := s1.receiver k
        let slot := G.freeRecv
        let r := recvOf b (2 ^ esz.toNat) g (slot.getD 0)
        if !r.ok b then s1.illegal
        else if r.flaga.toNat % 16 ≠ 0 then s1.misaligned r.flaga
        else
          match slot with
          | none => s1.done d 2 8
          | some slot =>
            if R.posts.length ≥ 1024 then s1.done d 1 8
            else
              let gen := (((G.recvs.find slot).map RecvSlot.gen).getD 0) % 255 + 1
              let hold := fun (st : RecvState) => s1.putOwn { G with recvs := G.recvs.put slot { gen := gen, st := some st } }
              let handle := BitVec.ofNat 64 (gen * 256 + slot)
              match R.tray.find? fun m => r.takes m with
              | some m =>
                if m.handed && !m.back then (if R.waitingHost.any fun w => w.1 == m then s1 else s1.askBack k m)
                else (((hold .landing).putReceiver k { R with tray := R.tray.erase m }).takeMessage k r m).done d handle 8
              | none => ((hold .posted).putReceiver k { R with posts := R.posts ++ [r] }).done d handle 8

/-- MPROBE (R443). -/
def execMprobe (d a : Reg) (s : State) : Res :=
  .next <|
    let g := s.cur
    let va := s.x a
    if va.toNat % 64 ≠ 0 then s.misaligned va
    else
      match s.close.loadWide g va 64 with
      | (s1, .wait) => s1
      | (s1, .trap code sub addr) => s1.raise code sub addr
      | (s1, .data b) =>
        let r := recvOf b 1 g 0
        if r.src.toNat ≥ 2 ^ 24 ∨ r.smask.toNat ≥ 2 ^ 24 then s1.illegal
        else
          let hi := d + 1
          match (s1.receiver (recvKey (dieOf g) (setOf g))).tray.find? fun m => r.takes m with
          | some m => (s1.setX hi (m.tag.setWidth 64)).done d (BitVec.ofNat 64 (2 ^ 63 + m.payload.length * 2 ^ 32 + m.src.toNat % 2 ^ 23)) 4
          | none => (s1.setX hi 0).done d 0 4

/-! ## MSEND (R441) -/

/-- The lowest of `n` bytes that an access test fails for. -/
def firstByte (n : Nat) (va : Word) (bad : Word → Bool) : Word :=
  va + BitVec.ofNat 64 (((upFrom 0 n).find? fun i => bad (va + BitVec.ofNat 64 i)).getD 0)

/-- A read of many bytes with the address of the first that fails (R241, R243): every earlier store of the group first. -/
def State.readLong (s : State) (g : Nat) (va : Word) (n : Nat) : State × Got :=
  if n = 0 then (s, .data [])
  else
    let s1 := s.drainAll g
    if !((upFrom 0 4).all fun q => s1.sliceClear g q []) then (s1, .wait)
    else
      let spot := fun (x : Word) => (s1.look g .load x.toNat 1).2
      match s1.look g .load va.toNat n with
      | (s2, .range) => (s2, .trap 6 0 (firstByte n va fun x => decide (spot x = .range)))
      | (s2, .fail sub) => (s2, .trap 4 sub (firstByte n va fun x => match spot x with | .fail _ => true | _ => false))
      | (s2, .wait) => (s2, .wait)
      | (s2, .here runs _) =>
        if s2.tileBusy g runs then (s2, .wait)
        else
          match s2.readFor g va runs with
          | (s3, .trap 0xC sub _) =>
            let spoilt := fun (l : List (Nat × Nat)) => ((s3.group g).dataWait.map fun w => w.spoilt l).getD false
            (s3, .trap 0xC sub (firstByte n va fun x => s3.runsBad (spot x).runs || spoilt (spot x).runs))
          | other => other

/-- A message handed to the fabric. -/
def State.sendMessage (s : State) (gdie set ctx : Nat) (here : Option Nat) (va : Word) (tag : BitVec 32) (data : List Byte) : State :=
  let g := s.cur
  match here with
  | some die =>
    { s with flying := s.flying ++ [{ die := die, set := set, msg :=
      { src := messageSource g, tag := tag, payload := data, sender := some g, addr := va, ctx := ctx, spill := none, handed := false, back := false } }] }
  | none =>
    let G := s.own
    let w : SentWrite :=
      { va := va, die := 8 + gdie, atomic := false, msg := true, seq := G.seq, elem := 0, path := false, held := none, joined := false, inst := 0 }
    (s.putOwn { G with sent := G.sent ++ [w] }).emit (.message gdie set ctx (messageSource g) tag data)

/-- MSEND (R441): the target, then the payload; a message without a route raises LINKFAIL as a store does. -/
def execMsend (d a b tr : Reg) (s : State) : Res :=
  .next <|
    let g := s.cur
    let va := s.x d
    let n := (s.x b).toNat
    let tag := (s.x tr).setWidth 32
    let num := (s.slotSet (setOf g)).num
    if n > 2 ^ 20 then s.illegal
    else
      let go := fun (st : State) (gdie set ctx : Nat) (here : Option Nat) (lost : Bool) =>
        match st.readLong g (s.x a) n with
        | (s1, .wait) => s1
        | (s1, .trap code sub addr) => s1.raise code sub addr
        | (s1, .data bytes) => if lost then (s1.retire 8).deliver g 0xF 2 va else (s1.sendMessage gdie set ctx here va tag bytes).retire 8
      let local_ := fun (st : State) (die : Nat) =>
        go st (8 * ownModule + die) (setOf g) num (some die) (decide (die ≠ dieOf g) && st.noRoute (dieOf g) die)
      if inWindow va.toNat then local_ s.close (dieOf g)
      else
        match s.close.look g .load va.toNat 1 with
        | (s1, .here ((pa, _) :: _) _) =>
          if paHost pa then s1.raise 1 8 va
          else if paModule pa then
            (match s1.apertureOf (setOf g) pa with
             | some ap => go s1 (8 * ap.modn + paDie pa) ap.set ap.ctx none (s1.noExit (dieOf g) ap.modn)
             | none => s1.pageLoad 3 va)
          else local_ s1 (paDie pa)
        | (s1, .fail sub) => s1.pageLoad sub va
        | (s1, _) => s1

/-! ## MWAIT, MCANCEL, MDRIP (R442, R444, R445) -/

/-- MWAIT (R442). -/
def execMwait (d a : Reg) (s : State) : Res :=
  .next <|
    match s.own.recvHeld (s.x a) with
    | none => s.illegalSub 5
    | some (slot, .complete flag) => (s.close.putOwn (s.own.closeConvoy.dropRecv slot)).done d flag 4
    | some _ => s.close.wait (.message d (s.x a).toNat)

/-- A Posted receive of a group completed with STATUS 4 (R433); false while its record's translation is awaited. -/
def State.cancelRecv (s : State) (g slot : Nat) : State × Bool :=
  let k := recvKey (dieOf g) (setOf g)
  let R := s.receiver k
  match R.posts.find? fun r => r.group == some g && r.slot == slot with
  | none => (s, true)
  | some r =>
    match (s.putReceiver k { R with posts := R.posts.erase r }).completeRecv (dieOf g) (setOf g) r 0 (flagWord 4 0 0) with
    | (s1, true) => (s1, true)
    | (s1, false) => ({ s with tr := s1.tr }, false)

/-- MCANCEL (R444). -/
def execMcancel (d a : Reg) (s : State) : Res :=
  .next <|
    let s0 := s.close
    match s.own.recvHeld (s.x a) with
    | none => s0.done d 2 4
    | some (slot, .posted) =>
      (match s0.cancelRecv s.cur slot with
       | (s1, true) => (s1.putOwn (s1.own.dropRecv slot)).done d 0 4
       | (s1, false) => s1)
    | some _ => s0.done d 1 4

/-- The receives of a group at its end (R438): Posted ones cancelled, the others left to complete without it. False while
a record's translation is awaited. -/
def State.releaseRecvs (s : State) (g : Nat) : State × Bool :=
  let k := recvKey (dieOf g) (setOf g)
  let slots := ((s.receiver k).posts.filter fun r => r.group == some g).map Recv.slot
  let r := slots.foldl (fun (p : State × Bool) slot => if p.2 then p.1.cancelRecv g slot else p) (s, true)
  if !r.2 then r
  else
    let R := r.1.receiver k
    let lapse := fun (q : Recv) => if q.group = some g then { q with group := none } else q
    let s1 := r.1.putReceiver k { R with
      landing := R.landing.map fun p => (lapse p.1, p.2) }
    (s1.putGroup g { s1.group g with recvs := [] }, true)

/-- MDRIP (R445). -/
def execMdrip (d a : Reg) (s : State) : Res :=
  .next <|
    let k := recvKey (dieOf s.cur) (setOf s.cur)
    let R := s.receiver k
    let sel := (s.x a).toNat
    let s0 := s.close
    if sel = 8 then
      if !s.isSupervisor then s.priv else ((s0.putReceiver k { R with paused := false }).askAgain k).done d 0 4
    else
      let v : Word := match sel with
        | 0 => BitVec.ofNat 64 R.shareUsed
        | 1 => BitVec.ofNat 64 R.spillUsed
        | 2 => BitVec.ofNat 64 R.tray.length
        | 3 => R.refusals
        | 4 => BitVec.ofNat 64 R.posts.length
        | 5 => BitVec.ofNat 64 (bitNat (R.refusing || R.paused) + 2 * bitNat R.paused)
        | _ => BitVec.allOnes 64
      s0.done d v 4

/-- The receive engines of a slot set emptied when its context is Retired or leaves the set (R438). -/
def State.dropReceivers (s : State) (t : Nat) : State := { s with receivers := s.receivers.filter fun e => e.1 % 2 ≠ t }

end Sys2Proof.Machine
end

