-- ==== Sys2Proof/Machine/Kv.lean ====
section
/-!
DEFINITION. Sys2Proof/Machine/Kv.lean: the attention sequencers, the carafe's folds, and the KV instructions and events
(spec/18_kv_page R373 to R397). A merge, a result record and a pass's end come about inside the step that
brings the last piece.
-/

namespace Sys2Proof.Machine

/-! ## Sequencers and the holding pool (R374, R375) -/

/-- The key of a cluster's sequencer for a slot set. -/
def seqKey (cluster set : Nat) : Nat := cluster * 2 + set

/-- The key of a group's sequencer. -/
def seqOf (g : Nat) : Nat := seqKey (clusterOf g) (setOf g)

/-- A sequencer. -/
def State.seqAt (s : State) (k : Nat) : Sequencer := s.seqs.findD k Sequencer.fresh

/-- The state with a sequencer replaced. -/
def State.putSeq (s : State) (k : Nat) (Q : Sequencer) : State := { s with seqs := s.seqs.put k Q }

/-- The partials that a fold holds out of order. -/
def Fold.held (F : Fold) : Nat := (F.ready.filter fun p => p.2.isSome).length

/-- The sequencers of a die for a slot set. -/
def State.dieSeqs (s : State) (die t : Nat) : List Sequencer := (upFrom (8 * die) 8).map fun cl => s.seqAt (seqKey cl t)

/-- The partials that a context holds out of order on a die (R397). -/
def State.kvHeld (s : State) (die t : Nat) : Nat := ((s.dieSeqs die t).map fun Q => (Q.folds.map Fold.held).sum).sum

/-- The free holding entries of a context on a die (R375, R386). -/
def State.kvFree (s : State) (die t : Nat) : Nat :=
  (((s.slotSet t).img.map fun im => im.cquotaOn die).getD 0) -
    (((s.dieSeqs die t).map fun Q => Q.folds.length + (Q.subs.map fun u => u.reserved.length).sum).sum + s.kvHeld die t)

/-! ## The fold (R385, R388) -/

/-- −∞ in f32. -/
def minusInf : BitVec 32 := 0xFF800000

/-- The canonical NaN of f32. -/
def nan32 : BitVec 32 := 0x7FC00000

/-- Whether an f32 pattern is a NaN. -/
def isNan32 (p : BitVec 32) : Bool := (unpack .f32 p.toNat).isNan

/-- The f32 elements of a partial's o. -/
def Partial.elems (P : Partial) : List Nat := (upFrom 0 128).map fun j => elemOf P.o.toNat 32 j

/-- An o of f32 elements. -/
def packO (l : List Nat) : BitVec 4096 := BitVec.ofNat 4096 ((l.foldl (fun (p : Nat × Nat) x => (p.1 + x % 2 ^ 32 * 2 ^ (32 * p.2), p.2 + 1)) (0, 0)).1)

/-- A partial that is empty (R385). -/
def Partial.empty (P : Partial) : Bool := decide (P.m = minusInf)

/-- A rounded f32 operation's pattern with its flags. -/
def rne32 (x : Num × BitVec 6) : Nat × BitVec 6 := comp32 0 x

/-- A partial merged into a running one (R388). -/
def mergePartial (acc : Option Partial) (P : Partial) (fl : BitVec 6) : Option Partial × BitVec 6 :=
  if P.empty then (acc, fl)
  else
    let A := acc.getD { m := minusInf, l := 0, o := 0 }
    let sig := fun (p : Nat) => (unpack .f32 p).isSig
    if isNan32 A.m || isNan32 P.m || isNan32 P.l || P.elems.any (fun p => (unpack .f32 p).isNan) || decide (P.m = 0x7F800000) then
      (some { m := nan32, l := nan32, o := packO (List.replicate 128 nan32.toNat) },
       if sig P.m.toNat || sig P.l.toNat || P.elems.any sig || sig A.m.toNat || sig A.l.toNat || A.elems.any sig then fl ||| flagNV else fl)
    else if A.empty then (some P, fl)
    else
      let u := fun (p : Nat) => unpack .f32 p
      let n := (minMax .f32 true A.m.toNat P.m.toNat).1
      let da := rne32 (addNum 0 (u A.m.toNat) (u n).negate)
      let db := rne32 (addNum 0 (u P.m.toNat) (u n).negate)
      let a := exp2f32 da.1
      let b := exp2f32 db.1
      let f := fun (x y : Nat) => rne32 (twoProducts 0 false (u x) (u a.1) (u y) (u b.1))
      let l := f A.l.toNat P.l.toNat
      let os := (A.elems.zip P.elems).map fun p => f p.1 p.2
      (some { m := BitVec.ofNat 32 n, l := BitVec.ofNat 32 l.1, o := packO (os.map Prod.fst) },
       os.foldl (fun g x => g ||| x.2) (fl ||| da.2 ||| db.2 ||| a.2 ||| b.2 ||| l.2))

/-- A fold's pages merged as far as they are in order (R386). -/
def Fold.drain : List Nat → Fold → Fold
  | [], F => { F with left := [] }
  | k :: t, F =>
    match Table.find F.ready k with
    | some (some P) =>
      let r := mergePartial F.acc P F.flags
      Fold.drain t { F with acc := r.1, flags := r.2, top := k + 1, merged := F.merged + 1, ready := F.ready.filter fun p => p.1 != k }
    | some none => Fold.drain t { F with ready := F.ready.filter fun p => p.1 != k }
    | none => { F with left := k :: t }

/-- A page of a fold that has come: a partial, or an empty one that may count in FAILP. -/
def Fold.take (F : Fold) (k : Nat) (P : Option Partial) (failed : Bool) : Fold :=
  if F.left.contains k then
    Fold.drain F.left { F with ready := F.ready ++ [(k, P)], failp := if failed then F.failp + 1 else F.failp }
  else F

/-- The result record (R388, R389). -/
def Fold.record (F : Fold) (pass : BitVec 32) : List Byte :=
  let A := F.acc.getD { m := minusInf, l := 0, o := 0 }
  let rs := A.elems.map fun p => if A.empty then (0, 0) else rne32 (divNum (unpack .f32 p) (unpack .f32 A.l.toNat))
  let fl := rs.foldl (fun g x => g ||| x.2) F.flags
  (rs.map fun x => toBytes 4 x.1).flatten ++ toBytes 4 A.m.toNat ++ toBytes 4 A.l.toNat ++ toBytes 4 F.failp ++ toBytes 1 fl.toNat ++
    [0, 0, 0] ++ toBytes 8 pass.toNat

/-! ## Updates of a sequencer -/

/-- A fold changed by its query. -/
def Sequencer.onFold (Q : Sequencer) (q : Nat) (f : Fold → Fold) : Sequencer :=
  { Q with folds := Q.folds.map fun F => if F.query = q then f F else F }

/-- A query's fold. -/
def Sequencer.fold? (Q : Sequencer) (q : Nat) : Option Fold := Q.folds.find? fun F => F.query == q

/-- A page of a subscription that no longer awaits anything. -/
def Sub.forget (u : Sub) (k : Nat) : Sub :=
  { u with pending := setDel u.pending k, delivered := setDel u.delivered k, late := setDel u.late k, reserved := setDel u.reserved k }

/-- A page of chosen subscriptions merged as empty (R381, R388). -/
def Sequencer.emptyPage (Q : Sequencer) (k : Nat) (failed : Bool) (who : Sub → Bool) : Sequencer :=
  let qs := (Q.subs.filter fun u => who u).map Sub.query
  let Q1 := qs.foldl (fun R q => R.onFold q fun F => F.take k none failed) Q
  { Q1 with subs := Q1.subs.map fun u => if who u then u.forget k else u }

/-- Whether a subscription receives a page in the main pass, or in catch-up. -/
def Sub.wantsMain (u : Sub) (k : Nat) : Bool := u.inPass && u.pending.contains k && !u.late.contains k && !u.delivered.contains k
def Sub.wantsLate (u : Sub) (k : Nat) : Bool := u.inPass && u.late.contains k

/-- The recipients of a fetch. -/
def Fetch.for_ (f : Fetch) (u : Sub) : Bool := if f.catchUp then u.wantsLate f.page else u.wantsMain f.page

/-- The next page of the main pass that some subscription needs (R376, R378). -/
def Sequencer.nextMain (Q : Sequencer) : Option Nat := (upFrom Q.pos (Q.p - Q.pos)).find? fun k => Q.subs.any fun u => u.wantsMain k

/-- Whether a pass is running. -/
def Sequencer.running (Q : Sequencer) : Bool := decide (Q.phase ≠ .idle) && decide (Q.phase ≠ .await)

/-- Bytes written over runs of places by a unit. -/
def State.unitWriteRuns (s : State) (t : Nat) : List (Nat × Nat) → List Byte → State
  | [], _ => s
  | (pa, n) :: rs, b => State.unitWriteRuns (s.unitWrite t pa (b.take n)) t rs (b.drop n)

/-- Every result that is complete written, its flag last (R388, R389). -/
def State.writeResults (s : State) (k : Nat) : List Fold → State
  | [] => s
  | F :: rest =>
    if F.inPass && F.left.isEmpty && !F.written then
      let Q := s.seqAt k
      let s1 := s.unitWriteRuns (k % 2) F.runs (F.record Q.passNo)
      let Q1 := s1.seqAt k
      State.writeResults (s1.putSeq k { Q1.onFold F.query (fun G => { G with written := true }) with doneQ := Q1.doneQ ++ [F.query] }) k rest
    else State.writeResults s k rest

/-- The END item of a pass (R384). -/
def endItem (pass : BitVec 32) : Word := BitVec.ofNat 64 (2 ^ 63 + pass.toNat % 2 ^ 16 * 2 ^ 32)

/-- A sequencer brought up to date after a change: results written, then the phase and the pass's end (R379, R380,
R397). -/
def State.kvSettle (s : State) (k : Nat) : State :=
  let s1 := s.writeResults k (s.seqAt k).folds
  let Q := s1.seqAt k
  if !Q.running then
    (if Q.phase = .await ∧ !(Q.folds.any Fold.written) then s1.putSeq k { Q with phase := .idle } else s1)
  else if Q.phase = .catchup ∧ Q.fetches.isEmpty ∧ !(Q.catchList.any fun p => Q.subs.any fun u => u.wantsLate p) then
    let Q1 := { Q with catchList := [], phase := if Q.nextMain.isSome then .main else .merging }
    if Q.nextMain.isNone ∧ Q.folds.all (fun F => !F.inPass || F.written) then
      let s2 := Q1.groupsIn.foldl (fun st g => let G := st.group g; st.putGroup g { G with items := G.items ++ [endItem Q.passNo] }) s1
      s2.putSeq k { Q1 with
        phase := if Q1.folds.any Fold.written then .await else .idle, groupsIn := []
        subs := Q1.subs.map fun u => { u with inPass := false, late := [], reserved := [], pending := [], delivered := [] } }
    else s1.putSeq k Q1
  else if Q.phase ≠ .catchup ∧ Q.nextMain.isNone ∧ Q.fetches.isEmpty ∧ !(Q.subs.any fun u => u.inPass && !u.late.isEmpty) then
    if Q.folds.all (fun F => !F.inPass || F.written) then
      let s2 := Q.groupsIn.foldl (fun st g => let G := st.group g; st.putGroup g { G with items := G.items ++ [endItem Q.passNo] }) s1
      s2.putSeq k { Q with
        phase := if Q.folds.any Fold.written then .await else .idle, groupsIn := []
        subs := Q.subs.map fun u => { u with inPass := false, late := [], reserved := [], pending := [], delivered := [] } }
    else s1.putSeq k { Q with phase := .merging }
  else s1

/-! ## Fetches (R376 to R381) -/

/-- Where an address of a pass lies: a window of the group that executed KVPASS, or the context's pages. -/
def State.kvLook (s : State) (k : Nat) (kind : Kind) (va n : Nat) : State × Spot :=
  if inWindow va then
    match (s.seqAt k).by_ with
    | some g => s.look g kind va n
    | none => (s, .range)
  else s.pageRuns (k % 2) (k / 16) none kind 0 (n / 4096 + 2) va n

/-- Whether a place has no route from a die. -/
def State.cutOff (s : State) (die t : Nat) (runs : List (Nat × Nat)) : Bool := runs.any fun r => s.unreachable (groupCode (64 * die) t 0) r.1

/-- Whether data of some places are lost on a link: with no route, or beyond the die when a link has lost them (R381). -/
def State.kvLost (s : State) (die t : Nat) (runs : List (Nat × Nat)) (lost : Bool) : Bool :=
  s.cutOff die t runs || (lost && runs.any fun r => paHost r.1 || paModule r.1 || decide (paDie r.1 ≠ die))

/-- Whether data of some places are uncorrectable or poisoned: by the marks of this module, or as they came from elsewhere. -/
def State.kvPoor (s : State) (runs : List (Nat × Nat)) (far : FarData) : Bool :=
  s.runsBad runs || runs.any fun r => (paHost r.1 || paModule r.1) && far.poor.any fun a => decide (r.1 ≤ a ∧ a < r.1 + r.2)

/-- Bytes of places for a sequencer: those of this module or the host as they stand, of another one as answered. -/
def State.kvBytes (s : State) (far : FarData) : List (Nat × Nat) → Option (List Byte)
  | [] => some []
  | r :: rs =>
    (if paFar r.1 then (upFrom r.1 r.2).mapM (inboxByte far.cells) else some (s.readAt r.1 r.2)).bind fun b =>
      (State.kvBytes s far rs).map fun bs => b ++ bs

/-- KVFAULT to the group that executed KVPASS (R381). -/
def State.kvFault (s : State) (k sub : Nat) (addr : Word) : State :=
  match (s.seqAt k).by_ with
  | some g => s.deliver g 0x10 sub addr
  | none => s

/-- A page that fails (R381). -/
def State.failPage (s : State) (k page : Nat) (catchUp : Bool) (sub : Nat) (addr : Word) : State :=
  let Q := s.seqAt k
  let Q1 := Q.emptyPage page true fun u => if catchUp then u.wantsLate page else u.wantsMain page
  ((s.putSeq k { Q1 with nFailed := Q1.nFailed + 1 }).kvFault k sub addr).kvSettle k

/-- The group slot under whose number a sequencer's packets go out: the first of its cluster's first cell. -/
def unitGroup (k : Nat) : Nat := groupCode (k / 2 * 8) (k % 2) 0

/-- A page index begun: no longer ahead of the pass, or of catch-up. -/
def Sequencer.begun (Q : Sequencer) (page : Nat) (catchUp : Bool) : Sequencer :=
  if catchUp then { Q with catchList := setDel Q.catchList page, askedEntry := none } else { Q with pos := page + 1, askedEntry := none }

/-- The table entry of a page index, none while its bytes are still to come; or that it cannot be read. -/
def State.tableEntry (s : State) (k page : Nat) (far : FarData) (lost : Bool) : State × Option (Except Unit Nat) :=
  let Q := s.seqAt k
  let va := (Q.table + BitVec.ofNat 64 (8 * page)).toNat
  match s.kvLook k .load va 8 with
  | (s1, .wait) => (s1, none)
  | (s1, .range) => (s1, some (.error ()))
  | (s1, .fail _) => (s1, some (.error ()))
  | (s1, .here runs _) =>
    if s1.kvPoor runs far || s1.kvLost (k / 16) (k % 2) runs lost then (s1, some (.error ()))
    else
      match s1.kvBytes far runs with
      | some b => (s1, some (.ok (natOfBytes b)))
      | none =>
        (if Q.askedEntry.map Prod.fst = some page then s1 else (s1.putSeq k { Q with askedEntry := some (page, true) }).emitReads (unitGroup k) runs, none)

/-- The fetch of a page index begun (R376, R381). -/
def State.beginFetch (s : State) (k page : Nat) (catchUp : Bool) (far : FarData) (lost : Bool) : State :=
  let tva := (s.seqAt k).table + BitVec.ofNat 64 (8 * page)
  match s.tableEntry k page far lost with
  | (s1, none) => s1
  | (s1, some (.error _)) => (s1.putSeq k ((s1.seqAt k).begun page catchUp)).failPage k page catchUp 4 tva
  | (s1, some (.ok 0)) =>
    let Q := (s1.seqAt k).begun page catchUp
    (s1.putSeq k (Q.emptyPage page false fun u => if catchUp then u.wantsLate page else u.wantsMain page)).kvSettle k
  | (s1, some (.ok e)) =>
    if e / 2 % 2 ^ 15 ≠ 0 then (s1.putSeq k ((s1.seqAt k).begun page catchUp)).failPage k page catchUp 4 tva
    else
      let va := e / 2 ^ 16 * 2 ^ 16
      let begun := fun (st : State) =>
        let Q := (st.seqAt k).begun page catchUp
        st.putSeq k (if catchUp then { Q with nCatch := Q.nCatch + 1 } else { Q with nFetched := Q.nFetched + 1 })
      match (if inWindow va then (s1, Spot.fail 4) else s1.kvLook k .kv va 65536) with
      | (s2, .wait) => s2.putSeq k { s2.seqAt k with askedEntry := some (page, false) }
      | (s2, .here runs _) =>
        if s2.cutOff (k / 16) (k % 2) runs then (begun s2).failPage k page catchUp 3 (BitVec.ofNat 64 va)
        else
          let s3 := begun s2
          let Q := s3.seqAt k
          (s3.putSeq k { Q with fetches := Q.fetches ++
            [{ page := page, fmt := decide (e % 2 = 1), va := BitVec.ofNat 64 va, catchUp := catchUp, runs := runs, data := none }] }).emitReads
              (unitGroup k) runs
      | (s2, _) => (begun s2).failPage k page catchUp 1 (BitVec.ofNat 64 va)

/-- The set that is Active. -/
def State.activeSet (s : State) : Option Nat := if s.set0.st = .active then some 0 else if s.set1.st = .active then some 1 else none

/-- The set of a context that is being switched out with a fetch of a cluster's sequencer in flight that has still to ask for its page. -/
def State.kvUnasked (s : State) (cluster : Nat) : Option Nat :=
  [0, 1].find? fun t => decide ((s.slotSet t).st = .preempting) && (s.seqAt (seqKey cluster t)).askedEntry.isSome

/-- KV_FETCH_START (R376, R379, R386): the next page of the main pass, or of catch-up; a fetch that is in flight when its context is switched
out goes on (R382). -/
def execKvFetchStart (cl : BitVec 6) (far : FarData) (lost : Bool) (s : State) : Res :=
  .next <|
    match s.kvUnasked cl.toNat, s.activeSet with
    | some t, _ =>
      let k := seqKey cl.toNat t
      (match (s.seqAt k).askedEntry with
       | some (page, _) =>
         let Q := s.seqAt k
         let late := decide (Q.phase = .catchup)
         if Q.subs.any fun u => if late then u.wantsLate page else u.wantsMain page then s.beginFetch k page late far lost
         else s.putSeq k { Q with askedEntry := none }
       | none => s)
    | none, none => s
    | none, some t =>
      let k := seqKey cl.toNat t
      let Q := s.seqAt k
      if Q.fetches.length ≥ 4 then s
      else
        match Q.phase with
        | .catchup =>
          (match Q.catchList.find? fun p => Q.subs.any fun u => u.wantsLate p with
           | some page => s.beginFetch k page true far lost
           | none => s)
        | .main | .stopped =>
          (match Q.nextMain with
           | none => s
           | some page =>
             if s.kvFree (k / 16) t = 0 ∧ Q.askedEntry = none then (if Q.phase = .stopped then s else s.putSeq k { Q with phase := .stopped })
             else (s.putSeq k { Q with phase := .main }).beginFetch k page false far lost)
        | _ => s

/-- KV_CATCHUP_START (R379): once per pass. -/
def execKvCatchupStart (cl : BitVec 6) (s : State) : Res :=
  .next <|
    match s.activeSet with
    | none => s
    | some t =>
      let k := seqKey cl.toNat t
      let Q := s.seqAt k
      if !Q.catchBegun && (decide (Q.phase = .stopped) || (decide (Q.phase = .main) && Q.nextMain.isNone)) then
        let l := (Q.subs.map fun u => if u.inPass then u.late else []).flatten.foldl setAdd []
        (s.putSeq k { Q with catchBegun := true, catchList := l, phase := .catchup }).kvSettle k
      else s

/-- The groups that a fetch is delivered to. -/
def Sequencer.recipients (Q : Sequencer) (f : Fetch) : List Nat := ((Q.subs.filter f.for_).map Sub.group).foldl setAdd []

/-- A group's first free buffer. -/
def Group.freeBuffer (G : Group) : Option (Nat × Nat) :=
  G.ring.bind fun r => ((upFrom 0 r.bufs.length).find? fun b => r.bufs[b]? = some .free).map fun b => (r.rbase, b)

/-- An item of KVRECV (R384). -/
def itemWord (pass : BitVec 32) (f : Fetch) (off : Nat) : Word :=
  BitVec.ofNat 64 (bitNat f.catchUp * 2 ^ 62 + bitNat f.fmt * 2 ^ 61 + pass.toNat % 2 ^ 16 * 2 ^ 32 + f.page * 2 ^ 20 + off)

/-- A page put into a group's free buffer, with its item (R377, R383). -/
def State.deliverPage (s : State) (pass : BitVec 32) (f : Fetch) (data : List Byte) (g : Nat) : State :=
  match (s.group g).freeBuffer with
  | none => s
  | some (rbase, b) =>
    let off := (rbase + b) * 65536
    let s1 := s.writeRuns none none none ((s.window g 0xF0 off 65536).getD []) data
    let G := s1.group g
    s1.putGroup g { G with
      ring := G.ring.map fun r => { r with bufs := r.bufs.set b .filled }
      items := G.items ++ [itemWord pass f off] }

/-- The data of a sequencer's oldest fetch without them read, or the page failed (R377, R381); a page that nobody needs any more is
dropped. -/
def State.kvLand (s : State) (k : Nat) (far : FarData) (lost : Bool) : State :=
  let Q := s.seqAt k
  match Q.fetches.find? fun f => f.data.isNone with
  | none => s
  | some f =>
    let gone := s.putSeq k { Q with fetches := Q.fetches.erase f }
    if (Q.recipients f).isEmpty then gone.kvSettle k
    else if s.kvLost (k / 16) (k % 2) f.runs lost then gone.failPage k f.page f.catchUp 3 f.va
    else if s.kvPoor f.runs far then gone.failPage k f.page f.catchUp 2 f.va
    else
      match s.kvBytes far f.runs with
      | none => s
      | some b => s.putSeq k { Q with fetches := Q.fetches.map fun x => if x = f then { f with data := some b } else x }

/-- The oldest fetch multicast, when its data have been read and every recipient has a free buffer (R377). -/
def State.kvDeliver (s : State) (k : Nat) : State :=
  let Q := s.seqAt k
  match Q.fetches with
  | [] => s
  | f :: rest =>
    match f.data with
    | none => s
    | some data =>
      let who := Q.recipients f
      if who.any (fun g => (s.group g).freeBuffer.isNone) then s
      else
        let s1 := who.foldl (fun st g => st.deliverPage Q.passNo f data g) s
        let subs := Q.subs.map fun u =>
          if f.for_ u then { u with delivered := setAdd u.delivered f.page, late := setDel u.late f.page } else u
        (s1.putSeq k { Q with fetches := rest, subs := subs, nCopies := Q.nCopies + who.length }).kvSettle k

/-- The set of a context that is being switched out with fetches of a cluster's sequencer still to land (R382). -/
def State.kvUnlanded (s : State) (cluster : Nat) : Option Nat :=
  [0, 1].find? fun t => decide ((s.slotSet t).st = .preempting) && (s.seqAt (seqKey cluster t)).fetches.any fun f => f.data.isNone

/-- KV_PAGE_MULTICAST (R377, R381, R382): a fetch's data are read, and the oldest fetch is multicast. -/
def execKvPageMulticast (cl : BitVec 6) (far : FarData) (lost : Bool) (s : State) : Res :=
  .next <|
    match s.kvUnlanded cl.toNat with
    | some t => s.kvLand (seqKey cl.toNat t) far lost
    | none =>
      match s.activeSet with
      | none => s
      | some t => (s.kvLand (seqKey cl.toNat t) far lost).kvDeliver (seqKey cl.toNat t)

/-! ## KVSUB and KVUNSUB (R391, R392) -/

/-- Whether a list rises strictly. -/
def rising : List Nat → Bool
  | a :: b :: t => decide (a < b) && rising (b :: t)
  | _ => true

/-- A subscription recorded (R378, R391): the sequencer after it with the status. -/
def Sequencer.join (Q : Sequencer) (free g q : Nat) (pages : List Nat) (runs : List (Nat × Nat)) : Sequencer × Word :=
  let old := Q.fold? q
  let F := old.getD { query := q, runs := runs, inPass := false, acc := none, left := [], ready := [], failp := 0, flags := 0, top := 0, merged := 0, written := false }
  let Q1 := if old.isSome then Q.onFold q fun G => { G with runs := runs } else { Q with folds := Q.folds ++ [F] }
  let idle : Sub := { group := g, query := q, pages := pages, inPass := false, late := [], reserved := [], pending := [], delivered := [] }
  let add := fun (u : Sub) (R : Sequencer) => { R with subs := R.subs ++ [u] }
  if !Q.running then (add idle Q1, 0)
  else
    let low := (pages.head?).getD 0
    if Q.catchBegun || Q.doneQ.contains q || F.written || (F.inPass && decide (F.top > low + 1)) || decide (Q.phase = .merging) then
      (add idle Q1, 2)
    else
      let here := pages.filter fun k => decide (k < Q.p)
      let ahead := here.filter fun k => decide (Q.pos ≤ k)
      let enough := decide (ahead.length ≤ (if old.isSome then free else free - 1))
      let u := { idle with
        inPass := true, pending := here
        late := if enough then here.filter fun k => decide (k < Q.pos) else here
        reserved := if enough then ahead else [] }
      let Q2 := Q1.onFold q fun G => { G with inPass := true, left := here.foldl setAdd G.left }
      ({ add u Q2 with groupsIn := setAdd Q2.groupsIn g }, 1)

/-- KVSUB (R391). -/
def execKvsub (d a : Reg) (dep rb : BitVec 3) (s : State) : Res :=
  .next <|
    let g := s.cur
    let va := s.x a
    if va.toNat % 64 ≠ 0 then s.misaligned va
    else
      match s.close.loadWide g va 64 with
      | (s1, .wait) => s1
      | (s1, .trap code sub addr) => s1.raise code sub addr
      | (s1, .data head) =>
        let npg := descNat head 12 4
        let len := if 1 ≤ npg ∧ npg ≤ 1024 then 4 * npg else 0
        match s1.readLong g (va + 64) len with
        | (s2, .wait) => s2
        | (s2, .trap code sub addr) => s2.raise code sub addr
        | (s2, .data list) =>
          let res := BitVec.ofNat 64 (descNat head 0 8)
          let q := descNat head 8 4
          let pages := (upFrom 0 npg).map fun i => descNat list (4 * i) 4
          let k := seqOf g
          let Q := s2.seqAt k
          let G := s2.own
          let rbase := rb.toNat
          let depth := dep.toNat
          if res.toNat % 64 ≠ 0 then s2.misaligned res
          else if q > 4095 ∨ npg = 0 ∨ npg > 1024 ∨ descNat head 16 48 ≠ 0 then s2.illegal
          else if (rbase + depth) * 65536 > G.hold.cstore then s2.outOfRange (BitVec.ofNat 64 (0xF0 * 2 ^ 48 + rbase * 65536))
          else if !rising pages || pages.any (fun p => decide (p ≥ 1024)) || Q.subs.any (fun u => u.query == q && u.pages.any pages.contains) then
            s2.done d 3 8
          else if (match G.ring with | some r => decide (r.rbase ≠ rbase ∨ r.bufs.length ≠ depth) | none => false) then s2.done d 5 8
          else
            let free := s2.kvFree (dieOf g) (setOf g)
            if ((Q.fold? q).isNone && decide (free = 0)) || decide (Q.subs.length ≥ 8192) then s2.done d 4 8
            else
              match (if inWindow res.toNat then (s2, Spot.fail 4) else s2.look g .store res.toNat 536) with
              | (s3, .wait) => s3
              | (s3, .here runs _) =>
                let r := Q.join free g q pages runs
                let ring := match G.ring with | some x => some x | none => some { rbase := rbase, bufs := List.replicate depth .free }
                (((s3.putOwn { s3.own with ring := ring }).putSeq k r.1).kvSettle k).done d r.2 8
              | (s3, _) => s3.done d 6 8

/-- Home entries freed; the partials that they have merged still count (R397). -/
def Sequencer.dropFolds (Q : Sequencer) (f : Fold → Bool) : Sequencer :=
  { Q with nMerged := Q.nMerged + ((Q.folds.filter f).map Fold.merged).sum, folds := Q.folds.filter fun F => !f F }

/-- A group's subscriptions of a query withdrawn (R392). -/
def State.withdraw (s : State) (g q : Nat) : State :=
  let k := seqOf g
  let mine := fun (u : Sub) => u.group == g && u.query == q
  let Q := s.seqAt k
  let pages := (Q.subs.map fun u => if mine u && u.inPass then u.pending else []).flatten
  let Q1 := pages.foldl (fun R p => R.onFold q fun F => F.take p none true) Q
  let s1 := (s.putSeq k { Q1 with subs := Q1.subs.filter fun u => !mine u }).kvSettle k
  let Q2 := s1.seqAt k
  let s2 := if Q2.subs.any fun u => u.query == q then s1
    else s1.putSeq k (Q2.dropFolds fun F => F.query == q && !F.written && !F.inPass)
  let G := s2.group g
  if (s2.seqAt k).subs.any fun u => u.group == g then s2 else s2.putGroup g { G with ring := none }

/-- KVUNSUB (R392). -/
def execKvunsub (d a : Reg) (s : State) : Res :=
  .next <|
    let g := s.cur
    let q := (s.x a).toNat
    let s0 := s.close
    if q > 4095 || !((s.seqAt (seqOf g)).subs.any fun u => u.group == g && u.query == q) then s0.done d 1 4
    else (s0.withdraw g q).done d 0 4

/-- A group's part in its sequencer given up at its end (R381, R382). -/
def State.releaseKv (s : State) (g : Nat) : State :=
  let k := seqOf g
  let qs := (((s.seqAt k).subs.filter fun u => u.group == g).map Sub.query).foldl setAdd []
  let s1 := qs.foldl (fun st q => st.withdraw g q) s
  let Q := s1.seqAt k
  let s2 := if qs.isEmpty && Q.by_ ≠ some g && !Q.groupsIn.contains g then s1
    else s1.putSeq k { Q with by_ := if Q.by_ = some g then none else Q.by_, groupsIn := setDel Q.groupsIn g }
  s2.putGroup g { s2.group g with ring := none, items := [] }

/-! ## KVPASS, KVRECV, KVPART, KVDONE, KVSTAT (R393 to R397) -/

/-- A pass begun (R376, R393): the deferred subscriptions become active; page indices from P upwards count as empty. -/
def Sequencer.startPass (Q : Sequencer) (g : Nat) (table : Word) (p : Nat) : Sequencer :=
  let n : BitVec 32 := if Q.passNo = BitVec.allOnes 32 then 1 else Q.passNo + 1
  let subs := Q.subs.map fun u => { u with inPass := true, pending := u.pages.filter (fun k => decide (k < p)), late := [], reserved := [], delivered := [] }
  let leftOf := fun (q : Nat) => ((subs.filter fun u => u.query == q).map Sub.pending).flatten.foldl setAdd []
  { Q with
    subs := subs
    folds := Q.folds.map fun F =>
      { F with inPass := true, acc := none, left := leftOf F.query, ready := [], failp := 0, flags := 0, top := 0, merged := 0, written := false }
    passNo := n, phase := .main, table := table, p := p, pos := 0, catchBegun := false, catchList := []
    groupsIn := (subs.map Sub.group).foldl setAdd [], doneQ := [], by_ := some g, fetches := [], askedEntry := none
    nFetched := 0, nCatch := 0, nCopies := 0, nMerged := 0, nFailed := 0 }

/-- KVPASS (R393). -/
def execKvpass (d a b : Reg) (s : State) : Res :=
  .next <|
    let va := s.x a
    let p := (s.x b).toNat
    let k := seqOf s.cur
    if va.toNat % 8 ≠ 0 then s.misaligned va
    else if p = 0 ∨ p > 1024 then s.illegal
    else
      let Q := s.seqAt k
      if Q.phase ≠ .idle then s.close.done d 0 4
      else
        let Q1 := Q.startPass s.cur va p
        ((s.close.putSeq k Q1).kvSettle k).done d (Q1.passNo.setWidth 64) 4

/-- A group's next item taken: its buffer becomes Held (R394). -/
def Group.takeItem (G : Group) : Option (Group × Word) :=
  match G.items with
  | [] => none
  | w :: rest =>
    let ring := if bitOf w 63 then G.ring
      else G.ring.map fun r => { r with bufs := r.bufs.set (bits w 0 20 / 65536 - r.rbase) .held }
    some ({ G with items := rest, ring := ring }, w)

/-- A group's Held buffer freed. -/
def Group.freeHeld (G : Group) : Group :=
  { G with ring := G.ring.map fun r => { r with bufs := r.bufs.map fun b => if b = .held then .free else b } }

/-- KVRECV (R394). -/
def execKvrecv (d : Reg) (s : State) : Res :=
  .next <|
    let g := s.cur
    let s1 := s.close.putOwn s.own.closeConvoy.freeHeld
    match s1.own.takeItem with
    | some (G, w) => (s1.putOwn G).done d w 4
    | none =>
      if (s.seqAt (seqOf g)).subs.any fun u => u.group == g then s1.wait (.kvItem d)
      else s1.done d 0x8000000000000000 4

/-- A partial of a delivered page taken by the carafe, or none when it must wait for an entry (R386). -/
def State.deposit (s : State) (g q page : Nat) (P : Partial) : Option State :=
  let k := seqOf g
  let Q := s.seqAt k
  match Q.subs.find? (fun u => u.group == g && u.query == q && u.delivered.contains page), Q.fold? q with
  | some u, some F =>
    let inOrder := F.left.head? = some page
    if inOrder ∨ u.reserved.contains page = true ∨ s.kvFree (dieOf g) (setOf g) > 0 then
      let Q1 := Q.onFold q fun G => G.take page (some P) false
      let subs := Q1.subs.map fun v => if v = u then v.forget page else v
      some ((s.putSeq k { Q1 with subs := subs }).kvSettle k)
    else none
  | _, _ => some s

/-- KVPART (R395). -/
def execKvpart (d a b lr : Reg) (s : State) : Res :=
  .next <|
    let g := s.cur
    let G := s.own
    let sel := s.x d
    let q := bits sel 0 12
    let page := bits sel 16 10
    if !G.aligned a then s.illegal
    else if bits sel 12 4 ≠ 0 ∨ bits sel 26 38 ≠ 0 then s.illegal
    else if G.tag a ≠ .f32 then s.illegal
    else if !((s.seqAt (seqOf g)).subs.any fun u => u.group == g && u.query == q && u.inPass && u.delivered.contains page) then s.illegalSub 4
    else
      let P : Partial := { m := (s.x b).setWidth 32, l := (s.x lr).setWidth 32, o := BitVec.ofNat 4096 (G.vbits a) }
      match s.close.deposit g q page P with
      | some s1 => s1.retire 8
      | none => s.close.wait (.kvSpace q page P.m P.l P.o)

/-- KVDONE (R396). -/
def execKvdone (d a : Reg) (s : State) : Res :=
  .next <|
    let k := seqOf s.cur
    let q := (s.x a).toNat
    let s0 := s.close
    let Q := s.seqAt k
    match Q.fold? q with
    | none => s0.done d 2 4
    | some F =>
      if F.written then
        let Q1 := if Q.subs.any fun u => u.query == q then
            Q.onFold q fun G => { G with written := false, inPass := false, acc := none, left := [], ready := [] }
          else Q.dropFolds fun G => G.query == q
        ((s0.putSeq k Q1).kvSettle k).done d 0 4
      else if F.inPass then s0.done d 1 4
      else s0.done d 2 4

/-- The code of a pass state (R397). -/
def KvPhase.code : KvPhase → Nat
  | .idle => 0 | .main => 1 | .stopped => 2 | .catchup => 3 | .merging => 4 | .await => 5

/-- KVSTAT (R397). -/
def execKvstat (d a : Reg) (s : State) : Res :=
  .next <|
    let g := s.cur
    let Q := s.seqAt (seqOf g)
    let v : Nat := match (s.x a).toNat with
      | 0 => Q.phase.code + Q.passNo.toNat * 2 ^ 32
      | 1 => Q.nFetched
      | 2 => Q.nCatch
      | 3 => Q.nCopies
      | 4 => Q.nMerged + (Q.folds.map Fold.merged).sum
      | 5 => s.kvHeld (dieOf g) (setOf g)
      | 6 => s.kvFree (dieOf g) (setOf g)
      | 7 => Q.nFailed
      | _ => 2 ^ 64 - 1
    s.close.done d (BitVec.ofNat 64 v) 4

/-- The sequencers of a slot set emptied when its context is Retired or leaves the set (R382). -/
def State.dropSeqs (s : State) (t : Nat) : State := { s with seqs := s.seqs.filter fun e => e.1 % 2 ≠ t }

end Sys2Proof.Machine
end

