-- ==== Sys2Proof/Machine/Link.lean ====
section
/-!
DEFINITION. Sys2Proof/Machine/Link.lean: MCST, incast tickets, remote requests and replies, link states, and the
collective units (spec/19_link R398 to R423; spec/15_barrier R323, R328).
-/

namespace Sys2Proof.Machine

/-! ## MCST (R411) -/

/-- The replicas that a mask selects, with their bases. -/
def replicaBases (rm : BitVec 4) (desc : List Byte) : List Word :=
  ((upFrom 0 4).filter rm.getLsbD).map fun k => BitVec.ofNat 64 (natOfBytes (takeBytes desc (8 * k) 8))

/-- The accesses of element `i` of an MCST, one per replica. -/
def replicaAccess (G : Group) (t : Tag) (bits i : Nat) (base : Word) : Access :=
  { op := if t = .e2m1 then .nibble (decide (i % 2 = 1)) else .store, va := base + BitVec.ofNat 64 (i * tagWidth t / 8), pa := none
    len := elemBytes t, data := elemOf bits (tagWidth t) i, pc := G.pc, src := 4, elem := i, replica := true, tag := none, seq := 0, hs := none
    inst := 0 }

/-- MCST (R411): every write enters its slice queue before the thread goes on (notes/assumptions/19). Each write of each replica is
a store of its own (R412); its packet is of type 5, as it stands once the routes have parted (notes/assumptions/65). -/
def execMcst (d a b : Reg) (rm : BitVec 4) (s : State) : Res :=
  .next <|
    let G := s.own
    let va := s.x a
    if !G.aligned d then s.illegal
    else if va.toNat % 32 ≠ 0 then s.misaligned va
    else
      match s.close.loadWide s.cur va 32 with
      | (s1, .wait) => s1
      | (s1, .trap code sub addr) => s1.raise code sub addr
      | (s1, .data desc) =>
        let t := G.tag d
        if rm = 0 ∨ (t = .e2m1 ∧ G.vl % 2 = 1) ∨ G.vl > G.vlmax t then s1.illegal
        else
          let bases := replicaBases rm desc
          let bad := bases.find? fun base => decide (bits base 48 8 ≥ 0xF0) || decide ((base + s.x b).toNat % elemBytes t ≠ 0)
          match bad with
          | some base => if bits base 48 8 ≥ 0xF0 then s1.illegal else s1.misaligned (base + s.x b)
          | none =>
            let put := fun (i : Nat) (G1 : Group) => bases.foldl (fun H base => H.enqueue (replicaAccess G t (G.vbits d) i (base + s.x b))) G1
            (s1.putOwn (foldUp G.vl put s1.own)).retire 8

/-! ## Tickets (R413 to R416) -/

/-- The key of a dispenser. -/
def dispKey (set die disp : Nat) : Nat := (set * 8 + die) * 16 + disp

/-- A dispenser; both counters are 0 when its context is loaded. -/
def State.dispenser (s : State) (k : Nat) : Dispenser := s.dispensers.findD k { nextNo := 0, doneNo := 0, waiters := [] }

/-- The window W of a slot set's context (R413). -/
def State.ticketWindow (s : State) (set : Nat) : Nat := ((s.slotSet set).img.bind Image.window).getD 4

/-- Whether ticket `n` is called (R413). -/
def Dispenser.called (d : Dispenser) (w : Nat) (n : BitVec 32) : Bool := decide ((n - d.doneNo).toNat < w)

/-- TICKGET's step at a dispenser: its number, and NEXT advanced. -/
def State.takeTicket (s : State) (k : Nat) : State × BitVec 32 :=
  let d := s.dispenser k
  ({ s with dispensers := s.dispensers.put k { d with nextNo := d.nextNo + 1 } }, d.nextNo)

/-- TICKDONE's step at a dispenser; requests of other modules that are called now are answered. -/
def State.finishTicket (s : State) (set die disp : Nat) : State :=
  let k := dispKey set die disp
  let d := s.dispenser k
  let d1 := { d with doneNo := d.doneNo + 1 }
  let w := s.ticketWindow set
  let ready := d1.waiters.filter fun q => d1.called w q.2
  { s with
    dispensers := s.dispensers.put k { d1 with waiters := d1.waiters.filter fun q => !d1.called w q.2 }
    out := s.out ++ ready.map fun q => .answer q.1 (toBytes 4 q.2.toNat) false, outAt := if ready.isEmpty then s.outAt else s.clock }

/-- The fields of a ticket handle (R413). -/
def ticketDie (h : Word) : Nat := bits h 49 15
def ticketDisp (h : Word) : Nat := bits h 32 4
def ticketNum (h : Word) : BitVec 32 := h.setWidth 32

/-- A ticket handle (R413). -/
def ticketHandle (gdie disp : Nat) (n : BitVec 32) : Word := BitVec.ofNat 64 (gdie * 2 ^ 49 + disp * 2 ^ 32 + n.toNat)

/-- Whether a ticket's dispenser stands on this module. -/
def ticketHere (h : Word) : Bool := decide (ticketDie h / 8 = ownModule)

/-- A request to another die or module that a group waits for (R408). -/
def State.askRemote (s : State) (va : Word) (pa : Nat) (kind : RemoteKind) (module : Bool) : State :=
  let G := s.own
  let s1 := s.putOwn
    { G with dataWait := some { pc := G.pc, va := va, arrived := false, bad := [], inbox := [], asked := [(pa, 1)], act := some (pa, kind) } }
  if module then s1.emit (.request pa kind s.cur) else s1

/-- A ticket taken: held with its target, and its handle in the register. -/
def State.holdTicket (s : State) (d : Reg) (h : Word) (pa : Nat) : State :=
  (s.putOwn { s.own with tickets := s.own.tickets ++ [(h, pa)] }).done d h 4

/-- TICKGET (R414). -/
def execTickget (d a b : Reg) (s : State) : Res :=
  .next <|
    let g := s.cur
    let va := s.x a
    let disp := (s.x b).toNat
    let s0 := s.close
    if disp > 15 then s.illegal
    else if s.own.tickets.length ≥ 8 then s.illegalSub 6
    else
      let here := fun (st : State) (die pa : Nat) =>
        if die ≠ dieOf g && st.noRoute (dieOf g) die then st.raise 0xF 2 va
        else if die = dieOf g || (st.own.dataWait.map DataWait.arrived).getD false then
          let r := st.takeTicket (dispKey (setOf g) die disp)
          r.1.holdTicket d (ticketHandle (8 * ownModule + die) disp r.2) pa
        else if st.own.dataWait.isSome then st
        else st.askRemote va pa (.ticketGet (setOf g) disp) false
      if inWindow va.toNat then here s0 (dieOf g) (diePA (dieOf g) 0)
      else
        match s0.look g .load va.toNat 1 with
        | (s1, .here ((pa, _) :: _) _) =>
          if paHost pa then s1.raise 1 8 va
          else if paModule pa then
            (match s1.apertureOf (setOf g) pa with
             | some ap =>
               if s1.noExit (dieOf g) ap.modn then s1.raise 0xF 2 va
               else
                 match s1.own.dataWait with
                 | some w =>
                   if w.arrived then s1.holdTicket d (ticketHandle (8 * ap.modn + paDie pa) disp (BitVec.ofNat 32 (memNat w.inbox 0 4))) pa else s1
                 | none => s1.askRemote va pa (.ticketGet ap.set disp) true
             | none => s1.pageLoad 3 va)
          else here s1 (paDie pa) pa
        | (s1, .fail sub) => s1.pageLoad sub va
        | (s1, _) => s1

/-- Whether a held ticket on this module is called. -/
def State.ticketCalled (s : State) (g : Nat) (h : Word) : Bool :=
  (s.dispenser (dispKey (setOf g) (ticketDie h % 8) (ticketDisp h))).called (s.ticketWindow (setOf g)) (ticketNum h)

/-- The target address of a held ticket. -/
def Group.ticketAt (G : Group) (h : Word) : Option Nat := (G.tickets.find? fun t => t.1 == h).map Prod.snd

/-- The slot set of a ticket's dispenser: that of its aperture entry, or the group's own (R414). -/
def State.ticketSet (s : State) (g pa : Nat) : Nat := if paModule pa then ((s.apertureOf (setOf g) pa).map Aperture.set).getD (setOf g) else setOf g

/-- TICKWAIT (R415). Another die of the module acknowledges at once, unless a link in Retraining holds the request (R404); else it
acknowledges, and another module later calls the ticket too, by its replies. TRAPADDR of LINKFAIL is the handle, since the instruction names no
address (DESIGN CHOICE, notes/assumptions/84). -/
def execTickwait (a : Reg) (s : State) : Res :=
  .next <|
    let h := s.x a
    match s.own.ticketAt h with
    | none => s.illegalSub 5
    | some pa =>
      if ticketHere h then
        (if ticketDie h % 8 ≠ dieOf s.cur && s.noRoute (dieOf s.cur) (ticketDie h % 8) then s.raise 0xF 2 h
         else if s.heldDie s.cur (ticketDie h % 8) then s.close.wait (.ticket h false false)
         else if s.ticketCalled s.cur h then s.close.retire 4 else s.close.wait (.ticket h true false))
      else if s.noExit (dieOf s.cur) (ticketDie h / 8) then s.raise 0xF 2 h
      else
        (s.close.wait (.ticket h false false)).emit (.request pa (.ticketWait (s.ticketSet s.cur pa) (ticketDisp h) (ticketNum h)) s.cur)

/-- The die of a place as a sent write names it. -/
def State.dieName (s : State) (g pa : Nat) : Nat := if paFar pa then s.farDie g pa else paDie pa

/-- Whether a queued access of a group may go to a die, named as a sent write names it. -/
def State.goesTo (s : State) (g die : Nat) (a : Access) : Bool :=
  match a.pa, (s.spotOf g a).2 with
  | some rs, _ => rs.any fun r => !paHost r.1 && s.dieName g r.1 == die
  | none, .here rs _ => rs.any fun r => !paHost r.1 && s.dieName g r.1 == die
  | none, .wait => true
  | none, _ => false

/-- Whether a store or atomic of a group to a die is not yet acknowledged (R416). -/
def State.boundFor (s : State) (g die : Nat) : Bool :=
  let G := s.group g
  G.slices.toList.any (fun l => l.any (s.goesTo g die)) || G.sent.any fun w => !w.msg && !w.path && decide (w.die = die)

/-- A ticket's die as a sent write names it. -/
def ticketPlace (h : Word) : Nat := if ticketHere h then ticketDie h % 8 else 8 + ticketDie h

/-- A ticket no longer held. -/
def Group.dropTicket (G : Group) (h : Word) : Group := { G with tickets := G.tickets.eraseP fun t => t.1 == h }

/-- TICKDONE (R416). TRAPADDR of LINKFAIL is the handle, since the instruction names no address (DESIGN CHOICE, notes/assumptions/84). -/
def execTickdone (a : Reg) (s : State) : Res :=
  .next <|
    let h := s.x a
    let g := s.cur
    match s.own.ticketAt h with
    | none => s.illegalSub 5
    | some pa =>
      let s1 := s.close.drainThose g fun st a => st.goesTo g (ticketPlace h) a
      let die := ticketDie h % 8
      if s1.boundFor g (ticketPlace h) then s1
      else if ticketHere h then
        if die ≠ dieOf g && s1.noRoute (dieOf g) die then s1.raise 0xF 2 h
        else if die = dieOf g || (s1.own.dataWait.map DataWait.arrived).getD false then
          ((s1.finishTicket (setOf g) die (ticketDisp h)).putOwn (s1.own.dropTicket h)).retire 4
        else if s1.own.dataWait.isSome then s1
        else s1.askRemote h pa (.ticketDone (setOf g) (ticketDisp h)) false
      else if s1.noExit (dieOf g) (ticketDie h / 8) then s1.raise 0xF 2 h
      else
        match s1.own.dataWait with
        | some w => if w.arrived then (s1.putOwn (s1.own.dropTicket h)).retire 4 else s1
        | none => s1.askRemote h pa (.ticketDone (s1.ticketSet g pa) (ticketDisp h)) true

/-- Every ticket of a group completed without the wait, at its end (R416). -/
def State.returnTickets (s : State) (g : Nat) : State :=
  let s1 := (s.group g).tickets.foldl (fun st t =>
    if ticketHere t.1 then st.finishTicket (setOf g) (ticketDie t.1 % 8) (ticketDisp t.1)
    else st.emit (.request t.2 (.ticketDone (st.ticketSet g t.2) (ticketDisp t.1)) g)) s
  s1.putGroup g { s1.group g with tickets := [] }

/-! ## Remote requests at their port (R408) -/

/-- A write among merged ones performed at a place, with the bytes that have been written so far (R407). -/
def WritePart.perform (p : State × List Nat) (q : Nat × WritePart) : State × List Nat :=
  let pa := q.1 % 2 ^ 41
  match q.2 with
  | .data d => (p.1.write none pa d, p.2 ++ upFrom pa d.length)
  | .marked d => ((p.1.write none pa d).mark pa d.length, p.2.filter fun a => !(wordsOf pa d.length).contains (a / 8))
  | .nibble hi v =>
    let old := natOfBytes (p.1.readAt pa 1)
    (p.1.write none pa (toBytes 1 (if hi then old % 16 + v % 16 * 16 else old / 16 * 16 + v % 16)), p.2 ++ [pa])

/-- A packet of merged writes performed in one step: it clears the markers of the words that its bytes cover (R407, R486). -/
def State.performMerged (s : State) (l : List (Nat × WritePart)) : State :=
  let r := l.foldl WritePart.perform (s, [])
  let full := fun (w : Nat) => (upFrom (8 * w) 8).all r.2.contains
  { r.1 with poison := r.1.poison.filter fun w => !full w, uncorr := r.1.uncorr.filter fun w => !full w }

/-- A request performed at its port: the state after it, what is answered, and whether its data are bad. A ticket that is not called yet is
acknowledged, and its call answered later (R415). -/
def State.performRemote (s : State) (pa src : Nat) (kind : RemoteKind) : State × Option (List Byte × Bool) :=
  match kind with
  | .read n => (s, some (s.readAt pa n, s.badData pa n))
  | .write data => (s.write none pa data, some ([], false))
  | .multicast data => (s.write none pa data, some ([], false))
  | .ordered data => (s.write none pa data, some ([], false))
  | .bytes l => (s.performMerged l, some ([], false))
  | .marked data => ((s.write none pa data).mark pa data.length, some ([], false))
  | .nibble hi v =>
    let old := natOfBytes (s.readAt pa 1)
    (s.write none pa (toBytes 1 (if hi then old % 16 + v % 16 * 16 else old / 16 * 16 + v % 16)), some ([], false))
  | .atomic op uns x expect =>
    if s.badData pa 8 then (s, some ([], true))
    else
      let r := s.atomicStep none [(pa, 8)] op uns x expect
      (r.1, some (toBytes 8 r.2.toNat, false))
  | .update clear set add =>
    (s.write none pa (toBytes 8 (updateWord (BitVec.ofNat 64 (natOfBytes (s.readAt pa 8))) clear set add).toNat), some ([], false))
  | .scatter op t x =>
    let n := tagWidth t / 8
    if s.badData pa n then (s, some ([], true))
    else (s.writeAs none (some t) none pa (toBytes n (scatterValue op t (natOfBytes (s.readAt pa n)) x)), some ([], false))
  | .ticketGet set disp =>
    let r := s.takeTicket (dispKey set (paDie pa) disp)
    (r.1, some (toBytes 4 r.2.toNat, false))
  | .ticketDone set disp => (s.finishTicket set (paDie pa) disp, some ([], false))
  | .ticketWait set disp num =>
    let k := dispKey set (paDie pa) disp
    let d := s.dispenser k
    if d.called (s.ticketWindow set) num then (s, some (toBytes 4 num.toNat, false))
    else ({ s with dispensers := s.dispensers.put k { d with waiters := d.waiters ++ [(src, num)] } }, some ([], false))

/-- REMOTE_REQUEST_ARRIVAL (R408): a packet of another module reaches its port here. -/
def execRemoteRequestArrival (rq : RemoteRequest) (s : State) : Res :=
  .next <|
    match s.performRemote (rq.pa % 2 ^ 41) rq.src rq.kind with
    | (s1, some (data, bad)) => s1.emit (.answer rq.src data bad)
    | (s1, none) => s1

/-- LINKFAIL raised precisely to a group, at an instruction, for an address (R409). -/
def State.linkFail (s : State) (g sub : Nat) (pc addr : Word) : State :=
  s.trap g { code := 0xF, sub := sub, kind := 0, addr := addr, elem := none, vec := false, pc := pc, wait := none }

/-- A late load that ends in a precise trap: the group stands as before it (R4, R487, R409). -/
def State.failLate (s : State) (g : Nat) (l : LateLoad) (code sub : Nat) : State :=
  (s.putGroup g ((s.group g).undo l)).trap g { code := code, sub := sub, kind := 0, addr := l.va, elem := none, vec := false, pc := l.pc, wait := none }

/-- The bytes of a late load, from this module as they stand now, from another one as answered. -/
def State.lateBytes (s : State) (l : LateLoad) (far : List Host.Cell) : Option (List Byte) :=
  if l.runs.any fun r => paModule r.1 && !paHost r.1 then (l.runs.map fun r => upFrom r.1 r.2).flatten.mapM (inboxByte far)
  else some (s.readRuns l.runs)

/-- Whether a link in Retraining holds a request for some places, or its reply (R403, R404). -/
def State.heldRuns (s : State) (g : Nat) (runs : List (Nat × Nat)) : Bool := runs.any fun r => s.heldTo g r.1 || s.heldFrom g r.1

/-- Whether a request for some places, or its reply, has lost its way (R405). -/
def State.lostRuns (s : State) (g : Nat) (runs : List (Nat × Nat)) : Bool := runs.any fun r => s.unreachable g r.1 || s.lostFrom g r.1

/-- The data of a group's late load have come, unless a link holds them; one that has lost its way fails with LINKFAIL (R405, R409). -/
def State.returnLate (s : State) (g : Nat) (l : LateLoad) (far : List Host.Cell) (bad : Bool) : State :=
  if s.lostRuns g l.runs then s.failLate g l 0xF 2
  else if s.heldRuns g l.runs then s
  else
    match s.lateBytes l far with
    | some b => s.finishLate g l b (bad || s.runsBad l.runs)
    | none => s

/-- LOAD_DATA_RETURN (R233, R331): the data of a group's late load arrive from this module or the host. -/
def execLoadDataReturn (g : BitVec 12) (s : State) : Res :=
  .next <|
    let g := g.toNat
    match (s.group g).late with
    | none => s
    | some l => s.returnLate g l [] false

/-- A sent write acknowledged: one on its way has reached its port and is performed there; one that reports bad data is an element of a
VSTXA, which its report names (R241). -/
def State.ackOne (s : State) (g : Nat) (w : SentWrite) (bad : Bool) : State :=
  let s1 := match w.held with | some (a, runs) => s.applyAt g a runs | none => s
  if bad && w.atomic then s1.putGroup g ((s1.group g).scatterFault w.va w.elem w.inst) else s1

/-- The writes that a router has merged with one to its die, which stands first in program order, and the others of a list: merged ones
stand next to one another among those to the die (R407). -/
def splitJoined (die : Nat) : List SentWrite → List SentWrite × List SentWrite
  | [] => ([], [])
  | w :: rest =>
    if w.die ≠ die then ((splitJoined die rest).1, w :: (splitJoined die rest).2)
    else if w.joined then (w :: (splitJoined die rest).1, (splitJoined die rest).2)
    else ([], w :: rest)

/-- The oldest acknowledgement that a group awaits has come, unless a link still holds it or its write (R403); it answers the writes that have
been merged with that write too. One that has lost its way fails with LINKFAIL, its write performed or not (R405, R409). -/
def State.acknowledge (s : State) (g : Nat) (bad : Bool) : State :=
  match (s.group g).sent with
  | [] => s
  | w :: rest =>
    let p := splitJoined w.die rest
    if s.lostDie g w.die then
      (w :: p.1).foldl (fun st v => st.deliver g 0xF 2 v.va) (s.putGroup g { s.group g with sent := p.2 })
    else if s.heldDie g w.die then s
    else
      let s1 := p.1.foldl (fun st v => st.ackOne g v false) (s.ackOne g w bad)
      s1.putGroup g { s1.group g with sent := p.2 }

/-- The addresses that a bad reply spoils: those of its bytes, or, with none, all that are still to come (R486). -/
def DataWait.spoils (w : DataWait) (data : List Host.Cell) : List Nat :=
  if data.isEmpty then (w.asked.map fun r => upFrom r.1 r.2).flatten.filter fun a => (inboxByte w.inbox a).isNone else data.map Prod.fst

/-- A wait for a ticket of another die or module that a reply has called, or, with no data, acknowledged (R415). -/
def Wait.ticketReply (num : Option Nat) (w : Wait) : Wait :=
  match w with
  | .ticket h acked called =>
    (match num with
     | none => .ticket h true called
     | some n => if (ticketNum h).toNat = n ∧ !ticketHere h then .ticket h true true else .ticket h acked called)
  | _ => w

/-- Whether a wait's TICKWAIT has still to be acknowledged, and whether it is for a ticket of another module (R415). -/
def Wait.unacked (w : Wait) : Bool := match w with | .ticket _ acked _ => !acked | _ => false
def Wait.farTicket (w : Wait) : Bool := match w with | .ticket h _ _ => !ticketHere h | _ => false

/-- A group's wait, and the one that its handler has interrupted, when a test holds of one of them. -/
def Group.anyWait (G : Group) (p : Wait → Bool) : Bool :=
  (match G.phase with | .waiting w => p w | _ => false) || (match G.interrupted with | some (_, w) => p w | none => false)

/-- A reply to a TICKWAIT kept in the wait it belongs to: a call in that of its ticket, by the number it carries, an acknowledgement in the
one that has none yet, an interrupted one first (R415). -/
def Group.ticketReply (G : Group) (num : Option Nat) : Group :=
  match num, G.interrupted with
  | none, some (pc, w) =>
    if w.unacked then { G with interrupted := some (pc, w.ticketReply none) }
    else { G with phase := (match G.phase with | .waiting v => .waiting (v.ticketReply none) | p => p) }
  | _, _ =>
    { G with
      phase := (match G.phase with | .waiting w => .waiting (w.ticketReply num) | p => p)
      interrupted := G.interrupted.map fun q => (q.1, q.2.ticketReply num) }

/-- Whether a late load or a waiting instruction's request has gone to another die or module. -/
def farRuns (g : Nat) (runs : List (Nat × Nat)) : Bool := runs.any fun r => decide (reachOf g r.1 = .die ∨ reachOf g r.1 = .module)

/-- A reply to a group's TICKWAIT: the number of the ticket that is called, which the group waits for on another module; an acknowledgement,
which carries no data, of one that has none, once no write awaits its own. -/
def Group.ticketAnswer (G : Group) (data : List Host.Cell) : Option (Option Nat) :=
  if data.isEmpty then (if G.anyWait Wait.unacked && G.sent.isEmpty then some none else none)
  else if G.anyWait Wait.farTicket then some (some (natOfBytes (data.map Prod.snd))) else none

/-- Whether the ticket of a group's TICKWAIT that awaits its acknowledgement stands behind a link that holds packets. -/
def State.ticketHeld (s : State) (g : Nat) : Bool :=
  (s.group g).anyWait fun w => match w with
    | .ticket h false _ => s.heldDie g (if ticketHere h then ticketDie h % 8 else 8 + ticketDie h)
    | _ => false

/-- REMOTE_REPLY_ARRIVAL (R331, R408): the reply of a late load of another die or module, the data that an instruction waits for, the call of
a ticket, which is a reply with its number, or an acknowledgement: the oldest, or that of a TICKWAIT. What a link in Retraining holds has no
reply (R404). -/
def execRemoteReplyArrival (g : BitVec 12) (data : List Host.Cell) (bad : Bool) (s : State) : Res :=
  .next <|
    let g := g.toNat
    let G := s.group g
    match G.late.filter fun l => farRuns g l.runs || G.dataWait.isNone with
    | some l => s.returnLate g l data bad
    | none =>
      match G.dataWait with
      | some w =>
        if s.lostRuns g w.asked then
          (s.putGroup g { G with dataWait := none }).linkFail g 2 w.pc w.va
        else if s.heldRuns g w.asked then s
        else s.putGroup g { G with dataWait := some { w with arrived := true, bad := if bad then w.bad ++ w.spoils data else w.bad, inbox := w.inbox ++ data } }
      | none =>
        match G.ticketAnswer data with
        | some num => if s.ticketHeld g && num.isNone then s else s.putGroup g (G.ticketReply num)
        | none => s.acknowledge g bad

/-- An arrival of a group at a unit on another die takes effect (R323). -/
def State.arrivePending (s : State) (g : Nat) : State :=
  match (s.group g).barPending with
  | some (h, bar, none) =>
    let r := match s.liveHandle g h with
      | .ok place => s.arriveAt g place
      | .error sub => (s, .error sub)
    r.1.putGroup g { r.1.group g with barPending := some (h, bar, some r.2) }
  | _ => s

/-- BARRIER_REQUEST_ARRIVAL (R323), unless a link in Retraining holds the request or its reply (R403); one that has lost its way fails with
LINKFAIL (R328, R405). -/
def execBarrierRequestArrival (g : BitVec 12) (s : State) : Res :=
  .next <|
    let g := g.toNat
    match (s.group g).barPending with
    | some (h, _, none) =>
      if s.lostDie g (barDie h) then (s.putGroup g { s.group g with barPending := none }).linkFail g 2 (s.group g).pc h
      else if s.heldDie g (barDie h) then s
      else s.arrivePending g
    | _ => s

/-- The ticket of another die or module for which a group's TICKWAIT has had no answer (R409). -/
def Group.ticketAsked (G : Group) : Option Word :=
  match G.phase with
  | .waiting (.ticket h false _) => some h
  | _ => none

/-- Whether a contribution's partial leaves its die: some rank stands on another. -/
def Contribution.leavesDie (c : Contribution) : Bool :=
  (upFrom 0 (c.from_.nrm1 + 1)).any fun r => decide (rankDie c.from_.base c.from_.stride r ≠ rankDie c.from_.base c.from_.stride c.from_.rank)

/-- The dies of other modules on which ranks of a contribution stand, told that it has failed. -/
def State.tellFar (s : State) (g : Nat) (c : Contribution) (why : Nat) : State :=
  (farDies c.from_).foldl (fun st d => st.emit (.contribution d { c.from_ with set := st.setOn g d, fate := some why })) s

/-- REMOTE_DEADLINE (R408, R409, R328): a group's oldest remote request fails with LINKFAIL; `reached` says whether it
had reached its port, which a write performed as it left always has. -/
def execRemoteDeadline (g : BitVec 12) (reached : Bool) (why : BitVec 2) (s : State) : Res :=
  .next <|
    let g := g.toNat
    let G := s.group g
    let sub := if why = 2 then 2 else 1
    let fail := fun (st : State) (pc addr : Word) => st.linkFail g sub pc addr
    match G.late.filter fun l => farRuns g l.runs || G.dataWait.isNone with
    | some l => if farRuns g l.runs then s.failLate g l 0xF sub else s
    | none =>
      match G.dataWait with
      | some w =>
        if w.arrived then s
        else
          let s1 := s.putGroup g { G with dataWait := none }
          let s2 := match w.act with
            | some (pa, kind) => if reached && !paModule pa then (s1.performRemote pa 0 kind).1 else s1
            | none => s1
          fail s2 w.pc w.va
      | none =>
        match G.barPending with
        | some (h, _, none) =>
          let s1 := if reached then s.arrivePending g else s
          fail (s1.putGroup g { s1.group g with barPending := none }) G.pc h
        | _ =>
          match G.sent with
          | w :: rest =>
            let p := splitJoined w.die rest
            let s1 := if reached then (w :: p.1).foldl (fun st v => match v.held with | some (a, runs) => st.applyAt g a runs | none => st) s else s
            (w :: p.1).foldl (fun st v => st.deliver g 0xF sub v.va) (s1.putGroup g { s1.group g with sent := p.2 })
          | [] =>
            match G.ticketAsked with
            | some h => fail (s.putGroup g { G with phase := .running }) G.pc h
            | none =>
            match s.colls.find? (fun c => c.group == some g && !c.done && c.failed.isNone && c.leavesDie) with
            | some c =>
              let s1 := { s with colls := s.colls.map fun q => if q = c then { q with failed := some sub } else q }
              (s1.tellFar g c sub).deliver g 0xF sub c.buffer
            | none =>
              match s.flying.find? (fun f => f.msg.sender == some g && decide (f.die ≠ dieOf g)) with
              | some f => { s with flying := s.flying.erase f }.deliver g 0xF sub f.msg.addr
              | none => s

/-! ## Link states (R403 to R405) -/

/-- Whether a number names a die-to-die link or an optical port (R456). -/
def linkKnown (k : Nat) : Bool := decide (k < 10 ∨ (16 ≤ k ∧ k < 64))

/-- A link; one that no event has touched is Down. -/
def State.link (s : State) (k : Nat) : Link := s.links.findD k { st := .down, replays := 0, held := false }

/-- The state that a training ends in (R403); in reduced service every die-to-die link trains to Degraded (R453). -/
def trained (reduced : Bool) (k : Nat) (out : Lanes) : LinkState :=
  match out with
  | .full => if reduced && decide (k < 10) then .degraded else .up
  | .half => .degraded
  | .fewer => .failed

/-- Host-assisted retraining (R403). -/
def State.hostRetrain (s : State) : Bool := ((s.set0.img.map Image.hostRetrain).getD false) || ((s.set1.img.map Image.hostRetrain).getD false)

/-- FLIT_REPLAY (R404): one more replay of the flit that failed. -/
def execFlitReplay (lk : BitVec 6) (s : State) : Res :=
  .next <|
    let k := lk.toNat
    let l := s.link k
    if linkKnown k && decide (l.st = .up ∨ l.st = .degraded) then { s with links := s.links.put k { l with replays := min 8 (l.replays + 1) } } else s

/-- LINK_CRC_FAIL (R403): after 8 replays in a row the link retrains, its packets held; in host-assisted mode the host is
asked to train it (R452). -/
def execLinkCrcFail (lk : BitVec 6) (s : State) : Res :=
  .next <|
    let k := lk.toNat
    let l := s.link k
    if linkKnown k && decide (l.st = .up ∨ l.st = .degraded) && decide (l.replays ≥ 8) then
      let s1 := { s with links := s.links.put k { st := .retraining, replays := 0, held := true } }
      if s.hostRetrain then s1.post { kind := 5, set := 0, id := 0, body := leCells 8 1 k } else s1
    else s

/-- LINK_RETRAIN_DONE (R403): in hardware mode; in host-assisted mode the host's command ends it. -/
def execLinkRetrainDone (lk : BitVec 6) (out : Lanes) (s : State) : Res :=
  .next <|
    let k := lk.toNat
    if linkKnown k && decide ((s.link k).st = .retraining) && !s.hostRetrain then
      { s with links := s.links.put k { st := trained s.reduced k out, replays := 0, held := false } }
    else s

/-! ## Collective units (R421 to R423) -/

/-- COLLECTIVE_UNIT_ACCEPT (R421): a rank of another module contributes, or has failed (R423). -/
def execCollectiveUnitAccept (cc : RemoteContribution) (s : State) : Res :=
  .next { s with colls := s.colls ++ [{ group := none, num := 0, from_ := cc, buffer := 0, runs := [], failed := cc.fate, done := true }] }

/-- The global die on which a contribution's rank stands (R419). -/
def rankStand (c : RemoteContribution) : Nat := rankDie c.base c.stride c.rank

/-- Whether contribution `a` belongs to the collective of contribution `b`: one identifier in one slot set, and its rank on the die on
which `b` places it (R419, R421). -/
def sameColl (a b : Contribution) : Bool :=
  a.from_.cid == b.from_.cid && a.from_.set == b.from_.set && rankStand a.from_ == rankDie b.from_.base b.from_.stride a.from_.rank

/-- The contributions of a rank to a collective identifier, in program order. -/
def State.rankList (s : State) (c : Contribution) (r : Nat) : List Contribution := s.colls.filter fun q => sameColl q c && q.from_.rank == r

/-- What two ranks must agree on (R423). -/
def agree (a b : RemoteContribution) : Bool :=
  a.elems.length == b.elems.length && a.tag == b.tag && a.op == b.op && a.kind == b.kind && a.nrm1 == b.nrm1

/-- Whether two ranks of a contribution's collective name one die (R423): by its own stride, or since another group stands there with another
rank of the identifier. A group's own contributions under other ranks belong to other collectives. -/
def State.diesClash (s : State) (c : Contribution) : Bool :=
  decide (c.from_.nrm1 + 1 > 32768 / Nat.gcd c.from_.stride 32768) ||
  s.colls.any fun q => q.from_.cid == c.from_.cid && q.from_.set == c.from_.set && rankStand q.from_ == rankStand c.from_ && q.from_.rank != c.from_.rank &&
    (match q.group, c.group with | some a, some b => a != b | _, _ => true)

/-- A running value of an element: its pattern in the accumulation format, whether it is stuck at a saturated value,
its flags, and an overflow seen (R422). -/
structure CollAcc where
  v : Nat
  stuck : Bool
  fl : BitVec 6
  of : Bool

/-- One rank's element combined (R422). -/
def CollAcc.step (op : Nat) (src t : Tag) (a : CollAcc) (p : Nat) : CollAcc :=
  if a.stuck then a
  else
    let x := foldLift src t 0 0 p
    let r := foldStep op t 0 true 0 a.v x.1
    let exact := intOf t a.v + intOf t x.1
    let clip := op = 0 ∧ tagIsInt t = true ∧ (exact < intMin t ∨ exact > intMax t)
    { v := r.1, stuck := decide clip, fl := a.fl ||| x.2 ||| r.2, of := a.of || decide clip || decide (r.2 &&& flagOF ≠ 0) }

/-- The result of an element over the ranks' elements, ascending (R422). -/
def collElem (op : Nat) (src : Tag) (ps : List Nat) : Nat × BitVec 6 × Bool :=
  let t := sumTag src
  match ps with
  | [] => (0, 0, false)
  | p :: rest =>
    let x := foldLift src t 0 0 p
    let a := rest.foldl (CollAcc.step op src t) { v := x.1, stuck := false, fl := x.2, of := false }
    if tagIsFloat src then
      let r := convert t src 0 false 0 a.v
      (r.1, a.fl ||| r.2, a.of || decide (r.2 &&& flagOF ≠ 0))
    else
      let z := intOf t a.v
      (putInt src true z, a.fl, a.of || decide (z < intMin src ∨ z > intMax src))

/-- The result of a collective as bytes, with its flags and whether it overflowed. -/
def collResult (cs : List RemoteContribution) : List Byte × BitVec 6 × Bool :=
  match cs with
  | [] => ([], 0, false)
  | c :: _ =>
    let w := tagWidth c.tag
    let n := c.elems.length
    let rs := (upFrom 0 n).map fun i => collElem c.op c.tag (cs.map fun q => (q.elems[i]?).getD 0)
    let str := (rs.foldl (fun (p : Nat × Nat) r => (p.1 + r.1 * 2 ^ (w * p.2), p.2 + 1)) (0, 0)).1
    (toBytes (n * w / 8) str, rs.foldl (fun f r => f ||| r.2.1) 0, rs.any fun r => r.2.2)

/-- The oldest set of a collective dropped once every rank has contributed and every group of it has ended. -/
def State.purgeColl (s : State) (c : Contribution) : State :=
  let heads := (upFrom 0 (c.from_.nrm1 + 1)).map fun r => (s.rankList c r).head?
  if heads.all fun h => match h with | some q => q.done | none => false then
    { s with colls := heads.foldl (fun l h => match h with | some q => l.erase q | none => l) s.colls }
  else s

/-- What a contribution of a group has come to: failed (and by a lost link), or done with a result to write, or done
without one; none while ranks are missing. -/
inductive CollEnd where
  | failed (lost : Option Nat)
  | result (data : List Byte) (fl : BitVec 6) (of : Bool)
  | combined

/-- The end of a contribution, when it has come (R423). -/
def State.collFate (s : State) (c : Contribution) : Option CollEnd :=
  let mine := (s.rankList c c.from_.rank).takeWhile (fun q => decide (q ≠ c))
  let idx := mine.length
  let ranks := (upFrom 0 (c.from_.nrm1 + 1)).map fun r => (s.rankList c r)[idx]?
  let present := ranks.filterMap id
  if c.failed.isSome then some (.failed none)
  else if present.any (fun q => q.failed.isSome || !agree q.from_ c.from_) || s.diesClash c then
    some (.failed ((present.filterMap Contribution.failed).find? fun n => decide (n ≠ 0)))
  else if c.from_.kind = 1 ∧ c.from_.rank ≠ c.from_.nrm1 then
    (if (ranks.take (c.from_.rank + 1)).all Option.isSome then some .combined else none)
  else if ranks.all Option.isSome then
    let r := collResult (present.map Contribution.from_)
    some (.result r.1 r.2.1 r.2.2)
  else none

/-- Whether a contribution's partials or its result meet a link in Retraining on their way between the ranks' dies (R403). -/
def State.collHeld (s : State) (g : Nat) (c : Contribution) : Bool :=
  (upFrom 0 (c.from_.nrm1 + 1)).any fun r =>
    let d := rankDie c.from_.base c.from_.stride r
    s.heldDie g (if d / 8 = ownModule then d % 8 else 8 + d)

/-- COLLECTIVE_RESULT_DELIVERY (R422, R423): the first contribution of a group that has come to its end; the result's bytes become
asynchronous-path writes of the group, and DONE rises with the last of them (R349). -/
def execCollectiveResultDelivery (g : BitVec 12) (s : State) : Res :=
  .next <|
    let g := g.toNat
    match s.colls.find? (fun c => c.group == some g && !c.done && (s.collFate c).isSome) with
    | none => s
    | some c =>
      if c.failed.isNone && s.collHeld g c then s
      else
        let s1 := { s with colls := s.colls.map fun q => if q = c then { q with done := true } else q }
        let s2 := match s.collFate c with
          | some (.failed lost) =>
            let s2 := s1.putGroup g ((s1.group g).collEnd true 0 false)
            (match lost with | some sub => s2.deliver g 0xF sub c.buffer | none => s2)
          | some (.result data fl of) => s1.putGroup g ((s1.group g).sendResult c.runs data fl of)
          | _ => s1.putGroup g ((s1.group g).collEnd false 0 false)
        s2.purgeColl { c with done := true }

/-- A terminated group's contributions that have not ended fail for the other ranks (R423). -/
def State.failContributions (s : State) (g : Nat) : State :=
  let mine := s.colls.filter fun q => q.group == some g && !q.done
  let s1 := mine.foldl (fun st q => st.tellFar g q 0) s
  { s1 with colls := s1.colls.map fun q => if q.group == some g && !q.done then { q with group := none, failed := some 0, done := true } else q }

end Sys2Proof.Machine
end

