-- ==== Sys2Proof/Machine/Group.lean ====
section
/-!
DEFINITION. Sys2Proof/Machine/Group.lean: the end of a group, waits and their wake events, the watchdog, delivery of
held causes, GTERM and GYIELD (spec/07_group R128, R135 to R144, R366).
-/

namespace Sys2Proof.Machine

/-! ## The end of a group (R126, R141) -/

/-- A channel at its group's termination: unbound as SUNBIND does, once the strips already requested have landed; its tokens go nowhere
(R141, R316). -/
def Channel.cut (c : Channel) : Channel := { c with owed := 0, tke := false }.leave

/-- What a terminated group's vector queue leaves: the accesses of element groups that it has issued (R141). -/
def Group.cutVector (G : Group) : Group :=
  { G with slices := G.slices.map fun l => l.filter fun a => !G.unissued a, convoys := [] }

/-- Entries of a group that have not begun leave the engines' queues (R141). -/
def State.discardEntries (s : State) (g : Nat) : State :=
  let c := cellOf g
  let C := s.cell c
  let keep := fun (e : TransformEntry) => e.group != g || e.started
  if C.mq.any (fun e => e.group == g) || (C.tq0 ++ C.tq1).any (fun e => e.group == g) then
    s.putCell c { C with mq := C.mq.filter (fun e => e.group != g || e.issued), tq0 := C.tq0.filter keep, tq1 := C.tq1.filter keep }
  else s

/-- A message without the group that sent it. -/
def Msg.orphan (g : Nat) (m : Msg) : Msg := if m.sender = some g then { m with sender := none } else m

/-- The messages of a group that ends travel on without it. -/
def State.forgetSender (s : State) (g : Nat) : State :=
  { s with
    flying := s.flying.map fun f => { f with msg := f.msg.orphan g }
    receivers := s.receivers.map fun e =>
      (e.1, { e.2 with
        tray := e.2.tray.map (Msg.orphan g), landing := e.2.landing.map fun p => (p.1, p.2.orphan g)
        waitingHost := e.2.waitingHost.map fun p => (p.1.orphan g, p.2), refused := e.2.refused.map (Msg.orphan g) }) }

/-- A group no longer among its slot set's waiters on host tokens. -/
def SlotSet.forget (S : SlotSet) (g : Nat) : SlotSet :=
  { S with waiters := S.waiters.filter fun q => q.1 != g }

/-- Launches of a group whose writes have all been performed no longer wait for them (R122). -/
def SlotSet.settleLaunches (S : SlotSet) (g : Nat) : SlotSet :=
  { S with kernels := S.kernels.map fun k => if (k.after.map Prod.fst) = some g then { k with after := none } else k }

/-- What a group holds beside its receives, given up at its end (R126, R381, R416, R423). -/
def State.releaseHoldings (s : State) (g : Nat) : State :=
  let s1 := (((s.failContributions g).returnTickets g).releaseKv g).forgetSender g
  s1.putSet (setOf g) ((s1.slotSet (setOf g)).forget g)

/-- What the accesses of a group's instruction have used of the answers of the host, given up as it goes on to another instruction or
takes a trap (R360, R361). -/
def State.leaveMisses (s : State) (g : Nat) : State := { s with tr := s.tr.forget (setOf g) g fun id => decide (id ≠ 0) }

/-- Nothing that a group's accesses have asked for stands for it any more (R361). -/
def State.dropAsked (s : State) (g : Nat) : State := { s with tr := s.tr.forget (setOf g) g fun _ => false }

/-- A group's slot and resources freed (R130); the placer owes a decision (R104). -/
def State.freeSlot (s : State) (g : Nat) : State :=
  let t := setOf g
  let num := (s.group g).kernid
  let s1 := { s.dropAsked g with groups := s.groups.drop g }
  (s1.putSet t { (s1.slotSet t).settleLaunches g with placeDue := true }).finishKernel t num

/-- Whether work of a terminated group is still in progress (R141). -/
def State.lingers (s : State) (g : Nat) : Bool :=
  let G := s.group g
  G.queued || G.late.isSome || (match G.dataWait with | some w => !w.arrived | none => false) || G.sent.any (fun w => !w.msg) ||
  !G.async.isEmpty || G.chan.toList.any (fun c => decide (c.st = .copying)) || !(s.entriesOf g).isEmpty || !(s.transformsOf g).isEmpty

/-- A terminated group's slot freed when the last of its work has finished and its receives are cancelled (R141, R438). -/
def State.tryFree (s : State) (g : Nat) : State :=
  if (s.group g).phase ≠ .terminated then s
  else
    let s1 := s.putGroup g { s.group g with chan := (s.group g).chan.map Channel.cut }
    match s1.releaseRecvs g with
    | (s2, false) => s2
    | (s2, true) => if s2.lingers g then s2 else s2.freeSlot g

/-- A group Terminated (R141): it stops issuing, what has not begun is discarded, its holdings are released, and its
kernel counts it as failed. -/
def State.terminate (s : State) (g : Nat) : State :=
  if (s.groups.find g).isNone || (s.group g).over then s
  else
    let s0 := s.arrivePending g
    let G := s0.group g
    let G1 := { G.cutVector with
      phase := .terminated, causes := [], sfrq := [], interrupted := none, yield := none, barPending := none
      fifos := Vector.replicate 16 0, chan := G.chan.map Channel.cut }
    let s1 := ((s0.putGroup g G1).discardEntries g).releaseHoldings g
    (((s1.barDepart g G.kernid).groupGone (setOf g) G.kernid (fun w => wordFail w 1)).leaveMisses g).tryFree g

/-- Every terminated group whose work has finished leaves its slot. -/
def State.reap (s : State) : State :=
  ((s.groups.filter fun e => decide (e.2.phase = .terminated)).map Prod.fst).foldl (fun st g => st.tryFree g) s

/-! ## Whether a group may act -/

/-- Whether a group's context is Active on its cell. -/
def State.live (s : State) (g : Nat) : Bool := (s.groups.find g).isSome && s.serves (setOf g) (cellOf g)

/-! ## Wake events (R135) -/

/-- The first group that waits for an ingress token of a channel, in the order of issue (R111). -/
def State.firstWaiter (s : State) (t ch : Nat) : Option Nat :=
  ((s.slotSet t).waiters.find? fun q => q.2.1 == ch && decide (((s.group q.1).level = .supervisor) = (q.2.2 = true)) &&
    (match (s.group q.1).phase with | .waiting (.hostTaken _ c) => c.toNat == ch | _ => false)).map Prod.fst

/-- A token channel's FIFO. -/
def fifoOf (l : Table (List (BitVec 32))) (ch : Nat) : List (BitVec 32) := l.findD ch []

/-- A group that goes on with its waiting instruction from the wait (R128). -/
def Group.goOn (G : Group) : Group := { G with phase := .running }

/-- The state after the wake event of a waiting group's reason, if the event has occurred. `spurious` admits the end of
WFE without cause (R96). A TKPOP whose token makes writes of the asynchronous path visible goes on to perform them (R316). A receive whose handle the group's handler has released counts as cancelled (notes/assumptions/72). -/
def State.wakeUp (s : State) (g : Nat) (spurious : Bool) : Option State :=
  let s0 := { s with cur := g }
  let G := s0.group g
  let t := setOf g
  match G.phase with
  | .waiting w =>
    (match w with
     | .barrier h p d bar => (s.barOver g h p).map fun done => s0.done d (barAnswer bar done p) 4
     | .freed d => some (s0.done d (BitVec.allOnes 64) 4)
     | .passed d v => some (s0.done d v 4)
     | .token f =>
       if G.fifos[f.toNat] = 0 then none
       else if G.async.isEmpty then some ((s0.putOwn (G.popToken (some f))).retire 4)
       else some (s0.putOwn G.goOn)
     | .vecToken f => if G.fifos[f.toNat] > 0 then some (s0.putOwn G.goOn) else none
     | .queue d ks => if ks.any (fun k => ((s.slotSet t).kernel? k).isSome) then none else some (s0.done d 0 4)
     | .watermark d ch target => ((G.chan[ch.toNat]).answer target).map fun v => s0.done d v 4
     | .place runs => if s.behind g runs then none else some (s0.putOwn G.goOn)
     | .message d h =>
       (match G.recvHeld (BitVec.ofNat 64 h) with
        | some (slot, .complete flag) => some ((s0.putOwn (G.dropRecv slot)).done d flag 4)
        | some _ => none
        | none => some (s0.done d (flagWord 4 0 0) 4))
     | .kvItem d =>
       (match G.takeItem with
        | some (G1, v) => some ((s0.putOwn G1).done d v 4)
        | none => if (s.seqAt (seqOf g)).subs.any (fun u => u.group == g) then none else some (s0.done d 0x8000000000000000 4))
     | .kvSpace q page m l o => (s0.deposit g q page { m := m, l := l, o := o }).map fun st => st.retire 8
     | .ticket h _ called => if (if ticketHere h then s.ticketCalled g h else called) then some (s0.retire 4) else none
     | .hostTaken d ch =>
       if s.firstWaiter t ch.toNat = some g then
         (match fifoOf (s.slotSet t).ingress ch.toNat with
          | [] => none
          | v :: rest =>
            let S := s.slotSet t
            let S1 := { S with ingress := S.ingress.put ch.toNat rest, waiters := S.waiters.filter fun q => !(q.1 == g && q.2.2 == decide (G.level = .supervisor)) }
            some ((s0.putSet t S1).done d (v.setWidth 64) 4))
       else none
     | .hostGiven ch v =>
       let S := s.slotSet t
       let l := fifoOf S.egress ch.toNat
       if l.length < 16 then some ((s0.putSet t { S with egress := S.egress.put ch.toNat (l ++ [v]) }).retire 4) else none
     | .event _ touched => if touched || spurious then some (s0.retire 4) else none
     | .collective => if G.collDone = G.collIssued then some (s0.putOwn G.goOn) else none)
  | _ => none

/-! ## The watchdog (R136, R137) -/

/-- Whether a group's count has reached LIMIT, and whether it did so in an earlier clock. -/
def Group.limitReached (G : Group) : Bool :=
  decide (G.level = .user) && decide (bits G.wdoglim 0 48 ≠ 0) && decide (bits G.wdoglim 0 48 ≤ G.wdog)
def Group.limitPassed (G : Group) : Bool := G.limitReached && decide (bits G.wdoglim 0 48 < G.wdog)

/-- WAIT_WAKE (R135): unless the count reached LIMIT in an earlier clock, which WATCHDOG answers (R137). -/
def execWaitWake (g : BitVec 12) (s : State) : Res :=
  .next <|
    let g := g.toNat
    if s.live g && !(s.group g).limitPassed then (s.wakeUp g true).getD s else s

/-- Whether a group has a remote request outstanding (R136): reads of posted entries and channels and a TICKWAIT that is not acknowledged (R331,
R415) among them. -/
def State.remoteOut (s : State) (g : Nat) : Bool :=
  let G := s.group g
  let far := fun (a : Access) => farRuns g (s.accessRuns g a)
  let reads := fun (e : TransformEntry) => e.started && e.reads.any fun r => farRuns g (s.look g .load r.1.toNat r.2 (engineId 1)).2.runs
  !G.sent.isEmpty || (s.entriesOf g).any (fun e => farRuns g e.unread) || (s.transformsOf g).any reads ||
  G.chan.toList.any (fun c => decide (c.st = .copying ∧ c.asked > c.nextStrip)) || G.anyWait Wait.unacked || (match G.late with | some l => farRuns g l.runs | none => false) || G.slices.toList.any (fun l => l.any far) ||
  s.flying.any (fun f => f.msg.sender == some g && f.die != dieOf g) ||
  s.receivers.any (fun e => e.1 / 2 != dieOf g && e.2.refused.any fun m => m.sender == some g)

/-- WATCHDOG (R137): taken at the waiting instruction when the count has reached LIMIT; a wake event of the same clock goes first
(R128). -/
def execWatchdog (g : BitVec 12) (s : State) : Res :=
  .next <|
    let g := g.toNat
    let G := s.group g
    match G.phase with
    | .waiting w =>
      if s.live g && G.limitReached && (G.limitPassed || (s.wakeUp g false).isNone) then
        let s1 := s.trap g { code := 0xB, sub := 0, kind := 2, addr := 0, elem := none, vec := false, pc := G.pc, wait := some w.code }
        s1.putGroup g { s1.group g with interrupted := some (G.pc, w), wdog := 0 }
      else s
    | _ => s

/-! ## Held causes (R139, R366) -/

/-- Whether a group stands at an instruction boundary at user level (R139): not inside an instruction that waits for
data or for a barrier's unit. -/
def Group.atBoundary (G : Group) : Bool :=
  decide (G.level = .user) && decide (G.phase = .running ∨ G.phase = .placed) && G.dataWait.isNone && G.barPending.isNone && G.late.isNone

/-- Whether a group's record queue holds a record not yet reported (R366). -/
def Group.unreported (G : Group) : Bool := G.sfrq.any fun r => !r.reported

/-- The held cause that is taken first: an imprecise one, then in ascending code (R139). The report of a VSTXA waits until every element of the
instruction has been applied, so that it names the lowest that failed and is the only one (R241). -/
def Group.firstCause (G : Group) : Option HeldCause :=
  match G.causes.find? fun c => c.elem.isSome && !G.scatterLeft c.inst with
  | some c => some c
  | none => (G.causes.filter fun c => c.elem.isNone).foldl (fun b c => match b with | some x => if c.code < x.code then some c else some x | none => some c) none

/-- A held cause taken. -/
def State.takeCause (s : State) (g : Nat) (c : HeldCause) (wait : Option Nat) : State :=
  let G := s.group g
  (s.putGroup g { G with causes := G.causes.erase c }).trap g
    { code := c.code, sub := c.sub, kind := if c.elem.isSome then 1 else 2, addr := c.addr, elem := c.elem, vec := false, pc := G.pc, wait := wait }

/-- What is taken at a group's boundary at user level: PAGE_STORE first, then a held cause (R139, R366). -/
def State.boundaryTrap (s : State) (g : Nat) : Option State :=
  let G := s.group g
  if !G.atBoundary then none
  else if G.unreported then some ((s.pageStore g).leaveMisses g)
  else G.firstCause.map fun c => (s.takeCause g c none).leaveMisses g

/-- PAGE_STORE_DELIVERY (R366). -/
def execPageStoreDelivery (g : BitVec 12) (s : State) : Res :=
  .next <|
    let g := g.toNat
    let G := s.group g
    if s.live g && G.atBoundary && G.unreported then (s.pageStore g).leaveMisses g else s

/-- ASYNC_TRAP_DELIVERY (R139): at a boundary, or in Waiting as R137 states, where the wait is kept for RTE. -/
def execAsyncTrapDelivery (g : BitVec 12) (s : State) : Res :=
  .next <|
    let g := g.toNat
    let G := s.group g
    if !s.live g then s
    else
      match G.firstCause, G.phase with
      | none, _ => s
      | some c, .waiting w =>
        if G.level = .user ∧ c.elem = none ∧ (s.wakeUp g false).isNone = true then
          let s1 := s.takeCause g c (some w.code)
          s1.putGroup g { s1.group g with interrupted := some (G.pc, w) }
        else s
      | some c, _ => if G.atBoundary && !G.unreported then (s.takeCause g c none).leaveMisses g else s

/-! ## GTERM and GYIELD (R143, R144) -/

/-- GTERM (R143). -/
def execGterm (s : State) : Res := .next (if s.isSupervisor then s.close.terminate s.cur else s.priv)

/-- The other Running groups of a group's slot set on its cell whose next instruction is fetched; the turn strikes out those that
meet an interlock (State.fixMark, R144). -/
def State.readyPeers (s : State) (g : Nat) : List Nat :=
  ((upFrom 0 4).map fun k => groupCode (cellOf g) (setOf g) k).filter fun h => decide (h ≠ g) && (s.groups.find h).isSome && s.fetched h

/-- GYIELD (R144). -/
def execGyield (s : State) : Res :=
  .next <|
    let g := s.cur
    let s1 := s.close.retire 4
    let others := s1.readyPeers g
    if others.isEmpty then s1 else s1.putOwn { s1.own with yield := some { others := others, left := 64 } }

/-- Whether a group's mark is over: every group of its set has issued or left Running, or the clocks have passed. -/
def State.yieldOver (s : State) (y : YieldMark) : Bool :=
  decide (y.left = 0) || y.others.all fun h => decide ((s.group h).phase ≠ .running ∧ (s.group h).phase ≠ .placed)

/-- A group's mark falls when it is over (R144). -/
def State.dropMark (s : State) (g : Nat) : State :=
  let G := s.group g
  match G.yield with
  | some y => if s.yieldOver y then s.putGroup g { G with yield := none } else s
  | none => s

/-- Every mark that is over falls: no clock passes between the end of its condition and its own. -/
def State.dropMarks (s : State) : State := ((s.groups.filter fun e => e.2.yield.isSome).map Prod.fst).foldl State.dropMark s

/-- GYIELD_RELEASE (R144). -/
def execGyieldRelease (g : BitVec 12) (s : State) : Res := .next (s.dropMark g.toNat)

end Sys2Proof.Machine
end

