-- ==== Sys2Proof/Machine/Context.lean ====
section
/-!
DEFINITION. Sys2Proof/Machine/Context.lean: the states of a context, the switch, loading and saving, and the context
instructions (spec/04_context R79 to R99, R488, spec/06_kernel R116, R123).
-/

namespace Sys2Proof.Machine

/-! ## The end of a mailbox command (R449) -/

/-- A command ended with a status and a result area. -/
def State.finishCmd (s : State) (status : Nat) (result : List Host.Cell) : State :=
  { s with port := { s.port with busy := false, done := true, status := status, result := result, cmd := none } }

/-- The command in execution ended, when it has a code and names a slot set. -/
def State.endCmd (s : State) (code t status : Nat) (result : List Host.Cell) : State :=
  match s.port.cmd with
  | some c => if c.code = code ∧ c.set = t then s.finishCmd status result else s
  | none => s

/-! ## Retirement (R82, R95, R101, R116) -/

/-- The translation requests of a slot set withdrawn, in its miss tables and at the host (R353, R359). -/
def State.dropMisses (s : State) (t : Nat) : State :=
  let mine := fun (r : HostRequest) => match r with
    | .translate _ k _ => k == t
    | .spill _ k => k == t
  { s with
    tr := { s.tr with
      misses := s.tr.misses.map fun p => (p.1, p.2.filter fun m => m.set != t)
      ats := s.tr.ats.filter fun r => r.set != t }
    port := { s.port with requests := s.port.requests.filter fun e => !mine e.2 } }

/-- The translations of a slot set's context dropped from every TLB (R353). -/
def State.dropTranslations (s : State) (t : Nat) : State :=
  match (s.slotSet t).img with
  | some im => { s with tr := s.tr.dropAll im.num t }.dropMisses t
  | none => s

/-- A kernel at its context's retirement: discarded while Queued, no longer to be placed while Placing (R116). -/
def State.retireKernel (s : State) (t : Nat) (k : Kernel) : State :=
  match k.st with
  | .queued =>
    let s1 := s.putWord t k fun w => wordState (withBits w 39 25 k.ngrp) .discarded
    let S := s1.slotSet t
    s1.putSet t { S with kernels := S.kernels.filter fun q => q.num != k.num }
  | .placing => (s.putWord t { k with st := .placed, ngrp := k.placed } (fun w => wordFail w (k.ngrp - k.placed))).finishKernel t k.num
  | _ => s

/-- The groups of a slot set. -/
def State.groupsOf (s : State) (t : Nat) : List Nat := (s.groups.map Prod.fst).filter fun g => decide (setOf g = t)

/-- A barrier entry freed, its generation kept. -/
def BarEntry.release (e : BarEntry) : BarEntry := { e with used := false, count := 0, phase := 0, arrivals := 0 }

/-- What a context holds in the module's units given up (R322, R353, R382, R413, R438). -/
def State.dropHoldings (s : State) (t : Nat) : State :=
  let s1 := ((s.dropReceivers t).dropSeqs t).dropTranslations t
  { s1 with
    bars := s1.bars.map fun e => if e.1 % 2 = t then (e.1, e.2.release) else e
    dispensers := s1.dispensers.filter fun e => e.1 / 128 ≠ t }

/-- A context Retired: its pass abandoned and its receives discarded first, so that no further result, flag or record is written (R382, R438);
launches discarded, every group Terminated, tokens and queues gone. -/
def State.retireContext (s : State) (t : Nat) : State :=
  let was := (s.slotSet t).st
  let s1 := (s.slotSet t).kernels.foldl (fun st k => st.retireKernel t k) ((s.dropSeqs t).dropReceivers t)
  let s2 := (s1.groupsOf t).foldl (fun st g => st.terminate g) s1
  let S := s2.slotSet t
  let s3 := s2.putSet t { S with
    queues := S.queues.map (fun e => (e.1, { e.2 with closed := true })), ingress := [], egress := [], waiters := []
    saveMark := false, saveCmd := false, placeDue := false }
  let s4 := (s3.dropHoldings t).setCtx t .retired
  if was = .active then s4.activatePartner t else s4

/-- HALT and host stop (R95): the event dropped when one has taken effect in this cycle (R82). -/
def State.halt (s : State) (t : Nat) : State := if s.dropped t then s else (s.weigh t).retireContext t

/-! ## The switch (R83 to R86) -/

/-- The boundary e of a convoy in flight: the elements that its most advanced member has issued, up to a whole element group of every member.
A convoy with an XL member goes to its end, and one that has issued nothing has none (R84, R215). -/
def Convoy.boundary (c : Convoy) : Option Nat :=
  let a := c.members.foldl (fun n m => max n (m.issued * m.per)) 0
  let e := c.members.foldl (fun n m => max n m.per) 1
  if !c.eligible then none
  else if c.members.any (fun m => decide (m.pipe = .xl)) then some c.vl
  else if a = 0 then none
  else some (min c.vl ((a + e - 1) / e * e))

/-- A convoy at the switch signal; one that an earlier switch has stopped and that has not moved since keeps its boundary. -/
def Convoy.cutAt (c : Convoy) : Convoy := if c.stop.isSome || c.members.all Member.complete then c else { c with stop := c.boundary }

/-- A group's convoy in flight at the switch signal. -/
def Group.cutConvoy (G : Group) : Group :=
  match G.convoys with
  | c :: rest => { G with convoys := c.cutAt :: rest }
  | [] => G

/-- A group at the switch signal: it stops at its next instruction boundary, and its convoy in flight at e (R84, R128). -/
def stopGroup (G : Group) : Group :=
  match G.phase with
  | .running => if G.dataWait.isNone && G.barPending.isNone then { G.cutConvoy with phase := .preempted } else G.cutConvoy
  | .placed => { G with phase := .preempted }
  | _ => G.cutConvoy

/-- The switch from a slot set to the other (R82). -/
def State.beginSwitch (s : State) (t : Nat) : State :=
  let s1 := (s.setCtx t .preempting).mapSet t fun _ => stopGroup
  ((s1.putSet t { s1.slotSet t with drained := [] })).activate (1 - t)

/-- Whether a switch from a slot set would be accepted (R83): 0, or CTXYIELD's status. -/
def State.switchStatus (s : State) (t : Nat) : Nat :=
  if (s.slotSet (1 - t)).st = .preempting then 2 else if (s.slotSet (1 - t)).st ≠ .standby then 1 else 0

/-- Whether an entry not yet issued is held at a token pop or a watermark (R270). -/
def State.entryHeld (s : State) (e : MatrixEntry) : Bool :=
  (match e.tok.pop with | some f => decide ((s.group e.group).fifos[f.toNat] = 0) | none => false) || s.behind e.group (s.entryRuns e)

/-- Whether a group's convoy in flight has stopped at its boundary, with what its completed members have to push pushed (R84, R316). -/
def Group.vectorDrained (G : Group) : Bool :=
  match G.convoys with
  | [] => true
  | c :: _ =>
    (c.stop.isNone || (decide (c.left = 0) && c.members.all fun m => decide (m.lag = 0))) && !c.members.any (fun m => m.complete && m.push.isSome && G.pushRoom m.push) &&
    !(c.ended && c.members.all fun m => m.complete && m.push.isNone)

/-- Whether a group's slice queues hold nothing but elements that its convoy has not issued, or wait for a place in the record queue. -/
def Group.storesDrained (G : Group) : Bool := decide (G.sfrq.length ≥ 16) || G.slices.toList.all fun l => l.all G.unissued

/-- Whether a group's work on its cell has stopped as R84 states; pages that its cluster's sequencer has asked for land (R382). -/
def State.groupDrained (s : State) (g : Nat) : Bool :=
  let G := s.group g
  let mine := s.entriesOf g
  G.storesDrained && G.vectorDrained && (s.seqAt (seqOf g)).fetches.all (fun x => x.data.isSome) && (s.seqAt (seqOf g)).askedEntry.isNone && G.late.isNone && G.dataWait.isNone && G.barPending.isNone && G.async.isEmpty &&
  G.chan.toList.all (fun c => decide (c.st ≠ .copying) || ((c.arrived.isEmpty || decide (c.owed > 0)) && decide (c.asked ≤ c.nextStrip))) &&
  mine.all (fun e => !e.issued) && (match mine with | e :: _ => s.entryHeld e | [] => true) &&
  (s.transformsOf g).all (fun e => !e.started)

/-- The slot set that is draining. -/
def State.drainingSet (s : State) : Option Nat :=
  if s.set0.st = .preempting then some 0 else if s.set1.st = .preempting then some 1 else none

/-- VRESUME after a drain: e of a convoy that the switch has stopped before its end (R84). -/
def Group.markResume (G : Group) : Group :=
  match G.convoys with
  | c :: _ =>
    (match c.stop with
     | some e => if e < c.vl then { G with vresume := vresumeAt e } else G
     | none => G)
  | [] => G

/-- A group whose cell has drained; the last instruction of a Running one has retired. A group that has trapped in the drain keeps its trap's
VRESUME (R88, R91). -/
def drainedGroup (c : Nat) (g : Nat) (G : Group) : Group :=
  if cellOf g = c then
    match G.phase with
    | .trapped _ => G
    | .running => { G.markResume with phase := .preempted }
    | _ => G.markResume
  else G

/-- CELL_DRAIN_COMPLETE (R84, R86): after the last cell the context stands by, or is Active again when the partner has
left Active meanwhile. -/
def execCellDrainComplete (c : BitVec 9) (s : State) : Res :=
  .next <|
    match s.drainingSet with
    | none => s
    | some t =>
      let c := c.toNat
      if ((s.groupsOf t).filter fun g => decide (cellOf g = c)).all s.groupDrained then
        let S := s.slotSet t
        let s1 := (s.putSet t { S with drained := setAdd S.drained c }).mapSet t (drainedGroup c)
        if (s1.groupsOf t).all fun g => (s1.slotSet t).drained.contains (cellOf g) then
          let s2 := s1.setCtx t .standby
          if (s2.slotSet (1 - t)).st = .active then s2 else s2.activate t
        else s1
      else s

/-! ## Parts of the stores (R228, notes/assumptions/12) -/

/-- The place of set 1's part above set 0's, and the size of a part, for the unit that a place lies in, with the place's
offset in the unit. -/
def partOf (im : Image) (pa : Nat) : Option (Nat × Nat × Nat) :=
  let o := paOff pa
  let bTiles := im.qB / tileBytes
  if paHost pa || paModule pa || decide (pa / 2 ^ 41 % 512 ≠ 0) then none
  else if dpoolBase ≤ o ∧ o < dpoolBase + dpoolBytes then some (dpoolBytes - im.dpool, im.dpool, o - dpoolBase)
  else if cpoolBase ≤ o ∧ o < cpoolBase + 8 * cpoolBytes then some (cpoolBytes - im.cpool, im.cpool, (o - cpoolBase) % cpoolBytes)
  else if cstoreBase ≤ o ∧ o < cstoreBase + 64 * cstoreBytes then some (cstoreBytes - im.qCell, im.qCell, (o - cstoreBase) % cstoreBytes)
  else if bstoreBase ≤ o ∧ o < bstoreBase + 64 * bstoreBytes then
    some ((bstoreBytes / tileBytes - bTiles) * tileBytes, bTiles * tileBytes, (o - bstoreBase) % bstoreBytes)
  else none

/-- Whether a place lies in a slot set's part. -/
def inPart (im : Image) (t pa : Nat) : Bool :=
  match partOf im pa with
  | some (up, size, o) => if t = 0 then decide (o < size) else decide (up ≤ o ∧ o < up + size)
  | none => false

/-- A place of a slot set's part as it is in set 0's, and back. -/
def partDown (im : Image) (t pa : Nat) : Nat :=
  if t = 1 ∧ inPart im 1 pa = true then pa - ((partOf im pa).map Prod.fst).getD 0 else pa
def partUp (im : Image) (t pa : Nat) : Nat :=
  if t = 1 ∧ inPart im 0 pa = true then pa + ((partOf im pa).map Prod.fst).getD 0 else pa

/-- The place of a tile directory key. -/
def tilePA (k : Nat) : Nat := bstorePA (k / 32768) (k % 32768 * tileBytes)

/-- The key of the tile at a place. -/
def keyOfPA (pa : Nat) : Nat :=
  match paBstore pa with
  | some (cell, off) => tileKey cell (off / tileBytes)
  | none => 0

/-- The parts of a slot set hold zero (R130). -/
def State.wipeParts (s : State) (im : Image) (t : Nat) : State :=
  { s with
    mem := s.mem.filter fun c => !inPart im t c.1
    poison := s.poison.filter fun w => !inPart im t (8 * w)
    uncorr := s.uncorr.filter fun w => !inPart im t (8 * w)
    bdir := s.bdir.filter fun e => !inPart im t (tilePA e.1) }

/-! ## Group numbers and places in another slot set -/

/-- A group number of a context in a slot set. -/
def regroup (t g : Nat) : Nat := groupCode (cellOf g) t (slotOf g)

/-- Runs of places moved. -/
def moveRuns (f : Nat → Nat) (l : List (Nat × Nat)) : List (Nat × Nat) := l.map fun r => (f r.1, r.2)

/-- A wait with its places moved. -/
def Wait.move (f : Nat → Nat) (w : Wait) : Wait :=
  match w with
  | .place runs => .place (moveRuns f runs)
  | .event line touched => .event (f (128 * line) / 128) touched
  | other => other

/-- A group moved to a slot set: its numbers, its places and its pieces of the stores. -/
def Group.move (t : Nat) (f : Nat → Nat) (g : Nat) (G : Group) : Group :=
  { G with
    phase := (match G.phase with | .waiting w => .waiting (w.move f) | p => p)
    interrupted := G.interrupted.map fun q => (q.1, q.2.move f)
    slices := G.slices.map fun l => l.map fun a => { a with pa := a.pa.map (moveRuns f) }
    sfrq := G.sfrq.map fun r => { r with came := 0 }
    tickets := G.tickets.map fun q => (q.1, f q.2)
    yield := G.yield.map fun y => { y with others := y.others.map (regroup t) }
    hold := { G.hold with
      csPieces := G.hold.csPieces.map fun p => (f (cstorePA (cellOf g) p.1) - cstorePA (cellOf g) 0, p.2)
      bPieces := G.hold.bPieces.map fun p => (f (bstorePA (cellOf g) p.1) - bstorePA (cellOf g) 0, p.2) } }

/-- Engine entries moved. -/
def MatrixEntry.move (t : Nat) (f : Nat → Nat) (e : MatrixEntry) : MatrixEntry :=
  { e with group := regroup t e.group, rows := e.rows.map fun r => (r.1, moveRuns f r.2) }
def TransformEntry.move (t : Nat) (e : TransformEntry) : TransformEntry := { e with group := regroup t e.group }

/-- A sequencer moved. -/
def Sequencer.move (t : Nat) (f : Nat → Nat) (Q : Sequencer) : Sequencer :=
  { Q with
    subs := Q.subs.map fun u => { u with group := regroup t u.group }
    folds := Q.folds.map fun F => { F with runs := moveRuns f F.runs }
    fetches := Q.fetches.map fun x => { x with runs := moveRuns f x.runs }
    groupsIn := Q.groupsIn.map (regroup t)
    by_ := Q.by_.map (regroup t) }

/-- A receive engine moved; messages that the link holds for it find their target changed and are discarded (R438). -/
def Receiver.move (t : Nat) (R : Receiver) : Receiver :=
  let mr := fun (r : Recv) => { r with group := r.group.map (regroup t) }
  { R with
    posts := R.posts.map mr, landing := R.landing.map fun p => (mr p.1, p.2)
    waitingHost := R.waitingHost.filter (fun w => w.2 = 0), refused := [] }

/-- A slot set's record moved. -/
def SlotSet.move (t : Nat) (f : Nat → Nat) (S : SlotSet) : SlotSet :=
  { S with
    cword := S.cword.map f
    kernels := S.kernels.map fun k =>
      { k with cword := k.cword.map f, deps := k.deps.map f, after := k.after.map fun q => (regroup t q.1, q.2) }
    waiters := S.waiters.map fun q => (regroup t q.1, q.2) }

/-! ## Saving (R82, R84, R98) -/

/-- Whether a slot set's context can be copied: no store, load or contribution of its groups is still on its way. -/
def State.savable (s : State) (t : Nat) : Bool :=
  (s.groupsOf t).all fun g =>
    let G := s.group g
    !G.sent.any (fun w => !w.msg) && G.late.isNone && G.dataWait.isNone && decide (G.phase ≠ .terminated) &&
    !s.colls.any (fun c => c.group == some g && !c.done)

/-- The entries of a table whose key carries the slot set in bit 0, with that bit 0. -/
def pickSet {α β : Type} (t : Nat) (l : Table α) (f : α → β) : Table β :=
  (l.filter fun e => e.1 % 2 = t).map fun e => (e.1 / 2 * 2, f e.2)

/-- The copy that firmware keeps of a context. Its overflow bits go with it (DESIGN CHOICE, notes/assumptions/85). -/
def State.savedCopy (s : State) (t : Nat) (im : Image) : SavedContext :=
  let f := partDown im t
  let S := s.slotSet t
  let mine := fun (pa : Nat) => inPart im t pa
  { num := im.num
    set := { S.move 0 f with st := .saved, saveMark := false, saveCmd := false, drained := [], lastAt := none }
    groups := (s.groups.filter fun e => setOf e.1 = t).map fun e => (regroup 0 e.1, { e.2.move 0 f e.1 with sent := [] })
    bars := pickSet t s.bars id
    seqs := pickSet t s.seqs (Sequencer.move 0 f)
    receivers := pickSet t s.receivers (Receiver.move 0)
    dispensers := (s.dispensers.filter fun e => e.1 / 128 = t).map fun e => (e.1 % 128, e.2)
    matrix := s.cells.map fun e => (e.1, (e.2.mq.filter fun q => setOf q.group = t).map (MatrixEntry.move 0 f))
    transform := s.cells.map fun e => (e.1, (e.2.tq t).map (TransformEntry.move 0))
    tiles := (s.bdir.filter fun e => mine (tilePA e.1)).map fun e => (keyOfPA (f (tilePA e.1)), e.2)
    mem := (s.mem.filter fun c => mine c.1).map fun c => (f c.1, c.2)
    poison := (s.poison.filter fun w => mine (8 * w)).map fun w => f (8 * w) / 8
    uncorr := (s.uncorr.filter fun w => mine (8 * w)).map fun w => f (8 * w) / 8
    lims := s.cells.filterMap fun e => (if t = 0 then e.2.lim0 else e.2.lim1).map fun v => (e.1, v) }

/-- A cell without anything of a slot set. -/
def CellState.without (t : Nat) (C : CellState) : CellState :=
  let C1 := { C with mq := C.mq.filter fun e => setOf e.group ≠ t }
  if t = 0 then { C1 with tq0 := [], lim0 := none, limNow0 := none } else { C1 with tq1 := [], lim1 := none, limNow1 := none }

/-- A slot set that its context has left: nothing of it stays in the module, its overflow bits among it (DESIGN CHOICE,
notes/assumptions/85). -/
def State.vacate (s : State) (t : Nat) (im : Image) : State :=
  let s1 := (s.dropHoldings t).wipeParts im t
  { s1 with
    groups := s1.groups.filter fun e => setOf e.1 ≠ t
    cells := s1.cells.map fun (e : Nat × CellState) => (e.1, e.2.without t)
    flying := s1.flying.map fun (f : FlyMsg) => { f with msg := { f.msg with sender := f.msg.sender.filter fun g => setOf g != t } }
    colls := s1.colls.filter fun (c : Contribution) => (c.group.map setOf) != some t }.putSet t SlotSet.fresh

/-- CONTEXT_SAVE_COMPLETE (R82, R98): a context that stands by and is to be saved leaves its slot set. -/
def execContextSaveComplete (t : BitVec 1) (s : State) : Res :=
  .next <|
    let t := t.toNat
    let S := s.slotSet t
    match S.img with
    | none => s
    | some im =>
      if s.firmware = .running ∧ S.st = .standby ∧ (S.saveMark || S.saveCmd) = true ∧ s.savable t = true then
        let copy := s.savedCopy t im
        let s1 := ((s.setCtx t .saved).vacate t im)
        ({ s1 with saved := s1.saved.filter (fun (c : SavedContext) => c.num != im.num) ++ [copy] }).endCmd 3 t 0 []
      else s

/-! ## Loading (R80, R82, R123, R488) -/

/-- Whether the values that an image gives are in their ranges (R488, R413). The rules list no check of a queue's number or initial priority: an
image with a number above 15 or a priority above 7 is accepted, and such a queue is never served (DESIGN CHOICE, notes/assumptions/85). -/
def imageInRange (im : Image) : Bool :=
  im.xmod.all (fun q => decide (q % 2 = 1 ∧ 3 ≤ q ∧ q ≤ 2 ^ 31 - 1)) && im.lim.all (fun l => decide (1 ≤ l ∧ l ≤ 256)) &&
  im.wdog.all (fun w => decide (w < 2 ^ 48)) && im.window.all fun w => decide (1 ≤ w ∧ w ≤ 64)

/-- Whether an image's quotas and those of the other resident context stay within the capacities (R80, R375, R434). -/
def quotasFit (im : Image) (other : Option Image) : Bool :=
  let sum := fun (f : Image → Nat) => f im + (other.map f).getD 0
  decide (sum Image.qCell ≤ cstoreBytes) && decide (sum Image.qB ≤ bstoreBytes) && decide (sum Image.cpool ≤ cpoolBytes) &&
  decide (sum Image.dpool ≤ dpoolBytes) &&
  (upFrom 0 8).all fun die => decide (sum (fun q => q.cquotaOn die) ≤ 16384) && decide (sum (fun q => q.dquotaOn die) ≤ 0x400000)

/-- Cells put into memory one by one. -/
def putCells (m : List Host.Cell) (l : List Host.Cell) : List Host.Cell := l.foldl (fun acc c => memPut acc c.1 c.2) m

/-- The leaf that maps a part of a context for a slot set (R230). -/
def PartMap.leaf (im : Image) (t : Nat) (p : PartMap) : Nat := partUp im t p.place ||| p.flags

/-- Memory with the leaves of a context's parts written, where a test of the entry as it stands holds (R230). -/
def putLeaves (im : Image) (t : Nat) (m : List Host.Cell) (p : PartMap → Nat → Bool) : List Host.Cell :=
  im.parts.foldl (fun acc q =>
    let at_ := partUp im t q.entry
    if p q (memNat acc at_ 8) then memPutBytes acc at_ (toBytes 8 (PartMap.leaf im t q)) else acc) m

/-- Memory as an image leaves it in a slot set's parts, with the mappings of the parts that it asks for (R230). -/
def State.withImage (s : State) (t : Nat) (im : Image) : State :=
  let s1 := s.wipeParts im t
  { s1 with mem := putLeaves im t (putCells s1.mem im.cells) fun _ _ => true }

/-- Where an image's page table puts its conductor's completion word for writing: nowhere when the image names none, an error when it
does not translate, as no window address does (R123, R353, R357). -/
def State.conductorWord (s : State) (t : Nat) (im : Image) (c : Conductor) : Except Unit (Option Nat) :=
  let va := c.cword.toNat
  if va = 0 then .ok none
  else if va ≥ 2 ^ 56 ∨ va / 2 ^ 48 ≥ 0xF0 then .error ()
  else
    match ((s.withImage t im).walkAt im.apertures va 5 im.root []).leaf with
    | .ok (leaf, log) => if permits .store leaf then .ok (some (entryPA leaf + va % 2 ^ log)) else .error ()
    | .error _ => .error ()

/-- Whether an image's conductor can be placed and its completion word written (R123). -/
def State.conductorOk (s : State) (t : Nat) (im : Image) : Bool :=
  match im.conductor with
  | some c => decide (emptyFit im c.desc ≥ 1) && (s.conductorWord t im c).toBool
  | none => false

/-- The status that refuses an image, or 0 (R451). -/
def State.imageStatus (s : State) (t : Nat) (im : Image) : Nat :=
  let o := s.slotSet (1 - t)
  let other := if o.st = .empty then none else o.img
  if !imageInRange im then 2 else if !quotasFit im other then 5 else 0

/-- The same for a context that an image brings, which needs a conductor. -/
def State.freshStatus (s : State) (t : Nat) (im : Image) : Nat :=
  if s.imageStatus t im ≠ 0 then s.imageStatus t im else if s.conductorOk t im then 0 else 5

/-- An image with the conductor ARGS of the LOAD command that brings it (R450). -/
def withArgs (cmd : Option Command) (im : Image) : Image :=
  match cmd with
  | some c =>
    if c.code = 1 ∧ memNat c.args 24 1 % 2 = 1 then
      { im with conductor := im.conductor.map fun k => { k with args := BitVec.ofNat 64 (memNat c.args 16 8) } }
    else im
  | none => im

/-- The ATS translation of a conductor's completion word in host memory (R446): the state after it is asked for, with false while it is awaited,
or that it has failed. -/
def State.wordAts (s : State) (t : Nat) (im : Image) : State × Except Bool Unit :=
  match im.conductor.map fun c => (c, s.conductorWord t im c) with
  | some (c, .ok (some pa)) =>
    (match s.tr.askAts s.port.ats t c.cword.toNat (.ok pa 0 12) with
     | (x, .ok _ _ _) => ({ s with tr := x }, .ok ())
     | (x, .fail _) => ({ s with tr := x }, .error true)
     | (x, .wait) => ({ s with tr := x }, .error false))
  | _ => (s, .ok ())

/-- A slot set that takes a fresh context, with the place of its conductor's completion word. Queues as the image gives them
(notes/assumptions/85). -/
def freshSet (im : Image) (S : SlotSet) (cword : Option Nat) : SlotSet :=
  { SlotSet.fresh with st := S.st, img := some im, lastAt := S.lastAt, cword := cword
                       queues := im.queues.foldl (fun l q => l.put q.1 { prio := q.2, closed := false }) [] }

/-- A context that has passed its checks stands by, or is Active at once (R82). -/
def State.standBy (s : State) (t : Nat) : State :=
  let s1 := s.setCtx t .standby
  if (s1.slotSet (1 - t)).st = .active then s1 else s1.activate t

/-- A load that ends without a context: the set is Empty again (R82). -/
def State.refuseLoad (s : State) (t status : Nat) : State :=
  let s1 := s.setCtx t .empty
  let s2 := s1.putSet t { SlotSet.fresh with lastAt := (s1.slotSet t).lastAt }
  (s2.endCmd 1 t status []).endCmd 2 t status []

/-- The dispensers of a slot set as the context that is loaded there finds them: none called (R413). -/
def State.clearTickets (s : State) (t : Nat) : State := { s with dispensers := s.dispensers.filter fun e => e.1 / 128 ≠ t }

/-- A fresh context installed (R80, R123, R130, R413). -/
def State.installImage (s : State) (t : Nat) (im : Image) : State :=
  let cword := match im.conductor.map (s.conductorWord t im) with
    | some (.ok w) => w
    | _ => none
  let s1 := ((s.clearTickets t).putSet t (freshSet im (s.slotSet t) cword)).withImage t im
  let s2 := { s1 with cells := s1.cells.map fun (e : Nat × CellState) => (e.1, e.2.without t) }
  (s2.standBy t).endCmd 1 t 0 (leCells 0 2 im.num)

/-- Entries of a saved table put back for a slot set. -/
def putSet0 {α β : Type} (t : Nat) (l : Table α) (f : α → β) (into : Table β) : Table β :=
  l.foldl (fun acc e => acc.put (e.1 + t) (f e.2)) into

/-- A saved context put back into a slot set (R82, R84, R228). The leaves of its parts that still map them in the other slot set map them in
this one (R230). Its queued matrix entries join their cell's queue behind the partner's, also where
that makes more than 64 (DESIGN CHOICE, notes/assumptions/76). -/
def State.restore (s : State) (t : Nat) (c : SavedContext) (im : Image) : State :=
  let f := partUp im t
  let s1 := (s.clearTickets t).wipeParts im t
  let cells1 := s1.cells.map fun (e : Nat × CellState) => (e.1, e.2.without t)
  let cells2 := c.matrix.foldl (fun (acc : Table CellState) e =>
    let C := acc.findD e.1 CellState.fresh
    acc.put e.1 { C with mq := C.mq ++ e.2.map (MatrixEntry.move t f) }) cells1
  let cells3 := c.transform.foldl (fun (acc : Table CellState) e =>
    acc.put e.1 ((acc.findD e.1 CellState.fresh).putTq t (e.2.map (TransformEntry.move t)))) cells2
  let cells4 := c.lims.foldl (fun (acc : Table CellState) e =>
    let C := acc.findD e.1 CellState.fresh
    acc.put e.1 (if t = 0 then { C with lim0 := some e.2, limNow0 := some e.2 } else { C with lim1 := some e.2, limNow1 := some e.2 })) cells3
  let S := s1.slotSet t
  let s2 := { s1 with
    groups := c.groups.foldl (fun (acc : Table Group) (e : Nat × Group) => acc.put (regroup t e.1) (e.2.move t f e.1)) s1.groups
    bars := putSet0 t c.bars id (s1.bars.filter fun e => e.1 % 2 ≠ t)
    seqs := putSet0 t c.seqs (Sequencer.move t f) s1.seqs
    receivers := putSet0 t c.receivers (Receiver.move t) s1.receivers
    dispensers := c.dispensers.foldl (fun (acc : Table Dispenser) (e : Nat × Dispenser) => acc.put (e.1 + 128 * t) e.2) s1.dispensers
    cells := cells4
    bdir := c.tiles.foldl (fun (acc : Table TileEntry) (e : Nat × TileEntry) => acc.put (keyOfPA (f (tilePA e.1))) e.2) s1.bdir
    mem := putLeaves im t (putCells s1.mem (c.mem.map fun (q : Host.Cell) => (f q.1, q.2))) fun p v => v = PartMap.leaf im (1 - t) p
    poison := (c.poison.map fun w => f (8 * w) / 8).foldl setAdd s1.poison
    uncorr := (c.uncorr.map fun w => f (8 * w) / 8).foldl setAdd s1.uncorr
    saved := s1.saved.filter fun (q : SavedContext) => q.num != c.num }
  let s3 := s2.putSet t { c.set.move t f with st := S.st, lastAt := S.lastAt }
  (s3.standBy t).endCmd 2 t 0 []

/-- CONTEXT_LOAD_COMPLETE (R82, R451, R459): what firmware found when it verified the image; an image is the one that the LOAD command has named,
with the number that CTXPEER has shown since (R81). Failed firmware finds nothing (R461). -/
def execContextLoadComplete (t : BitVec 1) (fd : LoadFinding) (s : State) : Res :=
  .next <|
    let t := t.toNat
    let S := s.slotSet t
    if S.st ≠ .loading ∨ s.firmware ≠ .running then s
    else
      match fd, S.img with
      | .badSignature, _ => s.refuseLoad t 4
      | .belowRelease, _ => s.refuseLoad t 0xB
      | .hostReadFailed, none => s.refuseLoad t 9
      | .image im, none =>
        let im1 := withArgs s.port.cmd im
        let st := s.freshStatus t im1
        if im.num ≠ S.loadNum then s
        else if st ≠ 0 then s.refuseLoad t st
        else
          (match s.wordAts t im1 with
           | (s1, .ok _) => s1.installImage t im1
           | (s1, .error true) => s1.refuseLoad t 5
           | (s1, .error false) => s1)
      | .saved, some im =>
        (match s.saved.find? fun c => c.num == im.num with
         | some c => if s.imageStatus t im = 0 then s.restore t c im else s.refuseLoad t (s.imageStatus t im)
         | none => s)
      | _, _ => s

/-- A slot set that begins to load a saved context (R82). -/
def State.loadSaved (s : State) (t : Nat) (c : SavedContext) : State :=
  (s.putSet t { s.slotSet t with img := c.set.img }).setCtx t .loading

/-- SLOT_STATE_UNCORR (R82, R450): uncorrectable slot state faults the context. -/
def execSlotStateUncorr (g : BitVec 12) (s : State) : Res :=
  .next (s.faultContext (setOf g.toNat) 0xF0 (cellOf g.toNat) (slotOf g.toNat))

/-! ## The instructions (R92 to R99) -/

/-- TRAP (R93). -/
def execTrap (a : Reg) (s : State) : Res :=
  .next (s.trap s.cur { code := 0xD, sub := 0, kind := 0, addr := s.x a, elem := none, vec := false, pc := s.own.pc + 4, wait := none })

/-- RTE (R94); the strips that other instructions hold are given up (R310). -/
def execRte (s : State) : Res :=
  .next <|
    if s.isSupervisor then
      let s1 := s.close
      s1.putOwn { s1.own.returnFromTrap.otherStrips with retired := s1.own.retired + 1 }
    else s.priv

/-- HALT (R95). -/
def execHalt (s : State) : Res := .next (if s.isSupervisor then s.close.halt (setOf s.cur) else s.priv)

/-- WFE (R96). -/
def execWfe (a b : Reg) (s : State) : Res :=
  .next <|
    let va := s.x a
    let s0 := s.close
    if va.toNat % 8 ≠ 0 then s.misaligned va
    else
      match s0.load s.cur va 8 with
      | (s1, .trap code sub addr) => s1.raise code sub addr
      | (s1, .wait) => s1
      | (s1, .data d) =>
        if BitVec.ofNat 64 (natOfBytes d) ≠ s.x b then s1.retire 4
        else
          match (s1.look s.cur .load va.toNat 8).2 with
          | .here ((pa, _) :: _) _ => (s1.putOwn { s1.own with dataWait := none }).wait (.event (pa / 128) false)
          | _ => s1

/-- CTXYIELD (R97): the group's next instruction stands behind it before the cell stops. -/
def execCtxyield (d : Reg) (s : State) : Res :=
  .next <|
    let t := setOf s.cur
    let s0 := s.close
    if s.dropped t then s0.done d 4 4
    else
      let st := s.switchStatus t
      if st ≠ 0 then s0.done d (BitVec.ofNat 64 st) 4 else ((s0.weigh t).done d 0 4).beginSwitch t

/-- CTXSAVE (R98). -/
def execCtxsave (d : Reg) (s : State) : Res :=
  .next <|
    let t := setOf s.cur
    let S := s.slotSet t
    let s0 := s.close
    if !s.isSupervisor then s.priv
    else if s.dropped t then s0.done d 4 4
    else if !((S.img.map Image.saveArea).getD false) then s0.done d 1 4
    else if S.saveMark then s0.done d 2 4
    else ((s0.weigh t).putSet t { (s0.weigh t).slotSet t with saveMark := true }).done d 0 4

/-- CTXLOAD (R99). Where the conditions of several of the statuses 1, 2 and 3 hold, the lowest is answered (DESIGN CHOICE,
notes/assumptions/77). -/
def execCtxload (d a : Reg) (s : State) : Res :=
  .next <|
    let t := setOf s.cur
    let s0 := s.close
    let num := (s.x a).toNat
    if !s.isSupervisor then s.priv
    else if num ≥ 2 ^ 16 then s.illegal
    else if s.dropped t then s0.done d 4 4
    else if (s.slotSet (1 - t)).st ≠ .empty then s0.done d 1 4
    else
      match s.saved.find? fun c => c.num == num with
      | none => s0.done d 2 4
      | some c =>
        if !((((s.slotSet t).img.map Image.loadable).getD []).contains num) then s0.done d 3 4
        else ((s0.weigh t).loadSaved (1 - t) c).done d 0 4

end Sys2Proof.Machine
end

