-- ==== Sys2Proof/Machine/Page.lean ====
section
/-!
DEFINITION. Sys2Proof/Machine/Page.lean: SDRAIN, SFRPOP, TLBINV, PGPROBE, the ends of walks and the answers of the host
(spec/17_page R358 to R372, spec/21_system R446).
-/

namespace Sys2Proof.Machine

/-! ## SDRAIN and SFRPOP (R365, R366, R369, R370) -/

/-- Whether a slice queue holds a store still to be translated (R369). A head that fails translation and finds 16 records has been
translated, and what it holds behind it cannot be before a pop (R366, notes/assumptions/61). -/
def State.sliceUntranslated (s : State) (g q : Nat) : Bool :=
  let G := s.group g
  match G.slice q with
  | [] => false
  | a :: _ =>
    let stuck := decide (G.sfrq.length ≥ 16) && a.pa.isNone && (match (s.spotOf g a).2 with | .fail _ => true | _ => false)
    !stuck && (G.slice q).any fun b => b.pa.isNone && !b.isAtomic

/-- Whether a store, STRL or ACCST row of a group is still to be translated (R369). -/
def State.untranslated (s : State) (g : Nat) : Bool :=
  let G := s.group g
  (upFrom 0 4).any (s.sliceUntranslated g) ||
  (s.entriesOf g).any (fun e => match e.op with | .accst _ _ _ => true | _ => false) ||
  (match G.async with
   | w :: rest =>
     let stuck := decide (G.sfrq.length ≥ 16) && (match w.place with
       | .virt va => (match (s.asyncSpot g va w.data.length).2 with | .fail _ => true | _ => false)
       | .phys _ => false)
     !stuck && (w :: rest).any fun w => match w.place with | .virt _ => true | .phys _ => false
   | [] => false)

/-- SDRAIN (R369). -/
def execSdrain (s : State) : Res :=
  .next <|
    let g := s.cur
    let s1 := (s.close.drainAll g).flush g
    if s1.untranslated g then s1
    else if !s1.own.sfrq.isEmpty then s1.pageStore g
    else s1.retire 4

/-- The last word of a popped record (R365). -/
def SfRecord.word (r : SfRecord) (left : Nat) : Word :=
  BitVec.ofNat 64 (2 ^ 63 + left % 256 * 2 ^ 32 + r.src % 16 * 2 ^ 28 + r.wlog % 16 * 2 ^ 24 + r.sub % 256 * 2 ^ 16 + r.elem % 2 ^ 16)

/-- The last word of a pop that finds no record but those of its own clock (R366, R370). -/
def leftWord (left : Nat) : Word := BitVec.ofNat 64 (left % 256 * 2 ^ 32)

/-- SFRPOP (R370): D names the first of four registers. A record of the same clock counts in LEFT and is not popped (R366). -/
def execSfrpop (d : Reg) (s : State) : Res :=
  .next <|
    if !s.isSupervisor then s.priv
    else
      let s1 := s.close
      let put := fun (a b c e : Word) (G : Group) => (((G.setReg d a).setReg (d + 1) b).setReg (d + 2) c).setReg (d + 3) e
      match s1.own.sfrq with
      | [] => (s1.putOwn (put 0 0 0 0 s1.own)).retire 4
      | r :: rest =>
        if r.came = s.clock then (s1.putOwn (put 0 0 0 (leftWord (rest.length + 1)) s1.own)).retire 4
        else (s1.putOwn (put r.pc r.addr r.data (r.word rest.length) { s1.own with sfrq := rest })).retire 4

/-! ## TLBINV (R371) -/

/-- The translation requests of a slot set's misses withdrawn: the misses ask again (R371). -/
def State.reask (s : State) (t : Nat) : State :=
  let gone := (s.tr.misses.map fun p => p.2.filterMap fun m => if m.set = t then m.request else none).flatten
  { s with
    tr := { s.tr with misses := s.tr.misses.map fun p => (p.1, p.2.map fun m => if m.set = t then { m with request := none, answer := none } else m) }
    port := { s.port with requests := s.port.requests.filter fun e => !gone.contains e.1 } }

/-- Whether an access of a slot set's groups whose translation has been taken is not yet performed: the reads of a page that a sequencer has
asked for, the strips that a channel has asked of another module and the result of a collective among them. -/
def State.translatedLeft (s : State) (t : Nat) : Bool :=
  s.seqs.any (fun e => decide (e.1 % 2 = t) && (((e.2.askedEntry.map Prod.snd).getD false) || e.2.fetches.any fun x => x.data.isNone && !x.runs.isEmpty)) ||
  s.colls.any (fun c => decide (c.group.map setOf = some t) && !c.done && !c.runs.isEmpty) ||
  (s.groupsOf t).any fun g =>
    let G := s.group g
    G.slices.toList.any (fun l => l.any fun a => a.pa.isSome) || G.sent.any (fun w => !w.msg) || G.late.isSome ||
    (decide (g ≠ s.cur) && G.dataWait.isSome) || G.async.any (fun w => match w.place with | .phys _ => true | .virt _ => false) ||
    G.chan.toList.any (fun c => decide (c.st = .copying ∧ c.asked > c.nextStrip)) || (s.entriesOf g).any (fun e => !e.rows.isEmpty)

/-- TLBINV (R371): the drops stand while it waits, and are made again when it is tried again. -/
def execTlbinv (a b : Reg) (s : State) : Res :=
  .next <|
    let g := s.cur
    let t := setOf g
    let va := s.x a
    let kind := (s.x b).toNat
    if !s.isSupervisor then s.priv
    else if kind > 1 then s.illegal
    else
      let s1 := s.close.drainAll g
      if s1.own.queued || s1.own.sent.any (fun w => !w.msg) then s1
      else
        match (s1.slotSet t).img with
        | none => s1.retire 4
        | some im =>
          let x := if kind = 0 then s1.tr.dropPage im.num t va.toNat else s1.tr.dropAll im.num t
          let s2 := { s1 with tr := x }.reask t
          if s2.translatedLeft t then s2 else s2.retire 4

/-- The host's change of an entry of a context's apertures, by firmware, which drops the context's translations in the same step (R400). -/
def State.setAperture (s : State) (t index : Nat) (entry : Option Aperture) : State :=
  let S := s.slotSet t
  match S.img with
  | none => s
  | some im =>
    let l := im.apertures.filter (fun a => decide (a.index ≠ index % 512)) ++ entry.toList.map fun a => { a with index := index % 512 }
    ({ s.putSet t { S with img := some { im with apertures := l } } with tr := s.tr.dropAll im.num t }).reask t

/-! ## PGPROBE (R372) -/

/-- The kind that a PGPROBE's xb names. -/
def probeKind (n : Nat) : Kind :=
  match n with
  | 0 => .load
  | 1 => .store
  | 2 => .atomic
  | _ => .fetch

/-- PGPROBE's result (R372). -/
def probeWord (super : Bool) (r : Tr) : Word :=
  match r with
  | .ok pa leaf log =>
    let base := if super then pa / 2 ^ log * 2 ^ log else 0
    BitVec.ofNat 64 (leaf / 2 ^ 4 % 2 ^ 7 * 2 ^ 56 + (log - 12) / 2 * 2 ^ 52 + base / 2 ^ 12 % 2 ^ 40 * 2 ^ 12)
  | .fail sub => BitVec.ofNat 64 (2 ^ 63 + sub % 16 * 2 ^ 8)
  | .wait => 0

/-- PGPROBE (R372). -/
def execPgprobe (d a b : Reg) (s : State) : Res :=
  .next <|
    let g := s.cur
    let va := (s.x a).toNat
    let kind := (s.x b).toNat
    let s0 := s.close
    if kind > 3 then s.illegal
    else if va ≥ 2 ^ 56 then s0.done d (probeWord false (.fail 4)) 4
    else
      let r := s0.translate (setOf g) (dieOf g) (some g) (probeKind kind) va
      let s1 := { s0 with tr := r.1 }
      match r.2 with
      | .wait => s1
      | t => s1.done d (probeWord s.isSupervisor t) 4

/-! ## The ends of walks, and the host's answers (R359, R360) -/

/-- A miss of a die's table replaced, or removed. -/
def Xlate.setMiss (x : Xlate) (die : Nat) (m : Miss) (new : Option Miss) : Xlate :=
  { x with misses := x.misses.put die ((x.misses.findD die []).filterMap fun q => if q = m then new else some q) }

/-- The kind that a miss's code names. -/
def missKind (n : Nat) : Kind :=
  match n with
  | 0 => .load
  | 1 => .store
  | 2 => .atomic
  | 3 => .fetch
  | _ => .kv

/-- PAGE_WALK_COMPLETE (R359): one of the 64 misses that walk, the oldest of the table, has its walk; a page found for its access
is installed and completes every miss that lies in it. -/
def execPageWalkComplete (e : BitVec 3) (ix : BitVec 12) (s : State) : Res :=
  .next <|
    let die := e.toNat
    match ((s.tr.misses.findD die []).take 64)[ix.toNat]? with
    | none => s
    | some m =>
      match (s.slotSet m.set).img with
      | none => s
      | some im =>
        if im.hostWalk then s
        else
          let va := m.granule * 4096
          let w := s.hardwareWalk im die va
          let x := { s.tr with walks := s.tr.walks.put die (w.pointers.foldl (walkAdd im.num va) (s.tr.walks.findD die [])) }
          match w.leaf with
          | .ok (leaf, log) =>
            if permits (missKind m.kind) leaf then { s with tr := x.install m.set die none (tlbEntry false im.num va leaf log) }
            else { s with tr := x.setMiss die m none }
          | .error _ => { s with tr := x.setMiss die m none }

/-- A translation request answered (R360): a leaf that gives the first access what it needs is installed, and the answer stands for
every access that has joined the miss; a PFETCH's miss that none has joined ends. -/
def State.answerMiss (s : State) (id : Nat) (answer : Option Nat) : State :=
  match s.port.requests.find id with
  | some (.translate die t granule) =>
    let s1 := { s with port := { s.port with requests := s.port.requests.drop id } }
    let va := granule * 4096
    match (s1.tr.misses.findD die []).find? (fun m => m.request == some id), (s1.slotSet t).img with
    | some m, some im =>
      let keep := { s1 with tr := s1.tr.setMiss die m (if m.joined.isEmpty then none else some { m with request := none, answer := some answer }) }
      (match answer with
       | some leaf =>
         let log := pageLog 0 leaf
         if entryBit leaf 0 && entryBit leaf 1 && !malformed s1.hbmuse im.apertures 0 leaf && permits (missKind m.kind) leaf then
           { keep with tr := keep.tr.install t die none (tlbEntry true im.num va leaf log) }
         else keep
       | none => keep)
    | _, _ => s1
  | _ => s

/-- XLATE_DEADLINE (R360): no answer in time is a refusal. -/
def execXlateDeadline (id : BitVec 32) (s : State) : Res := .next (s.answerMiss id.toNat none)

/-- A translation request posted for a miss that has none (R360, R452). -/
def State.askMiss (s : State) (die : Nat) (m : Miss) : State :=
  let hosted := (((s.slotSet m.set).img.map Image.hostWalk).getD false)
  if !hosted || m.request.isSome || m.answer.isSome then s
  else
    let r := s.newRequest (.translate die m.set m.granule)
    { r.1 with tr := r.1.tr.setMiss die m (some { m with request := some r.2 }) }.post
      { kind := 2, set := m.set, id := r.2, body := leCells 8 8 (m.granule * 4096) ++ leCells 16 1 m.kind ++ leCells 17 1 die }

/-- Every miss of a context in host-assisted mode asks the host (R360). -/
def State.askHost (s : State) : State :=
  s.tr.misses.foldl (fun st p => p.2.foldl (fun st1 m => st1.askMiss p.1 m) st) s

/-! ## ATS and PRI (R446) -/

/-- An ATS translation's state replaced; other states of it take no action. -/
def State.putAts (s : State) (id : Nat) (f : AtsState → AtsState) : State :=
  { s with tr := { s.tr with ats := s.tr.ats.map fun r => if r.id = id then { r with st := f r.st } else r } }

/-- ATS_TRANSLATION_COMPLETION (R446): a first failure asks for the page, a second fails the access. -/
def execAtsTranslationCompletion (id : BitVec 32) (ok : Bool) (s : State) : Res :=
  .next <| s.putAts id.toNat fun st =>
    match st with
    | .asking => if ok then .granted else .paging
    | .retrying => if ok then .granted else .failed
    | other => other

/-- PRI_PAGE_REQUEST_RESPONSE (R446): the translation is asked for once more, whatever the response. -/
def execPriPageRequestResponse (id : BitVec 32) (_ : Bool) (s : State) : Res :=
  .next <| s.putAts id.toNat fun st =>
    match st with
    | .paging => .retrying
    | other => other

end Sys2Proof.Machine
end

