-- ==== Sys2Proof/Machine/Host.lean ====
section
/-!
DEFINITION. Sys2Proof/Machine/Host.lean: the host link, the management interface and its commands, power, cooling, reset and
containment (spec/21_system R446 to R462, spec/05_queue R110, spec/16_order R350).
-/

namespace Sys2Proof.Machine

/-! ## Host accesses (R350, R447) -/

/-- Whether some bytes at a physical address lie in device memory that a resident context shares with the host: what firmware maps in BAR 2
for it (R24, R447). -/
def State.hostShares (s : State) (pa n : Nat) : Bool :=
  [s.set0, s.set1].any fun S =>
    decide (S.st ≠ .empty) && (((S.img.map Image.shared).getD []).any fun r => decide (r.1 ≤ pa ∧ pa + n ≤ r.1 + r.2))

/-- Whether some bytes at a physical address lie in memory of this module that the host can reach. -/
def State.inModule (s : State) (pa n : Nat) : Bool :=
  !paHost pa && !paModule pa && decide (pa / 2 ^ 41 % 512 = 0) && offsetNamed s.hbmuse (paDie pa) (paOff pa) n && s.hostShares pa n

/-- HOST_WRITE (R350): to device memory through BAR 2, by the physical address that firmware maps, or by the host to its
own memory (PA[51] = 1). -/
def execHostWrite (ad : BitVec 64) (data : List Byte) (s : State) : Res :=
  .next <|
    let pa := ad.toNat
    if pa ≥ 2 ^ 52 then s
    else if paHost pa || s.inModule pa data.length then s.write none pa data
    else s

/-- MBSTAT (R449). -/
def HostPort.mbstat (p : HostPort) (verified : Bool) : Nat :=
  if !verified then 0
  else p.tag.toNat * 2 ^ 32 + bitNat p.busy * 2 ^ 31 + bitNat p.done * 2 ^ 30 + bitNat p.lost * 2 ^ 29 + p.status % 2 ^ 16

/-- An entry of the ring as bytes (R452). -/
def RingEntry.byte (e : RingEntry) (i : Nat) : Byte :=
  if i < 2 then BitVec.ofNat 8 (e.kind / 256 ^ i)
  else if i = 2 then BitVec.ofNat 8 e.set
  else if i = 3 then 0
  else if i < 8 then BitVec.ofNat 8 (e.id / 256 ^ (i - 4))
  else memByte e.body i

/-- The slot set and channel of a register among those of token channels, which stand from an offset on (R447). -/
def channelAt (base off : Nat) : Option (Nat × Nat) :=
  if base ≤ off ∧ off < base + 128 then some (0, (off - base) / 8)
  else if base + 0x1000 ≤ off ∧ off < base + 0x1000 + 128 then some (1, (off - base - 0x1000) / 8)
  else none

/-- An egress register as a read returns it (R447): the token with bit 32, or 0. -/
def State.egressWord (s : State) (t ch : Nat) : Nat :=
  match (s.slotSet t).egress.findD ch [] with
  | [] => 0
  | v :: _ => 2 ^ 32 + v.toNat

/-- A read of an egress register removes its token (R447). -/
def State.popEgress (s : State) (t ch : Nat) : State :=
  let S := s.slotSet t
  match S.egress.findD ch [] with
  | [] => s
  | _ :: rest => s.putSet t { S with egress := S.egress.put ch rest }

/-- A byte of BAR 0 as a host read returns it (R447, R449, R452). Bits 31:24 of MBCMD are reserved and read 0 (R9). -/
def State.bar0Byte (s : State) (off : Nat) : Byte :=
  let p := s.port
  let le := fun (v : Nat) => BitVec.ofNat 8 (v / 256 ^ (off % 8))
  if off < 8 then le (p.mbcmd &&& 0xFFFFFFFF00FFFFFF).toNat
  else if 0x10 ≤ off ∧ off < 0x800 then memByte p.area (off - 0x10)
  else if 0x800 ≤ off ∧ off < 0x808 then le (p.mbstat (decide (s.firmware ≠ .unverified)))
  else if 0x808 ≤ off ∧ off < 0x1000 then memByte p.result (off - 0x808)
  else if 0x10000 ≤ off ∧ off < 0x11000 then ((p.ring.find ((off - 0x10000) / 64 % 64)).map fun e => e.byte (off % 64)).getD 0
  else if 0x11000 ≤ off ∧ off < 0x11008 then le p.evhead.toNat
  else if 0x11008 ≤ off ∧ off < 0x11010 then le p.evtail.toNat
  else if 0x100200 ≤ off ∧ off < 0x100208 then le s.set0.overflow.toNat
  else if 0x101200 ≤ off ∧ off < 0x101208 then le s.set1.overflow.toNat
  else if 0x200000 ≤ off ∧ off < 0x201000 then le (s.capability (0x200 + (off - 0x200000) / 8)).toNat
  else
    match channelAt 0x100100 off with
    | some (t, ch) => le (s.egressWord t ch)
    | none => 0

/-- The egress registers that a read of BAR 0 touches. -/
def egressTouched (off n : Nat) : List (Nat × Nat) := ((upFrom off n).filterMap fun o => channelAt 0x100100 o).dedup

/-- HOST_READ (R350): of device memory or the host's own memory by its physical address, of BAR 0 at 2^63 and above, where it removes the token of
every egress register that it touches (R447). -/
def execHostRead (ad : BitVec 64) (n : Nat) (s : State) : Res :=
  .next <|
    let pa := ad.toNat
    let put := fun (b : List Byte) (bad : Bool) => { s with port := { s.port with readData := b, readPoison := bad } }
    if pa ≥ 2 ^ 63 then
      (egressTouched (pa - 2 ^ 63) n).foldl (fun st q => st.popEgress q.1 q.2) (put ((upFrom (pa - 2 ^ 63) n).map s.bar0Byte) false)
    else if pa < 2 ^ 52 && (paHost pa || s.inModule pa n) then put (s.readAt pa n) (!paHost pa && s.badData pa n)
    else put (List.replicate n 0xFF) true

/-- Whether a slot set's context has its token channels; a doorbell of another set is dropped without an overflow bit (DESIGN CHOICE,
notes/assumptions/85). -/
def SlotSet.hasTokens (S : SlotSet) : Bool := decide (S.st ≠ .empty ∧ S.st ≠ .loading ∧ S.st ≠ .retired)

/-- A doorbell of a channel (R110, R447). -/
def State.doorbell (s : State) (t ch : Nat) (pl : BitVec 32) : State :=
  let S := s.slotSet t
  let l := S.ingress.findD ch []
  if !S.hasTokens then s
  else if l.length ≥ 16 then s.putSet t { S with overflow := S.overflow ||| BitVec.ofNat 16 (2 ^ ch) }
  else s.putSet t { S with ingress := S.ingress.put ch (l ++ [pl]) }

/-- INGRESS_DOORBELL (R110). -/
def execIngressDoorbell (t : BitVec 1) (ch : BitVec 4) (pl : BitVec 32) (s : State) : Res := .next (s.doorbell t.toNat ch.toNat pl)

/-- EGRESS_READ (R447): the token with bit 32, or 0. -/
def execEgressRead (t : BitVec 1) (ch : BitVec 4) (s : State) : Res :=
  .next <|
    let s1 := s.popEgress t.toNat ch.toNat
    { s1 with port := { s1.port with readData := toBytes 8 (s.egressWord t.toNat ch.toNat), readPoison := false } }

/-! ## The mailbox registers (R449) -/

/-- An MBGO write (R449): it starts the command that stands in MBCMD and the argument area; while one runs it only sets
LOST; refused firmware answers 0xF. -/
def State.mbgo (s : State) : State :=
  let p := s.port
  match s.firmware with
  | .running =>
    if p.busy then { s with port := { p with lost := true } }
    else
      { s with port := { p with
          tag := BitVec.ofNat 32 (bits p.mbcmd 32 32), busy := true, done := false, lost := false
          cmd := some { code := bits p.mbcmd 0 16, set := bits p.mbcmd 16 8, reserved := bits p.mbcmd 24 8, args := p.area, begun := false } } }
  | .refused => { s with port := { p with tag := BitVec.ofNat 32 (bits p.mbcmd 32 32), done := true, status := 0xF, result := [] } }
  | _ => s

/-- Overflow bits of a slot set that a host write clears (R447). -/
def State.clearOverflow (s : State) (t : Nat) (v : BitVec 64) : State :=
  let S := s.slotSet t
  s.putSet t { S with overflow := S.overflow &&& ~~~(v.setWidth 16) }

/-- Whether a register write has 4 bytes, and its value. -/
def regHalf : RegWrite → Bool
  | .four _ => true
  | .eight _ => false
def regValue : RegWrite → BitVec 64
  | .four v => v.setWidth 64
  | .eight v => v

/-- HOST_REGISTER_WRITE (R447): a write of 4 or 8 bytes at an offset of BAR 0; offsets without a writable register take no action. A
doorbell takes a write of 4 bytes; after a thermal trip it raises nothing (R458). -/
def execHostRegisterWrite (off : BitVec 26) (val : RegWrite) (s : State) : Res :=
  .next <|
    let o := off.toNat
    let p := s.port
    let four := regHalf val
    let n := if four then 4 else 8
    let v := regValue val
    if o = 0 then { s with port := { p with mbcmd := if four then (p.mbcmd &&& 0xFFFFFFFF00000000) ||| v else v } }
    else if o = 4 ∧ four = true then { s with port := { p with mbcmd := (p.mbcmd &&& 0xFFFFFFFF) ||| (v <<< 32) } }
    else if o = 8 ∨ (o = 12 ∧ four = true) then s.mbgo
    else if 0x10 ≤ o ∧ o + n ≤ 0x800 then { s with port := { p with area := memPutBytes p.area (o - 0x10) (toBytes n v.toNat) } }
    else if o = 0x11000 then { s with port := { p with evhead := v.setWidth 32 } }
    else if o = 0x100200 then s.clearOverflow 0 v
    else if o = 0x101200 then s.clearOverflow 1 v
    else
      match channelAt 0x100000 o with
      | some (t, ch) => if four = true ∧ o % 8 = 0 ∧ s.tripped = false then s.doorbell t ch (v.setWidth 32) else s
      | none => s

/-- MBGO_WHILE_BUSY (R449). -/
def execMbgoWhileBusy (s : State) : Res := .next (if s.port.busy then { s with port := { s.port with lost := true } } else s)

/-- Whether firmware that a reset has started serves the module: it was verified. Of failed firmware the module still informs the host
(R459, R461). -/
def State.informs (s : State) : Bool := decide (s.firmware = .running ∨ s.firmware = .failed)

/-- EVENT_RING_WRITE (R452): the next held event, when the ring has room. -/
def execEventRingWrite (s : State) : Res :=
  .next <|
    let p := s.port
    match p.waiting with
    | [] => s
    | e :: rest =>
      if !s.informs then s
      else if (p.evtail - p.evhead).toNat = 64 then s
      else { s with port := { p with ring := p.ring.put (p.evtail.toNat % 64) e, evtail := p.evtail + 1, waiting := rest } }

/-! ## Commands (R450, R451) -/

/-- The command in execution when it has a code and is not waiting for its end. -/
def State.command (s : State) (code : Nat) : Option Command := if s.firmware = .running then s.port.cmd.filter fun c => c.code == code && !c.begun else none

/-- Whether a command's words are in range: its reserved bits, its SET, and no byte outside the arguments it uses. -/
def Command.ok (c : Command) (named : Bool) (used : Nat → Bool) : Bool :=
  decide (c.reserved = 0) && decide (c.set ≤ (if named then 1 else 0)) && c.args.all fun q => used q.1

/-- A number of the arguments. -/
def Command.arg (c : Command) (lo n : Nat) : Nat := memNat c.args lo n

/-- A command that goes on until an event ends it. -/
def State.beginCmd (s : State) : State := { s with port := { s.port with cmd := s.port.cmd.map fun c => { c with begun := true } } }

/-- A command run: STATUS 0x2 when its words are out of range, else its effect. -/
def State.runCmd (s : State) (code : Nat) (named : Bool) (used : Nat → Bool) (f : Command → State) : State :=
  match s.command code with
  | none => s
  | some c => if c.ok named used then f c else s.finishCmd 2 []

/-- LOAD (R450). -/
def execCmdLoad (s : State) : Res :=
  .next <| s.runCmd 1 true (fun o => decide (o < 25)) fun c =>
    if c.arg 24 1 > 1 then s.finishCmd 2 []
    else if (s.slotSet c.set).st ≠ .empty ∨ s.dropped c.set = true then s.finishCmd 3 []
    else
      let S := { (s.weigh c.set).slotSet c.set with img := none, loadNum := Config.loadNumber s.fresh % 2 ^ 16 }
      { ((s.weigh c.set).putSet c.set S).setCtx c.set .loading with fresh := s.fresh + 1 }.beginCmd

/-- LOADSAVED (R450). -/
def execCmdLoadsaved (s : State) : Res :=
  .next <| s.runCmd 2 true (fun o => decide (o < 2)) fun c =>
    if (s.slotSet c.set).st ≠ .empty ∨ s.dropped c.set = true then s.finishCmd 3 []
    else
      match s.saved.find? fun q => q.num == c.arg 0 2 with
      | none => s.finishCmd 7 []
      | some q => ((s.weigh c.set).loadSaved c.set q).beginCmd

/-- SAVE (R450): the command ends with the save, or with 0x3 when the context is lost first. -/
def execCmdSave (s : State) : Res :=
  .next <|
    match s.port.cmd.filter fun c => c.code == 3 && c.begun with
    | some c =>
      let st := (s.slotSet c.set).st
      if st = .standby ∨ st = .active ∨ st = .preempting then s else s.finishCmd 3 []
    | none =>
      s.runCmd 3 true (fun _ => false) fun c =>
        let S := s.slotSet c.set
        if s.dropped c.set || !((S.img.map Image.saveArea).getD false) then s.finishCmd 3 []
        else if S.st = .standby then ((s.weigh c.set).putSet c.set { (s.weigh c.set).slotSet c.set with saveCmd := true }).beginCmd
        else if S.st = .active then ((s.weigh c.set).putSet c.set { (s.weigh c.set).slotSet c.set with saveMark := true }).beginCmd
        else s.finishCmd 3 []

/-- STOP (R450). -/
def execCmdStop (s : State) : Res :=
  .next <| s.runCmd 4 true (fun _ => false) fun c =>
    if (s.slotSet c.set).st ≠ .active ∨ s.dropped c.set = true then s.finishCmd 3 [] else (s.halt c.set).finishCmd 0 []

/-- FAULT (R450). -/
def execCmdFault (s : State) : Res :=
  .next <| s.runCmd 5 true (fun _ => false) fun c =>
    let st := (s.slotSet c.set).st
    if st ≠ .active ∧ st ≠ .preempting ∧ st ≠ .standby then s.finishCmd 3 []
    else (s.faultContext c.set 0xF1 0 0).finishCmd 0 []

/-- RELEASE (R450): a Faulted context becomes Retired; a Retired one leaves its set when no work of its groups is left. One that meets another event
of its context in the same cycle is dropped (R82, R448). -/
def execCmdRelease (s : State) : Res :=
  .next <| s.runCmd 6 true (fun _ => false) fun c =>
    let S := s.slotSet c.set
    if s.dropped c.set then s.finishCmd 3 []
    else if S.st = .faulted then ((s.weigh c.set).retireContext c.set).finishCmd 0 (leCells 0 8 S.fault.toNat)
    else if S.st = .retired then
      if !(s.groupsOf c.set).isEmpty then s
      else
        let s1 := (s.weigh c.set).setCtx c.set .empty
        (match S.img with
         | some im => s1.vacate c.set im
         | none => s1.putSet c.set SlotSet.fresh).finishCmd 0 []
    else s.finishCmd 3 []

/-- SWITCH (R450): SET names the context that stands by. -/
def execCmdSwitch (s : State) : Res :=
  .next <| s.runCmd 7 true (fun _ => false) fun c =>
    let t := 1 - c.set
    if (s.slotSet t).st ≠ .active ∨ s.switchStatus t ≠ 0 ∨ s.dropped t = true then s.finishCmd 3 []
    else ((s.weigh t).beginSwitch t).finishCmd 0 []

/-- The Trapped group that RESUME and TERMINATE name, or the status. -/
def State.trappedGroup (s : State) (c : Command) : Except Nat Nat :=
  let cell := c.arg 0 2
  let slot := c.arg 2 1
  let g := groupCode cell c.set slot
  let st := (s.slotSet c.set).st
  if cell > 511 ∨ slot > 3 then .error 2
  else if st ≠ .active ∧ st ≠ .preempting ∧ st ≠ .standby then .error 3
  else
    match (s.group g).phase with
    | .trapped _ => .ok g
    | _ => .error 6

/-- RESUME (R90, R450): as RTE; in a context that is not Active the group waits for it. -/
def execCmdResume (s : State) : Res :=
  .next <| s.runCmd 8 true (fun o => decide (o < 3)) fun c =>
    match s.trappedGroup c with
    | .error st => s.finishCmd st []
    | .ok g =>
      let G := (s.group g).returnFromTrap.otherStrips
      let G1 := if G.phase = .running ∧ (s.slotSet c.set).st ≠ .active then { G with phase := .preempted } else G
      (s.putGroup g G1).finishCmd 0 []

/-- TERMINATE (R90, R450). -/
def execCmdTerminate (s : State) : Res :=
  .next <| s.runCmd 9 true (fun o => decide (o < 3)) fun c =>
    match s.trappedGroup c with
    | .error st => s.finishCmd st []
    | .ok g => (s.terminate g).finishCmd 0 []

/-- SETPLIM (R450, R457). -/
def execCmdSetplim (s : State) : Res :=
  .next <| s.runCmd 0xA false (fun o => decide (o < 2)) fun c =>
    let w := c.arg 0 2
    if w < 2000 ∨ w > 6400 then s.finishCmd 2 [] else { s with plim := w }.finishCmd 0 []

/-- The TRAINLINK in execution on a link, when it waits for the end of the training. -/
def State.trainCmd (s : State) (k : Nat) : Bool :=
  match s.port.cmd with
  | some c => c.begun && decide (c.code = 0xB) && decide (memNat c.args 0 1 = k)
  | none => false

/-- The end of a link's training (R403): the state that it reaches, its packets resent in their order; a TRAINLINK that waits for it ends
(R450). -/
def State.endTraining (s : State) (k : Nat) (out : Lanes) : State :=
  let st := trained s.reduced k out
  let s1 := { s with links := s.links.put k { st := st, replays := 0, held := false } }
  if s.trainCmd k then s1.finishCmd (if st = .failed then 0xA else 0) (leCells 0 1 st.code) else s1

/-- TRAINLINK (R403, R450): host enable of a link that is Down or Failed, whose training then runs, or the training of one in Training or
Retraining, which the command ends. -/
def execCmdTrainlink (out : Lanes) (s : State) : Res :=
  .next <|
    match s.port.cmd.filter fun c => c.code == 0xB && c.begun with
    | some c => if (s.link (c.arg 0 1)).st = .training then s.endTraining (c.arg 0 1) out else s
    | none =>
      s.runCmd 0xB false (fun o => decide (o < 1)) fun c =>
        let k := c.arg 0 1
        let l := s.link k
        if !linkKnown k then s.finishCmd 2 []
        else
          match l.st with
          | .up => s.finishCmd 3 []
          | .degraded => s.finishCmd 3 []
          | .retraining => s.beginCmd.endTraining k out
          | _ => { s with links := s.links.put k { st := .training, replays := 0, held := l.held } }.beginCmd

/-- LINK_TRAINING_DONE (R403). -/
def execLinkTrainingDone (lk : BitVec 6) (out : Lanes) (s : State) : Res :=
  .next <|
    let k := lk.toNat
    if linkKnown k && decide ((s.link k).st = .training) then s.endTraining k out else s

/-- A stack's bit of HBMOK and HBMUSE (R456). -/
def stackBit (d k : Nat) : BitVec 16 := BitVec.ofNat 16 (2 ^ (2 * d + k))

/-- TRAINHBM (R450, R453): a stack that trains now stays unused until the next reset. -/
def execCmdTrainhbm (ok : Bool) (s : State) : Res :=
  .next <| s.runCmd 0xC false (fun o => decide (o < 2)) fun c =>
    let d := c.arg 0 1
    let k := c.arg 1 1
    if d > 7 ∨ k > 1 then s.finishCmd 2 []
    else if s.hbmok &&& stackBit d k ≠ 0 then s.finishCmd 3 []
    else if ok then { s with hbmok := s.hbmok ||| stackBit d k }.finishCmd 0 (leCells 0 1 1)
    else s.finishCmd 0xA []

/-- XLATE (R360, R450). -/
def execCmdXlate (s : State) : Res :=
  .next <| s.runCmd 0xD true (fun o => decide (o < 4 ∨ (8 ≤ o ∧ o < 17))) fun c =>
    let id := c.arg 0 4
    if c.arg 16 1 > 1 then s.finishCmd 2 []
    else
      match s.port.requests.find id with
      | some (.translate _ t _) =>
        if t = c.set then (s.answerMiss id (if c.arg 16 1 = 1 then none else some (c.arg 8 8))).finishCmd 0 [] else s.finishCmd 8 []
      | _ => s.finishCmd 8 []

/-- SPILLRET (R436, R450). -/
def execCmdSpillret (s : State) : Res :=
  .next <| s.runCmd 0xE true (fun o => decide (o < 5)) fun c =>
    let id := c.arg 0 4
    if c.arg 4 1 > 1 then s.finishCmd 2 []
    else
      match s.port.requests.find id with
      | some (.spill _ t) =>
        if t = c.set then
          (match s.spillAnswer id (decide (c.arg 4 1 = 1)) with
           | (s1, true) => s1.finishCmd 0 []
           | (s1, false) => s1)
        else s.finishCmd 8 []
      | _ => s.finishCmd 8 []

/-- The fields of an attestation report (R460): the nonce, STEP, FWREL and MOD of Identity, and the digests of the firmware and of each resident
image. -/
def State.reportFields (s : State) (nonce : List Byte) : List (List Byte) :=
  let one := s.capability 0x201
  let digest := fun (S : SlotSet) => if S.st = .empty ∨ S.st = .loading then [] else (S.img.map Config.imageDigest).toList
  [nonce, toBytes 1 (bits one 0 8), toBytes 2 (bits one 16 16), toBytes 2 (bits (s.capability 0x202) 0 12), Config.firmwareDigest] ++ digest s.set0 ++
    digest s.set1

/-- A byte of an attestation report: of a field where the layout places one, else a free value (R460, notes/assumptions/3). -/
def State.reportByte (s : State) (fields : List (List Byte)) (i : Nat) : Byte :=
  match (Config.reportPlace fields.length i).bind fun q => fields[q.1]?.bind fun l => l[q.2]? with
  | some b => b
  | none => Config.reportByte fields s.port.reports i

/-- ATTEST (R460): the report with its signature goes to host memory, as far as the buffer holds it; `ok` is false when
the host's memory takes no write. -/
def execCmdAttest (ok : Bool) (s : State) : Res :=
  .next <| s.runCmd 0xF false (fun o => decide (o < 44)) fun c =>
    if !ok then s.finishCmd 9 []
    else
      let n := min (Config.reportLength s.port.reports) (c.arg 40 4)
      let pa := 2 ^ 51 + c.arg 32 8 % 2 ^ 51
      let fields := s.reportFields ((upFrom 0 32).map fun i => memByte c.args i)
      match s.hostAccess 2 pa n with
      | (s1, .wait) => s1
      | (s1, .fail _) => s1.finishCmd 9 []
      | (s1, .ok _ _ _) =>
        let s2 := s1.write none pa ((upFrom 0 n).map fun i => s.reportByte fields i)
        { s2 with port := { s2.port with reports := s2.port.reports + 1 } }.finishCmd 0 (leCells 0 4 n)

/-- QUERY (R450). -/
def execCmdQuery (s : State) : Res :=
  .next <| s.runCmd 0x10 false (fun _ => false) fun _ =>
    s.finishCmd 0 (leCells 0 1 s.set0.st.code ++ leCells 1 1 s.set1.st.code ++ leCells 2 2 s.set0.num ++ leCells 4 2 s.set1.num)

/-- CODE_UNASSIGNED (R451). -/
def execCodeUnassigned (s : State) : Res :=
  .next <|
    match s.port.cmd with
    | some c => if c.code = 0 ∨ c.code > 0x10 then s.finishCmd 1 [] else s
    | none => s

/-! ## Power and cooling (R457, R458) -/

/-- CAP or GRANT of a cell one step lower, or one step higher (R457). -/
def CellState.lower (C : CellState) : CellState := if C.cap > 16 then { C with cap := max 16 (C.cap - 16) } else { C with grant := max 1 (C.grant - 1) }
def CellState.higher (C : CellState) : CellState := if C.grant < 8 then { C with grant := C.grant + 1 } else { C with cap := min 256 (C.cap + 16) }

/-- Cells changed. -/
def State.mapCells (s : State) (f : CellState → CellState) : List Nat → State
  | [] => s
  | c :: rest => State.mapCells (s.putCell c (f (s.cell c))) f rest

/-- A thermal or power event for the ring (R452). -/
def thermalEntry (die deg kind : Nat) : RingEntry := { kind := 7, set := 0, id := 0, body := leCells 8 1 die ++ leCells 9 1 deg ++ leCells 10 1 kind }

/-- POWER_INTERVAL (R457): PNOW as measured; what follows is the work of firmware that runs (R459). -/
def execPowerInterval (pw : BitVec 13) (s : State) : Res :=
  .next <|
    let s1 := { s with pnow := pw.toNat }
    if s.firmware ≠ .running then s1
    else if pw.toNat > s.plim then (s1.mapCells CellState.lower (upFrom 0 512)).post (thermalEntry 0 0 3)
    else if pw.toNat * 100 < s.plim * 95 then s1.mapCells CellState.higher (upFrom 0 512)
    else s1

/-- HOT_DIE (R458): from 95 °C on, by firmware that runs. -/
def execHotDie (e : BitVec 3) (deg : BitVec 8) (s : State) : Res :=
  .next (if s.firmware = .running ∧ deg.toNat ≥ 95 then (s.mapCells CellState.lower (upFrom (64 * e.toNat) 64)).post (thermalEntry e.toNat deg.toNat 1) else s)

/-- Every resident context Faulted, the one that stands by first. -/
def State.faultAll (s : State) (cause : Nat) : State := 
  if s.set0.st = .active then (s.faultContext 1 cause 0 0).faultContext 0 cause 0 0 else (s.faultContext 0 cause 0 0).faultContext 1 cause 0 0

/-- THERMAL_TRIP (R458): from 110 °C on. -/
def execThermalTrip (e : BitVec 3) (deg : BitVec 8) (s : State) : Res :=
  .next (if deg.toNat ≥ 110 then { s.faultAll 0xF2 with tripped := true }.post (thermalEntry e.toNat deg.toNat 2) else s)

/-! ## Reset, firmware and power-off (R453, R459 to R462) -/

/-- The module as a reset leaves it: what outlives a reset is the host's memory, device memory and the saved contexts
(notes/assumptions/44). -/
def State.restart (s : State) : State :=
  { State.reset with agenda := s.agenda, fresh := s.fresh, hostMem := s.hostMem, mem := s.mem, poison := s.poison
                     uncorr := s.uncorr, bdir := s.bdir, saved := s.saved }

/-- The links and ports that train when a reset ends (R403). -/
def trainingLinks : Table Link := (upFrom 0 10 ++ upFrom 16 48).map fun k => (k, { st := .training, replays := 0, held := false })

/-- Training of a stack wanted of the host, for each that has not trained (R452, R453). -/
def stackWanted (hbm : BitVec 16) : List RingEntry :=
  ((upFrom 0 16).filter fun k => !hbm.getLsbD k).map fun k => { kind := 5, set := 0, id := 0, body := leCells 8 1 (0x80 + k) }

/-- MODULE_RESET (R403, R446, R453): the stacks that trained are in use; one that did not puts the module in reduced
service. -/
def execModuleReset (rp : ResetReport) (s : State) : Res :=
  .next <|
    let s1 := s.restart
    { s1 with
      hbmok := rp.hbm, hbmuse := rp.hbm, reduced := decide (rp.hbm ≠ 0xFFFF), pciw := rp.pciw, links := trainingLinks
      port := { s1.port with ats := rp.ats, waiting := stackWanted rp.hbm } }

/-- FIRMWARE_VERIFY (R449, R459). -/
def execFirmwareVerify (ok : Bool) (s : State) : Res :=
  .next <|
    if s.firmware ≠ .unverified then s
    else if ok then { s with firmware := .running, port := { s.port with done := true, status := 0, tag := 0 } }
    else { s with firmware := .refused }

/-- HBM_RETRAIN (R453): a stack that trains in hardware mode sets its HBMOK bit. -/
def execHbmRetrain (e : BitVec 3) (k : BitVec 1) (ok : Bool) (s : State) : Res :=
  .next (if ok then { s with hbmok := s.hbmok ||| stackBit e.toNat k.toNat } else s)

/-- POWER_OFF (R462). -/
def execPowerOff (s : State) : Res :=
  .next { State.reset with agenda := s.agenda, fresh := s.fresh, hostMem := s.hostMem, off := true }

/-- FIRMWARE_FAILURE (R461): every context Faulted and the host informed, also when no context is there to fault: by an entry of set 0, whose state
does not change (DESIGN CHOICE, notes/assumptions/85). Firmware that was refused does not run, and cannot fail. -/
def execFirmwareFailure (s : State) : Res :=
  .next <|
    if s.firmware = .refused ∨ s.firmware = .failed then s
    else
      let s1 := s.faultAll 0xF3
      let told := decide (s1.port.waiting.length > s.port.waiting.length)
      let note := leCells 8 1 s.set0.st.code ++ leCells 9 1 s.set0.st.code ++ leCells 10 2 s.set0.num ++ leCells 16 8 0xF3
      let s2 := if told then s1 else s1.post { kind := 6, set := 0, id := 0, body := note }
      { s2 with firmware := .failed }

end Sys2Proof.Machine
end

