-- ==== Sys2Proof/Machine/Kernel.lean ====
section
/-!
DEFINITION. Sys2Proof/Machine/Kernel.lean: queues, host tokens, launches, the placer and the queue and kernel instructions
(spec/05_queue R100 to R112, spec/06_kernel R113 to R127).
-/

namespace Sys2Proof.Machine

/-! ## Queues (R100, R101, R108, R109) -/

/-- A declared queue of a slot set. -/
def SlotSet.queue? (S : SlotSet) (q : Nat) : Option Queue := if q > 15 then none else S.queues.find q

/-- The kernels of a queue that are not complete, in launch order. -/
def SlotSet.inQueue (S : SlotSet) (q : Nat) : List Kernel := S.kernels.filter fun k => k.queue == some q

/-- QWAIT (R108). -/
def execQwait (d a : Reg) (s : State) : Res :=
  .next <|
    let S := s.slotSet (setOf s.cur)
    let q := (s.x a).toNat
    let s0 := s.close
    match S.queue? q with
    | none => s0.done d 1 4
    | some _ =>
      match (S.inQueue q).map Kernel.num with
      | [] => s0.done d 0 4
      | ks => s0.wait (.queue d ks)

/-- QPRIO (R109). -/
def execQprio (d a b : Reg) (s : State) : Res :=
  .next <|
    let t := setOf s.cur
    let S := s.slotSet t
    let q := (s.x a).toNat
    let p := (s.x b).toNat
    let s0 := s.close
    match S.queue? q with
    | none => s0.done d (BitVec.allOnes 64) 4
    | some Q =>
      if p > 7 then s0.done d (BitVec.allOnes 64) 4
      else (s0.putSet t { S with queues := S.queues.put q { Q with prio := p } }).done d (BitVec.ofNat 64 Q.prio) 4

/-! ## Host tokens (R111, R112) -/

/-- A group at the end of the waiters on host tokens, for its level: the place of an interrupted HTOKWAIT stands while the handler runs one of
its own (R111, R137). -/
def SlotSet.enqueueWaiter (S : SlotSet) (g c : Nat) (super : Bool) : SlotSet :=
  { S with waiters := S.waiters.filter (fun q => !(q.1 == g && q.2.2 == super)) ++ [(g, c, super)] }

/-- HTOKWAIT (R111): waiters are served in the order of issue. -/
def execHtokwait (d a : Reg) (s : State) : Res :=
  .next <|
    let g := s.cur
    let t := setOf g
    let c := (s.x a).toNat
    let s0 := s.close
    if c > 15 then s0.done d (BitVec.allOnes 64) 4
    else
      let S := s.slotSet t
      match fifoOf S.ingress c, s.firstWaiter t c with
      | v :: rest, none => (s0.putSet t { S with ingress := S.ingress.put c rest }).done d (v.setWidth 64) 4
      | _, _ => (s0.putSet t (S.enqueueWaiter g c s.isSupervisor)).wait (.hostTaken d (BitVec.ofNat 4 c))

/-- HTOKRAISE (R112): the release at system scope, then the token or the wait. A wait appends the value that xb had when it was entered,
whatever a handler has made of the register since (DESIGN CHOICE, notes/assumptions/83). -/
def execHtokraise (a b : Reg) (s : State) : Res :=
  .next <|
    let g := s.cur
    let t := setOf g
    let c := (s.x a).toNat
    if c > 15 then s.close.retire 4
    else
      let s1 := s.close.drainAll g
      if s1.storesLeft g 6 || s1.loadsLeft g 6 then s1
      else
        let S := s1.slotSet t
        let l := fifoOf S.egress c
        let v := (s.x b).setWidth 32
        if l.length < 16 then (s1.putSet t { S with egress := S.egress.put c (l ++ [v]) }).retire 4
        else s1.wait (.hostGiven (BitVec.ofNat 4 c) v)

/-! ## KLAUNCH (R113, R114, R122, R125) -/

/-- A launch record's fields (R114). -/
structure LaunchRecord where
  desc : Word
  args : Word
  ngrp : Nat
  queue : Nat
  serial : Bool
  cohort : Bool
  cword : Word
  deps : List Word
  deriving DecidableEq, Repr

/-- A record of its bytes. -/
def launchRecord (b : List Byte) : LaunchRecord :=
  let w := fun (o : Nat) => BitVec.ofNat 64 (descNat b o 8)
  { desc := w 0, args := w 8, ngrp := descNat b 16 4, queue := descNat b 20 1, serial := decide (descNat b 21 1 % 2 = 1)
    cohort := decide (descNat b 21 1 / 2 % 2 = 1), cword := w 24, deps := [w 32, w 40] }

/-- Whether a record's bytes keep the rules that status 3 names (R125). -/
def recordOk (b : List Byte) : Bool :=
  let r := launchRecord b
  decide (descNat b 22 2 = 0 ∧ descNat b 48 16 = 0 ∧ 1 ≤ r.ngrp ∧ r.ngrp ≤ 2 ^ 24 ∧ descNat b 21 1 < 4) && decide (r.desc.toNat % 32 = 0) &&
  decide (r.cword.toNat % 8 = 0) && r.deps.all fun d => decide (d.toNat % 8 = 0)

/-- A kernel descriptor of its bytes (R113). -/
def kernelDesc (b : List Byte) : KernelDesc :=
  { entry := BitVec.ofNat 64 (descNat b 0 8), lmul := descNat b 8 1, tiles := descNat b 9 1, accs := descNat b 10 1, chans := descNat b 11 1
    cstore := descNat b 12 4, bstore := descNat b 16 4 }

/-- Whether a descriptor's bytes keep R113. -/
def descOk (b : List Byte) : Bool :=
  let d := kernelDesc b
  decide (d.entry.toNat % 64 = 0) && decide (d.lmul ≤ 3 ∧ d.tiles ≤ 8 ∧ d.accs ≤ 4 ∧ d.chans ≤ 16 ∧ d.cstore ≤ 524288 ∧ d.bstore ≤ 33554432) &&
  decide (descNat b 20 12 = 0)

/-- The place of a completion word: a window address does not translate. -/
def State.wordPlace (s : State) (k : Kind) (va : Word) : State × Except Bool Nat :=
  if inWindow va.toNat then (s, .error true)
  else
    match s.look s.cur k va.toNat 8 with
    | (s1, .here ((pa, _) :: _) _) => (s1, .ok pa)
    | (s1, .wait) => (s1, .error false)
    | (s1, _) => (s1, .error true)

/-- The places of the dependences that are not 0. -/
def State.depPlaces (s : State) : List Word → List Nat → State × Except Bool (List Nat)
  | [], acc => (s, .ok acc)
  | d :: ds, acc =>
    if d = 0 then State.depPlaces s ds acc
    else
      match s.wordPlace .load d with
      | (s1, .ok pa) => State.depPlaces s1 ds (acc ++ [pa])
      | (s1, .error e) => (s1, .error e)

/-- The launches of a queue not yet fully placed (R100). -/
def SlotSet.unplaced (S : SlotSet) (q : Nat) : Nat := ((S.inQueue q).filter fun k => decide (k.st = .queued ∨ k.st = .placing)).length

/-- The number after a kernel number (R115). -/
def nextNumber (n : Nat) : Nat := if n ≥ 2 ^ 32 - 1 then 1 else n + 1

/-- Whether an earlier store of a group to a place may still land there: the launching group's loads see at least Queued (R125). -/
def State.landsOn (s : State) (g pa : Nat) : Bool :=
  let G := s.group g
  G.slices.toList.any (fun l => l.any fun a => runsMeet (s.accessRuns g a) [(pa, 8)]) ||
  G.sent.any fun w => match w.held with
    | some (_, runs) => runsMeet runs [(pa, 8)]
    | none => !w.msg && paFar pa && decide (w.die = s.farDie g pa)

/-- A launch accepted (R115, R116, R122, R125): the release at die scope and the group's own stores to the completion word first, then
the record at the queue's tail with its completion word Queued. -/
def State.acceptLaunch (s : State) (d : Reg) (r : LaunchRecord) (kd : KernelDesc) (cword : Nat) (deps : List Nat) : State :=
  let g := s.cur
  let t := setOf g
  let s1 := (s.drainScope g 3).drainThose g fun st a => runsMeet (st.accessRuns g a) [(cword, 8)]
  if s1.storesLeft g 3 || s1.loadsLeft g 3 || s1.landsOn g cword then s1
  else
    let S := s1.slotSet t
    let num := S.nextKernel
    let k : Kernel :=
      { num := num, queue := some r.queue, st := .queued, desc := kd, args := r.args, ngrp := r.ngrp, serial := r.serial, cohort := r.cohort
        cword := some cword, word := 1, deps := deps, launchable := false, passed := 0, reserving := false, placed := 0, ended := 0
        bar := { used := true, gen := 0, count := r.ngrp, phase := 0, arrivals := 0 }, after := some (g, s1.own.seq), stays := false }
    let s2 := s1.putSet t { S with kernels := S.kernels ++ [k], nextKernel := nextNumber num }
    (s2.putWord t k fun _ => 1).done d (BitVec.ofNat 64 (num * 2 ^ 32)) 4

/-- KLAUNCH (R125). -/
def execKlaunch (d a : Reg) (s : State) : Res :=
  .next <|
    let g := s.cur
    let va := s.x a
    if va.toNat % 64 ≠ 0 then s.misaligned va
    else
      match s.close.loadWide g va 64 with
      | (s1, .wait) => s1
      | (s1, .trap code sub addr) => s1.raise code sub addr
      | (s1, .data b) =>
        let r := launchRecord b
        if !recordOk b then s1.done d 3 4
        else
          match s1.loadWide g r.desc 32 with
          | (s2, .wait) => s2
          | (s2, .trap code sub addr) => s2.raise code sub addr
          | (s2, .data db) =>
            let kd := kernelDesc db
            let S := s2.slotSet (setOf g)
            if !descOk db then s2.done d 3 4
            else if (S.queue? r.queue).isNone then s2.done d 2 4
            else
              match s2.wordPlace .store r.cword with
              | (s3, .error true) => s3.done d 5 4
              | (s3, .error false) => s3
              | (s3, .ok cword) =>
                match s3.depPlaces r.deps [] with
                | (s4, .error true) => s4.done d 5 4
                | (s4, .error false) => s4
                | (s4, .ok deps) =>
                  let fit := (S.img.map fun im => emptyFit im kd).getD 0
                  if r.cohort && decide (r.ngrp > 512 * fit) then s4.done d 4 4
                  else if !r.cohort && decide (fit = 0) then s4.done d 6 4
                  else if S.unplaced r.queue ≥ 256 then s4.done d 1 4
                  else s4.acceptLaunch d r kd cword deps

/-! ## KEND and KSTAT (R126, R127) -/

/-- The end of a group by KEND, its waits over. -/
def State.endGroup (s : State) (g : Nat) : State :=
  let G := s.group g
  let s1 := (s.releaseHoldings g).barDepart g G.kernid
  let s2 := s1.putGroup g { s1.group g with phase := .ended }
  (s2.groupGone (setOf g) G.kernid (fun w => wordFlags w G.vfl G.mfl G.xfl G.collOf)).freeSlot g

/-- KEND (R126): its stalls leave it at its PC; the wait for contributions is Waiting. Its channels are freed as SUNBIND does, once what they
have requested has landed (R308). -/
def execKend (s : State) : Res :=
  .next <|
    let g := s.cur
    let s1 := (s.close.drainAll g).flush g
    let G := s1.own
    if !G.convoys.isEmpty || G.queued || G.sent.any (fun w => !w.msg) || G.late.isSome ||
        (s1.entriesOf g).any (fun e => match e.op with | .accst _ _ _ => true | _ => false) ||
        G.async.any (fun w => match w.place with | .virt _ => true | .phys _ => false) then s1
    else if !G.sfrq.isEmpty then s1.pageStore g
    else if !(s1.entriesOf g).isEmpty || !(s1.transformsOf g).isEmpty || !G.async.isEmpty then s1
    else if G.collDone ≠ G.collIssued then s1.wait .collective
    else
      let s2 := s1.putOwn { G with chan := G.chan.map Channel.leave }
      if !G.chan.toList.all Channel.settled then s2
      else
        match s2.releaseRecvs g with
        | (s3, false) => { s2 with tr := s3.tr }
        | (s3, true) => s3.endGroup g

/-- KSTAT (R127). -/
def execKstat (d a : Reg) (s : State) : Res :=
  .next <|
    let n := (s.x a).toNat
    let v : Nat :=
      if n ≥ 2 ^ 32 then 0
      else
        match (s.slotSet (setOf s.cur)).kernel? n with
        | none => 0
        | some k => k.ended * 2 ^ 39 + k.placed * 2 ^ 14 + k.st.code
    s.close.done d (BitVec.ofNat 64 v) 4

/-! ## KERNEL_LAUNCHABLE (R102) -/

/-- Whether a dependence word of a slot set's kernel shows Done (R114): of this module or the host as it stands, of another one as
answered. The word of a kernel that has not finished does not, whatever a program has written there (R119). A word of this module whose stored
data are bad never shows Done (DESIGN CHOICE, notes/assumptions/83). -/
def State.showsDone (s : State) (t : Nat) (far : List Host.Cell) (pa : Nat) : Bool :=
  if s.wordOpen (s.wordKey t pa) then false
  else if paModule pa && !paHost pa then
    (match inboxByte far pa with
     | some b => decide (b.toNat % 8 = 4)
     | none => false)
  else (paHost pa || !s.badData pa 8) && decide (natOfBytes (s.readAt pa 1) % 8 = 4)

/-- Whether a kernel of a queue meets conditions 1 to 3 of R102; the admission of a cohort is tried at each decision. -/
def State.meets (s : State) (t : Nat) (S : SlotSet) (k : Kernel) (far : List Host.Cell) : Bool :=
  match k.queue with
  | none => false
  | some q =>
    let earlier := (S.inQueue q).takeWhile fun e => e.num != k.num
    earlier.all (fun e => decide (e.st = .placed)) && (!k.serial || earlier.isEmpty) && k.deps.all fun pa => s.showsDone t far pa

/-- KERNEL_LAUNCHABLE (R102): `far` is what other modules answered about dependence words. A kernel that has become launchable stays so,
even if a dependence word no longer shows Done before its groups are placed (DESIGN CHOICE, notes/assumptions/83). -/
def execKernelLaunchable (kn : BitVec 32) (far : List Host.Cell) (s : State) : Res :=
  .next <|
    match s.activeSet with
    | none => s
    | some t =>
      let S := s.slotSet t
      match S.kernel? kn.toNat with
      | none => s
      | some k =>
        if k.st = .queued ∧ !k.launchable ∧ s.meets t S k far = true then
          s.putSet t { S.putKernel { k with launchable := true } with placeDue := true }
        else s

/-! ## The placer (R104, R105, R120, R122) -/

/-- Whether a launcher's writes before a launch have reached module scope (R122). -/
def State.launchSeen (s : State) (k : Kernel) : Bool :=
  match k.after with
  | none => true
  | some (g, n) =>
    let G := s.group g
    !(G.slices.toList.any fun l => l.any fun a => decide (a.seq < n)) && !G.sent.any fun w => !w.msg && decide (w.seq < n)

/-- Whether a kernel's groups may be placed now (R122). Its launcher's writes within its own die have been performed at the launch; while
one to another die is under way no group is placed, on the launcher's die either, since a group placed on any die sees them all. -/
def State.mayUse (s : State) (k : Kernel) (_ : Nat) : Bool := s.launchSeen k

/-- Groups of a kernel placed one after another, all or none (R120, R129). -/
def State.placeGroups (s : State) (t : Nat) (k : Kernel) : Nat → Option (State × Kernel)
  | 0 => some (s, k)
  | n + 1 =>
    match s.chooseCell t k.desc (s.mayUse k) with
    | none => none
    | some c => State.placeGroups (s.placeOn t c k) t { k with placed := k.placed + 1 } n

/-- A kernel's next group placed, or all groups of a cohort; its word follows (R116). -/
def State.placeNext (s : State) (t : Nat) (k : Kernel) : Option State :=
  (s.placeGroups t k (if k.cohort then k.ngrp - k.placed else 1)).map fun r =>
    let st : KState := if r.2.placed = k.ngrp then .placed else .placing
    let k1 := { r.2 with st := st, passed := 0, reserving := false }
    if st = k.st then r.1.putSet t ((r.1.slotSet t).putKernel k1) else r.1.putWord t k1 fun w => wordState w st

/-- A queue's oldest launchable kernel that is not fully placed. -/
def SlotSet.candidate (S : SlotSet) (q : Nat) : Option Kernel :=
  (S.inQueue q).find? fun k => k.launchable && decide (k.st = .queued ∨ k.st = .placing)

/-- The priority of a kernel's queue. -/
def SlotSet.prioOf (S : SlotSet) (k : Kernel) : Nat := ((k.queue.bind S.queue?).map Queue.prio).getD 0

/-- Whether a reserving kernel holds resources back from a kernel (R105). Of two reserving kernels of equal priority, which QPRIO can bring
about, neither holds back the other (DESIGN CHOICE, notes/assumptions/41). -/
def SlotSet.heldBack (S : SlotSet) (k : Kernel) : Bool :=
  S.kernels.any fun r => r.reserving && r.num != k.num && decide (k.reserving = true ∧ S.prioOf k < S.prioOf r ∨ k.reserving = false ∧ S.prioOf k ≤ S.prioOf r)

/-- The queues of a priority in the order of the round robin (R104). -/
def SlotSet.served (S : SlotSet) (p : Nat) : List Nat :=
  let all := (upFrom 0 16).filter fun q => decide ((S.queue? q).map Queue.prio = some p)
  match S.lastServed.find p with
  | some l => all.filter (fun q => decide (l < q)) ++ all.filter fun q => decide (q ≤ l)
  | none => all

/-- The queues in the order in which a decision considers them. -/
def SlotSet.order (S : SlotSet) : List Nat := ([7, 6, 5, 4, 3, 2, 1, 0].map S.served).flatten

/-- A kernel passed over once more (R105). One that would fit but for R122 is not passed over: it stays until its launcher's writes have been
seen. -/
def State.passOver (s : State) (t : Nat) (k : Kernel) : State :=
  if s.launchSeen k || (s.placeNext t { k with after := none }).isNone then
    let n := k.passed + 1
    s.putSet t ((s.slotSet t).putKernel { k with passed := n, reserving := k.reserving || decide (n ≥ 64) })
  else s.putSet t ((s.slotSet t).putKernel { k with stays := true })

/-- A decision over the queues that remain: the first group that fits, with what it passes over, kernels that a reservation holds back
among it when they fit nowhere (R105). -/
def State.decideFrom (s : State) (t : Nat) : List Nat → State × Bool
  | [] => (s, false)
  | q :: rest =>
    let S := s.slotSet t
    match S.candidate q with
    | none => State.decideFrom s t rest
    | some k =>
      if S.heldBack k then State.decideFrom (if (s.placeNext t k).isNone then s.passOver t k else s) t rest
      else
        match s.placeNext t k with
        | some s1 =>
          let S1 := s1.slotSet t
          (s1.putSet t { S1 with lastServed := S1.lastServed.put (S1.prioOf k) q }, true)
        | none => State.decideFrom (s.passOver t k) t rest

/-- Kernels at the start of a decision: none is known to stay. -/
def SlotSet.openDecision (S : SlotSet) : SlotSet := { S with kernels := S.kernels.map fun k => { k with stays := false } }

/-- Kernels after a decision: one that it has not passed over has no consecutive passes any more (R105). -/
def SlotSet.closeDecision (S old : SlotSet) : SlotSet :=
  { S with kernels := S.kernels.map fun k => if (old.kernel? k.num).map Kernel.passed = some k.passed then { k with passed := 0 } else k }

/-- Whether a decision is due: a slot has been freed or a kernel has become launchable since the last one that placed nothing (R104), or a
kernel that stayed for its launcher's writes need stay no longer (DESIGN CHOICE, notes/assumptions/41). -/
def State.decisionDue (s : State) (S : SlotSet) : Bool := S.placeDue || S.kernels.any fun k => k.stays && s.launchSeen k

/-- PLACEMENT_DECISION (R104): a decision that places a group is followed by another; one that places none is the last until the next is
due. -/
def execPlacementDecision (s : State) : Res :=
  .next <|
    match s.activeSet with
    | none => s
    | some t =>
      let S := s.slotSet t
      if !s.decisionDue S then s
      else
        let r := (s.putSet t S.openDecision).decideFrom t S.order
        let S1 := (r.1.slotSet t).closeDecision S
        r.1.putSet t { S1 with placeDue := r.2 }

end Sys2Proof.Machine
end

