-- ==== Sys2Proof/Machine/Scalar.lean ====
section
/-!
DEFINITION. Sys2Proof/Machine/Scalar.lean: the scalar integer, control-transfer and float instructions
(spec/08_control_thread: R150 to R156, R160 to R168).
-/

namespace Sys2Proof.Machine

/-! ## Integer instructions (R151 to R156) -/

/-- A truth value as a register value. -/
def truth (b : Bool) : Word := if b then 1 else 0

/-- A register-register operation (R151). -/
def State.binary (s : State) (d a b : Reg) (f : Word → Word → Word) : State := s.done d (f (s.x a) (s.x b)) 4

/-- An operation on one register (R151). -/
def State.unary (s : State) (d a : Reg) (f : Word → Word) : State := s.done d (f (s.x a)) 4

/-- ADD (R151). -/
def execAdd (d a b : Reg) (s : State) : Res := .next (s.binary d a b fun x y => x + y)
/-- SUB (R151). -/
def execSub (d a b : Reg) (s : State) : Res := .next (s.binary d a b fun x y => x - y)
/-- AND (R151). -/
def execAnd (d a b : Reg) (s : State) : Res := .next (s.binary d a b fun x y => x &&& y)
/-- OR (R151). -/
def execOr (d a b : Reg) (s : State) : Res := .next (s.binary d a b fun x y => x ||| y)
/-- XOR (R151). -/
def execXor (d a b : Reg) (s : State) : Res := .next (s.binary d a b fun x y => x ^^^ y)
/-- SHL (R151). -/
def execShl (d a b : Reg) (s : State) : Res := .next (s.binary d a b fun x y => x <<< (y.toNat % 64))
/-- SHR (R151). -/
def execShr (d a b : Reg) (s : State) : Res := .next (s.binary d a b fun x y => x >>> (y.toNat % 64))
/-- SHRA (R151). -/
def execShra (d a b : Reg) (s : State) : Res := .next (s.binary d a b fun x y => x.sshiftRight (y.toNat % 64))
/-- MUL (R151). -/
def execMul (d a b : Reg) (s : State) : Res := .next (s.binary d a b fun x y => x * y)
/-- MULH (R151): bits 127:64 of the signed product. -/
def execMulh (d a b : Reg) (s : State) : Res :=
  .next (s.binary d a b fun x y => BitVec.ofInt 64 (x.toInt * y.toInt / (2 ^ 64 : Nat)))
/-- MULHN (R151): bits 127:64 of the unsigned product. -/
def execMulhn (d a b : Reg) (s : State) : Res :=
  .next (s.binary d a b fun x y => BitVec.ofNat 64 (x.toNat * y.toNat / 2 ^ 64))

/-- A division of R152: a divisor of 0 gives its own result and flags DZ. -/
def State.divide (s : State) (d a b : Reg) (zero : Word → Word) (f : Word → Word → Word) : State :=
  if s.x b = 0 then s.doneFlags d ((zero (s.x a)).toNat, flagDZ) 4 else s.done d (f (s.x a) (s.x b)) 4

/-- DIV (R152): truncating; −2^63 over −1 gives −2^63. -/
def execDiv (d a b : Reg) (s : State) : Res :=
  .next (s.divide d a b (fun _ => BitVec.allOnes 64) fun x y => BitVec.ofInt 64 (divT x.toInt y.toInt))
/-- DIVN (R152). -/
def execDivn (d a b : Reg) (s : State) : Res :=
  .next (s.divide d a b (fun _ => BitVec.allOnes 64) fun x y => BitVec.ofNat 64 (x.toNat / y.toNat))
/-- REM (R152). -/
def execRem (d a b : Reg) (s : State) : Res :=
  .next (s.divide d a b (fun x => x) fun x y => BitVec.ofInt 64 (modT x.toInt y.toInt))
/-- REMN (R152). -/
def execRemn (d a b : Reg) (s : State) : Res :=
  .next (s.divide d a b (fun x => x) fun x y => BitVec.ofNat 64 (x.toNat % y.toNat))

/-- ROL (R151). -/
def execRol (d a b : Reg) (s : State) : Res := .next (s.binary d a b fun x y => BitVec.ofNat 64 (rotl 64 x.toNat (y.toNat % 64)))
/-- CLZ (R151). -/
def execClz (d a : Reg) (s : State) : Res := .next (s.unary d a fun x => BitVec.ofNat 64 (leadingZeros 64 x.toNat))
/-- CTZ (R151). -/
def execCtz (d a : Reg) (s : State) : Res := .next (s.unary d a fun x => BitVec.ofNat 64 (trailingZeros 64 x.toNat))
/-- POPC (R151). -/
def execPopc (d a : Reg) (s : State) : Res := .next (s.unary d a fun x => BitVec.ofNat 64 (popCount 64 x.toNat))
/-- MIN (R151), signed. -/
def execMin (d a b : Reg) (s : State) : Res := .next (s.binary d a b fun x y => if x.toInt ≤ y.toInt then x else y)
/-- MAX (R151), signed. -/
def execMax (d a b : Reg) (s : State) : Res := .next (s.binary d a b fun x y => if x.toInt ≤ y.toInt then y else x)
/-- MINN (R151), unsigned. -/
def execMinn (d a b : Reg) (s : State) : Res := .next (s.binary d a b fun x y => if x.toNat ≤ y.toNat then x else y)
/-- MAXN (R151), unsigned. -/
def execMaxn (d a b : Reg) (s : State) : Res := .next (s.binary d a b fun x y => if x.toNat ≤ y.toNat then y else x)
/-- SLT (R151). -/
def execSlt (d a b : Reg) (s : State) : Res := .next (s.binary d a b fun x y => truth (decide (x.toInt < y.toInt)))
/-- SLTN (R151). -/
def execSltn (d a b : Reg) (s : State) : Res := .next (s.binary d a b fun x y => truth (decide (x.toNat < y.toNat)))
/-- SEL (R153): D is condition and destination. -/
def execSel (d a b : Reg) (s : State) : Res := .next (s.done d (if s.x d ≠ 0 then s.x a else s.x b) 4)

/-- ADDI (R154). -/
def execAddi (d a : Reg) (i : BitVec 14) (s : State) : Res := .next (s.done d (s.x a + i.signExtend 64) 4)
/-- ADDI_LONG (R154). -/
def execAddiLong (d a : Reg) (v : BitVec 32) (s : State) : Res := .next (s.done d (s.x a + v.signExtend 64) 8)
/-- ANDI (R154). -/
def execAndi (d a : Reg) (i : BitVec 14) (s : State) : Res := .next (s.done d (s.x a &&& i.signExtend 64) 4)
/-- ANDI_LONG (R154). -/
def execAndiLong (d a : Reg) (v : BitVec 32) (s : State) : Res := .next (s.done d (s.x a &&& v.signExtend 64) 8)
/-- ORI (R154). -/
def execOri (d a : Reg) (i : BitVec 14) (s : State) : Res := .next (s.done d (s.x a ||| i.signExtend 64) 4)
/-- ORI_LONG (R154). -/
def execOriLong (d a : Reg) (v : BitVec 32) (s : State) : Res := .next (s.done d (s.x a ||| v.signExtend 64) 8)
/-- XORI (R154). -/
def execXori (d a : Reg) (i : BitVec 14) (s : State) : Res := .next (s.done d (s.x a ^^^ i.signExtend 64) 4)
/-- XORI_LONG (R154). -/
def execXoriLong (d a : Reg) (v : BitVec 32) (s : State) : Res := .next (s.done d (s.x a ^^^ v.signExtend 64) 8)
/-- SLTI (R154). -/
def execSlti (d a : Reg) (i : BitVec 14) (s : State) : Res := .next (s.done d (truth (decide ((s.x a).toInt < i.toInt))) 4)
/-- SLTI_LONG (R154). -/
def execSltiLong (d a : Reg) (v : BitVec 32) (s : State) : Res := .next (s.done d (truth (decide ((s.x a).toInt < v.toInt))) 8)
/-- SHLI (R155). -/
def execShli (d a : Reg) (n : BitVec 6) (s : State) : Res := .next (s.done d (s.x a <<< n.toNat) 4)
/-- SHRI (R155). -/
def execShri (d a : Reg) (n : BitVec 6) (s : State) : Res := .next (s.done d (s.x a >>> n.toNat) 4)
/-- SHRAI (R155). -/
def execShrai (d a : Reg) (n : BitVec 6) (s : State) : Res := .next (s.done d ((s.x a).sshiftRight n.toNat) 4)
/-- LDI (R156). -/
def execLdi (d : Reg) (i : BitVec 14) (s : State) : Res := .next (s.done d (i.signExtend 64) 4)
/-- LDI_LONG (R156). -/
def execLdiLong (d : Reg) (v : BitVec 32) (s : State) : Res := .next (s.done d (v.signExtend 64) 8)
/-- LDIH (R156): the high half written, the low half kept. -/
def execLdih (d : Reg) (v : BitVec 32) (s : State) : Res :=
  .next (s.done d (v.zeroExtend 64 <<< 32 ||| (s.x d &&& 0xFFFFFFFF)) 8)
/-- ADDPC (R156): PC is the address of the ADDPC itself. -/
def execAddpc (d : Reg) (i : BitVec 14) (s : State) : Res := .next (s.done d (s.own.pc + i.signExtend 64) 4)
/-- ADDPC_LONG (R156). -/
def execAddpcLong (d : Reg) (v : BitVec 32) (s : State) : Res := .next (s.done d (s.own.pc + v.signExtend 64) 8)

/-! ## Control transfer (R160 to R163) -/

/-- A branch: taken, it ends the open convoy and goes to PC + offset × 4; not taken, it goes on behind. -/
def State.branch (s : State) (taken : Bool) (off : Word) (len : Nat) : State :=
  if taken then s.close.retireTo (s.own.pc + off * 4) else s.retire len

/-- BEQ (R160). -/
def execBeq (d a : Reg) (o : BitVec 14) (s : State) : Res := .next (s.branch (decide (s.x d = s.x a)) (o.signExtend 64) 4)
/-- BEQ_LONG (R160). -/
def execBeqLong (d a : Reg) (v : BitVec 32) (s : State) : Res := .next (s.branch (decide (s.x d = s.x a)) (v.signExtend 64) 8)
/-- BNE (R160). -/
def execBne (d a : Reg) (o : BitVec 14) (s : State) : Res := .next (s.branch (decide (s.x d ≠ s.x a)) (o.signExtend 64) 4)
/-- BNE_LONG (R160). -/
def execBneLong (d a : Reg) (v : BitVec 32) (s : State) : Res := .next (s.branch (decide (s.x d ≠ s.x a)) (v.signExtend 64) 8)
/-- BLT (R160). -/
def execBlt (d a : Reg) (o : BitVec 14) (s : State) : Res :=
  .next (s.branch (decide ((s.x d).toInt < (s.x a).toInt)) (o.signExtend 64) 4)
/-- BLT_LONG (R160). -/
def execBltLong (d a : Reg) (v : BitVec 32) (s : State) : Res :=
  .next (s.branch (decide ((s.x d).toInt < (s.x a).toInt)) (v.signExtend 64) 8)
/-- BGE (R160). -/
def execBge (d a : Reg) (o : BitVec 14) (s : State) : Res :=
  .next (s.branch (decide ((s.x a).toInt ≤ (s.x d).toInt)) (o.signExtend 64) 4)
/-- BGE_LONG (R160). -/
def execBgeLong (d a : Reg) (v : BitVec 32) (s : State) : Res :=
  .next (s.branch (decide ((s.x a).toInt ≤ (s.x d).toInt)) (v.signExtend 64) 8)
/-- BLTN (R160). -/
def execBltn (d a : Reg) (o : BitVec 14) (s : State) : Res :=
  .next (s.branch (decide ((s.x d).toNat < (s.x a).toNat)) (o.signExtend 64) 4)
/-- BLTN_LONG (R160). -/
def execBltnLong (d a : Reg) (v : BitVec 32) (s : State) : Res :=
  .next (s.branch (decide ((s.x d).toNat < (s.x a).toNat)) (v.signExtend 64) 8)
/-- BGEN (R160). -/
def execBgen (d a : Reg) (o : BitVec 14) (s : State) : Res :=
  .next (s.branch (decide ((s.x a).toNat ≤ (s.x d).toNat)) (o.signExtend 64) 4)
/-- BGEN_LONG (R160). -/
def execBgenLong (d a : Reg) (v : BitVec 32) (s : State) : Res :=
  .next (s.branch (decide ((s.x a).toNat ≤ (s.x d).toNat)) (v.signExtend 64) 8)

/-- JAL's effect (R161). -/
def State.jump (s : State) (d : Reg) (off : Word) (len : Nat) : State :=
  (s.close.setX d (s.own.pc + BitVec.ofNat 64 len)).retireTo (s.own.pc + off * 4)

/-- JAL (R161). -/
def execJal (d : Reg) (i : BitVec 14) (s : State) : Res := .next (s.jump d (i.signExtend 64) 4)
/-- JAL_LONG (R161). -/
def execJalLong (d : Reg) (v : BitVec 32) (s : State) : Res := .next (s.jump d (v.signExtend 64) 8)

/-- JALR's effect (R161): a target off 4 bytes, or with bits 63:56 set, raises MISALIGN and leaves xd. -/
def State.jumpReg (s : State) (d a : Reg) (disp : Word) (len : Nat) : State :=
  let target := s.x a + disp
  if target.toNat % 4 ≠ 0 ∨ target.toNat / 2 ^ 56 ≠ 0 then s.misaligned target
  else (s.close.setX d (s.own.pc + BitVec.ofNat 64 len)).retireTo target

/-- JALR (R161). -/
def execJalr (d a : Reg) (i : BitVec 14) (s : State) : Res := .next (s.jumpReg d a (i.signExtend 64) 4)
/-- JALR_LONG (R161). -/
def execJalrLong (d a : Reg) (v : BitVec 32) (s : State) : Res := .next (s.jumpReg d a (v.signExtend 64) 8)

/-- LOOP's effect (R162). -/
def State.loopBack (s : State) (d : Reg) (off : Word) (len : Nat) : State :=
  let n := if s.x d ≠ 0 then s.x d - 1 else 0
  (s.setX d n).branch (decide (n ≠ 0)) off len

/-- LOOP (R162). -/
def execLoop (d : Reg) (o : BitVec 14) (s : State) : Res := .next (s.loopBack d (o.signExtend 64) 4)
/-- LOOP_LONG (R162). -/
def execLoopLong (d : Reg) (v : BitVec 32) (s : State) : Res := .next (s.loopBack d (v.signExtend 64) 8)

/-! ## Scalar float (R146, R164 to R168) -/

/-- The tag of a scalar float instruction: S selects f64 (R164). -/
def floatTag (p : Bool) : Tag := if p then .f64 else .f32

/-- A scalar operand's pattern: bits 31:0 for f32, the register for f64 (R146). -/
def State.fx (s : State) (p : Bool) (r : Reg) : Nat := if p then (s.x r).toNat else (s.x r).toNat % 2 ^ 32

/-- A scalar operand's value. -/
def State.fnum (s : State) (p : Bool) (r : Reg) : Num := unpack (floatTag p) (s.fx p r)

/-- A value rounded under the mode in force, with its flags (R164). -/
def State.rounded (s : State) (p : Bool) (v : Num × BitVec 6) : Nat × BitVec 6 :=
  let r := roundNum (floatTag p) s.own.rm v.1
  (r.1, r.2 ||| v.2)

/-- FADD (R165). -/
def execFadd (p : Bool) (d a b : Reg) (s : State) : Res :=
  .next (s.doneFlags d (s.rounded p (addNum s.own.rm (s.fnum p a) (s.fnum p b))) 4)
/-- FSUB (R165). -/
def execFsub (p : Bool) (d a b : Reg) (s : State) : Res :=
  .next (s.doneFlags d (s.rounded p (addNum s.own.rm (s.fnum p a) (s.fnum p b).negate)) 4)
/-- FMUL (R165). -/
def execFmul (p : Bool) (d a b : Reg) (s : State) : Res :=
  .next (s.doneFlags d (s.rounded p (mulNum (s.fnum p a) (s.fnum p b))) 4)
/-- FDIV (R165). -/
def execFdiv (p : Bool) (d a b : Reg) (s : State) : Res :=
  .next (s.doneFlags d (s.rounded p (divNum (s.fnum p a) (s.fnum p b))) 4)
/-- FSQRT (R165). -/
def execFsqrt (p : Bool) (d a : Reg) (s : State) : Res := .next (s.doneFlags d (s.rounded p (sqrtNum (s.fnum p a))) 4)
/-- FMIN (R166). -/
def execFmin (p : Bool) (d a b : Reg) (s : State) : Res :=
  .next (s.doneFlags d (minMax (floatTag p) false (s.fx p a) (s.fx p b)) 4)
/-- FMAX (R166). -/
def execFmax (p : Bool) (d a b : Reg) (s : State) : Res :=
  .next (s.doneFlags d (minMax (floatTag p) true (s.fx p a) (s.fx p b)) 4)
/-- FFMA (R165): D names addend and destination. -/
def execFfma (p : Bool) (d a b : Reg) (s : State) : Res :=
  .next (s.doneFlags d (s.rounded p (fmaNum s.own.rm (s.fnum p a) (s.fnum p b) (s.fnum p d))) 4)

/-- A comparison of R167 with its NV rule: .eq, .lt, .le, .un. -/
def floatCompare (c : BitVec 2) (x y : Num) : Bool × BitVec 6 :=
  let anyNan := x.isNan || y.isNan
  let sig := sigFlag [x, y]
  let quiet := if anyNan then flagNV else 0
  if c = 0 then (!anyNan && decide (cmpNum x y = 0), sig)
  else if c = 1 then (!anyNan && decide (cmpNum x y < 0), quiet)
  else if c = 2 then (!anyNan && decide (cmpNum x y ≤ 0), quiet)
  else (anyNan, sig)

/-- FCMP (R167). -/
def execFcmp (p : Bool) (c : BitVec 2) (d a b : Reg) (s : State) : Res :=
  let r := floatCompare c (s.fnum p a) (s.fnum p b)
  .next (s.doneFlags d (bitNat r.1, r.2) 4)

/-- The source and destination tags of FCVT's selectors (R168). -/
def fcvtTags (sel : Nat) : Option (Tag × Tag) :=
  match sel with
  | 1 => some (.f32, .f64)
  | 2 => some (.f32, .s64)
  | 3 => some (.f32, .n64)
  | 4 => some (.f64, .f32)
  | 6 => some (.f64, .s64)
  | 7 => some (.f64, .n64)
  | 8 => some (.s64, .f32)
  | 9 => some (.s64, .f64)
  | 12 => some (.n64, .f32)
  | 13 => some (.n64, .f64)
  | _ => none

/-- FCVT (R168); an unassigned selector raises ILLEGAL. -/
def execFcvt (d a cvs : Reg) (s : State) : Res :=
  match fcvtTags cvs.toNat with
  | some (src, dst) =>
    .next (s.doneFlags d (convert src dst s.own.rm false 3 ((s.x a).toNat % 2 ^ tagWidth src)) 4)
  | none => .next s.illegal

end Sys2Proof.Machine
end

