-- ==== Sys2Proof/Machine/Dispatch.lean ====
section
/-!
DEFINITION. Sys2Proof/Machine/Dispatch.lean: the meaning of every instruction and event.
-/

namespace Sys2Proof.Machine

def exec (i : Instr) (s : State) : Host.Outcome State Fault Refusal :=
  match i with
  | .add d a b => Sys2Proof.Machine.execAdd d a b s
  | .sub d a b => Sys2Proof.Machine.execSub d a b s
  | .and d a b => Sys2Proof.Machine.execAnd d a b s
  | .or d a b => Sys2Proof.Machine.execOr d a b s
  | .xor d a b => Sys2Proof.Machine.execXor d a b s
  | .shl d a b => Sys2Proof.Machine.execShl d a b s
  | .shr d a b => Sys2Proof.Machine.execShr d a b s
  | .shra d a b => Sys2Proof.Machine.execShra d a b s
  | .mul d a b => Sys2Proof.Machine.execMul d a b s
  | .mulh d a b => Sys2Proof.Machine.execMulh d a b s
  | .mulhn d a b => Sys2Proof.Machine.execMulhn d a b s
  | .div d a b => Sys2Proof.Machine.execDiv d a b s
  | .divn d a b => Sys2Proof.Machine.execDivn d a b s
  | .rem d a b => Sys2Proof.Machine.execRem d a b s
  | .remn d a b => Sys2Proof.Machine.execRemn d a b s
  | .rol d a b => Sys2Proof.Machine.execRol d a b s
  | .clz d a => Sys2Proof.Machine.execClz d a s
  | .ctz d a => Sys2Proof.Machine.execCtz d a s
  | .popc d a => Sys2Proof.Machine.execPopc d a s
  | .min d a b => Sys2Proof.Machine.execMin d a b s
  | .max d a b => Sys2Proof.Machine.execMax d a b s
  | .minn d a b => Sys2Proof.Machine.execMinn d a b s
  | .maxn d a b => Sys2Proof.Machine.execMaxn d a b s
  | .slt d a b => Sys2Proof.Machine.execSlt d a b s
  | .sltn d a b => Sys2Proof.Machine.execSltn d a b s
  | .sel d a b => Sys2Proof.Machine.execSel d a b s
  | .addi d a imm => Sys2Proof.Machine.execAddi d a imm s
  | .addiLong d a v => Sys2Proof.Machine.execAddiLong d a v s
  | .andi d a imm => Sys2Proof.Machine.execAndi d a imm s
  | .andiLong d a v => Sys2Proof.Machine.execAndiLong d a v s
  | .ori d a imm => Sys2Proof.Machine.execOri d a imm s
  | .oriLong d a v => Sys2Proof.Machine.execOriLong d a v s
  | .xori d a imm => Sys2Proof.Machine.execXori d a imm s
  | .xoriLong d a v => Sys2Proof.Machine.execXoriLong d a v s
  | .slti d a imm => Sys2Proof.Machine.execSlti d a imm s
  | .sltiLong d a v => Sys2Proof.Machine.execSltiLong d a v s
  | .shli d a n => Sys2Proof.Machine.execShli d a n s
  | .shri d a n => Sys2Proof.Machine.execShri d a n s
  | .shrai d a n => Sys2Proof.Machine.execShrai d a n s
  | .ldi d imm => Sys2Proof.Machine.execLdi d imm s
  | .ldiLong d v => Sys2Proof.Machine.execLdiLong d v s
  | .ldih d v => Sys2Proof.Machine.execLdih d v s
  | .addpc d imm => Sys2Proof.Machine.execAddpc d imm s
  | .addpcLong d v => Sys2Proof.Machine.execAddpcLong d v s
  | .ld w d a n => Sys2Proof.Machine.execLd w d a n s
  | .ldLong w d a v => Sys2Proof.Machine.execLdLong w d a v s
  | .st w d a n => Sys2Proof.Machine.execSt w d a n s
  | .stLong w d a v => Sys2Proof.Machine.execStLong w d a v s
  | .beq d a o => Sys2Proof.Machine.execBeq d a o s
  | .beqLong d a v => Sys2Proof.Machine.execBeqLong d a v s
  | .bne d a o => Sys2Proof.Machine.execBne d a o s
  | .bneLong d a v => Sys2Proof.Machine.execBneLong d a v s
  | .blt d a o => Sys2Proof.Machine.execBlt d a o s
  | .bltLong d a v => Sys2Proof.Machine.execBltLong d a v s
  | .bge d a o => Sys2Proof.Machine.execBge d a o s
  | .bgeLong d a v => Sys2Proof.Machine.execBgeLong d a v s
  | .bltn d a o => Sys2Proof.Machine.execBltn d a o s
  | .bltnLong d a v => Sys2Proof.Machine.execBltnLong d a v s
  | .bgen d a o => Sys2Proof.Machine.execBgen d a o s
  | .bgenLong d a v => Sys2Proof.Machine.execBgenLong d a v s
  | .jal d imm => Sys2Proof.Machine.execJal d imm s
  | .jalLong d v => Sys2Proof.Machine.execJalLong d v s
  | .jalr d a imm => Sys2Proof.Machine.execJalr d a imm s
  | .jalrLong d a v => Sys2Proof.Machine.execJalrLong d a v s
  | .loop d o => Sys2Proof.Machine.execLoop d o s
  | .loopLong d v => Sys2Proof.Machine.execLoopLong d v s
  | .fadd p d a b => Sys2Proof.Machine.execFadd p d a b s
  | .fsub p d a b => Sys2Proof.Machine.execFsub p d a b s
  | .fmul p d a b => Sys2Proof.Machine.execFmul p d a b s
  | .fdiv p d a b => Sys2Proof.Machine.execFdiv p d a b s
  | .fsqrt p d a => Sys2Proof.Machine.execFsqrt p d a s
  | .fmin p d a b => Sys2Proof.Machine.execFmin p d a b s
  | .fmax p d a b => Sys2Proof.Machine.execFmax p d a b s
  | .ffma p d a b => Sys2Proof.Machine.execFfma p d a b s
  | .fcmp p c d a b => Sys2Proof.Machine.execFcmp p c d a b s
  | .fcvt d a cvs => Sys2Proof.Machine.execFcvt d a cvs s
  | .csrr d n => Sys2Proof.Machine.execCsrr d n s
  | .csrw d a n => Sys2Proof.Machine.execCsrw d a n s
  | .csrs d a n => Sys2Proof.Machine.execCsrs d a n s
  | .csrc d a n => Sys2Proof.Machine.execCsrc d a n s
  | .amoadd d a b => Sys2Proof.Machine.execAmoadd d a b s
  | .amomin u d a b => Sys2Proof.Machine.execAmomin u d a b s
  | .amomax u d a b => Sys2Proof.Machine.execAmomax u d a b s
  | .amoand d a b => Sys2Proof.Machine.execAmoand d a b s
  | .amoor d a b => Sys2Proof.Machine.execAmoor d a b s
  | .amoxor d a b => Sys2Proof.Machine.execAmoxor d a b s
  | .amoswap d a b => Sys2Proof.Machine.execAmoswap d a b s
  | .amocas d a b => Sys2Proof.Machine.execAmocas d a b s
  | .vsetl d a t => Sys2Proof.Machine.execVsetl d a t s
  | .vcfg d a b => Sys2Proof.Machine.execVcfg d a b s
  | .vmv p ce k d a => Sys2Proof.Machine.execVmv p ce k d a s
  | .vmvLong p ce k d a tk => Sys2Proof.Machine.execVmvLong p ce k d a tk s
  | .vmvx p ce k d a => Sys2Proof.Machine.execVmvx p ce k d a s
  | .vmvxLong p ce k d a tk => Sys2Proof.Machine.execVmvxLong p ce k d a tk s
  | .vxmv p ce d a b => Sys2Proof.Machine.execVxmv p ce d a b s
  | .vxmvLong p ce d a b tk => Sys2Proof.Machine.execVxmvLong p ce d a b tk s
  | .vid p ce k d => Sys2Proof.Machine.execVid p ce k d s
  | .vidLong p ce k d tk => Sys2Proof.Machine.execVidLong p ce k d tk s
  | .vtag p ce d t => Sys2Proof.Machine.execVtag p ce d t s
  | .vtagLong p ce d t tk => Sys2Proof.Machine.execVtagLong p ce d t tk s
  | .vmerge p ce mk d a b => Sys2Proof.Machine.execVmerge p ce mk d a b s
  | .vmergeLong p ce mk d a b tk => Sys2Proof.Machine.execVmergeLong p ce mk d a b tk s
  | .vadd p ce k d a b => Sys2Proof.Machine.execVadd p ce k d a b s
  | .vaddLong p ce k d a b tk => Sys2Proof.Machine.execVaddLong p ce k d a b tk s
  | .vsub p ce k d a b => Sys2Proof.Machine.execVsub p ce k d a b s
  | .vsubLong p ce k d a b tk => Sys2Proof.Machine.execVsubLong p ce k d a b tk s
  | .vmul p ce k d a b => Sys2Proof.Machine.execVmul p ce k d a b s
  | .vmulLong p ce k d a b tk => Sys2Proof.Machine.execVmulLong p ce k d a b tk s
  | .vmulh p ce k d a b => Sys2Proof.Machine.execVmulh p ce k d a b s
  | .vmulhLong p ce k d a b tk => Sys2Proof.Machine.execVmulhLong p ce k d a b tk s
  | .vmin p ce k d a b => Sys2Proof.Machine.execVmin p ce k d a b s
  | .vminLong p ce k d a b tk => Sys2Proof.Machine.execVminLong p ce k d a b tk s
  | .vmax p ce k d a b => Sys2Proof.Machine.execVmax p ce k d a b s
  | .vmaxLong p ce k d a b tk => Sys2Proof.Machine.execVmaxLong p ce k d a b tk s
  | .vabs p ce k d a => Sys2Proof.Machine.execVabs p ce k d a s
  | .vabsLong p ce k d a tk => Sys2Proof.Machine.execVabsLong p ce k d a tk s
  | .vneg p ce k d a => Sys2Proof.Machine.execVneg p ce k d a s
  | .vnegLong p ce k d a tk => Sys2Proof.Machine.execVnegLong p ce k d a tk s
  | .vfma p ce k d a b => Sys2Proof.Machine.execVfma p ce k d a b s
  | .vfmaLong p ce k d a b tk => Sys2Proof.Machine.execVfmaLong p ce k d a b tk s
  | .vfms p ce k d a b => Sys2Proof.Machine.execVfms p ce k d a b s
  | .vfmsLong p ce k d a b tk => Sys2Proof.Machine.execVfmsLong p ce k d a b tk s
  | .vnfma p ce k d a b => Sys2Proof.Machine.execVnfma p ce k d a b s
  | .vnfmaLong p ce k d a b tk => Sys2Proof.Machine.execVnfmaLong p ce k d a b tk s
  | .vdiv p ce k d a b => Sys2Proof.Machine.execVdiv p ce k d a b s
  | .vdivLong p ce k d a b tk => Sys2Proof.Machine.execVdivLong p ce k d a b tk s
  | .vrem p ce k d a b => Sys2Proof.Machine.execVrem p ce k d a b s
  | .vremLong p ce k d a b tk => Sys2Proof.Machine.execVremLong p ce k d a b tk s
  | .vsqrt p ce k d a => Sys2Proof.Machine.execVsqrt p ce k d a s
  | .vsqrtLong p ce k d a tk => Sys2Proof.Machine.execVsqrtLong p ce k d a tk s
  | .vscale p ce k d a b => Sys2Proof.Machine.execVscale p ce k d a b s
  | .vscaleLong p ce k d a b tk => Sys2Proof.Machine.execVscaleLong p ce k d a b tk s
  | .vand p ce k d a b => Sys2Proof.Machine.execVand p ce k d a b s
  | .vandLong p ce k d a b tk => Sys2Proof.Machine.execVandLong p ce k d a b tk s
  | .vor p ce k d a b => Sys2Proof.Machine.execVor p ce k d a b s
  | .vorLong p ce k d a b tk => Sys2Proof.Machine.execVorLong p ce k d a b tk s
  | .vxor p ce k d a b => Sys2Proof.Machine.execVxor p ce k d a b s
  | .vxorLong p ce k d a b tk => Sys2Proof.Machine.execVxorLong p ce k d a b tk s
  | .vnot p ce k d a => Sys2Proof.Machine.execVnot p ce k d a s
  | .vnotLong p ce k d a tk => Sys2Proof.Machine.execVnotLong p ce k d a tk s
  | .vclz p ce k d a => Sys2Proof.Machine.execVclz p ce k d a s
  | .vclzLong p ce k d a tk => Sys2Proof.Machine.execVclzLong p ce k d a tk s
  | .vpopc p ce k d a => Sys2Proof.Machine.execVpopc p ce k d a s
  | .vpopcLong p ce k d a tk => Sys2Proof.Machine.execVpopcLong p ce k d a tk s
  | .vadc p ce mk d a b => Sys2Proof.Machine.execVadc p ce mk d a b s
  | .vadcLong p ce mk d a b tk => Sys2Proof.Machine.execVadcLong p ce mk d a b tk s
  | .vsbc p ce mk d a b => Sys2Proof.Machine.execVsbc p ce mk d a b s
  | .vsbcLong p ce mk d a b tk => Sys2Proof.Machine.execVsbcLong p ce mk d a b tk s
  | .vshl p ce k d a b => Sys2Proof.Machine.execVshl p ce k d a b s
  | .vshlLong p ce k d a b tk => Sys2Proof.Machine.execVshlLong p ce k d a b tk s
  | .vshr p ce k d a b => Sys2Proof.Machine.execVshr p ce k d a b s
  | .vshrLong p ce k d a b tk => Sys2Proof.Machine.execVshrLong p ce k d a b tk s
  | .vshra p ce k d a b => Sys2Proof.Machine.execVshra p ce k d a b s
  | .vshraLong p ce k d a b tk => Sys2Proof.Machine.execVshraLong p ce k d a b tk s
  | .vrol p ce k d a b => Sys2Proof.Machine.execVrol p ce k d a b s
  | .vrolLong p ce k d a b tk => Sys2Proof.Machine.execVrolLong p ce k d a b tk s
  | .vfshl p ce k d a b => Sys2Proof.Machine.execVfshl p ce k d a b s
  | .vfshlLong p ce k d a b tk => Sys2Proof.Machine.execVfshlLong p ce k d a b tk s
  | .vfshr p ce k d a b => Sys2Proof.Machine.execVfshr p ce k d a b s
  | .vfshrLong p ce k d a b tk => Sys2Proof.Machine.execVfshrLong p ce k d a b tk s
  | .vcmp p ce k c d a b => Sys2Proof.Machine.execVcmp p ce k c d a b s
  | .vcmpLong p ce k c d a b tk => Sys2Proof.Machine.execVcmpLong p ce k c d a b tk s
  | .vcvt p ce k d a t => Sys2Proof.Machine.execVcvt p ce k d a t s
  | .vcvtLong p ce k d a t tk => Sys2Proof.Machine.execVcvtLong p ce k d a t tk s
  | .vrcp p ce k d a => Sys2Proof.Machine.execVrcp p ce k d a s
  | .vrcpLong p ce k d a tk => Sys2Proof.Machine.execVrcpLong p ce k d a tk s
  | .vrsqrt p ce k d a => Sys2Proof.Machine.execVrsqrt p ce k d a s
  | .vrsqrtLong p ce k d a tk => Sys2Proof.Machine.execVrsqrtLong p ce k d a tk s
  | .vexp2 p ce k d a => Sys2Proof.Machine.execVexp2 p ce k d a s
  | .vexp2Long p ce k d a tk => Sys2Proof.Machine.execVexp2Long p ce k d a tk s
  | .vlog2 p ce k d a => Sys2Proof.Machine.execVlog2 p ce k d a s
  | .vlog2Long p ce k d a tk => Sys2Proof.Machine.execVlog2Long p ce k d a tk s
  | .vexp p ce k d a => Sys2Proof.Machine.execVexp p ce k d a s
  | .vexpLong p ce k d a tk => Sys2Proof.Machine.execVexpLong p ce k d a tk s
  | .vlog p ce k d a => Sys2Proof.Machine.execVlog p ce k d a s
  | .vlogLong p ce k d a tk => Sys2Proof.Machine.execVlogLong p ce k d a tk s
  | .vtanh p ce k d a => Sys2Proof.Machine.execVtanh p ce k d a s
  | .vtanhLong p ce k d a tk => Sys2Proof.Machine.execVtanhLong p ce k d a tk s
  | .mand p ce d a b => Sys2Proof.Machine.execMand p ce d a b s
  | .mandLong p ce d a b tk => Sys2Proof.Machine.execMandLong p ce d a b tk s
  | .mor p ce d a b => Sys2Proof.Machine.execMor p ce d a b s
  | .morLong p ce d a b tk => Sys2Proof.Machine.execMorLong p ce d a b tk s
  | .mxor p ce d a b => Sys2Proof.Machine.execMxor p ce d a b s
  | .mxorLong p ce d a b tk => Sys2Proof.Machine.execMxorLong p ce d a b tk s
  | .mnot p ce d a => Sys2Proof.Machine.execMnot p ce d a s
  | .mnotLong p ce d a tk => Sys2Proof.Machine.execMnotLong p ce d a tk s
  | .mcnt p ce d a => Sys2Proof.Machine.execMcnt p ce d a s
  | .mcntLong p ce d a tk => Sys2Proof.Machine.execMcntLong p ce d a tk s
  | .mfirst p ce d a => Sys2Proof.Machine.execMfirst p ce d a s
  | .mfirstLong p ce d a tk => Sys2Proof.Machine.execMfirstLong p ce d a tk s
  | .mshl p ce d a b => Sys2Proof.Machine.execMshl p ce d a b s
  | .mshlLong p ce d a b tk => Sys2Proof.Machine.execMshlLong p ce d a b tk s
  | .vred ce k d a o => Sys2Proof.Machine.execVred ce k d a o s
  | .vredLong ce k d a o tk => Sys2Proof.Machine.execVredLong ce k d a o tk s
  | .vscan ce k d a o => Sys2Proof.Machine.execVscan ce k d a o s
  | .vscanLong ce k d a o tk => Sys2Proof.Machine.execVscanLong ce k d a o tk s
  | .vscanSeg ce mk d a o => Sys2Proof.Machine.execVscanSeg ce mk d a o s
  | .vscanSegLong ce mk d a o tk => Sys2Proof.Machine.execVscanSegLong ce mk d a o tk s
  | .vprefixpop ce k d a => Sys2Proof.Machine.execVprefixpop ce k d a s
  | .vprefixpopLong ce k d a tk => Sys2Proof.Machine.execVprefixpopLong ce k d a tk s
  | .vconflict ce k d a => Sys2Proof.Machine.execVconflict ce k d a s
  | .vconflictLong ce k d a tk => Sys2Proof.Machine.execVconflictLong ce k d a tk s
  | .vcompress ce k d a => Sys2Proof.Machine.execVcompress ce k d a s
  | .vcompressLong ce k d a tk => Sys2Proof.Machine.execVcompressLong ce k d a tk s
  | .vexpand ce k d a => Sys2Proof.Machine.execVexpand ce k d a s
  | .vexpandLong ce k d a tk => Sys2Proof.Machine.execVexpandLong ce k d a tk s
  | .vperm ce k d a b => Sys2Proof.Machine.execVperm ce k d a b s
  | .vpermLong ce k d a b tk => Sys2Proof.Machine.execVpermLong ce k d a b tk s
  | .vslideup ce k d a b => Sys2Proof.Machine.execVslideup ce k d a b s
  | .vslideupLong ce k d a b tk => Sys2Proof.Machine.execVslideupLong ce k d a b tk s
  | .vslidedn ce k d a b => Sys2Proof.Machine.execVslidedn ce k d a b s
  | .vslidednLong ce k d a b tk => Sys2Proof.Machine.execVslidednLong ce k d a b tk s
  | .vzip ce k d a b => Sys2Proof.Machine.execVzip ce k d a b s
  | .vzipLong ce k d a b tk => Sys2Proof.Machine.execVzipLong ce k d a b tk s
  | .vunzip ce k d a b => Sys2Proof.Machine.execVunzip ce k d a b s
  | .vunzipLong ce k d a b tk => Sys2Proof.Machine.execVunzipLong ce k d a b tk s
  | .vtopk ce k d a b => Sys2Proof.Machine.execVtopk ce k d a b s
  | .vtopkLong ce k d a b tk => Sys2Proof.Machine.execVtopkLong ce k d a b tk s
  | .visect ce d a b => Sys2Proof.Machine.execVisect ce d a b s
  | .visectLong ce d a b tk => Sys2Proof.Machine.execVisectLong ce d a b tk s
  | .vunion ce d a b => Sys2Proof.Machine.execVunion ce d a b s
  | .vunionLong ce d a b tk => Sys2Proof.Machine.execVunionLong ce d a b tk s
  | .vmrg ce d a b => Sys2Proof.Machine.execVmrg ce d a b s
  | .vmrgLong ce d a b tk => Sys2Proof.Machine.execVmrgLong ce d a b tk s
  | .vld ce k d a => Sys2Proof.Machine.execVld ce k d a s
  | .vldLong ce k d a tk mtag cv te => Sys2Proof.Machine.execVldLong ce k d a tk mtag cv te s
  | .vlds ce k d a b => Sys2Proof.Machine.execVlds ce k d a b s
  | .vldsLong ce k d a b tk mtag cv te => Sys2Proof.Machine.execVldsLong ce k d a b tk mtag cv te s
  | .vldx ce k d a b => Sys2Proof.Machine.execVldx ce k d a b s
  | .vldxLong ce k d a b tk mtag cv te => Sys2Proof.Machine.execVldxLong ce k d a b tk mtag cv te s
  | .pfetch ce a b => Sys2Proof.Machine.execPfetch ce a b s
  | .pfetchLong ce a b tk => Sys2Proof.Machine.execPfetchLong ce a b tk s
  | .vst ce k d a => Sys2Proof.Machine.execVst ce k d a s
  | .vstLong ce k d a tk => Sys2Proof.Machine.execVstLong ce k d a tk s
  | .collectiveContribution ce d a => Sys2Proof.Machine.execCollectiveContribution ce d a s
  | .vsts ce k d a b => Sys2Proof.Machine.execVsts ce k d a b s
  | .vstsLong ce k d a b tk => Sys2Proof.Machine.execVstsLong ce k d a b tk s
  | .vstx ce k d a b => Sys2Proof.Machine.execVstx ce k d a b s
  | .vstxLong ce k d a b tk => Sys2Proof.Machine.execVstxLong ce k d a b tk s
  | .vstxaAdd ce k d a b => Sys2Proof.Machine.execVstxaAdd ce k d a b s
  | .vstxaAddLong ce k d a b tk => Sys2Proof.Machine.execVstxaAddLong ce k d a b tk s
  | .vstb ce mk d a => Sys2Proof.Machine.execVstb ce mk d a s
  | .vstbLong ce mk d a tk => Sys2Proof.Machine.execVstbLong ce mk d a tk s
  | .vstxaMin ce k d a b => Sys2Proof.Machine.execVstxaMin ce k d a b s
  | .vstxaMinLong ce k d a b tk => Sys2Proof.Machine.execVstxaMinLong ce k d a b tk s
  | .vstxaMax ce k d a b => Sys2Proof.Machine.execVstxaMax ce k d a b s
  | .vstxaMaxLong ce k d a b tk => Sys2Proof.Machine.execVstxaMaxLong ce k d a b tk s
  | .tld d a b => Sys2Proof.Machine.execTld d a b s
  | .tldLong d a b tk ot => Sys2Proof.Machine.execTldLong d a b tk ot s
  | .bld d a => Sys2Proof.Machine.execBld d a s
  | .bldLong d a tk ot => Sys2Proof.Machine.execBldLong d a tk ot s
  | .bst d a => Sys2Proof.Machine.execBst d a s
  | .bstLong d a tk => Sys2Proof.Machine.execBstLong d a tk s
  | .accst d a b => Sys2Proof.Machine.execAccst d a b s
  | .accstLong d a b tk => Sys2Proof.Machine.execAccstLong d a b tk s
  | .tmv d a => Sys2Proof.Machine.execTmv d a s
  | .tmvLong d a tk => Sys2Proof.Machine.execTmvLong d a tk s
  | .accmv d a t => Sys2Proof.Machine.execAccmv d a t s
  | .accmvLong d a t tk => Sys2Proof.Machine.execAccmvLong d a t tk s
  | .azero d t => Sys2Proof.Machine.execAzero d t s
  | .azeroLong d t tk => Sys2Proof.Machine.execAzeroLong d t tk s
  | .tclass d a => Sys2Proof.Machine.execTclass d a s
  | .msync => Sys2Proof.Machine.execMsync s
  | .mma d a b tk atg btg sct => Sys2Proof.Machine.execMma d a b tk atg btg sct s
  | .mmaz d a b tk atg btg sct => Sys2Proof.Machine.execMmaz d a b tk atg btg sct s
  | .mmai d a b tk atg btg sct => Sys2Proof.Machine.execMmai d a b tk atg btg sct s
  | .mmas d a b tk atg btg sct => Sys2Proof.Machine.execMmas d a b tk atg btg sct s
  | .xcfg d a b => Sys2Proof.Machine.execXcfg d a b s
  | .xtwid d a b tk => Sys2Proof.Machine.execXtwid d a b tk s
  | .xstage d a b tk sp quad dit tm rc => Sys2Proof.Machine.execXstage d a b tk sp quad dit tm rc s
  | .xperm d a tk rs str => Sys2Proof.Machine.execXperm d a tk rs str s
  | .xpoint d a b tk conj bc => Sys2Proof.Machine.execXpoint d a b tk conj bc s
  | .xnorm d a tk dir => Sys2Proof.Machine.execXnorm d a tk dir s
  | .xmodchk d a => Sys2Proof.Machine.execXmodchk d a s
  | .xsync => Sys2Proof.Machine.execXsync s
  | .sbind d a b ch t => Sys2Proof.Machine.execSbind d a b ch t s
  | .sunbind h => Sys2Proof.Machine.execSunbind h s
  | .scopy d a b ch esz dep tke tkf => Sys2Proof.Machine.execScopy d a b ch esz dep tke tkf s
  | .swmark d a h => Sys2Proof.Machine.execSwmark d a h s
  | .swait d a h => Sys2Proof.Machine.execSwait d a h s
  | .tkpush f => Sys2Proof.Machine.execTkpush f s
  | .tkpop f => Sys2Proof.Machine.execTkpop f s
  | .barinit d a b => Sys2Proof.Machine.execBarinit d a b s
  | .bararr d a => Sys2Proof.Machine.execBararr d a s
  | .barwait d a b => Sys2Proof.Machine.execBarwait d a b s
  | .bar d a => Sys2Proof.Machine.execBar d a s
  | .barfree a => Sys2Proof.Machine.execBarfree a s
  | .fence kd sc => Sys2Proof.Machine.execFence kd sc s
  | .cpfence => Sys2Proof.Machine.execCpfence s
  | .vsync => Sys2Proof.Machine.execVsync s
  | .lda d a sc => Sys2Proof.Machine.execLda d a sc s
  | .strl d a sc => Sys2Proof.Machine.execStrl d a sc s
  | .mcst d a b rm => Sys2Proof.Machine.execMcst d a b rm s
  | .tickget d a b => Sys2Proof.Machine.execTickget d a b s
  | .tickwait a => Sys2Proof.Machine.execTickwait a s
  | .tickdone a => Sys2Proof.Machine.execTickdone a s
  | .mpost d a esz => Sys2Proof.Machine.execMpost d a esz s
  | .msend d a b tr => Sys2Proof.Machine.execMsend d a b tr s
  | .mwait d a => Sys2Proof.Machine.execMwait d a s
  | .mprobe d a => Sys2Proof.Machine.execMprobe d a s
  | .mcancel d a => Sys2Proof.Machine.execMcancel d a s
  | .mdrip d a => Sys2Proof.Machine.execMdrip d a s
  | .kvsub d a dep rb => Sys2Proof.Machine.execKvsub d a dep rb s
  | .kvunsub d a => Sys2Proof.Machine.execKvunsub d a s
  | .kvpass d a b => Sys2Proof.Machine.execKvpass d a b s
  | .kvrecv d => Sys2Proof.Machine.execKvrecv d s
  | .kvpart d a b lr => Sys2Proof.Machine.execKvpart d a b lr s
  | .kvdone d a => Sys2Proof.Machine.execKvdone d a s
  | .kvstat d a => Sys2Proof.Machine.execKvstat d a s
  | .trap a => Sys2Proof.Machine.execTrap a s
  | .rte => Sys2Proof.Machine.execRte s
  | .halt => Sys2Proof.Machine.execHalt s
  | .wfe a b => Sys2Proof.Machine.execWfe a b s
  | .ctxyield d => Sys2Proof.Machine.execCtxyield d s
  | .ctxsave d => Sys2Proof.Machine.execCtxsave d s
  | .ctxload d a => Sys2Proof.Machine.execCtxload d a s
  | .qwait d a => Sys2Proof.Machine.execQwait d a s
  | .qprio d a b => Sys2Proof.Machine.execQprio d a b s
  | .htokwait d a => Sys2Proof.Machine.execHtokwait d a s
  | .htokraise a b => Sys2Proof.Machine.execHtokraise a b s
  | .klaunch d a => Sys2Proof.Machine.execKlaunch d a s
  | .kend => Sys2Proof.Machine.execKend s
  | .kstat d a => Sys2Proof.Machine.execKstat d a s
  | .gterm => Sys2Proof.Machine.execGterm s
  | .gyield => Sys2Proof.Machine.execGyield s
  | .sdrain => Sys2Proof.Machine.execSdrain s
  | .sfrpop d => Sys2Proof.Machine.execSfrpop d s
  | .tlbinv a b => Sys2Proof.Machine.execTlbinv a b s
  | .pgprobe d a b => Sys2Proof.Machine.execPgprobe d a b s
  | .asyncTrapDelivery g => Sys2Proof.Machine.execAsyncTrapDelivery g s
  | .pageStoreDelivery g => Sys2Proof.Machine.execPageStoreDelivery g s
  | .watchdog g => Sys2Proof.Machine.execWatchdog g s
  | .waitWake g => Sys2Proof.Machine.execWaitWake g s
  | .gyieldRelease g => Sys2Proof.Machine.execGyieldRelease g s
  | .cellDrainComplete c => Sys2Proof.Machine.execCellDrainComplete c s
  | .contextLoadComplete t fd => Sys2Proof.Machine.execContextLoadComplete t fd s
  | .contextSaveComplete t => Sys2Proof.Machine.execContextSaveComplete t s
  | .slotStateUncorr g => Sys2Proof.Machine.execSlotStateUncorr g s
  | .placementDecision => Sys2Proof.Machine.execPlacementDecision s
  | .kernelLaunchable kn far => Sys2Proof.Machine.execKernelLaunchable kn far s
  | .convoyDrain g => Sys2Proof.Machine.execConvoyDrain g s
  | .loadDataReturn g => Sys2Proof.Machine.execLoadDataReturn g s
  | .storePerform g q => Sys2Proof.Machine.execStorePerform g q s
  | .scatterAddUpdate g q => Sys2Proof.Machine.execScatterAddUpdate g q s
  | .pageWalkComplete e ix => Sys2Proof.Machine.execPageWalkComplete e ix s
  | .xlateDeadline id => Sys2Proof.Machine.execXlateDeadline id s
  | .matrixEntryIssue c => Sys2Proof.Machine.execMatrixEntryIssue c s
  | .tldRowblockLand c far lost => Sys2Proof.Machine.execTldRowblockLand c far lost s
  | .matrixEntryRetire c far lost => Sys2Proof.Machine.execMatrixEntryRetire c far lost s
  | .matrixWindow c => Sys2Proof.Machine.execMatrixWindow c s
  | .transformEntryStart c => Sys2Proof.Machine.execTransformEntryStart c s
  | .transformEntryRetire c => Sys2Proof.Machine.execTransformEntryRetire c s
  | .streamFetchArrival g ch far lost => Sys2Proof.Machine.execStreamFetchArrival g ch far lost s
  | .stripCommit g ch => Sys2Proof.Machine.execStripCommit g ch s
  | .barrierRequestArrival g => Sys2Proof.Machine.execBarrierRequestArrival g s
  | .kvFetchStart cl far lost => Sys2Proof.Machine.execKvFetchStart cl far lost s
  | .kvPageMulticast cl far lost => Sys2Proof.Machine.execKvPageMulticast cl far lost s
  | .kvCatchupStart cl => Sys2Proof.Machine.execKvCatchupStart cl s
  | .remoteRequestArrival rq => Sys2Proof.Machine.execRemoteRequestArrival rq s
  | .remoteReplyArrival g data bad => Sys2Proof.Machine.execRemoteReplyArrival g data bad s
  | .remoteDeadline g reached why => Sys2Proof.Machine.execRemoteDeadline g reached why s
  | .flitReplay lk => Sys2Proof.Machine.execFlitReplay lk s
  | .linkCrcFail lk => Sys2Proof.Machine.execLinkCrcFail lk s
  | .linkTrainingDone lk out => Sys2Proof.Machine.execLinkTrainingDone lk out s
  | .linkRetrainDone lk out => Sys2Proof.Machine.execLinkRetrainDone lk out s
  | .collectiveUnitAccept cc => Sys2Proof.Machine.execCollectiveUnitAccept cc s
  | .collectiveResultDelivery g => Sys2Proof.Machine.execCollectiveResultDelivery g s
  | .messageArrival ix ext => Sys2Proof.Machine.execMessageArrival ix ext s
  | .messageLandingComplete e t ix lost => Sys2Proof.Machine.execMessageLandingComplete e t ix lost s
  | .retryTicketCall e t => Sys2Proof.Machine.execRetryTicketCall e t s
  | .spillDeadline id => Sys2Proof.Machine.execSpillDeadline id s
  | .hostWrite ad data => Sys2Proof.Machine.execHostWrite ad data s
  | .hostRead ad n => Sys2Proof.Machine.execHostRead ad n s
  | .ingressDoorbell t ch pl => Sys2Proof.Machine.execIngressDoorbell t ch pl s
  | .egressRead t ch => Sys2Proof.Machine.execEgressRead t ch s
  | .hostRegisterWrite off val => Sys2Proof.Machine.execHostRegisterWrite off val s
  | .eventRingWrite => Sys2Proof.Machine.execEventRingWrite s
  | .cmdLoad => Sys2Proof.Machine.execCmdLoad s
  | .cmdLoadsaved => Sys2Proof.Machine.execCmdLoadsaved s
  | .cmdSave => Sys2Proof.Machine.execCmdSave s
  | .cmdStop => Sys2Proof.Machine.execCmdStop s
  | .cmdFault => Sys2Proof.Machine.execCmdFault s
  | .cmdRelease => Sys2Proof.Machine.execCmdRelease s
  | .cmdSwitch => Sys2Proof.Machine.execCmdSwitch s
  | .cmdResume => Sys2Proof.Machine.execCmdResume s
  | .cmdTerminate => Sys2Proof.Machine.execCmdTerminate s
  | .cmdSetplim => Sys2Proof.Machine.execCmdSetplim s
  | .cmdTrainlink out => Sys2Proof.Machine.execCmdTrainlink out s
  | .cmdTrainhbm ok => Sys2Proof.Machine.execCmdTrainhbm ok s
  | .cmdXlate => Sys2Proof.Machine.execCmdXlate s
  | .cmdSpillret => Sys2Proof.Machine.execCmdSpillret s
  | .cmdAttest ok => Sys2Proof.Machine.execCmdAttest ok s
  | .cmdQuery => Sys2Proof.Machine.execCmdQuery s
  | .powerInterval pw => Sys2Proof.Machine.execPowerInterval pw s
  | .hotDie e deg => Sys2Proof.Machine.execHotDie e deg s
  | .thermalTrip e deg => Sys2Proof.Machine.execThermalTrip e deg s
  | .moduleReset rp => Sys2Proof.Machine.execModuleReset rp s
  | .firmwareVerify ok => Sys2Proof.Machine.execFirmwareVerify ok s
  | .hbmRetrain e k ok => Sys2Proof.Machine.execHbmRetrain e k ok s
  | .powerOff => Sys2Proof.Machine.execPowerOff s
  | .firmwareFailure => Sys2Proof.Machine.execFirmwareFailure s
  | .codeUnassigned => Sys2Proof.Machine.execCodeUnassigned s
  | .mbgoWhileBusy => Sys2Proof.Machine.execMbgoWhileBusy s
  | .atsTranslationCompletion id ok => Sys2Proof.Machine.execAtsTranslationCompletion id ok s
  | .priPageRequestResponse id ok => Sys2Proof.Machine.execPriPageRequestResponse id ok s

end Sys2Proof.Machine
end

