-- ==== Sys2Proof/Machine/Issue.lean ====
section
/-!
DEFINITION. Sys2Proof/Machine/Issue.lean: a group's turn at the control core: whether it may issue, its interlocks, and the
bookkeeping after every turn (spec/02_formats R36; spec/07_group R133, R139, R144; spec/09_vector R192; spec/16_order R487).
-/

namespace Sys2Proof.Machine

/-! ## Who may issue -/

/-- Whether a group's control thread may go on with its instruction: Placed or Running, not passed by GYIELD (R144), in a
context that its cell serves, or, while the context is Pre-empting, inside an instruction that has begun (R84). -/
def State.mayAct (s : State) (g : Nat) : Bool :=
  let G := s.group g
  let t := setOf g
  let begun := G.dataWait.isSome || G.barPending.isSome
  !s.off && !s.tripped && decide (G.phase = .running ∨ G.phase = .placed) && G.yield.isNone &&
  (s.serves t (cellOf g) ||
    (decide ((s.slotSet t).st = .preempting) && !(s.slotSet t).drained.contains (cellOf g) && decide (G.phase = .running) && begun))

/-- Whether a group has met the switch of its context in this clock before its turn: an instruction of its own that asks for a switch, a save
or a load meets the same clock and is dropped (R82). -/
def State.losesTie (s : State) (g : Nat) : Bool :=
  let G := s.group g
  !s.off && !s.tripped && decide (G.phase = .preempted) && G.yield.isNone && decide ((s.slotSet (setOf g)).st = .preempting) && s.dropped (setOf g) &&
  !s.issued.contains (cellOf g)

/-- The instructions that such a group still issues (R82). -/
def asksSwitch : Instr → Bool
  | .ctxyield _ => true
  | .ctxsave _ => true
  | .ctxload .. => true
  | _ => false

/-- Whether an instruction is LDA, which goes on asking for its word. -/
def isLda : Instr → Bool
  | .lda .. => true
  | _ => false

/-- A meaning's answer kept only when the instruction has retired, or an LDA has asked for its word (R343); else the thread stalls, so that
a trap waits for the earlier load (R487). -/
def keepRetired (s : State) (i : Instr) (o : Res) : Res :=
  match o with
  | .next s1 =>
    if s1.own.retired = s.own.retired + 1 ∨ (isLda i = true ∧ s1.own.pc = s.own.pc ∧ s1.own.dataWait.isSome = true) then .next s1 else .next s
  | other => other

/-- Whether a turn has ended in a trap of the group: it stands at its handler or is Trapped, or its context is Faulted. -/
def State.trapped (s s1 : State) (g : Nat) : Bool :=
  (decide ((s1.slotSet (setOf g)).st = .faulted) && decide ((s.slotSet (setOf g)).st ≠ .faulted)) ||
  ((s1.groups.find g).isSome &&
    ((decide ((s.group g).level = .user) && decide ((s1.group g).level = .supervisor)) ||
     (match (s1.group g).phase with | .trapped _ => true | _ => false)))

/-- The open convoy of the executing group runs though it holds its pipes still (R191). -/
def State.tear (s : State) : State := s.putOwn { s.own with convoys := s.own.convoys.map fun c => { c with torn := !c.ended } }

/-- The trap of a failing instruction is taken once the earlier members have run to completion (R191); the instruction, which has had no
effect, is looked at again, with the pipes of the open convoy held as they were (R39). -/
def State.afterMembers (s : State) (g : Nat) (o : Res) : Res :=
  match o with
  | .next s1 => if (s.group g).vectorBusy && s.trapped s1 g then .next s.tear else .next s1
  | other => other

/-- The executing group's instruction meets its interlocks: a stall, which ends the open convoy when a member of it writes the register
(R192) or the instruction ends it anyway (R38), or its meaning. -/
def State.gated (s : State) (i : Instr) : Res :=
  if s.free i then exec i s
  else if s.endsConvoy i then .next s.close
  else if s.passes i then keepRetired s i (exec i s)
  else .next s

/-! ## After a turn -/

/-- What a group shows of having issued an instruction: its retired count, its state and its level. -/
def State.progress (s : State) (g : Nat) : Option (Word × Phase × Level) :=
  (s.groups.find g).map fun G => (G.retired, G.phase, G.level)

/-- A group no longer awaited by the yield marks of its cell (R144). -/
def State.unmark (s : State) (g : Nat) : State :=
  { s with groups := s.groups.map fun (e : Nat × Group) =>
      if cellOf e.1 = cellOf g ∧ e.1 ≠ g then
        (e.1, { e.2 with yield := e.2.yield.map fun y => { y with others := y.others.filter fun h => h != g } })
      else e }

/-- A yield mark that a group has just taken names the peers that were ready in its clock: those that meet an interlock are struck out
(R144). -/
noncomputable def State.fixMark (s : State) (g : Nat) : State :=
  let G := s.group g
  match G.yield with
  | some y =>
    if y.left = 64 then
      let others := y.others.filter s.ready
      s.putGroup g { G with yield := if others.isEmpty then none else some { y with others := others } }
    else s
  | none => s

/-- The cell's rotation and yield marks after a group has issued, and the cell among those that have issued in this clock (R133, R144). -/
noncomputable def State.afterIssue (old s : State) (g : Nat) : State :=
  if old.progress g = s.progress g then s
  else
    let c := cellOf g
    let s1 := ((s.putCell c { s.cell c with served := slotOf g }).unmark g).leaveMisses g
    ({ s1 with issued := setAdd s1.issued c }).fixMark g

/-- After every turn: terminated groups whose work is done leave their slots (R141), yield marks that are over fall (R144), and misses in
host-assisted mode ask the host (R360). -/
def State.settleTurn (s : State) : State := s.reap.dropMarks.askHost

/-- An outcome's next state changed. -/
def onNext (f : State → State) (o : Res) : Res :=
  match o with
  | .next s => .next (f s)
  | other => other

/-- A group's fetched words executed: TRAPADDR's words are kept, a word of no instruction raises ILLEGAL (R36), except
that no trap is taken while an earlier load's data are to come (R487). -/
noncomputable def State.executeWords (s : State) (w1 w2 : Nat) : Res :=
  let s1 := { s with ir := BitVec.ofNat 64 (w1 + 2 ^ 32 * w2) }
  match decodeWords w1 w2 with
  | .ok i => s1.gated i
  | .error _ => if s1.own.late.isSome then .next s1 else .next s1.illegal

/-- The turn of a group that has met its context's switch in this clock: it issues one of the instructions that the rule drops, and stays
Pre-empted unless that traps (R82). -/
noncomputable def State.tieTurn (s : State) (g : Nat) : Res :=
  let s0 := { s with cur := g, lateLoads := false }
  match s0.fetchWords g with
  | (s1, .words w1 w2) =>
    (match decodeWords w1 w2 with
     | .ok i =>
       if asksSwitch i && s1.free i then
         onNext (fun st => s1.afterIssue (st.putGroup g { st.group g with phase := if (st.group g).phase = .running then .preempted else (st.group g).phase }) g)
           (s1.executeWords w1 w2)
       else .next s
     | .error _ => .next s)
  | _ => .next s

/-- The groups of a cell in the order of R133: the slot after the one served last comes first. -/
def State.rotation (s : State) (c : Nat) : List Nat :=
  ((upFrom 1 4).map fun k => ((s.cell c).served + k) % 4).flatMap fun slot =>
    [groupCode c 0 slot, groupCode c 1 slot].filter fun g => s.mayAct g

/-- The group that the control core serves on a group's turn: one that is ready and stands before it in the rotation goes first (R133). -/
noncomputable def State.served (s : State) (g : Nat) : Nat :=
  if s.mayAct g then (((s.rotation (cellOf g)).takeWhile fun h => h != g).find? fun h => (s.boundaryTrap h).isNone && s.ready h).getD g else g

/-- A group's turn at the control core: a held or reported trap at its boundary, else its next instruction. -/
noncomputable def State.issueTurn (s : State) (g : Nat) (late : Bool) : Res :=
  if (s.groups.find g).isNone then .fault .noGroup
  else if s.losesTie g then s.tieTurn g
  else if !s.mayAct g then .next s
  else
    match s.boundaryTrap g with
    | some s1 => .next s1
    | none =>
      let s0 := { s with cur := g, lateLoads := late }
      match s0.fetchWords g with
      | (s1, .words w1 w2) => onNext (fun st => s1.afterIssue st g) (s1.afterMembers g (s1.executeWords w1 w2))
      | (s1, .trap code sub addr) =>
        if s1.own.late.isSome then .next s1 else s1.afterMembers g (.next ((s1.raise code sub addr).leaveMisses g))
      | (s1, .wait) => .next s1

end Sys2Proof.Machine
end

