-- ==== Sys2Proof/Machine/Turn.lean ====
section
/-!
DEFINITION. Sys2Proof/Machine/Turn.lean: clocks, turns of the agenda, the default turn when the agenda is empty, and the
smallest machine that runs one given instruction next (spec/07_group R133, R136, R144; notes/assumptions/2).
-/

namespace Sys2Proof.Machine

/-! ## Clocks (R136, R144, R174) -/

/-- A group after some clocks: its watchdog count rises while it is Waiting at user level in an Active context with no
remote request outstanding (R136), until its wake event has occurred (R137), and its yield mark runs down (R144). -/
def State.tickGroup (s : State) (n g : Nat) (G : Group) : Group :=
  let waits : Bool := match G.phase with
    | .waiting _ => decide (G.level = .user) && decide ((s.slotSet (setOf g)).st = .active) && !s.remoteOut g && (s.wakeUp g false).isNone
    | _ => false
  { G with
    wdog := if waits then G.wdog + n else G.wdog
    yield := G.yield.map fun y => { y with left := y.left - n } }

/-- Clocks pass; a module that is off or tripped has none (R458). In each of them every cell's vector sequencer takes a beat (R134). -/
def State.tick (s : State) (n : Nat) : State :=
  if s.off || s.tripped || decide (n = 0) then s
  else
    let s1 := { s with lastKey := 0, issued := [], groups := s.groups.map fun (e : Nat × Group) => (e.1, s.tickGroup n e.1 e.2) }
    State.serveVectors n s1

/-! ## Turns -/

/-- The events that a module whose clocks a thermal trip has stopped still has: those of the management core and of the host's own memory, and a
reset (R458). No die takes an access or a token. -/
def survivesTrip : Instr → Bool
  | .hostWrite ad _ => paHost ad.toNat && decide (ad.toNat < 2 ^ 52)
  | .hostRead ad _ => decide (2 ^ 63 ≤ ad.toNat) || (paHost ad.toNat && decide (ad.toNat < 2 ^ 52))
  | .hostRegisterWrite .. => true
  | .egressRead .. => true
  | .eventRingWrite => true
  | .cmdLoad => true
  | .cmdLoadsaved => true
  | .cmdSave => true
  | .cmdStop => true
  | .cmdFault => true
  | .cmdRelease => true
  | .cmdSwitch => true
  | .cmdResume => true
  | .cmdTerminate => true
  | .cmdSetplim => true
  | .cmdTrainlink .. => true
  | .cmdTrainhbm .. => true
  | .cmdXlate => true
  | .cmdSpillret => true
  | .cmdAttest .. => true
  | .cmdQuery => true
  | .codeUnassigned => true
  | .mbgoWhileBusy => true
  | .powerInterval .. => true
  | .moduleReset .. => true
  | .firmwareVerify .. => true
  | .powerOff => true
  | .firmwareFailure => true
  | _ => false

/-- Whether a row of the table is an event that this state can have: a module that is off has only its reset, a tripped
one only its management. -/
def State.admits (s : State) (i : Instr) : Bool :=
  if s.off then (match i with | .moduleReset .. => true | _ => false)
  else if s.tripped then survivesTrip i
  else true

/-- Whether a row is an event: the rows with words are issued by a group. -/
def isEvent (i : Instr) : Bool := !i.encoded && (match i with | .collectiveContribution .. => false | _ => true)

/-- What an actor does. A row that is no event has no turn of its own. -/
noncomputable def State.act (s : State) (a : Actor) : Res :=
  match a with
  | .issue g late => s.issueTurn g late
  | .event i => if isEvent i && s.admits i then exec i s else .next s
  | .aperture t ix e => .next (if s.off then s else s.setAperture t ix e)

/-! ## The order within one clock (notes/assumptions/17) -/

/-- The place of an event in the order of one clock, by class and within it: Faulted events, HALT and host stop, host commands (R82);
arrivals at a barrier before departures and BARFREE (R323); QWAIT before launches (R108); MPOST, messages, MCANCEL (R429, R433); tickets
(R414); termination, KEND, wakes, the watchdog, the switch (R128); pushes before pops (R316); records before SFRPOP (R366). The rules name no rank
for the host's SWITCH and RELEASE among the events that meet on one context: SWITCH stands behind the device's instructions, RELEASE with the
host's other commands (DESIGN CHOICE, notes/assumptions/17). -/
def eventOrder : Instr → Option (Nat × Nat)
  | .slotStateUncorr _ => some (1, 0)
  | .cmdFault => some (1, 1)
  | .thermalTrip .. => some (1, 2)
  | .firmwareFailure => some (1, 3)
  | .cmdStop => some (2, 0)
  | .cmdSave => some (3, 0)
  | .cmdLoad => some (3, 0)
  | .cmdLoadsaved => some (3, 0)
  | .cmdRelease => some (3, 1)
  | .barrierRequestArrival g => some (4, g.toNat)
  | .messageArrival .. => some (7, 0)
  | .retryTicketCall .. => some (7, 0)
  | .remoteRequestArrival rq =>
    (match rq.kind with
     | .ticketGet .. => some (10, rq.src % 2 ^ 15 * 512 + rq.src / 2 ^ 15 % 64 * 8 + rq.src / 2 ^ 21 % 8)
     | _ => none)
  | .cmdTerminate => some (11, 0)
  | .convoyDrain _ => some (14, 0)
  | .matrixEntryRetire .. => some (14, 0)
  | .transformEntryRetire _ => some (14, 0)
  | .stripCommit .. => some (14, 0)
  | .streamFetchArrival .. => some (14, 0)
  | .storePerform .. => some (14, 0)
  | .scatterAddUpdate .. => some (14, 0)
  | .waitWake _ => some (16, 0)
  | .watchdog _ => some (17, 0)
  | .cmdSwitch => some (18, 4096)
  | .matrixEntryIssue _ => some (20, 0)
  | .transformEntryStart _ => some (21, 0)
  | _ => none

/-- The class of an instruction that a group issues. -/
def issueClass : Instr → Option Nat
  | .halt => some 2
  | .bar .. => some 4
  | .bararr .. => some 4
  | .qwait .. => some 5
  | .mpost .. => some 6
  | .mcancel .. => some 8
  | .klaunch .. => some 9
  | .tickget .. => some 10
  | .gterm => some 11
  | .kend => some 12
  | .barfree _ => some 13
  | .tkpush _ => some 14
  | .tkpop _ => some 15
  | .ctxyield _ => some 18
  | .ctxsave _ => some 18
  | .ctxload .. => some 18
  | .sfrpop _ => some 22
  | _ => none

/-- Whether the words of an instruction are those of a vector instruction that pops a token (R31, R316). -/
def vectorPop (w1 w2 : Nat) : Bool := w1 % 2 == 1 && decide (0x21 ≤ w1 / 2 % 128 ∧ w1 / 2 % 128 ≤ 0x31) && w2 / 2 ^ 10 % 2 == 1

/-- One number for a place in the order of a clock. -/
def orderKey (p : Nat × Nat) : Nat := p.1 * 2 ^ 24 + p.2

/-- The place of a group's next instruction: its class, then by global die, cell and slot (R82, R125, R323, R414, R429). -/
noncomputable def State.issueOrder (s : State) (g : Nat) : Option (Nat × Nat) :=
  if (!s.mayAct g && !s.losesTie g) || (s.boundaryTrap g).isSome then none
  else
    match { s with cur := g }.fetchWords g with
    | (_, .words w1 w2) =>
      if vectorPop w1 w2 then some (15, 0)
      else
        match decodeWords w1 w2 with
        | .ok i => (issueClass i).map fun c => (c, if c = 10 then ownModule * 4096 + g else g)
        | .error _ => none
    | _ => none

/-- The place of a turn's actor. -/
noncomputable def State.actorOrder (s : State) (a : Actor) : Option (Nat × Nat) :=
  match a with
  | .issue g _ => s.issueOrder g
  | .event i => eventOrder i
  | .aperture .. => none

/-- Whether an actor comes too late for this clock: a later place of the order has been reached in it, or its cell's core has issued (R133). One
without a place of its own may be what wakes a group, and stands before the watchdog (R128). -/
noncomputable def State.tooLate (s : State) (a : Actor) : Bool :=
  (match a with | .issue g _ => s.issued.contains (cellOf g) | .event _ => false | .aperture .. => false) ||
  (decide (0 < s.lastKey) && (match s.actorOrder a with | some p => decide (orderKey p < s.lastKey) | none => decide (orderKey (17, 0) ≤ s.lastKey)))

/-- The state after an actor with its place in the order of the clock reached. -/
noncomputable def State.reach (s : State) (a : Actor) (s1 : State) : State :=
  match s.actorOrder a with
  | some p => { s1 with lastKey := max s1.lastKey (orderKey p) }
  | none => s1

/-- Whether a context has become Faulted in a clock in which another event had taken effect on it (R82), or on a group (R128). -/
def State.overtaken (s s1 : State) : Bool :=
  [0, 1].any fun t => (s.dropped t || decide (orderKey (2, 0) ≤ s.lastKey)) && decide ((s1.slotSet t).st = .faulted) && decide ((s.slotSet t).st ≠ .faulted)

/-- What an actor does at once, and what follows every turn. -/
noncomputable def State.move (s : State) (a : Actor) : Res := onNext State.settleTurn (s.act a)

/-- An actor acts in this clock; in the next one when it comes too late for this one, or faults a context on which an event of this clock has
taken effect. -/
noncomputable def State.place (s : State) (a : Actor) : Res :=
  let next := onNext ((s.tick 1).reach a) ((s.tick 1).move a)
  if s.tooLate a then next
  else
    match s.move a with
    | .next s1 => if s.overtaken s1 then next else .next (s.reach a s1)
    | o => o

/-- The actor of a turn: for a group's, the group that the core's rotation serves (R133). -/
noncomputable def State.chosen (s : State) (a : Actor) : Actor :=
  match a with
  | .issue g late => .issue (s.served g) late
  | other => other

/-- A turn: its clocks pass, and the actor acts. -/
noncomputable def State.turn (s : State) (t : Turn) : Res := (s.tick t.ticks).place ((s.tick t.ticks).chosen t.who)

/-! ## The default turn (notes/assumptions/2) -/

/-- A number as a group code. -/
def gcode (g : Nat) : BitVec 12 := BitVec.ofNat 12 g

/-- Whether the module itself answers what a group waits for: data on this module, or the acknowledgement of a store to
another die of it. -/
def State.ownReply (s : State) (g : Nat) : Bool :=
  let G := s.group g
  match G.dataWait with
  | some w => !w.arrived && !(s.out.any fun p => match p with | .request _ _ h => h == g | _ => false)
  | none => (match G.sent with | w :: _ => decide (w.die < 8) | [] => false) && G.late.isNone

/-- The events of a group's queues. -/
noncomputable def queueEvents (c : BitVec 12) : List Instr :=
  [.storePerform c 0, .storePerform c 1, .storePerform c 2, .storePerform c 3, .storePerform c 4, .scatterAddUpdate c 0,
   .scatterAddUpdate c 1, .scatterAddUpdate c 2, .scatterAddUpdate c 3, .convoyDrain c, .loadDataReturn c, .barrierRequestArrival c]

/-- The events of a group's stream channel. -/
noncomputable def channelEvents (c : BitVec 12) (G : Group) (n : Nat) : List Instr :=
  let ch := BitVec.ofNat 4 n
  if (G.chan[n]?.getD Channel.free).st = .free then []
  else [Instr.stripCommit c ch, Instr.streamFetchArrival c ch FarData.none false]

/-- The events of a group that no other party has a part in. -/
noncomputable def State.groupEvents (s : State) (g : Nat) : List Instr :=
  let G := s.group g
  let c := gcode g
  let replies : List Instr := if s.ownReply g then [.remoteReplyArrival c [] false] else []
  let streams : List Instr := (upFrom 0 16).flatMap (channelEvents c G)
  let wakes : List Instr := match G.phase with
    | .waiting (.event _ false) => []
    | .waiting _ => [.waitWake c]
    | _ => []
  let rest : List Instr := [.collectiveResultDelivery c, .gyieldRelease c, .asyncTrapDelivery c, .watchdog c]
  [queueEvents c, replies, streams, wakes, rest].flatten

/-- The events of a cell. -/
noncomputable def cellEvents (c : Nat) : List Instr :=
  let n := BitVec.ofNat 9 c
  [.tldRowblockLand n FarData.none false, .matrixEntryRetire n FarData.none false, .matrixEntryIssue n, .transformEntryRetire n, .transformEntryStart n,
   .cellDrainComplete n]

/-- The events of a receive engine. -/
noncomputable def receiverEvents (k : Nat) (R : Receiver) : List Instr :=
  let e := BitVec.ofNat 3 (k / 2)
  let t := BitVec.ofNat 1 k
  let landings : List Instr := (upFrom 0 R.landing.length).map fun ix => .messageLandingComplete e t ix false
  landings ++ [.retryTicketCall e t]

/-- The events of an attention sequencer. -/
noncomputable def sequencerEvents (k : Nat) : List Instr :=
  let cl := BitVec.ofNat 6 (k / 2)
  [.kvPageMulticast cl FarData.none false, .kvFetchStart cl FarData.none false, .kvCatchupStart cl]

/-- The walks of a die. -/
noncomputable def walkEvents (die : Nat) (l : List Miss) : List Instr :=
  (upFrom 0 l.length).map fun k => .pageWalkComplete (BitVec.ofNat 3 die) (BitVec.ofNat 12 k)

/-- The events of the module's shared units. -/
noncomputable def State.unitEvents (s : State) : List Instr :=
  let arrivals : List Instr := (upFrom 0 s.flying.length).map fun k => .messageArrival k none
  let receives : List Instr := s.receivers.flatMap fun e => receiverEvents e.1 e.2
  let walks : List Instr := s.tr.misses.flatMap fun e => walkEvents e.1 e.2
  let passes : List Instr := s.seqs.flatMap fun e => sequencerEvents e.1
  let launches : List Instr := (s.set0.kernels ++ s.set1.kernels).map fun k => .kernelLaunchable (BitVec.ofNat 32 k.num) []
  let rest : List Instr := [.placementDecision, .contextSaveComplete 0, .contextSaveComplete 1, .eventRingWrite]
  [arrivals, receives, walks, passes, launches, rest].flatten

/-- The command that firmware runs next, when the host has no further part in it. -/
noncomputable def State.commandEvents (s : State) : List Instr :=
  match s.port.cmd with
  | some c =>
    (match c.code with
     | 1 => [.cmdLoad] | 2 => [.cmdLoadsaved] | 3 => [.cmdSave] | 4 => [.cmdStop] | 5 => [.cmdFault] | 6 => [.cmdRelease]
     | 7 => [.cmdSwitch] | 8 => [.cmdResume] | 9 => [.cmdTerminate] | 0xA => [.cmdSetplim] | 0xD => [.cmdXlate]
     | 0xE => [.cmdSpillret] | 0x10 => [.cmdQuery] | 0xB => [] | 0xC => [] | 0xF => []
     | _ => [.codeUnassigned])
  | none => []

/-- The cells that hold a group or an entry, and cell 0. -/
def State.busyCells (s : State) : List Nat := (s.groups.map (fun e => cellOf e.1) ++ s.cells.map Prod.fst).foldl setAdd [0]

/-- Who may act by itself, in the order of choice: events of groups, cells and units, then issue, then a new matrix
window. -/
noncomputable def State.candidates (s : State) : List Actor :=
  let cells := s.busyCells
  let events : List Instr :=
    [s.groups.flatMap fun e => s.groupEvents e.1, cells.flatMap cellEvents, s.unitEvents, s.commandEvents].flatten
  let issues : List Actor := (cells.flatMap s.rotation).map fun g => .issue g false
  let windows : List Actor := (cells.filter fun c => !(s.cell c).mq.isEmpty).map fun c => .event (.matrixWindow (BitVec.ofNat 9 c))
  [events.map Actor.event, issues, windows].flatten

/-- The first actor of a list whose turn changes the state, after one clock; with none, the clock alone. -/
noncomputable def State.firstMove (s : State) : List Actor → Res
  | [] => .next s
  | a :: rest =>
    match s.move a with
    | .next s1 => if s1 = s then State.firstMove s rest else .next (s.reach a s1)
    | _ => State.firstMove s rest

/-- The default turn, when the agenda is empty. -/
noncomputable def State.defaultTurn (s : State) : Res := (s.tick 1).firstMove (s.tick 1).candidates

/-! ## One instruction placed to run next -/

/-- The group slot of the conductor (R123): logical cell 511, slot set 0, slot 0. -/
def bootGroup : Nat := groupCode 511 0 0

/-- Where the machine of `withFetchWord` keeps its tables and the words, in HBM of die 7. -/
def bootRoot : Nat := diePA 7 0x10000
def bootTable : Nat := diePA 7 0x20000
def bootLeaf : Nat := diePA 7 0x30000
def bootCode : Nat := diePA 7 0x40000000

/-- A context of one group: hardware walks, no quotas, no windows. -/
def bootImage : Image :=
  { num := 1, root := bootRoot, hostWalk := false, trapvec := 0, xmod := some 3, lim := none, wdog := none, qCell := 0, qB := 0, cpool := 0, dpool := 0
    cquota := [], dquota := [], spillBase := 0, spillStep := 0, spillSize := [], hostSpill := false, hostSpillAddr := 0, hostSpillSize := 0
    apertures := [], window := none, shared := [], loadable := [], queues := [], conductor := none, hostRetrain := false, saveArea := false, parts := []
    cells := [] }

/-- A descriptor of a group at address 0 that may name every t and a register and every channel. -/
def bootDesc : KernelDesc := { entry := 0, lmul := 0, tiles := 8, accs := 4, chans := 16, cstore := 0, bstore := 0 }

/-- The table entries that map the addresses from 0 up, 1 GiB with R, W and X, and the instruction's eight bytes. -/
def bootCells (w : Nat) : List Host.Cell :=
  let l5 := memPutBytes [] bootRoot (toBytes 8 (bootTable + 1))
  let l4 := memPutBytes l5 bootTable (toBytes 8 (bootLeaf + 1))
  let l3 := memPutBytes l4 bootLeaf (toBytes 8 (bootCode + 0x73))
  memPutBytes l3 bootCode (toBytes 8 w)

/-- Memory with some cells written over it. -/
def memOver (m : List Host.Cell) (l : List Host.Cell) : List Host.Cell := l.foldl (fun st c => memPut st c.1 c.2) m

/-- The state in which one instruction runs next: a context Active in slot set 0, one Running group at user level at
address 0, whose page holds the instruction's words, and the group's turn alone on the agenda. -/
def State.placeWords (s : State) (w : Nat) : State :=
  let d := bootDesc
  let h : Holding := { tiles := d.tiles, accs := d.accs, chans := d.chans, cstore := 0, bstore := 0, csPieces := [], bPieces := [] }
  let G := { Group.start bootImage d 0 0 0 1 h with phase := .running }
  { s with
    lastKey := 0
    issued := []
    agenda := [{ ticks := 0, who := .issue bootGroup false }]
    off := false
    tripped := false
    mem := memOver s.mem (bootCells w)
    groups := s.groups.put bootGroup G
    set0 := { SlotSet.fresh with st := .active, img := some bootImage, conductorDone := true } }

end Sys2Proof.Machine
end

