-- ==== Sys2Proof/Machine/Step.lean ====
section
/-!
DEFINITION. Sys2Proof/Machine/Step.lean: one step of the module: the first turn of the agenda, or the default turn.
-/

namespace Sys2Proof.Machine

/-- One step: the first turn of the agenda leaves it and is taken; with none, the default turn
(notes/assumptions/2). -/
noncomputable def step (s : State) : Host.Outcome State Fault Refusal :=
  match s.agenda with
  | t :: rest => { s with agenda := rest }.turn t
  | [] => s.defaultTurn

/-- The state in which an instruction, its bits numbered as the opcode table numbers them, is the next one to run. -/
def State.withFetchWord (s : State) (nbits w : Nat) : State := s.placeWords (w % 2 ^ nbits)

end Sys2Proof.Machine
end

