-- ==== Sys2Proof/Safety.lean ====
section
/-!
DEFINITION. Sys2Proof/Safety.lean: what a safe state and a safe step are, in the terms the statements use: which parts
of the state an instruction leaves alone, how a group goes on, and how it takes a trap.
-/

namespace Sys2Proof.Machine

/-- The memory invariant: device memory and the host's memory are in canonical form (addresses strictly rising, no entry
equal to what an unlisted address reads as), so that equal memories are equal data. -/
abbrev State.MemCanonical (s : State) : Prop := Memory.wf s.mem = true ∧ Memory.wf s.hostMem = true

/-- A step that goes on: neither a fault nor a refusal. -/
def Goes (s : State) : Prop := ∃ s1, step s = .next s1

/-! ## What stays -/

/-- Between `s` and `t` nothing but the group of slot `g` differs: every other field of the module is the same, every byte of
device and host memory reads as before, and every other group is the same. -/
def State.OnlyGroup (s t : State) (g : Nat) : Prop :=
  t = { s with groups := t.groups } ∧ (∀ h, h ≠ g → t.groups.find h = s.groups.find h) ∧
  (∀ a, memByte t.mem a = memByte s.mem a) ∧ ∀ a, memByte t.hostMem a = memByte s.hostMem a

/-- The executing group has retired an instruction of `len` bytes and goes on behind it, as group `G` in every field but
those of R26 and R177; nothing but that group has changed. -/
def State.Retires (s t : State) (len : Nat) (G : Group) : Prop :=
  s.OnlyGroup t s.cur ∧
  t.own = { G with pc := s.own.pc + BitVec.ofNat 64 len, retired := s.own.retired + 1, phase := .running, dataWait := none, resume := false }

/-- The x registers after a write of one of them: x0 takes no write and reads 0 (R145). -/
def State.SetsX (s t : State) (d : Reg) (v : Word) : Prop := ∀ r, t.x r = if r = d ∧ r ≠ 0 then v else s.x r

/-- An instruction whose one effect is a value in an x register: every other x register, every flag, mask, vector, tile,
accumulator and special register is the same, no memory is written, and the group goes on behind it. -/
def State.GivesX (s t : State) (d : Reg) (v : Word) (len : Nat) : Prop :=
  s.Retires t len { s.own with x := t.own.x } ∧ s.SetsX t d v

/-- As `GivesX`, of an instruction that also ends the open convoy (R38). -/
def State.ClosesGivesX (s t : State) (d : Reg) (v : Word) (len : Nat) : Prop :=
  s.Retires t len { s.own.closeConvoy with x := t.own.x } ∧ s.SetsX t d v

/-- The executing group has retired an instruction and goes on at an address, as group `G` in every other field (R160 to
R163). -/
def State.JumpsTo (s t : State) (target : Word) (G : Group) : Prop :=
  s.OnlyGroup t s.cur ∧
  t.own = { G with pc := target, retired := s.own.retired + 1, phase := .running, dataWait := none, resume := false }

/-! ## Traps (R88, R140) -/

/-- Whether a trap of the executing group enters its own handler: a user-level group that has not ended, of an Active
context, with TRAPVEC.FWD = 0 (R88 to R90). -/
abbrev State.Handles (s : State) : Prop :=
  s.own.level = .user ∧ s.own.over = false ∧ (s.slotSet (setOf s.cur)).st = .active ∧ bitOf s.own.trapvec 0 = false

/-- A precise trap without an element: the trap registers written together, the open convoy closed, and the handler
entered at supervisor level; nothing else has changed. -/
def State.TakesTrap (s t : State) (code sub : Nat) (addr pc : Word) : Prop :=
  s.OnlyGroup t s.cur ∧
  t.own = { s.own.closeConvoy with
    trapcause := BitVec.ofNat 64 (code + sub * 256), trappc := pcField pc, trapaddr := addr, trapelem := 0, trapstat := 0
    interrupted := none, dataWait := none, resume := false, chan := s.own.chan.map Channel.unclosed
    level := .supervisor, pc := s.own.handler, phase := .running }

/-! ## The scalar CSRs written (R170, R174) -/

/-- The group after each writable CSR but MCTL takes a value: VXSTAT's flags are cleared by ones and its XEN written (R75),
TRAPVEC keeps FWD (R90), and the read-only trap registers take no write (R140). -/
def csrWritten (G : Group) (v : Word) : List (Nat × Group) :=
  [(0x000, { G with vl := v.toNat }), (0x001, { G with vcfg := v }), (0x002, { G with vresume := v }),
   (0x003, { G with
     laneFlags := G.laneFlags.map fun f => f &&& ~~~(v.setWidth 6), ctlFlags := G.ctlFlags &&& ~~~(v.setWidth 6)
     mfl := G.mfl &&& ~~~((v >>> 12).setWidth 6), xfl := G.xfl &&& ~~~((v >>> 18).setWidth 6), xen := (v >>> 24).setWidth 6 }),
   (0x005, { G with xmod := v }), (0x006, { G with xctl := v }), (0x010, { G with collg := v }), (0x011, { G with collop := v }),
   (0x012, { G with collstride := v }), (0x100, G), (0x101, { G with trappc := v }), (0x102, G), (0x103, G),
   (0x104, { G with trapvec := BitVec.ofNat 64 (v.toNat / 2 * 2 + G.trapvec.toNat % 2) }), (0x105, G),
   (0x106, { G with scratch := G.scratch.set 0 v }), (0x107, { G with scratch := G.scratch.set 1 v }),
   (0x108, { G with scratch := G.scratch.set 2 v }), (0x109, { G with scratch := G.scratch.set 3 v }), (0x110, { G with wdoglim := v })]

/-! ## Accesses that nothing holds up (R158, R334) -/

/-- Nothing of the group's engines or of a link in Retraining stands before an access: no entry in the matrix queue, no write of the
asynchronous path (R261), no write in a replay buffer (R403). -/
abbrev State.Unhindered (s : State) : Prop := s.entriesOf s.cur = [] ∧ s.own.async = [] ∧ ∀ w ∈ s.own.sent, w.held = none

/-- No access queued in a slice shares a byte with an access of the group that stands at places: by its address, or by any other that maps
the byte (R159, R334). -/
abbrev State.NoneMeets (s : State) (k : Kind) (va n : Nat) (runs : List (Nat × Nat)) (l : List Access) : Prop :=
  ∀ a ∈ l, a.overlaps va n = false ∧ runsMeet ((s.look s.cur k va n).1.accessRuns s.cur a) runs = false

/-- A load of `n` bytes that stands at places: aligned, no load outstanding, its slice queue empty and no access to its bytes in another,
translated, and nothing of the group's engines or of a link before it. -/
abbrev State.LoadStands (s : State) (va : Word) (n : Nat) (runs : List (Nat × Nat)) (leaf : Nat) : Prop :=
  va.toNat % n = 0 ∧ s.own.late = none ∧ s.own.slice (sliceOf va.toNat) = [] ∧ (s.look s.cur .load va.toNat n).2 = .here runs leaf ∧
  s.Unhindered ∧ (∀ r ∈ runs, s.unreachable s.cur r.1 = false) ∧ ∀ l ∈ s.own.slices.toList, s.NoneMeets .load va.toNat n runs l

/-- A load that finds its data at once: as `LoadStands`, on the group's own die, correctable and without the marker. -/
abbrev State.LoadReady (s : State) (va : Word) (n : Nat) (runs : List (Nat × Nat)) (leaf : Nat) : Prop :=
  s.LoadStands va n runs leaf ∧ runsLocal s.cur runs = true ∧ s.runsBad runs = false ∧ s.lateLoads = false

/-- An atomic whose word stands on the group's own die, in a page that allows it (R252, R253). -/
abbrev State.AtomicStands (s : State) (va : Word) (pa leaf : Nat) : Prop :=
  va.toNat % 8 = 0 ∧ s.own.late = none ∧ s.own.dataWait = none ∧ s.own.slice (sliceOf va.toNat) = [] ∧
  (s.look s.cur .atomic va.toNat 8).2 = .here [(pa, 8)] leaf ∧ reachOf s.cur pa = .local_ ∧ s.unreachable s.cur pa = false ∧
  (leafHS leaf = false ∨ leafSA leaf = true) ∧ s.Unhindered ∧ ∀ l ∈ s.own.slices.toList, s.NoneMeets .atomic va.toNat 8 [(pa, 8)] l

/-- An atomic that finds its word at once: as `AtomicStands`, the word correctable and without the marker. -/
abbrev State.AtomicReady (s : State) (va : Word) (pa leaf : Nat) : Prop := s.AtomicStands va pa leaf ∧ s.badData pa 8 = false

/-- Bytes stored at a place by a group or by another agent: they read back, every other byte of device and host memory reads
as before, and nothing changes but memory with its markers and tile entries and the groups that wait on the line (R96,
R260, R486). -/
def State.StoresAt (s t : State) (by_ : Option Nat) (pa : Nat) (data : List Byte) : Prop :=
  t = { s with mem := t.mem, hostMem := t.hostMem, poison := t.poison, uncorr := t.uncorr, bdir := t.bdir, groups := t.groups } ∧
  t.readAt pa data.length = data ∧
  (∀ a, (paHost pa = true ∨ a < pa ∨ pa + data.length ≤ a) → memByte t.mem a = memByte s.mem a) ∧
  (∀ a, (paHost pa = false ∨ a < pa % 2 ^ 51 ∨ pa % 2 ^ 51 + data.length ≤ a) → memByte t.hostMem a = memByte s.hostMem a) ∧
  ∀ h, t.group h = touchGroup by_ pa data.length h (s.group h)

/-- As `Handles`, for the group of a slot. -/
abbrev State.Handling (s : State) (g : Nat) : Prop :=
  (s.group g).level = .user ∧ (s.group g).over = false ∧ (s.slotSet (setOf g)).st = .active ∧ bitOf (s.group g).trapvec 0 = false

/-! ## Results of the scalar float instructions (R164 to R168) -/

/-- Each scalar float instruction with the pattern it writes and the flags it raises: the exact value of its rule rounded once
under VCFG's mode, minimum and maximum, the comparison's truth, and a conversion of an assigned selector. -/
def scalarFloatRows (p : Bool) (c : BitVec 2) (d a b sel : Reg) (s : State) : List (Instr × Nat × BitVec 6) :=
  let x := s.fnum p a
  let y := s.fnum p b
  [(.fadd p d a b, s.rounded p (addNum s.own.rm x y)), (.fsub p d a b, s.rounded p (addNum s.own.rm x y.negate)),
   (.fmul p d a b, s.rounded p (mulNum x y)), (.fdiv p d a b, s.rounded p (divNum x y)), (.fsqrt p d a, s.rounded p (sqrtNum x)),
   (.fmin p d a b, minMax (floatTag p) false (s.fx p a) (s.fx p b)), (.fmax p d a b, minMax (floatTag p) true (s.fx p a) (s.fx p b)),
   (.ffma p d a b, s.rounded p (fmaNum s.own.rm x y (s.fnum p d))),
   (.fcmp p c d a b, if (floatCompare c x y).1 then 1 else 0, (floatCompare c x y).2)] ++
  ((fcvtTags sel.toNat).map fun q => (Instr.fcvt d a sel, convert q.1 q.2 s.own.rm false 3 ((s.x a).toNat % 2 ^ tagWidth q.1))).toList

/-! ## Vector instructions (R36, R178 to R192, R316) -/

/-- A group after a vector instruction has issued behind the group `G` it leaves: its token gone, a member of its convoy, its
start element consumed, and the thread behind it. -/
def State.VRetires (s t : State) (h : VHead) (G : Group) : Prop :=
  s.OnlyGroup t s.cur ∧
  t.own = { G with
    vresume := if s.own.resume then 0 else s.own.vresume
    fifos := (match h.tk.pop with | some f => s.own.fifos.set f.toNat (s.own.fifos[f.toNat] - 1) | none => s.own.fifos)
    convoys := G.join h
    pc := s.own.pc + BitVec.ofNat 64 h.len, retired := s.own.retired + 1, phase := .running, dataWait := none, resume := false }

/-- A channel that no group of a list uses: not bound, or bound to registers apart from them. -/
abbrev Channel.Apart (c : Channel) (lmul : Nat) (l : List Reg) : Prop :=
  c.st = .bound → ∀ r ∈ l, c.vd ≠ r ∧ (c.vd.toNat + c.lmul ≤ r.toNat ∨ r.toNat + lmul ≤ c.vd.toNat)

/-- A vector instruction that can issue: aligned groups, its pipe free in the open convoy, room in the vector queue, masks
only with VL up to 8,192, no stream on its groups and no strip held for it, and its token there with nothing of the asynchronous path left
for the pop to wait for. -/
abbrev State.VReady (s : State) (h : VHead) : Prop :=
  (∀ r ∈ h.reads ++ h.writes.toList, r.toNat % s.own.lmul = 0) ∧ h.pipe ∉ s.own.openPipes ∧ s.own.vqFull = false ∧
  ((h.mask.isSome || h.usesMask) = true → s.own.vl ≤ 8192) ∧
  (∀ c ∈ s.own.chan.toList, c.Apart s.own.lmul (h.reads ++ h.writes.toList) ∧ ∀ q ∈ c.held, q.pc ≠ s.own.pc) ∧
  (∀ f ∈ h.tk.pop, s.own.fifos[f.toNat] ≠ 0) ∧ (h.tk.pop.isSome = true → s.own.async = [])

/-- Every register and tag outside the group of `d` as in `G`; the tags of the group are `t`. -/
def Group.OnlyVector (G H : Group) (d : Reg) (t : Tag) : Prop :=
  (∀ r : Fin 32, r.val < d.toNat ∨ d.toNat + G.lmul ≤ r.val → H.v[r] = G.v[r] ∧ H.vtag[r] = G.vtag[r]) ∧
  ∀ r : Fin 32, d.toNat ≤ r.val → r.val < d.toNat + G.lmul → H.vtag[r] = t

/-- The group of `d` holds, at every index, a new element of width `w` where there is one, and its old element elsewhere. -/
def Group.HasElems (G H : Group) (d : Reg) (w : Nat) (new : Nat → Option Nat) : Prop :=
  ∀ i, elemOf (H.vbits d) w i = match new i with | some v => v % 2 ^ w | none => elemOf (G.vbits d) w i

/-- The lane flags after elements have raised flags at a width (R75, R179). -/
def Group.flagsAfter (G : Group) (lw : Nat) (f : Nat → BitVec 6) (l : List Nat) : Vector (BitVec 6) 16 :=
  (l.foldl (fun H i => H.accrueLane (laneOf lw i) (f i)) G).laneFlags

/-- The elements from the start element up to VL that a mask lets through (R12, R188). -/
def Group.steps (G : Group) (k : Option (BitVec 3)) : List Nat := (upFrom G.startElem (G.vl - G.startElem)).filter (G.active k)

/-- A vector instruction of one shape: element `i` of group `d` under tag `tag` becomes `val i` with its flags, `lw` the
widest width involved. `long` is its form with an extension word. -/
structure VRow where
  short : Instr
  long : TokenReq → Instr
  head : VHead
  legal : Bool
  d : Reg
  tag : Tag
  lw : Nat
  val : Nat → Nat × BitVec 6

/-- The two forms of a row: instruction, head. -/
def VRow.forms (r : VRow) (tk : TokenReq) : List (Instr × VHead) :=
  [(r.short, { r.head with len := 4, tk := TokenReq.idle }), (r.long tk, { r.head with len := 8, tk := tk })]

/-- What a row's instruction answers when no active element raises an enabled flag. -/
def VRow.Gives (r : VRow) (s : State) (tk : TokenReq) : Prop :=
  r.legal = true → (∀ i ∈ s.own.steps r.head.mask, (r.val i).2 &&& s.own.xen = 0) →
  ∀ e ∈ r.forms tk, s.VReady e.2 → ∃ t, exec e.1 s = .next t ∧
    s.VRetires t e.2 { s.own with v := t.own.v, vtag := t.own.vtag, laneFlags := t.own.laneFlags } ∧
    s.own.OnlyVector t.own r.d r.tag ∧
    s.own.HasElems t.own r.d (tagWidth r.tag) (fun i => if i ∈ s.own.steps r.head.mask then some (r.val i).1 else none) ∧
    t.own.laneFlags = s.own.flagsAfter r.lw (fun i => (r.val i).2) (s.own.steps r.head.mask)

/-- What it answers when an active element raises an enabled flag and none before it does: the elements before it are
written, ARITH stands at it, its flags and those before are set, the tag is as before (R77, R85). -/
def VRow.Stops (r : VRow) (s : State) (tk : TokenReq) : Prop :=
  ∀ i, r.legal = true → s.Handles → s.own.resume = false → i < s.own.vl → s.own.active r.head.mask i = true → (r.val i).2 &&& s.own.xen ≠ 0 →
  (∀ j ∈ (upFrom 0 i).filter (s.own.active r.head.mask), (r.val j).2 &&& s.own.xen = 0) →
  ∀ e ∈ r.forms tk, s.VReady e.2 → ∃ t, exec e.1 s = .next t ∧ s.OnlyGroup t s.cur ∧
    s.own.HasElems t.own r.d (tagWidth r.tag) (fun j => if j < i ∧ s.own.active r.head.mask j = true then some (r.val j).1 else none) ∧
    (∀ q : Fin 32, q.val < r.d.toNat ∨ r.d.toNat + s.own.lmul ≤ q.val → t.own.v[q] = s.own.v[q]) ∧
    t.own = { s.own.closeConvoy with
      v := t.own.v
      laneFlags := s.own.flagsAfter r.lw (fun j => (r.val j).2) ((upFrom 0 (i + 1)).filter (s.own.active r.head.mask))
      trapcause := 8, trappc := pcField s.own.pc, trapaddr := 0, trapelem := BitVec.ofNat 64 i, trapstat := 8
      vresume := BitVec.ofNat 64 (2 ^ 16 + i), interrupted := none, dataWait := none, chan := s.own.chan.map Channel.unclosed
      level := .supervisor, pc := s.own.handler, phase := .running }

/-- An element of a group under its tag. -/
def Group.el (G : Group) (r : Reg) (i : Nat) : Nat := elemOf (G.vbits r) (tagWidth (G.tag r)) i

/-- The two-operand and fused arithmetic of R203 to R206. -/
def arithRows (p ce : Bool) (k : Option (BitVec 3)) (d a b : Reg) (G : Group) : List VRow :=
  let two := fun (op : ArithOp) (sh : Instr) (lg : TokenReq → Instr) =>
    let rt := promoteTag (G.tag a) (G.tag b)
    let t := rt.getD .s8
    ({ short := sh, long := lg, head := aluHead p ce k .idle 4 [a, b] (some d) op.time, legal := rt.isSome && op.accepts t && G.lengthsOk d t [a, b]
       d := d, tag := t, lw := G.widest t [a, b], val := fun i => op.elem G t (G.tag a) (G.tag b) (G.tag d) (G.el a i) (G.el b i) 0 } : VRow)
  let three := fun (op : ArithOp) (sh : Instr) (lg : TokenReq → Instr) =>
    let rt := promoteTag3 (G.tag a) (G.tag b) (G.tag d)
    let t := rt.getD .s8
    ({ short := sh, long := lg, head := aluHead p ce k .idle 4 [a, b, d] (some d) op.time, legal := rt.isSome && op.accepts t && G.lengthsOk d t [a, b, d]
       d := d, tag := t, lw := G.widest t [a, b, d]
       val := fun i => op.elem G t (G.tag a) (G.tag b) (G.tag d) (G.el a i) (G.el b i) (G.el d i) } : VRow)
  [two .add (.vadd p ce k d a b) (.vaddLong p ce k d a b), two .sub (.vsub p ce k d a b) (.vsubLong p ce k d a b),
   two .mul (.vmul p ce k d a b) (.vmulLong p ce k d a b), two .mulh (.vmulh p ce k d a b) (.vmulhLong p ce k d a b),
   two .min (.vmin p ce k d a b) (.vminLong p ce k d a b), two .max (.vmax p ce k d a b) (.vmaxLong p ce k d a b),
   two .div (.vdiv p ce k d a b) (.vdivLong p ce k d a b), two .rem (.vrem p ce k d a b) (.vremLong p ce k d a b),
   three .fma (.vfma p ce k d a b) (.vfmaLong p ce k d a b), three .fms (.vfms p ce k d a b) (.vfmsLong p ce k d a b),
   three .nfma (.vnfma p ce k d a b) (.vnfmaLong p ce k d a b)]

/-- A row whose result has the tag of its operand `a`, or of its destination. -/
def rowOf (sh : Instr) (lg : TokenReq → Instr) (h : VHead) (legal : Bool) (d : Reg) (t : Tag) (lw : Nat) (val : Nat → Nat × BitVec 6) : VRow :=
  { short := sh, long := lg, head := h, legal := legal, d := d, tag := t, lw := lw, val := val }

/-- Moves, indexes, signs and merges (R200, R201, R204 to R206). -/
def moveRows (p ce : Bool) (k : Option (BitVec 3)) (mk : BitVec 3) (d a b : Reg) (s : State) : List VRow :=
  let G := s.own
  let t := G.tag a
  let w := tagWidth t
  let one := aluHead p ce k .idle 4 [a] (some d)
  let none_ := aluHead p ce k .idle 4 [] (some d) Timing.move
  [rowOf (.vmv p ce k d a) (.vmvLong p ce k d a) { one with time := Timing.move } (G.lengthsOk d t [a]) d t w fun i => (G.el a i, 0),
   rowOf (.vmvx p ce k d a) (.vmvxLong p ce k d a) none_ (G.fits (G.tag d)) d (G.tag d) (tagWidth (G.tag d)) fun _ => ((s.x a).toNat % 2 ^ tagWidth (G.tag d), 0),
   rowOf (.vid p ce k d) (.vidLong p ce k d) none_ (G.fits (G.tag d)) d (G.tag d) (tagWidth (G.tag d)) fun i => convert .n64 (G.tag d) G.rm G.sat G.modulus i,
   rowOf (.vmerge p ce mk d a b) (.vmergeLong p ce mk d a b) (vmergeHead p ce mk d a b .idle 4)
     (decide (t = G.tag b) && G.lengthsOk d t [a, b]) d t w fun i => (if bitAtNat (G.mask mk) i then G.el a i else G.el b i, 0),
   rowOf (.vabs p ce k d a) (.vabsLong p ce k d a) one (decide (t ≠ .q32) && G.lengthsOk d t [a]) d t w fun i =>
     if tagIsFloat t then (G.el a i % 2 ^ (w - 1), 0) else (putInt t G.sat (if intOf t (G.el a i) < 0 then -intOf t (G.el a i) else intOf t (G.el a i)), 0),
   rowOf (.vneg p ce k d a) (.vnegLong p ce k d a) one (G.lengthsOk d t [a]) d t w fun i =>
     if t = .q32 then ((G.modulus - G.el a i % G.modulus) % G.modulus, if G.el a i ≥ G.modulus then flagMD else 0)
     else if tagIsFloat t then (if G.el a i ≥ 2 ^ (w - 1) then G.el a i - 2 ^ (w - 1) else G.el a i + 2 ^ (w - 1), 0)
     else (putInt t G.sat (-intOf t (G.el a i)), 0)]

/-- Roots, scaling, conversions and the functions of R205, R207, R212, R213. -/
def floatRows (p ce : Bool) (k : Option (BitVec 3)) (d a b : Reg) (t2 : Tag) (G : Group) : List VRow :=
  let t := G.tag a
  let w := tagWidth t
  let one := aluHead p ce k .idle 4 [a] (some d)
  let fn := fun (f : Fn) (sh : Instr) (lg : TokenReq → Instr) =>
    rowOf sh lg { one with time := Timing.function } (fnTag t && G.lengthsOk d t [a]) d t w fun i => fnElem f t G.rm (G.el a i)
  [rowOf (.vsqrt p ce k d a) (.vsqrtLong p ce k d a) { one with time := Timing.long } (tagIsFloat t && G.lengthsOk d t [a]) d t w fun i =>
     ((roundOp t G.rm (sqrtNum (unpack t (G.el a i))).1).1, (roundOp t G.rm (sqrtNum (unpack t (G.el a i))).1).2 ||| (sqrtNum (unpack t (G.el a i))).2),
   rowOf (.vscale p ce k d a b) (.vscaleLong p ce k d a b) (aluHead p ce k .idle 4 [a, b] (some d) Timing.multiply)
     (tagIsFloat t && tagIsInt (G.tag b) && G.lengthsOk d t [a, b]) d t (G.widest t [a, b]) fun i =>
     let r := roundOp t G.rm (scaleNum (unpack t (G.el a i)) (clampExp (intOf (G.tag b) (G.el b i))))
     (r.1, r.2 ||| sigFlag [unpack t (G.el a i)]),
   rowOf (.vcvt p ce k d a t2) (.vcvtLong p ce k d a t2) { one with time := Timing.multiply } (convertible t t2 && G.lengthsOk d t2 [a]) d t2 (G.widest t2 [a]) fun i =>
     convert t t2 G.rm G.sat G.modulus (G.el a i),
   fn .rcp (.vrcp p ce k d a) (.vrcpLong p ce k d a), fn .rsqrt (.vrsqrt p ce k d a) (.vrsqrtLong p ce k d a),
   fn .exp2 (.vexp2 p ce k d a) (.vexp2Long p ce k d a), fn .log2 (.vlog2 p ce k d a) (.vlog2Long p ce k d a),
   fn .exp (.vexp p ce k d a) (.vexpLong p ce k d a), fn .log (.vlog p ce k d a) (.vlogLong p ce k d a),
   fn .tanh (.vtanh p ce k d a) (.vtanhLong p ce k d a)]

/-- Logic, counts and shifts (R208, R210): the amount is taken modulo the width. -/
def logicRows (p ce : Bool) (k : Option (BitVec 3)) (d a b : Reg) (G : Group) : List VRow :=
  let t := G.tag a
  let w := tagWidth t
  let one := aluHead p ce k .idle 4 [a] (some d)
  let two := aluHead p ce k .idle 4 [a, b] (some d)
  let logic := fun (f : Nat → Nat → Nat) (sh : Instr) (lg : TokenReq → Instr) =>
    rowOf sh lg two (decide (t ≠ .q32 ∧ G.tag b ≠ .q32 ∧ w = tagWidth (G.tag b)) && G.lengthsOk d t [a, b]) d t w fun i => (f (G.el a i) (G.el b i), 0)
  let shift := fun (f : Nat → Nat → Nat) (sh : Instr) (lg : TokenReq → Instr) =>
    rowOf sh lg two (tagIsInt t && tagIsInt (G.tag b) && decide (tagWidth (G.tag b) = w) && G.lengthsOk d t [a, b]) d t w fun i =>
      (f (G.el a i) (G.el b i % w), 0)
  let funnel := fun (f : Nat → Nat → Nat) (sh : Instr) (lg : TokenReq → Instr) =>
    rowOf sh lg (aluHead p ce k .idle 4 [a, b, d] (some d))
      (tagIsInt t && tagIsInt (G.tag b) && tagIsInt (G.tag d) && decide (tagWidth (G.tag b) = w ∧ tagWidth (G.tag d) = w) && G.lengthsOk d t [a, b, d]) d t w
      fun i => (f (G.el a i * 2 ^ w + G.el b i) (G.el d i % w), 0)
  [logic (fun x y => x &&& y) (.vand p ce k d a b) (.vandLong p ce k d a b), logic (fun x y => x ||| y) (.vor p ce k d a b) (.vorLong p ce k d a b),
   logic (fun x y => x ^^^ y) (.vxor p ce k d a b) (.vxorLong p ce k d a b),
   rowOf (.vnot p ce k d a) (.vnotLong p ce k d a) one (decide (t ≠ .q32) && G.lengthsOk d t [a]) d t w fun i => (2 ^ w - 1 - G.el a i, 0),
   rowOf (.vclz p ce k d a) (.vclzLong p ce k d a) one (tagIsInt t && G.lengthsOk d t [a]) d t w fun i => (leadingZeros w (G.el a i), 0),
   rowOf (.vpopc p ce k d a) (.vpopcLong p ce k d a) one (tagIsInt t && G.lengthsOk d t [a]) d t w fun i => (popCount w (G.el a i), 0),
   shift (fun x n => x * 2 ^ n) (.vshl p ce k d a b) (.vshlLong p ce k d a b), shift (fun x n => x / 2 ^ n) (.vshr p ce k d a b) (.vshrLong p ce k d a b),
   shift (fun x n => wrapTo w (signedOf w x / (2 ^ n : Nat))) (.vshra p ce k d a b) (.vshraLong p ce k d a b),
   shift (fun x n => x * 2 ^ n + x / 2 ^ (w - n)) (.vrol p ce k d a b) (.vrolLong p ce k d a b),
   funnel (fun x n => x * 2 ^ n / 2 ^ w) (.vfshl p ce k d a b) (.vfshlLong p ce k d a b),
   funnel (fun x n => x / 2 ^ n) (.vfshr p ce k d a b) (.vfshrLong p ce k d a b)]

/-- Prefix counts, conflicts and permutes (R220, R222, R223). -/
def crossRows (ce : Bool) (k : Option (BitVec 3)) (mk : BitVec 3) (d a b : Reg) (s : State) : List VRow :=
  let G := s.own
  let t := G.tag a
  let td := G.tag d
  let w := tagWidth t
  let n := (s.x b).toNat
  let one := permuteHead ce k d [a] .idle 4
  let two := permuteHead ce k d [a, b] .idle 4
  let at_ := fun (r : Reg) (p : Int) => if p < 0 ∨ p ≥ G.vlmax (G.tag r) then 0 else G.el r p.toNat
  [rowOf (.vprefixpop ce k d mk) (.vprefixpopLong ce k d mk) (prefixHead ce k d mk .idle 4) (tagIsInt td && G.fits td) d td
     (tagWidth td) fun i => (putInt td G.sat (popCount i (G.mask mk % 2 ^ i)), 0),
   rowOf (.vconflict ce k d a) (.vconflictLong ce k d a) (conflictHead G ce k d a .idle 4) (tagIsInt td && tagIsInt t && G.lengthsOk d td [a]) d td
     (tagWidth td) fun i => (putInt td G.sat ((upFrom 0 i).filter fun j => G.active k j && G.el a j == G.el a i).length, 0),
   rowOf (.vperm ce k d a b) (.vpermLong ce k d a b) two (tagIsInt (G.tag b) && G.lengthsOk d t [a, b]) d t w fun i => (at_ a (intOf (G.tag b) (G.el b i)), 0),
   rowOf (.vslideup ce k d a b) (.vslideupLong ce k d a b) one (G.lengthsOk d t [a]) d t w fun i =>
     (if i < n then elemOf (G.vbits d) w i else at_ a ((i : Int) - n), 0),
   rowOf (.vslidedn ce k d a b) (.vslidednLong ce k d a b) one (G.lengthsOk d t [a]) d t w fun i => (at_ a ((i : Int) + n), 0),
   rowOf (.vzip ce k d a b) (.vzipLong ce k d a b) two (decide (G.tag b = t) && G.lengthsOk d t [a, b]) d t w fun i =>
     (if i % 2 = 0 then at_ a (i / 2 : Nat) else at_ b (i / 2 : Nat), 0),
   rowOf (.vunzip ce k d a b) (.vunzipLong ce k d a b) one (G.lengthsOk d t [a]) d t w fun i => (at_ a (2 * i + n % 2 : Nat), 0)]


/-- A mask register's bits, one by one, where `new` gives one; every other bit and mask as before. -/
def Group.HasBits (G H : Group) (d : BitVec 3) (new : Nat → Option Bool) : Prop :=
  (∀ i, i < 8192 → (H.m[d.toNat]).getLsbD i = (new i).getD ((G.m[d.toNat]).getLsbD i)) ∧ ∀ k : Fin 8, k.val ≠ d.toNat → H.m[k] = G.m[k]

/-- The logic of masks (R214), with the masks that each reads: every bit below VL, the others kept. -/
def maskRows (p ce : Bool) (d a b : BitVec 3) (xb : Reg) (s : State) : List (Instr × (TokenReq → Instr) × List (BitVec 3) × (Nat → Bool)) :=
  let A := s.own.m[a.toNat]
  let B := s.own.m[b.toNat]
  [(.mand p ce d a b, .mandLong p ce d a b, [a, b], fun i => A.getLsbD i && B.getLsbD i),
   (.mor p ce d a b, .morLong p ce d a b, [a, b], fun i => A.getLsbD i || B.getLsbD i),
   (.mxor p ce d a b, .mxorLong p ce d a b, [a, b], fun i => A.getLsbD i != B.getLsbD i),
   (.mnot p ce d a, .mnotLong p ce d a, [a], fun i => !A.getLsbD i),
   (.mshl p ce d a xb, .mshlLong p ce d a xb, [a], fun i => decide ((s.x xb).toNat ≤ i) && A.getLsbD (i - (s.x xb).toNat))]

/-- The results in an x register of vector instructions (R202, R214): an element, the number of set bits below VL, the
first of them. -/
def scalarVectorRows (p ce : Bool) (d a b : Reg) (ma : BitVec 3) (s : State) : List (Instr × (TokenReq → Instr) × VHead × Word) :=
  let G := s.own
  let t := G.tag a
  let i := (s.x b).toNat
  let below := (upFrom 0 G.vl).filter fun j => (G.m[ma.toNat]).getLsbD j
  [(.vxmv p ce d a b, .vxmvLong p ce d a b, vxmvHead G p ce d a .idle 4,
     if i ≥ G.vlmax t then 0 else if tagIsSigned t then BitVec.ofInt 64 (signedOf (tagWidth t) (G.el a i)) else BitVec.ofNat 64 (G.el a i)),
   (.mcnt p ce d ma, .mcntLong p ce d ma, maskHead p ce .idle 4 (some d) [ma] [], BitVec.ofNat 64 below.length),
   (.mfirst p ce d ma, .mfirstLong p ce d ma, maskHead p ce .idle 4 (some d) [ma] [], match below with | j :: _ => BitVec.ofNat 64 j | [] => BitVec.allOnes 64)]

/-- The value of a scan at each index (R219): the active elements of its segment folded up to it. -/
def scanAt (op : Nat) (ta t : Tag) (G : Group) (act seg : Nat → Bool) (a : Reg) : Nat → Option Nat
  | 0 => none
  | i + 1 =>
    let y := if seg i then none else scanAt op ta t G act seg a i
    if act i then some (scanStep op ta t G y (G.el a i)).1 else y

/-- The flags that a scan raises at an index. -/
def scanFlags (op : Nat) (ta t : Tag) (G : Group) (act seg : Nat → Bool) (a : Reg) (i : Nat) : BitVec 6 :=
  (scanStep op ta t G (if seg i then none else scanAt op ta t G act seg a i) (G.el a i)).2


/-! ## Vector memory (R240 to R247) -/

/-- The address of an element in a form (R240), its index group read as it stands. -/
def State.elemAt (s : State) (f : VForm) (a : Reg) (mt : Tag) (i : Nat) : Word :=
  match f with
  | .unit => s.x a + BitVec.ofNat 64 (i * tagWidth mt / 8)
  | .strided xb => s.x a + BitVec.ofNat 64 i * xb
  | .indexed vb => s.x a + BitVec.ofInt 64 (intOf (s.own.tag vb) (s.own.el vb i))

/-- The checks of R241 over the active elements of an access, from the start element up to `n`. -/
def State.walk (s : State) (r : WalkRule) (act : Nat → Bool) (addr : Nat → Word) (n : Nat) : State × List VElem × WalkEnd :=
  s.walkElems r act addr none (n - s.own.startElem) s.own.startElem []

/-- The checks of a load of elements of a tag. -/
def loadRule (mt : Tag) : WalkRule :=
  { kind := .load, late := false, bytes := elemBytes mt, align := elemBytes mt, distinct := false, atomic := false }

/-- Nothing of the group delays an access: no engine entry, no write of the asynchronous path or in a replay buffer, no copy, no queued
access, no load outstanding. -/
abbrev State.Quiet (s : State) : Prop :=
  s.Unhindered ∧ (∀ c ∈ s.own.chan.toList, c.st ≠ .copying) ∧ (∀ l ∈ s.own.slices.toList, l = []) ∧ s.own.late = none ∧ s.own.dataWait = none

/-- Nothing of the group is outstanding: nothing delays an access, every write is acknowledged, no transform entry is queued. -/
abbrev State.Settled (s : State) : Prop :=
  s.Quiet ∧ s.own.sent = [] ∧ ∀ e ∈ (s.cell (cellOf s.cur)).tq0 ++ (s.cell (cellOf s.cur)).tq1, e.group ≠ s.cur

/-- The vector loads with their forms: instruction, addressing, length, tokens, conversion from the memory tag, explicit tag. -/
noncomputable def loadRows (ce : Bool) (k : Option (BitVec 3)) (d a b : Reg) (tk : TokenReq) (mtag : BitVec 4) (cv : Bool) (te : Option Tag) (s : State) :
    List (Instr × VForm × Nat × TokenReq × Option Tag × Option Tag) :=
  let m := if cv then some (Tag.ofCode mtag.toNat) else none
  [(.vld ce k d a, .unit, 4, .idle, none, none), (.vldLong ce k d a tk mtag cv te, .unit, 8, tk, m, te),
   (.vlds ce k d a b, .strided (s.x b), 4, .idle, none, none), (.vldsLong ce k d a b tk mtag cv te, .strided (s.x b), 8, tk, m, te),
   (.vldx ce k d a b, .indexed b, 4, .idle, none, none), (.vldxLong ce k d a b tk mtag cv te, .indexed b, 8, tk, m, te)]

/-- The vector stores with their forms: instruction, addressing, length, tokens, update of a scatter. -/
noncomputable def storeRows (ce : Bool) (k : Option (BitVec 3)) (d a b : Reg) (tk : TokenReq) (s : State) : List (Instr × VForm × Nat × TokenReq × Option (BitVec 2)) :=
  [(.vst ce k d a, .unit, 4, .idle, none), (.vstLong ce k d a tk, .unit, 8, tk, none),
   (.vsts ce k d a b, .strided (s.x b), 4, .idle, none), (.vstsLong ce k d a b tk, .strided (s.x b), 8, tk, none),
   (.vstx ce k d a b, .indexed b, 4, .idle, none), (.vstxLong ce k d a b tk, .indexed b, 8, tk, none),
   (.vstxaAdd ce k d a b, .indexed b, 4, .idle, some 0), (.vstxaAddLong ce k d a b tk, .indexed b, 8, tk, some 0),
   (.vstxaMin ce k d a b, .indexed b, 4, .idle, some 1), (.vstxaMinLong ce k d a b tk, .indexed b, 8, tk, some 1),
   (.vstxaMax ce k d a b, .indexed b, 4, .idle, some 2), (.vstxaMaxLong ce k d a b tk, .indexed b, 8, tk, some 2)]


/-! ## Posting (R262, R288) -/

/-- An engine entry posted: the cell's queue has gained it, the group is behind its instruction with its convoy closed and
one more place in program order given out, and no other cell, group, register or byte has changed. -/
def State.Posts (s t : State) (len : Nat) (G : Group) (C : CellState) : Prop :=
  ({ s with cells := t.cells, tr := t.tr }).Retires t len { G.closeConvoy with seq := s.own.seq + 1 } ∧
  (∀ c, c ≠ cellOf s.cur → t.cell c = s.cell c) ∧ t.cell (cellOf s.cur) = C

/-- A matrix entry of the executing group as it is posted. -/
def State.newEntry (s : State) (op : MatrixOp) (rows : List (Word × List (Nat × Nat))) (tk : TokenReq) : MatrixEntry :=
  { group := s.cur, op := op, vcfg := s.own.vcfg, pc := s.own.pc, tok := tk, seq := s.own.seq, issued := false, chained := false
    landed := 0, owed := 0, snap := none, rows := rows, bad := none, got := [], poor := [], xmod := s.own.xmod, effected := false, elided := none }

/-- The matrix queue of the group's cell with an entry at its tail. -/
def State.withEntry (s : State) (e : MatrixEntry) : CellState :=
  { (s.cell (cellOf s.cur)) with mq := (s.cell (cellOf s.cur)).mq ++ [e] }

/-- A transform entry of the executing group as it is posted, with the regions that it reads. -/
def State.newTransform (s : State) (op : TransformOp) (tk : TokenReq) (reads : List (Word × Nat)) : TransformEntry :=
  { group := s.cur, op := op, xctl := s.own.xctl, xmod := s.own.xmod, rm := s.own.rm, pc := s.own.pc, tok := tk, seq := s.own.seq, started := false, reads := reads.filter fun r => r.2 ≠ 0 }

/-- The transform queue of the group's slot set with an entry at its tail. -/
def State.withTransform (s : State) (e : TransformEntry) : CellState :=
  (s.cell (cellOf s.cur)).putTq (setOf s.cur) ((s.cell (cellOf s.cur)).tq (setOf s.cur) ++ [e])

/-- A region inside the group's cell store or its context's part of the cluster pool (R296). -/
abbrev State.RegionIn (s : State) (r : Word × Nat) : Prop :=
  r.2 = 0 ∨ (r.1.toNat / 2 ^ 48 = 0xF0 ∧ r.1.toNat % 2 ^ 48 + r.2 ≤ s.own.hold.cstore) ∨
  (r.1.toNat / 2 ^ 48 = 0xF1 ∧ r.1.toNat % 2 ^ 48 + r.2 ≤ ((s.slotSet (setOf s.cur)).img.map Image.cpool).getD 0)

/-- The transform instructions: the entry's operation, its own rules, its regions (R297, R300 to R303). -/
noncomputable def transformRows (d a b : Reg) (tk : TokenReq) (sp : BitVec 5) (quad dit tm : Bool) (rc dir : BitVec 2) (conj bc : Bool) (s : State) :
    List (Instr × TransformOp × Prop × List (Word × Nat)) :=
  let mode := bits s.own.xctl 5 2
  let logn := bits s.own.xctl 0 5
  let n := 2 ^ logn
  let len := regionBytes mode n
  let x := s.x b
  let all := if quad then n / 4 else n / 2
  let apart := fun (la lb : Nat) => (s.x d).toNat + la ≤ (s.x a).toNat ∨ (s.x a).toNat + lb ≤ (s.x d).toNat
  let ld := regionBytes (if dir = 1 then 0 else 1) n
  let la := regionBytes (if dir = 0 then 0 else 1) n
  [(.xtwid d a b tk, .twid (s.x d) (s.x a) (s.x b).toNat, (s.x b).toNat ≤ 2 ^ 24, [(s.x d, (s.x b).toNat * pointBytes mode)]),
   (.xstage d a b tk sp quad dit tm rc, .stage (s.x d) (s.x a) (bits x 0 24) (bits x 24 24) sp.toNat quad dit tm rc.toNat,
     bits x 48 16 = 0 ∧ bits x 0 24 + bits x 24 24 ≤ all ∧ sp.toNat + 1 ≤ logn ∧ (quad = true → 1 ≤ sp.toNat) ∧
       (mode = 1 → bits x 0 24 = 0 ∧ bits x 24 24 = all) ∧ (rc ≠ 0 → mode = 2),
     [(s.x d, len), (s.x a, (if tm && quad then n else n / 2) * pointBytes mode)]),
   (.xperm d a tk sp tm, .perm (s.x d) (s.x a) sp.toNat tm, (s.x d = s.x a ∨ apart len len) ∧ (tm = true → 1 ≤ sp.toNat ∧ sp.toNat + 1 ≤ logn),
     [(s.x d, len), (s.x a, len)]),
   (.xpoint d a b tk conj bc, .point (s.x d) (s.x a) (s.x b) conj bc, ¬ (conj = true ∧ mode = 2),
     [(s.x d, len), (s.x a, len), (s.x b, if bc then (if mode = 1 then 5 else pointBytes mode) else len)]),
   (.xnorm d a tk dir, .norm (s.x d) (s.x a) dir.toNat, mode = 1 ∧ (apart ld la ∨ (dir = 2 ∧ s.x d = s.x a)), [(s.x d, ld), (s.x a, la)])]

/-- An entry's outputs have some bytes at an address, unmarked, as their write at an index. -/
def XOut.Writes (o : XOut) (k va : Nat) (b : List Byte) : Prop :=
  ∃ w, o.writes[k]? = some w ∧ w.place = .virt (BitVec.ofNat 64 va) ∧ w.data = b ∧ w.mark = false

/-- A point after a radix-2 stage of span `sp` in mode CF32 or Q32, of the points before it (R297, R298). -/
def flyAt (mode q rm : Nat) (dit : Bool) (sp : Nat) (tw X : Nat → Point) (p : Nat) : Point :=
  let h := 2 ^ sp
  let a := if p / h % 2 = 0 then p else p - h
  let w := tw (a / (2 * h) * h + a % h)
  if dit then (pointAdd mode q rm (decide (p ≠ a)) (X a) (pointMul mode q rm (X (a + h)) w).1).1
  else if p = a then (pointAdd mode q rm false (X a) (X (a + h))).1
  else (pointMul mode q rm (pointAdd mode q rm true (X a) (X (a + h))).1 w).1

/-- The points and block exponents after a radix-2 stage of span `sp` in mode BFP, of those before it: each block of 32 exact outputs
renormalised from the larger exponent of the blocks that it comes from (R72, R298). -/
def bfpStep (sp : Nat) (dit : Bool) (tw : Nat → Point) (S : (Nat → Point) × (Nat → Int)) : (Nat → Point) × (Nat → Int) :=
  let h := 2 ^ sp
  let num := fun (p : Nat) => (bfpNum (S.2 (p / 32)) (S.1 p).re, bfpNum (S.2 (p / 32)) (S.1 p).im)
  let out := fun (p : Nat) =>
    let a := if p / h % 2 = 0 then p else p - h
    let w := tw (a / (2 * h) * h + a % h)
    flyExact dit (decide (p ≠ a)) (num a) (num (a + h)) (twiddleNum w.re, twiddleNum w.im)
  let b := fun (k : Nat) => renormBlock (max (S.2 k) (S.2 (if h ≥ 32 then Nat.xor k (h / 32) else k))) ((upFrom (32 * k) 32).map fun p => [(out p).1, (out p).2]).flatten
  (fun p => { re := wrapTo 16 ((b (p / 32)).2.1.getD (2 * (p % 32)) 0), im := wrapTo 16 ((b (p / 32)).2.1.getD (2 * (p % 32) + 1) 0), bad := false },
   fun k => (b k).1)

/-- Bytes that the executing group reads at once: translated, on its own die, correctable and without the marker. -/
def State.ReadsHere (s : State) (va : Word) (n : Nat) (data : List Byte) : Prop :=
  ∃ runs leaf, (s.look s.cur .load va.toNat n).2 = .here runs leaf ∧ runsLocal s.cur runs = true ∧ s.runsBad runs = false ∧ s.readRuns runs = data

/-- The executing group has stopped at its instruction and waits; its convoy is ended and its watchdog count is 0 (R128, R136). -/
def State.Waits (s t : State) (G : Group) (w : Wait) : Prop :=
  s.OnlyGroup t s.cur ∧ t.own = { G.closeConvoy with phase := .waiting w, wdog := 0 }

/-- PAGE_STORE taken by a group: imprecise, with the address and sub-code of the oldest record, every record marked
reported; nothing but the group has changed (R366). -/
def State.TakesStoreTrap (s t : State) (g : Nat) : Prop :=
  ∃ r rest, (s.group g).sfrq = r :: rest ∧ s.OnlyGroup t g ∧
  t.group g = { (s.group g).closeConvoy with
    sfrq := (s.group g).sfrq.map fun q => { q with reported := true }
    trapcause := BitVec.ofNat 64 (5 + r.sub * 256), trappc := pcField (s.group g).pc, trapaddr := r.addr, trapelem := 0, trapstat := 1
    interrupted := none, dataWait := none, resume := false, chan := (s.group g).chan.map Channel.unclosed
    level := .supervisor, pc := (s.group g).handler, phase := .running }

/-- Every byte of device and host memory outside eight bytes at a place reads as before. -/
def State.OnlyWord (s t : State) (pa : Nat) : Prop :=
  (∀ a, (paHost pa = true ∨ a < pa ∨ pa + 8 ≤ a) → memByte t.mem a = memByte s.mem a) ∧
  ∀ a, (paHost pa = false ∨ a < pa % 2 ^ 51 ∨ pa % 2 ^ 51 + 8 ≤ a) → memByte t.hostMem a = memByte s.hostMem a

/-- A group with nothing on its way and nothing held that its end has to wait for: no access, entry, write or
contribution outstanding, no store fault on record, no receive posted, no subscription, no arrival in progress. -/
abbrev State.Rests (s : State) : Prop :=
  s.Quiet ∧ s.own.sent = [] ∧ s.own.convoys = [] ∧ s.own.sfrq = [] ∧ s.own.async = [] ∧ s.transformsOf s.cur = [] ∧
  (∀ c ∈ s.own.chan.toList, c.settled = true) ∧ s.own.collDone = s.own.collIssued ∧ s.own.barPending = none ∧ s.own.over = false ∧ (s.groups.find s.cur).isSome = true ∧
  (∀ r ∈ (s.receiver (recvKey (dieOf s.cur) (setOf s.cur))).posts, r.group ≠ some s.cur) ∧
  ∀ u ∈ (s.seqAt (seqOf s.cur)).subs, u.group ≠ s.cur

/-- A context that an event has made Faulted: its fault word is written; the partner that stands by becomes Active when
the context was, and otherwise nothing but the record of the set and the host's events has changed (R82, R89, R450). -/
def State.FaultsSet (s t : State) (T cause cell slot : Nat) : Prop :=
  t.slotSet T = { s.slotSet T with
    st := .faulted, lastAt := some s.clock, fault := BitVec.ofNat 64 (cause + cell * 2 ^ 8 + slot * 2 ^ 17) } ∧
  ((s.slotSet T).st = .active → (s.slotSet (1 - T)).st = .standby → (t.slotSet (1 - T)).st = .active) ∧
  ((s.slotSet T).st ≠ .active ∨ (s.slotSet (1 - T)).st ≠ .standby → t.slotSet (1 - T) = s.slotSet (1 - T) ∧
    t = { s with set0 := t.set0, set1 := t.set1, port := { s.port with waiting := t.port.waiting } })

/-- A group as an asynchronous cause or an imprecise one is taken at its instruction (R88, R137, R139). -/
def Group.interruptedBy (G : Group) (c : HeldCause) (stat : Nat) (w : Option (Word × Wait)) : Group :=
  { G.closeConvoy with
    trapcause := BitVec.ofNat 64 (c.code + c.sub * 256), trappc := pcField G.pc, trapaddr := c.addr, trapelem := BitVec.ofNat 64 (c.elem.getD 0)
    trapstat := BitVec.ofNat 64 stat, interrupted := w, dataWait := none, resume := false, level := .supervisor, pc := G.handler, phase := .running
    chan := G.chan.map Channel.unclosed }

/-- A clock in which no actor with a place in the order of the clock has acted yet, nor any event taken effect on a context
(notes/assumptions/17). -/
abbrev State.Punctual (s : State) : Prop := s.lastKey = 0 ∧ s.dropped 0 = false ∧ s.dropped 1 = false

/-- Command `code` in execution with words that are in range (R449, R450). -/
abbrev State.Runs (s : State) (code : Nat) (c : Command) (used : Nat → Bool) : Prop :=
  s.firmware = .running ∧ s.port.cmd = some c ∧ c.code = code ∧ c.begun = false ∧ c.reserved = 0 ∧ c.set ≤ 1 ∧ ∀ q ∈ c.args, used q.1 = true

/-- The mailbox after a command has ended with a status and a result (R449). -/
def State.answered (s : State) (status : Nat) (result : List Host.Cell) : State :=
  { s with port := { s.port with busy := false, done := true, status := status, result := result, cmd := none } }

/-- A group at its handler after a precise LINKFAIL with no element (R88, R409). -/
def Group.linkFails (G : Group) (sub : Nat) (addr pc : Word) : Group :=
  { G.closeConvoy with
    trapcause := BitVec.ofNat 64 (0xF + sub * 256), trappc := pcField pc, trapaddr := addr, trapelem := 0, trapstat := 0
    interrupted := none, dataWait := none, resume := false, level := .supervisor, pc := G.handler, phase := .running
    chan := G.chan.map Channel.unclosed }

/-- A group with one more asynchronous cause (R139). -/
def Group.withCause (G : Group) (code sub : Nat) (addr : Word) : Group :=
  { G with causes := G.causes ++ [{ code := code, sub := sub, addr := addr, elem := none, inst := 0 }] }

/-- A group that takes a cause which it does not hold already (R139, R141). -/
abbrev Group.Takes (G : Group) (code : Nat) : Prop := G.over = false ∧ ∀ c ∈ G.causes, c.code = code → c.elem ≠ none

end Sys2Proof.Machine
end

