-- ==== Sys2Proof/Certificates/Slice0/Obligations.lean ====
section
/-!
DEFINITION. Sys2Proof/Certificates/Slice0/Obligations.lean: the statements for the provers.
-/

open Sys2Proof Sys2Proof.Machine

/-- Each of ADD, SUB, AND, OR, XOR, SHL, SHR, SHRA, MUL, MULH, MULHN, ROL, CLZ, CTZ, POPC, MIN, MAX, MINN, MAXN, SLT and
SLTN answers a next state in which xd holds the value of R151 (x0 takes no write), PC has advanced by 4, and no other
register, flag, special register or byte of memory has changed. Each of ADDI, ANDI, ORI, XORI, SLTI, LDI and ADDPC in
its short and its long form, LDIH, SHLI, SHRI and SHRAI answers a next state in which xd holds the value of its rule
from the sign-extended immediate; PC advances by 4, or by 8 in a long form, and nothing else changes. With a divisor
other than 0 each division writes the truncated quotient or remainder (−2^63 by −1 gives −2^63 and 0) and no flag;
with the divisor 0 and XEN bit 1 clear it writes all ones or xa and sets DZ; nothing else changes. (R151, R145, R26,
R154, R155, R156, R152, R75) -/
def Obligations.IntegerResults : Prop :=
  (∀ (d a b : Reg) (s : State), ∀ e ∈ [
    (Instr.add d a b, s.x a + s.x b), (.sub d a b, s.x a - s.x b), (.and d a b, s.x a &&& s.x b), (.or d a b, s.x a ||| s.x b),
    (.xor d a b, s.x a ^^^ s.x b), (.shl d a b, s.x a <<< ((s.x b) &&& 63).toNat), (.shr d a b, s.x a >>> ((s.x b) &&& 63).toNat),
    (.shra d a b, (s.x a).sshiftRight ((s.x b) &&& 63).toNat), (.mul d a b, s.x a * s.x b),
    (.mulh d a b, (((s.x a).signExtend 128 * (s.x b).signExtend 128) >>> 64).setWidth 64),
    (.mulhn d a b, (((s.x a).zeroExtend 128 * (s.x b).zeroExtend 128) >>> 64).setWidth 64),
    (.rol d a b, (s.x a).rotateLeft ((s.x b) &&& 63).toNat),
    (.clz d a, BitVec.ofNat 64 (leadingZeros 64 (s.x a).toNat)), (.ctz d a, BitVec.ofNat 64 (trailingZeros 64 (s.x a).toNat)),
    (.popc d a, BitVec.ofNat 64 (popCount 64 (s.x a).toNat)),
    (.min d a b, if (s.x b).slt (s.x a) then s.x b else s.x a), (.max d a b, if (s.x a).slt (s.x b) then s.x b else s.x a),
    (.minn d a b, if s.x b < s.x a then s.x b else s.x a), (.maxn d a b, if s.x a < s.x b then s.x b else s.x a),
    (.slt d a b, if (s.x a).slt (s.x b) then 1 else 0), (.sltn d a b, if s.x a < s.x b then 1 else 0)],
    ∃ t, exec e.1 s = .next t ∧ s.GivesX t d e.2 4) ∧
  (∀ (d a : Reg) (i : BitVec 14) (v : BitVec 32) (n : BitVec 6) (s : State), ∀ e ∈ [
    (Instr.addi d a i, s.x a + i.signExtend 64, 4), (.addiLong d a v, s.x a + v.signExtend 64, 8),
    (.andi d a i, s.x a &&& i.signExtend 64, 4), (.andiLong d a v, s.x a &&& v.signExtend 64, 8),
    (.ori d a i, s.x a ||| i.signExtend 64, 4), (.oriLong d a v, s.x a ||| v.signExtend 64, 8),
    (.xori d a i, s.x a ^^^ i.signExtend 64, 4), (.xoriLong d a v, s.x a ^^^ v.signExtend 64, 8),
    (.slti d a i, if (s.x a).slt (i.signExtend 64) then 1 else 0, 4), (.sltiLong d a v, if (s.x a).slt (v.signExtend 64) then 1 else 0, 8),
    (.shli d a n, s.x a <<< n.toNat, 4), (.shri d a n, s.x a >>> n.toNat, 4), (.shrai d a n, (s.x a).sshiftRight n.toNat, 4),
    (.ldi d i, i.signExtend 64, 4), (.ldiLong d v, v.signExtend 64, 8), (.ldih d v, v ++ (s.x d).setWidth 32, 8),
    (.addpc d i, s.own.pc + i.signExtend 64, 4), (.addpcLong d v, s.own.pc + v.signExtend 64, 8)],
    ∃ t, exec e.1 s = .next t ∧ s.GivesX t d e.2.1 e.2.2) ∧
  (∀ (d a b : Reg) (s : State),
    (s.x b ≠ 0 → ∀ e ∈ [(Instr.div d a b, (s.x a).sdiv (s.x b)), (.divn d a b, (s.x a).udiv (s.x b)), (.rem d a b, (s.x a).srem (s.x b)),
        (.remn d a b, (s.x a).umod (s.x b))], ∃ t, exec e.1 s = .next t ∧ s.GivesX t d e.2 4) ∧
    (s.x b = 0 → s.own.xen &&& flagDZ = 0 → ∀ e ∈ [(Instr.div d a b, BitVec.allOnes 64), (.divn d a b, BitVec.allOnes 64),
        (.rem d a b, s.x a), (.remn d a b, s.x a)],
      ∃ t, exec e.1 s = .next t ∧ s.Retires t 4 { s.own with x := t.own.x, ctlFlags := s.own.ctlFlags ||| flagDZ } ∧ s.SetsX t d e.2))

/-- SEL answers a next state in which xd holds xa when xd was not 0 and xb when it was; with D = x0 nothing but PC and the
retired count changes. (R153) -/
def Obligations.SelectResult : Prop :=
  ∀ (d a b : Reg) (s : State),
    (∃ t, exec (.sel d a b) s = .next t ∧ s.GivesX t d (if s.x d ≠ 0 then s.x a else s.x b) 4) ∧
    ∃ t, exec (.sel 0 a b) s = .next t ∧ s.Retires t 4 s.own

/-- For BEQ, BNE, BLT, BGE, BLTN and BGEN: when the relation of xd and xa holds, PC becomes PC + sext(offset) × 4 and the
open convoy ends; when it does not, PC advances by the length of the form. No register, flag or byte of memory
changes. LOOP, short and long, writes xd − 1 when xd is not 0; when the new xd is not 0, PC becomes PC + sext(offset)
× 4 and the open convoy ends, else PC advances by the length of the form; LOOP on x0 never branches. Nothing else
changes. (R160, R163, R38, R162) -/
def Obligations.BranchAndLoopResults : Prop :=
  (∀ (d a : Reg) (o : BitVec 14) (v : BitVec 32) (s : State), ∀ e ∈ [
    (Instr.beq d a o, decide (s.x d = s.x a), o.signExtend 64, 4), (.beqLong d a v, decide (s.x d = s.x a), v.signExtend 64, 8),
    (.bne d a o, decide (s.x d ≠ s.x a), o.signExtend 64, 4), (.bneLong d a v, decide (s.x d ≠ s.x a), v.signExtend 64, 8),
    (.blt d a o, (s.x d).slt (s.x a), o.signExtend 64, 4), (.bltLong d a v, (s.x d).slt (s.x a), v.signExtend 64, 8),
    (.bge d a o, (s.x a).sle (s.x d), o.signExtend 64, 4), (.bgeLong d a v, (s.x a).sle (s.x d), v.signExtend 64, 8),
    (.bltn d a o, (s.x d).ult (s.x a), o.signExtend 64, 4), (.bltnLong d a v, (s.x d).ult (s.x a), v.signExtend 64, 8),
    (.bgen d a o, (s.x a).ule (s.x d), o.signExtend 64, 4), (.bgenLong d a v, (s.x a).ule (s.x d), v.signExtend 64, 8)],
    ∃ t, exec e.1 s = .next t ∧
      (e.2.1 = true → s.JumpsTo t (s.own.pc + e.2.2.1 * 4) s.own.closeConvoy) ∧ (e.2.1 = false → s.Retires t e.2.2.2 s.own)) ∧
  (∀ (d : Reg) (o : BitVec 14) (v : BitVec 32) (s : State), ∀ e ∈ [(Instr.loop d o, o.signExtend 64, 4), (.loopLong d v, v.signExtend 64, 8)],
    ∃ t, exec e.1 s = .next t ∧ s.SetsX t d (if s.x d = 0 then 0 else s.x d - 1) ∧
      (s.x d ≠ 0 → s.x d ≠ 1 → s.JumpsTo t (s.own.pc + e.2.1 * 4) { s.own.closeConvoy with x := t.own.x }) ∧
      (s.x d = 0 ∨ s.x d = 1 → s.Retires t e.2.2 { s.own with x := t.own.x }))

/-- JAL writes the address behind it to xd and goes to PC + sext(v) × 4; JALR goes to xa + sext(v), xa read before xd is
written, when that is a multiple of 4 below 2^56, and otherwise raises MISALIGN with TRAPADDR the target and xd
unchanged. Both end the open convoy; nothing else changes. (R161) -/
def Obligations.JumpResults : Prop :=
  ∀ (d a : Reg) (i : BitVec 14) (v : BitVec 32) (s : State),
    (∀ e ∈ [(Instr.jal d i, i.signExtend 64, (4 : Nat)), (.jalLong d v, v.signExtend 64, 8)],
      ∃ t, exec e.1 s = .next t ∧ s.SetsX t d (s.own.pc + BitVec.ofNat 64 e.2.2) ∧
        s.JumpsTo t (s.own.pc + e.2.1 * 4) { s.own.closeConvoy with x := t.own.x }) ∧
    (∀ e ∈ [(Instr.jalr d a i, s.x a + i.signExtend 64, (4 : Nat)), (.jalrLong d a v, s.x a + v.signExtend 64, 8)],
      ∃ t, exec e.1 s = .next t ∧
        (e.2.1.toNat % 4 = 0 → e.2.1.toNat < 2 ^ 56 → s.SetsX t d (s.own.pc + BitVec.ofNat 64 e.2.2) ∧
          s.JumpsTo t e.2.1 { s.own.closeConvoy with x := t.own.x }) ∧
        (e.2.1.toNat % 4 ≠ 0 ∨ 2 ^ 56 ≤ e.2.1.toNat → s.Handles → s.TakesTrap t 3 0 e.2.1 s.own.pc))

/-- Each of FADD, FSUB, FMUL, FDIV, FSQRT, FMIN, FMAX, FFMA and FCMP, and FCVT with an assigned selector, answers, when it
raises no enabled flag, a next state in which xd holds the result of its rule under the rounding mode of VCFG (f32 in
bits 31:0, zeros above), the flags are set in the control thread, and nothing else changes. (R164, R165, R166, R167,
R168, R75, R146) -/
def Obligations.ScalarFloatResults : Prop :=
  ∀ (p : Bool) (c : BitVec 2) (d a b sel : Reg) (s : State), ∀ e ∈ scalarFloatRows p c d a b sel s,
    e.2.2 &&& s.own.xen = 0 →
    ∃ t, exec e.1 s = .next t ∧ s.Retires t 4 { s.own with x := t.own.x, ctlFlags := s.own.ctlFlags ||| e.2.2 } ∧
      s.SetsX t d (BitVec.ofNat 64 e.2.1)

/-- When a scalar float instruction, or a division by 0, raises a flag whose XEN bit is 1, it sets the flag and raises
ARITH precisely at its own address: xd and every other register keep their values, the trap registers are written and
the handler is entered. When an active element of a vector arithmetic, move, root, conversion or function instruction
raises a flag whose XEN bit is 1 and no element before it does, the elements before it are written, the flags up to it
are set in their lanes, and ARITH is raised with TRAPELEM and VRESUME the element; the tag and every other register
keep their values. That the destination's tag keeps its value at an element trap is the model's reading
(notes/assumptions/24). (R150, R77, R88, R85, R188) -/
def Obligations.ArithTraps : Prop :=
  (∀ (p : Bool) (c : BitVec 2) (d a b sel : Reg) (s : State), s.Handles →
    (∀ e ∈ scalarFloatRows p c d a b sel s, e.2.2 &&& s.own.xen ≠ 0 →
      ∃ t, exec e.1 s = .next t ∧ (s.putOwn (s.own.accrue e.2.2)).TakesTrap t 8 0 0 s.own.pc) ∧
    (s.x b = 0 → flagDZ &&& s.own.xen ≠ 0 → ∀ i ∈ [Instr.div d a b, .divn d a b, .rem d a b, .remn d a b],
      ∃ t, exec i s = .next t ∧ (s.putOwn (s.own.accrue flagDZ)).TakesTrap t 8 0 0 s.own.pc)) ∧
  (∀ (p ce : Bool) (k : Option (BitVec 3)) (mk : BitVec 3) (d a b : Reg) (t : Tag) (tk : TokenReq) (s : State),
    ∀ r ∈ arithRows p ce k d a b s.own ++ moveRows p ce k mk d a b s ++ floatRows p ce k d a b t s.own, r.Stops s tk)

/-- CSRR of an assigned CSR, by a group whose level may read it, answers a next state in which xd holds the CSR value, and
nothing else changes but that a read of VXSTAT ends the open convoy. Reads of the trap registers, VL, VCFG, VXSTAT,
XMOD, XCTL, the COLL registers, RETIRED, CYCLE and the scratch registers give the fields that hold them. A CSR write
that passes the checks of R171 answers a next state in which xd holds the old value and the CSR holds the new one
field by field: CSRW writes xa, CSRS the old value or xa, CSRC the old value and not xa, W1C fields taken as 0 first.
It ends the open convoy; a write of LIM changes the cell alone; nothing else changes. An unassigned CSR number raises
ILLEGAL; a CSR above the level of the group raises PRIV; a write of a CSR that takes none, of a reserved bit, or of a
value that its CSR forbids raises ILLEGAL. TRAPADDR holds the words of the instruction, no CSR and no register is
written. That writes of the defect map raise ILLEGAL is the model's choice (notes/assumptions/67). (R170, R172, R174,
R38, R75, R8, R171, R36) -/
def Obligations.CsrAccessResults : Prop :=
  (∀ (d : Reg) (n : BitVec 11) (s : State), csrAssigned n.toNat = true → (csrSupervisor n.toNat = true → s.own.level = .supervisor) →
    (∃ t, exec (.csrr d n) s = .next t ∧
      (n ≠ 0x003 → s.GivesX t d (s.csrRead n.toNat) 4) ∧ (n = 0x003 → s.ClosesGivesX t d (s.csrRead 0x003) 4)) ∧
    ∀ e ∈ [(0x000, BitVec.ofNat 64 s.own.vl), (0x001, s.own.vcfg), (0x002, s.own.vresume),
        (0x003, ((0#34 ++ s.own.xen) ++ (s.own.xfl ++ s.own.mfl)) ++ (0#6 ++ s.own.laneFlags.foldl (fun f g => f ||| g) s.own.ctlFlags)),
        (0x005, s.own.xmod), (0x006, s.own.xctl), (0x010, s.own.collg), (0x011, s.own.collop), (0x012, s.own.collstride),
        (0x020, BitVec.ofNat 64 s.own.grpid), (0x021, BitVec.ofNat 64 s.own.kernid), (0x024, BitVec.ofNat 64 s.own.ngroups), (0x025, s.own.kargs),
        (0x030, BitVec.ofNat 64 (cellCycle (cellOf s.cur) s.clock)), (0x031, s.own.retired), (0x040, s.own.melided), (0x041, s.own.missued),
        (0x100, s.own.trapcause), (0x101, s.own.trappc), (0x102, s.own.trapaddr), (0x103, s.own.trapelem), (0x104, s.own.trapvec),
        (0x105, s.own.trapstat), (0x106, s.own.scratch[0]), (0x107, s.own.scratch[1]), (0x108, s.own.scratch[2]), (0x109, s.own.scratch[3]),
        (0x110, s.own.wdoglim)], s.csrRead e.1 = e.2) ∧
  (∀ (d a : Reg) (n : BitVec 11) (s : State), csrAssigned n.toNat = true → csrNoWrite n.toNat = false →
    ((csrSupervisor n.toNat || n == 0x008) = true → s.own.level = .supervisor) →
    ∀ e ∈ [(Instr.csrw d a n, s.x a), (.csrs d a n, (s.csrRead n.toNat &&& ~~~(csrW1C n.toNat)) ||| s.x a),
        (.csrc d a n, (s.csrRead n.toNat &&& ~~~(csrW1C n.toNat)) &&& ~~~(s.x a))],
    e.2 &&& ~~~(csrFields n.toNat) = 0 → csrValueOk n.toNat e.2 = true →
    ∃ t, exec e.1 s = .next t ∧ s.SetsX t d (s.csrRead n.toNat) ∧
      (n = 0x008 → ({ s with cells := t.cells }).Retires t 4 { s.own.closeConvoy with x := t.own.x } ∧
        (∀ c, c ≠ cellOf s.cur → t.cell c = s.cell c) ∧
        t.cell (cellOf s.cur) = (if setOf s.cur = 0 then { s.cell (cellOf s.cur) with lim0 := some (bits e.2 0 9) }
          else { s.cell (cellOf s.cur) with lim1 := some (bits e.2 0 9) })) ∧
      ∀ r ∈ csrWritten s.own.closeConvoy e.2, n.toNat = r.1 → s.Retires t 4 { r.2 with x := t.own.x }) ∧
  (∀ (d a : Reg) (n : BitVec 11) (s : State), s.Handles →
    (csrAssigned n.toNat = false → ∀ i ∈ [Instr.csrr d n, .csrw d a n, .csrs d a n, .csrc d a n],
      ∃ t, exec i s = .next t ∧ s.TakesTrap t 1 0 s.ir s.own.pc) ∧
    (csrAssigned n.toNat = true → csrSupervisor n.toNat = true → ∀ i ∈ [Instr.csrr d n, .csrw d a n, .csrs d a n, .csrc d a n],
      ∃ t, exec i s = .next t ∧ s.TakesTrap t 2 0 s.ir s.own.pc) ∧
    (n = 0x008 → ∀ i ∈ [Instr.csrw d a n, .csrs d a n, .csrc d a n], ∃ t, exec i s = .next t ∧ s.TakesTrap t 2 0 s.ir s.own.pc) ∧
    (csrAssigned n.toNat = true → csrSupervisor n.toNat = false → n ≠ 0x008 →
      ∀ e ∈ [(Instr.csrw d a n, s.x a), (.csrs d a n, (s.csrRead n.toNat &&& ~~~(csrW1C n.toNat)) ||| s.x a),
        (.csrc d a n, (s.csrRead n.toNat &&& ~~~(csrW1C n.toNat)) &&& ~~~(s.x a))],
      csrNoWrite n.toNat = true ∨ e.2 &&& ~~~(csrFields n.toNat) ≠ 0 ∨ csrValueOk n.toNat e.2 = false →
      ∃ t, exec e.1 s = .next t ∧ s.TakesTrap t 1 0 s.ir s.own.pc))

/-- LD, short and long, of an aligned address whose bytes lie on the die of the group, with nothing of its slice queued
and no load outstanding, answers a next state in which xd holds the bytes read, extended as its width code says; only
xd, PC, the retired count, the convoy and the TLBs change, and no byte of memory. When the last access in the slice
queue that shares a byte with an aligned LD is a plain store of exactly its bytes that translates, LD gives the stored
value although memory does not hold it yet; the store stays queued and keeps the places it translated to, and nothing
else changes. When the data of an LD lie on another die of this module, it retires with a record of its registers;
LOAD_DATA_RETURN then writes xd with the bytes at its place as they stand, or, when they are uncorrectable, puts the
registers back as they were before the load, takes the queued accesses of later instructions back and raises UNCORR at
it. How far a thread runs past a load is the model's reading (notes/assumptions/5), and the forwarding of a queued
store too (notes/assumptions/28). (R157, R158, R159, R334, R364, R233, R331, R487) -/
def Obligations.ScalarLoadValues : Prop :=
  (∀ (w : BitVec 3) (d a : Reg) (n : BitVec 11) (v : BitVec 32) (s : State) (runs : List (Nat × Nat)) (leaf : Nat), w.toNat < 7 →
    ∀ e ∈ [(Instr.ld w d a n, s.x a + n.signExtend 64, 4), (.ldLong w d a v, s.x a + v.signExtend 64, 8)],
    s.LoadReady e.2.1 (loadWidth w.toNat) runs leaf →
    ∃ t, exec e.1 s = .next t ∧
      ({ s with tr := t.tr }).ClosesGivesX t d
        (if w.toNat < 3 then BitVec.ofInt 64 (signedOf (8 * loadWidth w.toNat) (natOfBytes (s.readRuns runs)))
         else BitVec.ofNat 64 (natOfBytes (s.readRuns runs))) e.2.2) ∧
  (∀ (w : BitVec 3) (d a : Reg) (n : BitVec 11) (v : BitVec 32) (s : State) (runs runs2 : List (Nat × Nat)) (leaf leaf2 : Nat)
    (l : List Access) (q : Access), w.toNat < 7 →
    ∀ e ∈ [(Instr.ld w d a n, s.x a + n.signExtend 64, 4), (.ldLong w d a v, s.x a + v.signExtend 64, 8)],
    e.2.1.toNat % loadWidth w.toNat = 0 → s.own.late = none → s.Unhindered →
    s.own.slice (sliceOf e.2.1.toNat) = l ++ [q] → (∀ x ∈ l, x.seq ≠ q.seq) → q.op = .store → q.pa = none → q.va = e.2.1 →
    q.len = loadWidth w.toNat →
    (s.look s.cur .load e.2.1.toNat (loadWidth w.toNat)).2 = .here runs leaf →
    (∀ k : Fin 4, k.val ≠ sliceOf e.2.1.toNat → s.NoneMeets .load e.2.1.toNat (loadWidth w.toNat) runs s.own.slices[k]) →
    ((s.look s.cur .load e.2.1.toNat (loadWidth w.toNat)).1.look s.cur q.needs e.2.1.toNat (loadWidth w.toNat) (queueId q.seq)).2 = .here runs2 leaf2 →
    ∃ t, exec e.1 s = .next t ∧
      (({ s with tr := t.tr }).putOwn (s.own.setSlice (sliceOf e.2.1.toNat) (l ++ [{ q with pa := some runs2 }]))).ClosesGivesX t d
        (loadValue w.toNat (q.data % 2 ^ (8 * loadWidth w.toNat))) e.2.2) ∧
  (∀ (w : BitVec 3) (d a : Reg) (n : BitVec 11) (s : State) (runs : List (Nat × Nat)) (leaf : Nat), w.toNat < 7 →
    s.LoadStands (s.x a + n.signExtend 64) (loadWidth w.toNat) runs leaf → (∀ r ∈ runs, paModule r.1 = false) →
    runsLocal s.cur runs = false ∨ s.lateLoads = true →
    (∃ t, exec (.ld w d a n) s = .next t ∧
      ({ s with tr := t.tr }).Retires t 4 { s.own.closeConvoy with
        late := some {
          pc := s.own.pc, d := d, va := s.x a + n.signExtend 64, w := w.toNat, runs := runs, ckX := s.own.x, ckFlags := s.own.ctlFlags, ckRetired := s.own.retired,
          ckVl := s.own.vl, ckVcfg := s.own.vcfg, ckXmod := s.own.xmod, ckXctl := s.own.xctl, ckColl := (s.own.collg, s.own.collop, s.own.collstride),
          seq := s.own.seq } }) ∧
    ∀ (g : BitVec 12) (u : State) (l : LateLoad), (u.group g.toNat).late = some l → (∀ r ∈ l.runs, paModule r.1 = false) → u.heldRuns g.toNat l.runs = false → u.lostRuns g.toNat l.runs = false →
      (u.runsBad l.runs = false → ∃ t, exec (.loadDataReturn g) u = .next t ∧ u.OnlyGroup t g.toNat ∧
        t.group g.toNat = ({ u.group g.toNat with late := none }).setReg l.d (loadValue l.w (natOfBytes (u.readRuns l.runs)))) ∧
      (u.runsBad l.runs = true → u.Handling g.toNat →
        ∃ t, exec (.loadDataReturn g) u = .next t ∧ u.OnlyGroup t g.toNat ∧ (t.group g.toNat).x = l.ckX ∧ (t.group g.toNat).retired = l.ckRetired ∧
          (t.group g.toNat).vl = l.ckVl ∧ (t.group g.toNat).vcfg = l.ckVcfg ∧
          (∀ q : Fin 4, (t.group g.toNat).slices[q] = ((u.group g.toNat).slices[q]).filter fun a => decide (a.seq < l.seq)) ∧
          (t.group g.toNat).trapcause = 0xC ∧ (t.group g.toNat).trappc = pcField l.pc ∧ (t.group g.toNat).trapaddr = l.va ∧
          (t.group g.toNat).level = .supervisor ∧ (t.group g.toNat).pc = (u.group g.toNat).handler))

/-- ST, short and long, of an aligned address inside its window, with room in the slice queue, retires with an access of
its width and its data at the tail of the queue of its slice; no byte of memory changes yet, and nothing else but PC,
the retired count and the convoy. When the head of slice queue q of a group is a plain store that no earlier access,
element group or engine read of its group holds back and whose address translates to a place on this module that the
group reaches, STORE_PERFORM takes it from the queue, the bytes at that place become its data, and every other byte of
device and host memory reads as before. When its translation fails and no load before it is outstanding, nothing is
written and its record enters the store-fault record queue. (R157, R158, R334, R250, R331, R364, R365) -/
def Obligations.StoreResults : Prop :=
  (∀ (w : BitVec 2) (d a : Reg) (n : BitVec 11) (v : BitVec 32) (s : State),
    ∀ e ∈ [(Instr.st w d a n, s.x a + n.signExtend 64, 4), (.stLong w d a v, s.x a + v.signExtend 64, 8)],
    e.2.1.toNat % 2 ^ w.toNat = 0 → s.windowOut s.cur e.2.1.toNat (2 ^ w.toNat) = false →
    (s.own.slice (sliceOf e.2.1.toNat)).length < 64 → s.Unhindered →
    ∃ t, exec e.1 s = .next t ∧ s.Retires t e.2.2 (s.own.closeConvoy.enqueue
      { op := .store, va := e.2.1, pa := none, len := 2 ^ w.toNat, data := (s.x d).toNat % 2 ^ (8 * 2 ^ w.toNat), pc := s.own.pc, src := 0
        elem := 0, replica := false, tag := none, seq := 0, hs := none, inst := 0 })) ∧
  (∀ (g : BitVec 12) (q : BitVec 3) (s : State) (a : Access) (rest : List Access), q.toNat < 4 →
    (s.group g.toNat).slice q.toNat = a :: rest → a.op = .store → a.pa = none → a.replica = false →
    s.mustStay g.toNat q.toNat a = false →
    (∀ (pa leaf : Nat), s.MemCanonical → (s.look g.toNat .store a.va.toNat a.len (queueId a.seq)).2 = .here [(pa, a.len)] leaf → 0 < a.len →
      (s.look g.toNat .store a.va.toNat a.len (queueId a.seq)).1.outOfOrder g.toNat q.toNat a [(pa, a.len)] = false → s.unreachable g.toNat pa = false →
      reachOf g.toNat pa = .local_ ∨ reachOf g.toNat pa = .host →
      ∃ t, exec (.storePerform g q) s = .next t ∧
        ({ s with tr := t.tr, groups := s.groups.put g.toNat ((s.group g.toNat).setSlice q.toNat rest) }).StoresAt t (some g.toNat) pa (toBytes a.len a.data)) ∧
    ∀ sub, (s.look g.toNat .store a.va.toNat a.len (queueId a.seq)).2 = .fail sub → (s.group g.toNat).pastLoad a.seq = false → (s.group g.toNat).over = false → (s.group g.toNat).sfrq.length < 16 →
      ∃ t, exec (.storePerform g q) s = .next t ∧ ({ s with tr := t.tr }).OnlyGroup t g.toNat ∧
        t.group g.toNat = ((s.group g.toNat).setSlice q.toNat rest).addRecord (a.record sub s.clock))

/-- AMOADD, AMOMIN, AMOMAX (signed and unsigned), AMOAND, AMOOR, AMOXOR and AMOSWAP, and AMOCAS whose expected value
matches, of an aligned word on the die of the group answer a next state in which xd holds the old word and the word at
its place holds the new value of R251; every other byte of memory reads as before. AMOCAS that does not match gives
the old word and writes nothing. (R251, R252, R253, R254) -/
def Obligations.AtomicResults : Prop :=
  ∀ (d a b : Reg) (s : State) (pa leaf : Nat) (old : Word), s.MemCanonical → s.AtomicReady (s.x a) pa leaf →
    old = BitVec.ofNat 64 (natOfBytes (s.readAt pa 8)) →
    (∀ e ∈ [(Instr.amoadd d a b, old + s.x b), (.amomin false d a b, if (s.x b).slt old then s.x b else old),
        (.amomin true d a b, if s.x b < old then s.x b else old), (.amomax false d a b, if old.slt (s.x b) then s.x b else old),
        (.amomax true d a b, if old < s.x b then s.x b else old), (.amoand d a b, old &&& s.x b), (.amoor d a b, old ||| s.x b),
        (.amoxor d a b, old ^^^ s.x b), (.amoswap d a b, s.x b)] ++ (if old = s.x d then [(Instr.amocas d a b, s.x b)] else []),
      ∃ t, exec e.1 s = .next t ∧ s.SetsX t d old ∧
        (({ s with tr := t.tr }).putOwn { s.own.closeConvoy with
          x := t.own.x, pc := s.own.pc + 4, retired := s.own.retired + 1, phase := .running, dataWait := none, resume := false }).StoresAt
          t (some s.cur) pa (toBytes 8 e.2.toNat)) ∧
    (old ≠ s.x d → ∃ t, exec (.amocas d a b) s = .next t ∧ ({ s with tr := t.tr }).ClosesGivesX t d old 4)

/-- A misaligned LD or ST, short or long, atomic, LDA, STRL or WFE raises MISALIGN with TRAPADDR its address. LD, LDA, WFE
and the atomics of an address that does not translate raise PAGE_LOAD with the reason, outside their window RANGE, and
of uncorrectable data UNCORR; an atomic on a host-shared page without SYSATOM raises ATOMSCOPE. ST and STRL outside
their window raise RANGE; STRL with a store-fault record on the queue, or whose word does not translate, raises
PAGE_STORE. No register but the trap registers is written. (R158, R253, R343, R344, R96, R88) -/
def Obligations.AccessTraps : Prop :=
  ∀ (w : BitVec 3) (w2 : BitVec 2) (d a b : Reg) (n : BitVec 11) (v : BitVec 32) (u : Bool) (sc : BitVec 3) (s : State), w.toNat < 7 → s.Handles →
    (∀ e ∈ [(Instr.ld w d a n, s.x a + n.signExtend 64, loadWidth w.toNat), (.ldLong w d a v, s.x a + v.signExtend 64, loadWidth w.toNat),
        (.st w2 d a n, s.x a + n.signExtend 64, 2 ^ w2.toNat), (.stLong w2 d a v, s.x a + v.signExtend 64, 2 ^ w2.toNat)],
      e.2.1.toNat % e.2.2 ≠ 0 → ∃ t, exec e.1 s = .next t ∧ s.TakesTrap t 3 0 e.2.1 s.own.pc) ∧
    ((s.x a).toNat % 8 ≠ 0 → ∀ i ∈ [Instr.amoadd d a b, .amomin u d a b, .amomax u d a b, .amoand d a b, .amoor d a b, .amoxor d a b, .amoswap d a b,
        .amocas d a b, .lda d a sc, .strl d a sc, .wfe a b], ∃ t, exec i s = .next t ∧ s.TakesTrap t 3 0 (s.x a) s.own.pc) ∧
    (∀ e ∈ [(Instr.ld w d a n, s.x a + n.signExtend 64, loadWidth w.toNat), (.ldLong w d a v, s.x a + v.signExtend 64, loadWidth w.toNat),
        (.lda d a sc, s.x a, 8), (.wfe a b, s.x a, 8)],
      e.2.1.toNat % e.2.2 = 0 → s.own.late = none →
      (∀ sub, (s.look s.cur .load e.2.1.toNat e.2.2).2 = .fail sub → ∃ t, exec e.1 s = .next t ∧ ({ s with tr := t.tr }).TakesTrap t 4 sub e.2.1 s.own.pc) ∧
      ((s.look s.cur .load e.2.1.toNat e.2.2).2 = .range → ∃ t, exec e.1 s = .next t ∧ ({ s with tr := t.tr }).TakesTrap t 6 0 e.2.1 s.own.pc) ∧
      ∀ runs leaf, s.LoadStands e.2.1 e.2.2 runs leaf → runsLocal s.cur runs = true → s.lateLoads = false → s.runsBad runs = true →
        ∃ t, exec e.1 s = .next t ∧ ({ s with tr := t.tr }).TakesTrap t 12 0 e.2.1 s.own.pc) ∧
    ((s.x a).toNat % 8 = 0 → ∀ i ∈ [Instr.amoadd d a b, .amomin u d a b, .amomax u d a b, .amoand d a b, .amoor d a b, .amoxor d a b, .amoswap d a b,
        .amocas d a b],
      (∀ sub, (s.look s.cur .atomic (s.x a).toNat 8).2 = .fail sub → ∃ t, exec i s = .next t ∧ ({ s with tr := t.tr }).TakesTrap t 4 sub (s.x a) s.own.pc) ∧
      ((s.look s.cur .atomic (s.x a).toNat 8).2 = .range → ∃ t, exec i s = .next t ∧ ({ s with tr := t.tr }).TakesTrap t 6 0 (s.x a) s.own.pc) ∧
      (∀ runs leaf, (s.look s.cur .atomic (s.x a).toNat 8).2 = .here runs leaf → leafHS leaf = true → leafSA leaf = false →
        ∃ t, exec i s = .next t ∧ ({ s with tr := t.tr }).TakesTrap t 10 0 (s.x a) s.own.pc) ∧
      ∀ pa leaf, s.AtomicStands (s.x a) pa leaf → s.badData pa 8 = true →
        ∃ t, exec i s = .next t ∧ ({ s with tr := t.tr }).TakesTrap t 12 0 (s.x a) s.own.pc) ∧
    (∀ e ∈ [(Instr.st w2 d a n, s.x a + n.signExtend 64, 2 ^ w2.toNat), (.stLong w2 d a v, s.x a + v.signExtend 64, 2 ^ w2.toNat), (.strl d a sc, s.x a, 8)],
      e.2.1.toNat % e.2.2 = 0 → s.windowOut s.cur e.2.1.toNat e.2.2 = true →
      ∃ t, exec e.1 s = .next t ∧ s.TakesTrap t 6 0 e.2.1 s.own.pc) ∧
    ((s.x a).toNat % 8 = 0 → s.windowOut s.cur (s.x a).toNat 8 = false → s.Settled →
      (s.own.sfrq ≠ [] → ∃ t, exec (.strl d a sc) s = .next t ∧ s.TakesStoreTrap t s.cur) ∧
      ∀ sub, s.own.sfrq = [] → (s.look s.cur .store (s.x a).toNat 8).2 = .fail sub →
        ∃ t, exec (.strl d a sc) s = .next t ∧
          (({ s with tr := t.tr }).putOwn (s.own.addRecord ((s.releaseAccess (s.x a) (s.x d)).record sub s.clock))).TakesStoreTrap t s.cur)

/-- VADD, VSUB, VMUL, VMULH, VMIN, VMAX, VDIV, VREM, VFMA, VFMS and VNFMA (operands converted to the tag of R64), VSQRT,
VSCALE, VCVT, VRCP, VRSQRT, VEXP2, VLOG2, VEXP, VLOG and VTANH: each, with and without its extension word, answers a
next state when it is legal, nothing holds up its issue and no active element raises an enabled flag: every active
element from the start element on has its new value, every other element, register and tag is as before, the group has
the result tag, flags go to the lanes of their elements, the token is popped, the instruction is a member of its
convoy, PC advances, and nothing else changes. (R64, R187, R188, R189, R203, R206, R179, R316, R205, R207, R212, R213) -/
def Obligations.VectorComputeResults : Prop :=
  (∀ (p ce : Bool) (k : Option (BitVec 3)) (d a b : Reg) (tk : TokenReq) (s : State), ∀ r ∈ arithRows p ce k d a b s.own, r.Gives s tk) ∧
  (∀ (p ce : Bool) (k : Option (BitVec 3)) (d a b : Reg) (t : Tag) (tk : TokenReq) (s : State), ∀ r ∈ floatRows p ce k d a b t s.own, r.Gives s tk)

/-- VMV, VMVX, VID, VMERGE, VABS, VNEG, VAND, VOR, VXOR, VNOT, VCLZ, VPOPC, the six shifts (amounts modulo the width),
VPREFIXPOP, VCONFLICT, VPERM, VSLIDEUP, VSLIDEDN, VZIP and VUNZIP (positions outside the source read 0): each, with
and without its extension word, answers a next state when it is legal, nothing holds up its issue and no active
element raises an enabled flag: every active element from the start element on has its new value, every other element,
register and tag is as before, the group has the result tag, flags go to the lanes of their elements, the token is
popped, the instruction is a member of its convoy, PC advances, and nothing else changes. (R200, R201, R204, R188,
R189, R208, R210, R220, R222, R223) -/
def Obligations.VectorDataResults : Prop :=
  (∀ (p ce : Bool) (k : Option (BitVec 3)) (mk : BitVec 3) (d a b : Reg) (tk : TokenReq) (s : State), ∀ r ∈ moveRows p ce k mk d a b s, r.Gives s tk) ∧
  (∀ (p ce : Bool) (k : Option (BitVec 3)) (d a b : Reg) (tk : TokenReq) (s : State), ∀ r ∈ logicRows p ce k d a b s.own, r.Gives s tk) ∧
  (∀ (ce : Bool) (k : Option (BitVec 3)) (mk : BitVec 3) (d a b : Reg) (tk : TokenReq) (s : State), ∀ r ∈ crossRows ce k mk d a b s, r.Gives s tk)

/-- VSETL with D other than A, or D = A = x0, sets VL to the least of xa and the granted maximum (the maximum with A =
x0), leaves xa − VL in xa and the bytes of VL elements in xd; VCFG writes the chosen fields of VCFG and gives the old
value. Both end the open convoy and change nothing else. VSETL with D = A ≠ 0, and a VCFG that would break a field
rule, raise ILLEGAL. With and without an extension word, VXMV gives one element of va, sign-extended when its tag is
signed, and 0 past VLMAX; MCNT gives the number of set bits of a mask below VL, MFIRST the index of the first or all
ones. Nothing else but the token, the convoy, PC and the retired count changes. VTAG, with and without an extension
word, of a tag under which VL fits gives every register of the group the tag; no bit of a register, no flag and no
other tag changes. (R182, R184, R185, R38, R202, R214, R190, R180, R200) -/
def Obligations.VectorSettingResults : Prop :=
  (∀ (d a b : Reg) (tg : Tag) (s : State),
    (d ≠ a ∨ d = 0 → ∀ top vl : Nat, top = 8192 * s.own.lmul / tagWidth tg * (s.cell (cellOf s.cur)).grant / 8 →
      vl = (if a = 0 then top else min (s.x a).toNat top) →
      ∃ t, exec (.vsetl d a tg) s = .next t ∧ s.Retires t 4 { s.own.closeConvoy with vl := vl, x := t.own.x } ∧
        (d ≠ 0 → t.x d = BitVec.ofNat 64 ((vl * tagWidth tg + 7) / 8)) ∧ (a ≠ 0 → t.x a = BitVec.ofNat 64 ((s.x a).toNat - vl)) ∧
        ∀ r, r ≠ d → r ≠ a → t.x r = s.x r) ∧
    (d = a → d ≠ 0 → s.Handles → ∃ t, exec (.vsetl d a tg) s = .next t ∧ s.TakesTrap t 1 0 s.ir s.own.pc) ∧
    ∀ new : Word, new = (s.own.vcfg &&& ~~~(s.x b)) ||| (s.x a &&& s.x b) →
      (new.toNat < 2048 → bits new 2 3 ≤ 4 → 1 ≤ bits new 5 4 → bits new 5 4 ≤ 8 →
        ∃ t, exec (.vcfg d a b) s = .next t ∧ s.Retires t 4 { s.own.closeConvoy with vcfg := new, x := t.own.x } ∧ s.SetsX t d s.own.vcfg) ∧
      (2048 ≤ new.toNat ∨ 4 < bits new 2 3 ∨ bits new 5 4 < 1 ∨ 8 < bits new 5 4 → s.Handles →
        ∃ t, exec (.vcfg d a b) s = .next t ∧ s.TakesTrap t 1 0 s.ir s.own.pc)) ∧
  (∀ (p ce : Bool) (d a b : Reg) (ma : BitVec 3) (tk : TokenReq) (s : State), ∀ r ∈ scalarVectorRows p ce d a b ma s,
    ∀ e ∈ [(r.1, { r.2.2.1 with len := 4, tk := TokenReq.idle }), (r.2.1 tk, { r.2.2.1 with len := 8, tk := tk })], s.VReady e.2 →
    ∃ t, exec e.1 s = .next t ∧ s.VRetires t e.2 { s.own with x := t.own.x } ∧ s.SetsX t d r.2.2.2) ∧
  (∀ (p ce : Bool) (d : Reg) (tg : Tag) (tk : TokenReq) (s : State), s.own.fits tg = true →
    ∀ e ∈ [(Instr.vtag p ce d tg, vtagHead p ce d tg .idle 4), (.vtagLong p ce d tg tk, vtagHead p ce d tg tk 8)], s.VReady e.2 →
    ∃ t, exec e.1 s = .next t ∧ s.VRetires t e.2 { s.own with vtag := t.own.vtag } ∧ s.own.OnlyVector t.own d tg)

/-- With and without an extension word, each writes its logic into the bits of md below VL and keeps every bit at and
above VL and every other mask. VCMP, with and without an extension word, of an assigned comparison (for residues only
equality) converts its operands to the tag of R64 and writes the truth of the comparison to the bit of each active
element, with its flags in the lanes; every other bit and mask is kept. VADC and VSBC, with and without an extension
word, of integer groups of one width write va ± vb ± carry modulo 2^w to every element below VL and the carry or
borrow out to its mask bit; every other element, register, tag, mask bit and mask is kept, and no flag is set. That
VCMP's length check takes its source tags alone is the model's choice (notes/assumptions/80). (R186, R187, R214, R211,
R64, R206, R209, R189) -/
def Obligations.MaskResults : Prop :=
  (∀ (p ce : Bool) (d a b : BitVec 3) (xb : Reg) (tk : TokenReq) (s : State), ∀ r ∈ maskRows p ce d a b xb s,
    ∀ e ∈ [(r.1, maskHead p ce .idle 4 none r.2.2.1 [d]), (r.2.1 tk, maskHead p ce tk 8 none r.2.2.1 [d])], s.VReady e.2 →
    ∃ t, exec e.1 s = .next t ∧ s.VRetires t e.2 { s.own with m := t.own.m } ∧
      s.own.HasBits t.own d (fun i => if i < s.own.vl then some (r.2.2.2 i) else none)) ∧
  (∀ (p ce : Bool) (k : Option (BitVec 3)) (c : BitVec 3) (d : BitVec 3) (a b : Reg) (tk : TokenReq) (s : State) (tg : Tag) (val : Nat → Bool × BitVec 6),
    promoteTag (s.own.tag a) (s.own.tag b) = some tg → c ≠ 7 → (tg = .q32 → c.toNat ≤ 1) → s.own.fits (s.own.tag a) = true → s.own.fits (s.own.tag b) = true →
    (∀ i, val i = if tg = .q32 then
        ((s.own.el a i % s.own.modulus == s.own.el b i % s.own.modulus) == (c == 0),
         if s.own.el a i ≥ s.own.modulus ∨ s.own.el b i ≥ s.own.modulus then flagMD else 0)
      else
        let x := promoteElem s.own (s.own.tag a) tg (s.own.el a i)
        let y := promoteElem s.own (s.own.tag b) tg (s.own.el b i)
        ((vcompare c tg x.1 y.1).1, (vcompare c tg x.1 y.1).2 ||| x.2 ||| y.2)) →
    (∀ i ∈ s.own.steps k, (val i).2 &&& s.own.xen = 0) →
    ∀ e ∈ [(Instr.vcmp p ce k c d a b, vcmpHead p ce k d a b .idle 4), (.vcmpLong p ce k c d a b tk, vcmpHead p ce k d a b tk 8)], s.VReady e.2 →
    ∃ t, exec e.1 s = .next t ∧ s.VRetires t e.2 { s.own with m := t.own.m, laneFlags := t.own.laneFlags } ∧
      s.own.HasBits t.own d (fun i => if i ∈ s.own.steps k then some (val i).1 else none) ∧
      t.own.laneFlags = s.own.flagsAfter (s.own.widest tg [a, b]) (fun i => (val i).2) (s.own.steps k)) ∧
  (∀ (p ce : Bool) (mk : BitVec 3) (d a b : Reg) (tk : TokenReq) (s : State) (w : Nat), w = tagWidth (s.own.tag a) →
    tagIsInt (s.own.tag a) = true → tagIsInt (s.own.tag b) = true → tagWidth (s.own.tag b) = w → s.own.lengthsOk d (s.own.tag a) [a, b] = true →
    ∀ c : Nat → Int, (∀ i, c i = if (s.own.m[mk.toNat]).getLsbD i then 1 else 0) →
    ∀ q ∈ [(Instr.vadc p ce mk d a b, Instr.vadcLong p ce mk d a b tk, fun i => (s.own.el a i : Int) + s.own.el b i + c i),
        (.vsbc p ce mk d a b, .vsbcLong p ce mk d a b tk, fun i => (s.own.el a i : Int) - s.own.el b i - c i)],
    ∀ e ∈ [(q.1, vcarryHead p ce mk d a b .idle 4), (q.2.1, vcarryHead p ce mk d a b tk 8)],
    s.VReady e.2 → ∃ t, exec e.1 s = .next t ∧ s.VRetires t e.2 { s.own with v := t.own.v, vtag := t.own.vtag, m := t.own.m } ∧
      s.own.OnlyVector t.own d (s.own.tag a) ∧
      s.own.HasElems t.own d w (fun i => if i ∈ s.own.steps none then some (q.2.2 i % (2 ^ w : Nat)).toNat else none) ∧
      s.own.HasBits t.own mk (fun i => if i ∈ s.own.steps none then some (decide (q.2.2 i < 0 ∨ (2 ^ w : Nat) ≤ q.2.2 i)) else none))

/-- VRED, with and without an extension word, converts the active elements to the accumulation format, combines them over
the tree of R78, and writes the value (the identity when no element is active) to element 0 of the group, which takes
the result tag; with VL = 0 no element is written. Flags go to lane 0; every other element and register is kept. VSCAN
and VSCAN.seg, with and without an extension word, from the first element: each active element becomes the fold, in
ascending index, of the active elements of its segment up to itself; a set bit of the segment mask starts a segment.
Flags go to the lanes; every other element and register is kept. The e2m1 identity and the lane of VRED's flags are
the model's choice (notes/assumptions/81), as is the reduction of one NaN (notes/assumptions/66). (R78, R218, R227,
R219, R188) -/
def Obligations.FoldResults : Prop :=
  (∀ (ce : Bool) (k : Option (BitVec 3)) (d a o : Reg) (tk : TokenReq) (s : State) (tg : Tag) (lifted : List (Option (Nat × BitVec 6))) (v : Option Nat × BitVec 6),
    tg = foldTag o.toNat (s.own.tag a) → foldAccepts o.toNat (s.own.tag a) = true → s.own.fits (s.own.tag a) = true → s.own.overlapOk d tg [a] = true →
    lifted = (upFrom 0 s.own.vl).map (fun i => if s.own.active k i then some (foldLift (s.own.tag a) tg s.own.rm s.own.modulus (s.own.el a i)) else none) →
    v = treeFold (foldStep o.toNat tg s.own.rm s.own.sat s.own.modulus) 15 (lifted.map fun x => x.map Prod.fst)
      (lifted.foldl (fun f x => match x with | some q => f ||| q.2 | none => f) 0) →
    v.2 &&& s.own.xen = 0 →
    ∀ e ∈ [(Instr.vred ce k d a o, vredHead s.own ce k d a .idle 4), (.vredLong ce k d a o tk, vredHead s.own ce k d a tk 8)], s.VReady e.2 →
    ∃ t, exec e.1 s = .next t ∧ s.VRetires t e.2 { (s.own.accrueLane 0 v.2) with v := t.own.v, vtag := t.own.vtag } ∧ s.own.OnlyVector t.own d tg ∧
      s.own.HasElems t.own d (tagWidth tg) (fun i => if i = 0 ∧ s.own.vl ≠ 0 then some (v.1.getD (foldUnit o.toNat tg)) else none)) ∧
  (∀ (ce : Bool) (k : Option (BitVec 3)) (mk : BitVec 3) (d a o : Reg) (tk : TokenReq) (s : State) (tg : Tag),
    tg = foldTag o.toNat (s.own.tag a) → foldAccepts o.toNat (s.own.tag a) = true → s.own.lengthsOk d tg [a] = true → s.own.resume = false →
    ∀ q ∈ [(Instr.vscan ce k d a o, Instr.vscanLong ce k d a o tk, k, false), (.vscanSeg ce mk d a o, .vscanSegLong ce mk d a o tk, none, true)],
    ∀ seg : Nat → Bool, (∀ i, seg i = (q.2.2.2 && (s.own.m[mk.toNat]).getLsbD i)) →
    ∀ (y : Nat → Option Nat) (fl : Nat → BitVec 6), y = scanAt o.toNat (s.own.tag a) tg s.own (s.own.active q.2.2.1) seg a →
    fl = scanFlags o.toNat (s.own.tag a) tg s.own (s.own.active q.2.2.1) seg a → (∀ i ∈ s.own.steps q.2.2.1, fl i &&& s.own.xen = 0) →
    ∀ e ∈ [(q.1, vscanHead ce q.2.2.1 (if q.2.2.2 then some mk else none) d a (decide (o.toNat = 0) && tagIsFloat tg) .idle 4),
        (q.2.1, vscanHead ce q.2.2.1 (if q.2.2.2 then some mk else none) d a (decide (o.toNat = 0) && tagIsFloat tg) tk 8)],
    s.VReady e.2 → ∃ t, exec e.1 s = .next t ∧
      s.VRetires t e.2 { s.own with v := t.own.v, vtag := t.own.vtag, laneFlags := s.own.flagsAfter (tagWidth tg) fl (s.own.steps q.2.2.1) } ∧
      s.own.OnlyVector t.own d tg ∧ s.own.HasElems t.own d (tagWidth tg) (fun i => if i ∈ s.own.steps q.2.2.1 then y (i + 1) else none))

/-- VCOMPRESS writes the active elements of va to consecutive elements of vd from 0 up; VEXPAND writes to each active
element of vd the element of va whose index is the number of active elements below it. Every other element and
register is kept, and no flag is set. VTOPK writes to the first min(xb, VL) elements of vd the indexes of the active
candidates in rank order, equals in index order, and all ones where candidates run out. VISECT, VUNION and VMRG pass
over 16 pairs of sorted segments and write each pass with its sentinels. Every other element and register is kept.
(R221, R227, R224, R225, R226) -/
def Obligations.RearrangeResults : Prop :=
  (∀ (ce : Bool) (k : Option (BitVec 3)) (d a : Reg) (tk : TokenReq) (s : State), s.own.lengthsOk d (s.own.tag a) [a] = true →
    ∀ q ∈ [(Instr.vcompress ce k d a, Instr.vcompressLong ce k d a tk, false,
          fun j => (((upFrom 0 s.own.vl).filter (s.own.active k)).map (s.own.el a))[j]?),
        (.vexpand ce k d a, .vexpandLong ce k d a tk, true,
          fun i => if s.own.active k i then some (s.own.el a ((upFrom 0 i).filter (s.own.active k)).length) else none)],
    ∀ e ∈ [(q.1, packHead s.own q.2.2.1 ce k d a .idle 4), (q.2.1, packHead s.own q.2.2.1 ce k d a tk 8)],
    s.VReady e.2 → ∃ t, exec e.1 s = .next t ∧ s.VRetires t e.2 { s.own with v := t.own.v, vtag := t.own.vtag } ∧
      s.own.OnlyVector t.own d (s.own.tag a) ∧ s.own.HasElems t.own d (tagWidth (s.own.tag a)) q.2.2.2) ∧
  (∀ (ce : Bool) (k : Option (BitVec 3)) (d a b : Reg) (tk : TokenReq) (s : State) (ta : Tag), ta = s.own.tag a →
    (ta ≠ .q32 → tagIsInt (s.own.tag d) = true → s.own.lengthsOk d (s.own.tag d) [a] = true →
      ∀ order : List Nat, order = ((((upFrom 0 s.own.vl).filterMap fun i =>
          if s.own.active k i then (rankOf ta (bitOf s.own.vcfg 10) (s.own.el a i)).map fun r => (r, i) else none).foldl (fun l c => rankInsert c l) []).map Prod.snd) →
      ∀ e ∈ [(Instr.vtopk ce k d a b, topkHead s.own ce k d a .idle 4), (.vtopkLong ce k d a b tk, topkHead s.own ce k d a tk 8)], s.VReady e.2 →
      ∃ t, exec e.1 s = .next t ∧ s.VRetires t e.2 { s.own with v := t.own.v, vtag := t.own.vtag } ∧ s.own.OnlyVector t.own d (s.own.tag d) ∧
        s.own.HasElems t.own d (tagWidth (s.own.tag d)) (fun j => if j < min (s.x b).toNat s.own.vl then
          some (match order[j]? with | some i => putInt (s.own.tag d) s.own.sat i | none => 2 ^ tagWidth (s.own.tag d) - 1) else none)) ∧
    (tagIsInt ta = true → s.own.tag b = ta → s.own.vl % 16 = 0 → 2 * s.own.vl ≤ s.own.vlmax ta →
      ∀ q ∈ [(Instr.visect ce d a b, Instr.visectLong ce d a b tk, SetOp.isect), (.vunion ce d a b, .vunionLong ce d a b tk, .union),
          (.vmrg ce d a b, .vmrgLong ce d a b tk, .merge)],
      ∀ e ∈ [(q.1, setsHead s.own ce d a b .idle 4), (q.2.1, setsHead s.own ce d a b tk 8)],
      s.VReady e.2 → ∃ t, exec e.1 s = .next t ∧ s.VRetires t e.2 { s.own with v := t.own.v, vtag := t.own.vtag } ∧ s.own.OnlyVector t.own d ta ∧
        s.own.HasElems t.own d (tagWidth ta) (fun i => if i < 2 * s.own.vl then
          some (wrapTo (tagWidth ta) ((setPass q.2.2 (2 * (s.own.vl / 16)) (segList ta (s.own.vbits a) (i / (2 * (s.own.vl / 16)) * (s.own.vl / 16)) (s.own.vl / 16))
            (segList ta (s.own.vbits b) (i / (2 * (s.own.vl / 16)) * (s.own.vl / 16)) (s.own.vl / 16)))[i % (2 * (s.own.vl / 16))]?.getD (intMax ta))) else none)))

/-- Of the element by element instructions: a group field out of alignment raises ILLEGAL; else a pipe that the open
convoy holds raises CONVOY; else an operand rule broken, or a mask with VL above 8,192, raises ILLEGAL; an instruction
that needs a token from an empty FIFO enters Waiting with its whole effect still to come. TRAPADDR holds the words of
the instruction and no register is written. VMV of a group to which a stream is bound, whose next VL elements have all
been fetched or lie past the pattern, writes to each element of vd the element of the stream in order, 0 past the end
of the pattern; the channel has given VL elements, and nothing else but the usual fields changes. (R36, R39, R187,
R189, R316, R309, R310) -/
def Obligations.VectorIssueResults : Prop :=
  (∀ (p ce : Bool) (k : Option (BitVec 3)) (mk : BitVec 3) (d a b : Reg) (tg : Tag) (tk : TokenReq) (s : State), s.Handles →
    ∀ r ∈ arithRows p ce k d a b s.own ++ moveRows p ce k mk d a b s ++ floatRows p ce k d a b tg s.own ++ logicRows p ce k d a b s.own ++ crossRows ce k mk d a b s,
    ∀ e ∈ r.forms tk,
    ((∃ q ∈ e.2.reads ++ e.2.writes.toList, q.toNat % s.own.lmul ≠ 0) → ∃ t, exec e.1 s = .next t ∧ s.TakesTrap t 1 0 s.ir s.own.pc) ∧
    ((∀ q ∈ e.2.reads ++ e.2.writes.toList, q.toNat % s.own.lmul = 0) →
      (e.2.pipe ∈ s.own.openPipes → ∃ t, exec e.1 s = .next t ∧ s.TakesTrap t 17 0 s.ir s.own.pc) ∧
      (e.2.pipe ∉ s.own.openPipes → r.legal = false ∨ ((e.2.mask.isSome || e.2.usesMask) = true ∧ 8192 < s.own.vl) →
        ∃ t, exec e.1 s = .next t ∧ s.TakesTrap t 1 0 s.ir s.own.pc)) ∧
    ∀ f, e.2.tk.pop = some f → s.own.fifos[f.toNat] = 0 → r.legal = true → s.VReady { e.2 with tk := { e.2.tk with pop := none } } →
      ∃ t, exec e.1 s = .next t ∧ s.OnlyGroup t s.cur ∧ t.own = { s.own with phase := .waiting (.vecToken f), wdog := 0 }) ∧
  (∀ (p ce : Bool) (d a : Reg) (s : State) (n : Nat) (c : Channel), n < 16 → s.own.boundTo a = some n → s.own.chan[n]? = some c → c.held = [] →
    8 * c.esz = tagWidth (s.own.tag a) → s.own.boundOk [a] (some d) = true → s.own.lengthsOk d (s.own.tag a) [a] = true → s.own.resume = false →
    a.toNat % s.own.lmul = 0 → d.toNat % s.own.lmul = 0 → aluPipe p ∉ s.own.openPipes → s.own.vqFull = false →
    (∀ i < s.own.vl, c.taken + i < c.total → (c.buf.find? fun q => q.1 == c.taken + i).isSome = true) →
    (∀ m < 16, m ≠ n → ∀ q ∈ (s.own.chan[m]?.map Channel.held).getD [], q.pc ≠ s.own.pc) →
    ∃ t, exec (.vmv p ce none d a) s = .next t ∧
      s.VRetires t (aluHead p ce none .idle 4 [a] (some d) Timing.move) { s.own with v := t.own.v, vtag := t.own.vtag, chan := (s.own.chan.setIfInBounds n
        { c with taken := c.taken + s.own.vl, buf := c.buf.filter fun q => decide (c.taken + s.own.vl ≤ q.1) }) } ∧
      s.own.OnlyVector t.own d (s.own.tag a) ∧
      s.own.HasElems t.own d (tagWidth (s.own.tag a)) (fun i => if i < s.own.vl then
        some (if c.total ≤ c.taken + i then 0 else ((c.buf.find? fun q => q.1 == c.taken + i).map Prod.snd).getD 0) else none))

/-- VLD, VLDS and VLDX, with and without an extension word, whose active elements pass the checks of R241 and lie on the
own die: each active element becomes the bytes at its address, converted from the memory tag where the form asks for
it. Where a window ends before an element and an active element lies before it, VL becomes that index; where none
does, or the base lies in no window, RANGE is taken with TRAPELEM 0 and nothing is written. Where an element fails a
check, its trap is taken with TRAPELEM and VRESUME the element. No memory changes. The flag lane of a converted
element, at the widest of memory element, index group and result, is the model's reading (notes/assumptions/79).
(R231, R239, R240, R241, R242, R55) -/
def Obligations.VectorLoadResults : Prop :=
  ∀ (ce : Bool) (k : Option (BitVec 3)) (d a b : Reg) (tk : TokenReq) (mtag : BitVec 4) (cv : Bool) (te : Option Tag) (s : State),
    ∀ q ∈ loadRows ce k d a b tk mtag cv te s, ∀ (tg mt : Tag), tg = q.2.2.2.2.2.getD (s.own.tag d) → mt = q.2.2.2.2.1.getD tg →
    (q.2.2.2.2.1.isSome = true → q.2.2.2.2.2.isSome = true ∧ convertible mt tg = true) → q.2.1.legal s.own mt = true → s.own.lengthsOk d tg q.2.1.index = true →
    ∀ (h : VHead), h = loadHead q.2.1 ce k d (inWindow (s.x a).toNat) q.2.2.2.1 q.2.2.1 →
    s.VReady h → s.Quiet → s.lateLoads = false → ∀ (l : List VElem) (w : WalkEnd) (val : VElem → Nat × BitVec 6),
    (s.walk (loadRule mt) (s.own.active k) (s.elemAt q.2.1 a mt) s.own.vl).2 = (l, w) →
    (∀ r ∈ allRuns l, reachOf s.cur r.1 = .local_ ∧ s.badData r.1 r.2 = false) →
    (∀ e, val e = if q.2.2.2.2.1.isSome then convert mt tg s.own.rm s.own.sat s.own.modulus (elemBits mt e.i (s.readRuns e.runs))
      else (elemBits mt e.i (s.readRuns e.runs), 0)) → (∀ e ∈ l, (val e).2 &&& s.own.xen = 0) →
    (∀ vl, w = .all ∧ vl = s.own.vl ∨ (∃ va, w = .range vl va) ∧ inWindow (s.x a).toNat = true ∧ (∃ i < vl, s.own.active k i = true) →
      ∃ t, exec q.1 s = .next t ∧ ({ s with tr := t.tr }).VRetires t h { s.own with v := t.own.v, vtag := t.own.vtag, laneFlags := t.own.laneFlags, vl := vl } ∧
        s.own.OnlyVector t.own d tg ∧ s.own.HasElems t.own d (tagWidth tg) (fun i => (l.find? fun e => e.i == i).map fun e => (val e).1) ∧
        t.own.laneFlags = (l.foldl (fun G e => G.accrueLane (laneOf (max (tagWidth mt) (s.own.widest tg q.2.1.index)) e.i) (val e).2) s.own).laneFlags) ∧
    (∀ i va, w = .range i va → inWindow (s.x a).toNat = false ∨ (∀ j < i, s.own.active k j = false) → s.Handles →
      ∃ t, exec q.1 s = .next t ∧ ({ s with tr := t.tr }).OnlyGroup t s.cur ∧ t.own.v = s.own.v ∧ t.own.vtag = s.own.vtag ∧ t.own.vl = s.own.vl ∧
        t.own.trapcause = 6 ∧ t.own.trapaddr = va ∧ t.own.trapelem = 0 ∧ t.own.trapstat = 8 ∧ t.own.trappc = pcField s.own.pc ∧
        t.own.vresume = vresumeAt 0 ∧ t.own.level = .supervisor ∧ t.own.pc = s.own.handler) ∧
    ∀ st, w = .stop st → st.code ≠ 0xF → s.Handles → ∃ t, exec q.1 s = .next t ∧ ({ s with tr := t.tr }).OnlyGroup t s.cur ∧
      t.own.trapcause = BitVec.ofNat 64 (st.code + st.sub * 256) ∧ t.own.trapaddr = st.addr ∧ t.own.trapelem = BitVec.ofNat 64 st.e ∧
      t.own.trappc = pcField s.own.pc ∧ t.own.vresume = vresumeAt st.e ∧ t.own.level = .supervisor ∧ t.own.pc = s.own.handler

/-- VST (with COLLG.EN clear), VSTS, VSTX, the VSTXA updates and VSTB, with and without an extension word, whose active
elements pass the checks of R241: one access of the width of the element, its data and its index enters the queue of
its slice for each active element in ascending order (VSTB: one byte for each enabled byte), marked with the first
access of the instruction where its page is host-shared. No memory changes yet, and nothing else but the usual fields.
That all accesses are listed in their queues in one step is the model's choice (notes/assumptions/19), and so is where
VSTB goes on after a trap (notes/assumptions/82). (R241, R244, R245, R246, R247, R334) -/
def Obligations.VectorStoreResults : Prop :=
  ∀ (ce : Bool) (k : Option (BitVec 3)) (mk : BitVec 3) (d a b : Reg) (tk : TokenReq) (s : State), s.Quiet →
    (∀ q ∈ storeRows ce k d a b tk s, ∀ (tg : Tag), tg = s.own.tag d → (q.1 ∈ [Instr.vst ce k d a, .vstLong ce k d a tk] → bitOf s.own.collg 0 = false) →
      (q.2.2.2.2.isSome = true → tg ≠ .q32 ∧ (tagIsInt tg = true ∨ 16 ≤ tagWidth tg)) → q.2.1.legal s.own tg = true → (∀ r ∈ d :: q.2.1.index, s.own.fits (s.own.tag r) = true) →
      ∀ (h : VHead), h = storeHead q.2.1 ce k d q.2.2.2.1 q.2.2.1 →
      s.VReady h → ∀ l : List VElem,
      (s.walk { kind := if q.2.2.2.2.isSome then .atomic else .store, late := q.2.2.2.2.isNone, bytes := elemBytes tg, align := elemBytes tg
                distinct := !q.2.1.index.isEmpty && q.2.2.2.2.isNone, atomic := q.2.2.2.2.isSome } (s.own.active k) (s.elemAt q.2.1 a tg) s.own.vl).2 = (l, .all) →
      ∃ t, exec q.1 s = .next t ∧ ({ s with tr := t.tr }).VRetires t { h with first := some s.own.seq } (l.foldl (fun (G : Group) (e : VElem) => G.enqueue
        { op := (match q.2.2.2.2 with | some o => .scatter o tg | none => if tg = Tag.e2m1 then .nibble (decide (e.i % 2 = 1)) else .store), va := e.va
          pa := if q.2.2.2.2.isSome then some e.runs else none, len := elemBytes tg, data := s.own.el d e.i, pc := s.own.pc, src := 1
          elem := e.i, replica := false, tag := some tg, seq := 0, hs := if leafHS e.leaf then some s.own.seq else none, inst := s.own.seq }) s.own)) ∧
    (s.own.fits (s.own.tag d) = true →
      ∀ q ∈ [(Instr.vstb ce mk d a, 4, TokenReq.idle), (.vstbLong ce mk d a tk, 8, tk)],
      ∀ (h : VHead), h = vstbHead s.own ce mk d q.2.2 q.2.1 →
      s.VReady h → ∀ (l : List VElem) (from_ : Nat), from_ = vstbStart (s.own.tag d) s.own.startElem →
      (s.walkElems { kind := .store, late := true, bytes := 1, align := 1, distinct := false, atomic := false } (bitAtNat (s.own.mask mk))
        (fun j => s.x a + BitVec.ofNat 64 j) none ((s.own.vl * tagWidth (s.own.tag d) + 7) / 8 - from_) from_ []).2 = (l, .all) →
      ∃ t, exec q.1 s = .next t ∧ ({ s with tr := t.tr }).VRetires t { h with first := some s.own.seq } (l.foldl (fun (G : Group) (e : VElem) => G.enqueue
        { op := .store, va := e.va, pa := none, len := 1, data := elemOf (s.own.vbits d) 8 e.i, pc := s.own.pc, src := 2
          elem := e.i, replica := false, tag := some (s.own.tag d), seq := 0, hs := if leafHS e.leaf then some s.own.seq else none, inst := s.own.seq }) s.own))

/-- PFETCH, with and without an extension word, changes nothing but the usual fields and what translation holds; with xb
inside one granule whose page neither the TLB nor the miss table of the die holds, the miss table gains its entry. A
collective contribution of a group whose rank stands on its die, all of whose elements lie on its die, with fewer than
four outstanding, adds an entry with the elements and their places to the collective unit, counts it, and sends it to
the ranks of other modules, in the slot set that the aperture entry for the module names. (R249, R417, R418, R419,
R421) -/
def Obligations.PrefetchAndContributionResults : Prop :=
  (∀ (ce : Bool) (a b : Reg) (tk : TokenReq) (s : State), ∀ e ∈ [(Instr.pfetch ce a b, 4, TokenReq.idle), (.pfetchLong ce a b tk, 8, tk)],
      ∀ h : VHead, h = pfetchHead ce e.2.2 e.2.1 → s.VReady h →
      (∃ t, exec e.1 s = .next t ∧ ({ s with tr := t.tr }).VRetires t h s.own) ∧
      ∀ im : Image, (s.slotSet (setOf s.cur)).img = some im → (s.x a).toNat < 0xF0 * 2 ^ 48 → (s.x b).toNat ≠ 0 → (s.x a).toNat % 4096 + (s.x b).toNat ≤ 4096 →
        tlbHit (s.tr.dies.findD (dieOf s.cur) []) im.num (s.x a).toNat = none →
        (∀ m ∈ s.tr.misses.findD (dieOf s.cur) [], ¬ (m.set = setOf s.cur ∧ m.granule = (s.x a).toNat / 4096)) → (s.tr.misses.findD (dieOf s.cur) []).length < 4096 →
        ∃ t, exec e.1 s = .next t ∧ t.tr.misses.findD (dieOf s.cur) [] = s.tr.misses.findD (dieOf s.cur) [] ++
          [{ set := setOf s.cur, granule := (s.x a).toNat / 4096, request := none, kind := 0, idle := true, answer := none, joined := [] }]) ∧
    ∀ (ce : Bool) (d a : Reg) (s : State) (tg : Tag) (c : RemoteContribution) (l : List VElem), tg = s.own.tag d → c = s.own.contribution s.cur tg ((upFrom 0 s.own.vl).map (s.own.el d)) →
      s.Quiet → foldAccepts c.op tg = true → tg ≠ .q32 → tg ≠ .e2m1 → s.own.fits tg = true → c.rank ≤ c.nrm1 →
      rankDie c.base c.stride c.rank = 8 * ownModule + dieOf s.cur → (s.own.collIssued - s.own.collDone).toNat < 4 →
      ∀ h : VHead, h = storeHead .unit ce none d .idle 4 → s.VReady h →
      (s.walkElems { kind := .store, late := false, bytes := elemBytes tg, align := elemBytes tg, distinct := false, atomic := true } (s.own.active none)
        (s.elemAt .unit a tg) none s.own.vl 0 []).2 = (l, .all) →
      (∀ r ∈ allRuns l, reachOf s.cur r.1 = .local_) → (∀ f ∈ farDies c, s.noExit (dieOf s.cur) (f / 8) = false) →
      (∀ f ∈ nearDies c, s.noRoute (dieOf s.cur) f = false) →
      ∀ i ∈ (if bitOf s.own.collg 0 then [Instr.vst ce none d a] else []) ++ [Instr.collectiveContribution ce d a], ∃ t, exec i s = .next t ∧
        t.colls = s.colls ++ [{ group := some s.cur, num := s.own.collIssued.toNat, from_ := c, buffer := s.x a, runs := allRuns l, failed := none, done := false }] ∧
        t.out = s.out ++ (farDies c).map (fun f => .contribution f { c with set := s.setOn s.cur f }) ∧
        ({ s with tr := t.tr, colls := t.colls, out := t.out, outAt := t.outAt }).VRetires t h { s.own with collIssued := s.own.collIssued + 1 }

/-- TLD, BLD, BST and ACCST, short and long, whose registers and tile are the own ones of the group, whose addresses are
aligned and whose rows translate, with fewer than 64 entries in the queue of the cell, put an entry with the operands
as read at its tail and go on; no tile, accumulator, register or byte of memory changes yet. TMV, ACCMV and AZERO,
short and long, and MMA, MMAZ, MMAI and MMAS, whose registers and tile belong to the group and whose tags and pairs
are those of their rules, put an entry with the operands as read at the tail of the queue of the cell (ACCMV gives its
group of registers the tag there); a multiply whose tile number lies past the B-store part raises RANGE at the address
of the tile, and one whose registers are not the own ones ILLEGAL. TCLASS of an own tile register, accumulator or
valid B-store tile that no pending entry or store writes gives its directory entry, and all ones for one that is not
the own; MSYNC goes on when the group has no matrix entry and stays at its instruction while it has one. Both end the
open convoy; nothing else changes. (R257, R262, R273, R274, R275, R276, R277, R278, R279, R280, R258, R282) -/
def Obligations.TileInstructionResults : Prop :=
  (∀ (d3 a3 : BitVec 3) (d2 : BitVec 2) (d a b : Reg) (tk : TokenReq) (ot : Tag) (s : State), (s.cell (cellOf s.cur)).mq.length < 64 →
    ∀ rows : List (Word × List (Nat × Nat)),
    (d3.toNat < s.own.hold.tiles → (s.x a).toNat % 16 = 0 → (s.x b).toNat % 16 = 0 → (s.rowPlaces .load false 48 (rowAddrs (s.x a) (s.x b)) []).2 = some (.ok rows) →
      ∀ e ∈ [(Instr.tld d3 a b, TokenReq.idle, Tag.e4m3, 4), (.tldLong d3 a b tk ot, tk, ot, 8)],
      ∃ t, exec e.1 s = .next t ∧ s.Posts t e.2.2.2 s.own (s.withEntry (s.newEntry (.tld d3 (s.x a) (s.x b) e.2.2.1) rows e.2.1))) ∧
    ((s.x a).toNat % 16 = 0 → 1536 * ((s.x d).toNat + 1) ≤ s.own.hold.bstore →
      (s.rowPlaces .load false 128 ((upFrom 0 12).map fun i => s.x a + BitVec.ofNat 64 (128 * i)) []).2 = some (.ok rows) →
      ∀ e ∈ [(Instr.bld d a, TokenReq.idle, Tag.e4m3, 4), (.bldLong d a tk ot, tk, ot, 8)],
      ∃ t, exec e.1 s = .next t ∧ s.Posts t e.2.2.2 s.own (s.withEntry (s.newEntry (.bld (s.x d).toNat (s.x a) e.2.2.1) rows e.2.1))) ∧
    (a3.toNat % 2 = 0 → a3.toNat + 1 < s.own.hold.tiles → 1536 * ((s.x d).toNat + 1) ≤ s.own.hold.bstore →
      ∀ e ∈ [(Instr.bst d a3, TokenReq.idle, 4), (.bstLong d a3 tk, tk, 8)],
      ∃ t, exec e.1 s = .next t ∧ s.Posts t e.2.2 s.own (s.withEntry (s.newEntry (.bst (s.x d).toNat a3) [] e.2.1))) ∧
    (d2.toNat < s.own.hold.accs → (s.x a).toNat % 16 = 0 → (s.x b).toNat % 16 = 0 → (s.rowPlaces .store true 128 (rowAddrs (s.x a) (s.x b)) []).2 = some (.ok rows) →
      ∀ e ∈ [(Instr.accst d2 a b, TokenReq.idle, 4), (.accstLong d2 a b tk, tk, 8)],
      ∃ t, exec e.1 s = .next t ∧ s.Posts t e.2.2 s.own (s.withEntry (s.newEntry (.accst d2 (s.x a) (s.x b)) [] e.2.1)))) ∧
  (∀ (a3 d3 : BitVec 3) (d2 : BitVec 2) (d a b : Reg) (tk : TokenReq) (tg ta tb : Tag) (sct : Option (BitVec 3)) (s : State), (s.cell (cellOf s.cur)).mq.length < 64 →
    (d3.toNat < s.own.hold.tiles → a.toNat % s.own.lmul = 0 → s.own.boundOk [] (some a) = true →
      ∀ e ∈ [(Instr.tmv d3 a, TokenReq.idle, 4), (.tmvLong d3 a tk, tk, 8)],
      ∃ t, exec e.1 s = .next t ∧ s.Posts t e.2.2 s.own (s.withEntry (s.newEntry (.tmv d3 (BitVec.ofNat 6144 (s.own.vbits a)) (s.own.tag a)) [] e.2.1))) ∧
    (d2.toNat < s.own.hold.accs → d.toNat % s.own.lmul = 0 → s.own.boundOk [] (some d) = true →
      (if s.accTagAt s.cur d2.toNat = .f64 then 256 else 512) * tagWidth tg ≤ 8192 * s.own.lmul → (tg = .q32 → s.accTagAt s.cur d2.toNat = .s32) →
      ∀ e ∈ [(Instr.accmv d d2 tg, TokenReq.idle, 4), (.accmvLong d d2 tg tk, tk, 8)],
      ∃ t, exec e.1 s = .next t ∧ s.Posts t e.2.2 (s.own.setTag d tg) (s.withEntry (s.newEntry (.accmv d d2 tg) [] e.2.1))) ∧
    (d2.toNat < s.own.hold.accs → tg = .f32 ∨ tg = .s32 ∨ (tg = .f64 ∧ d2.toNat % 2 = 0 ∧ d2.toNat + 1 < s.own.hold.accs) →
      ∀ e ∈ [(Instr.azero d2 tg, TokenReq.idle, 4), (.azeroLong d2 tg tk, tk, 8)],
      ∃ t, exec e.1 s = .next t ∧ s.Posts t e.2.2 s.own (s.withEntry (s.newEntry (.azero d2 tg) [] e.2.1))) ∧
    ∀ q ∈ [(Instr.mma d2 a3 b tk ta tb sct, (0 : BitVec 2)), (.mmaz d2 a3 b tk ta tb sct, 1), (.mmai d2 a3 b tk ta tb sct, 2), (.mmas d2 a3 b tk ta tb sct, 3)],
      (d2.toNat < s.own.hold.accs → a3.toNat < s.own.hold.tiles → (∀ k, sct = some k → k.toNat < s.own.hold.tiles) → mulTagsOk q.2 ta tb = true →
        (sct.isSome = true → q.2 = 0 ∨ q.2 = 1) → (q.2 = 3 → d2.toNat % 2 = 0 ∧ d2.toNat + 1 < s.own.hold.accs) →
        (1536 * ((s.x b).toNat + 1) ≤ s.own.hold.bstore →
          ∃ t, exec q.1 s = .next t ∧ s.Posts t 8 s.own (s.withEntry (s.newEntry (.mul q.2 d2 a3 (s.x b).toNat ta tb sct) [] tk))) ∧
        (s.own.hold.bstore < 1536 * ((s.x b).toNat + 1) → s.Handles →
          ∃ t, exec q.1 s = .next t ∧ s.TakesTrap t 6 0 (0x00F2000000000000 + s.x b * 1536) s.own.pc)) ∧
      (s.own.hold.accs ≤ d2.toNat ∨ s.own.hold.tiles ≤ a3.toNat → s.Handles → ∃ t, exec q.1 s = .next t ∧ s.TakesTrap t 1 0 s.ir s.own.pc)) ∧
  (∀ (d a : Reg) (s : State), s.entriesOf s.cur = [] →
    (∀ n kind, n = bits (s.x a) 0 16 → kind = bits (s.x a) 16 2 → 
      (bits (s.x a) 18 46 = 0 → kind = 0 → n < s.own.hold.tiles → ∀ h : n < 8, ∃ t, exec (.tclass d a) s = .next t ∧ s.ClosesGivesX t d (s.own.tdir[n]).word 4) ∧
      (bits (s.x a) 18 46 = 0 → kind = 1 → n < s.own.hold.accs → ∀ h : n < 4, ∃ t, exec (.tclass d a) s = .next t ∧ s.ClosesGivesX t d (s.own.adir[n]).word 4) ∧
      (bits (s.x a) 18 46 = 0 → kind = 2 → 1536 * (n + 1) ≤ s.own.hold.bstore → s.Quiet → s.own.async = [] →
        ∀ key rest, runTiles ((s.window s.cur 0xF2 (n * 1536) 1536).getD []) = key :: rest →
        ∃ t, exec (.tclass d a) s = .next t ∧ s.ClosesGivesX t d (s.bdir.findD key (TileEntry.zero .e4m3)).word 4) ∧
      (bits (s.x a) 18 46 ≠ 0 ∨ kind = 3 ∨ (kind = 0 ∧ s.own.hold.tiles ≤ n) ∨ (kind = 1 ∧ s.own.hold.accs ≤ n) ∨ (kind = 2 ∧ s.own.hold.bstore < 1536 * (n + 1)) →
        ∃ t, exec (.tclass d a) s = .next t ∧ s.ClosesGivesX t d (BitVec.allOnes 64) 4)) ∧
    (∃ t, exec .msync s = .next t ∧ s.Retires t 4 s.own.closeConvoy) ∧
    ∀ u : State, u.entriesOf u.cur ≠ [] → ∃ t, exec .msync u = .next t ∧ u.OnlyGroup t u.cur ∧ t.own = u.own.closeConvoy)

/-- XTWID, XSTAGE, XPERM, XPOINT and XNORM with LOGN other than 0 (at least 5 in mode BFP), whose own rules hold, whose
regions are aligned and lie inside the parts of the group, with fewer than 16 entries queued, put an entry with the
operands, XCTL, XMOD and the regions that it reads at the tail of the transform queue; a misaligned region raises
MISALIGN at its base, and a broken rule ILLEGAL. No byte of memory changes yet. XCFG writes the chosen fields of XCTL
and gives the old value. XMODCHK, when the group has no transform entry, merges, checks 2 × 2^LOGN × MAXA × MAXB
against XMOD (MODCHK SUB 1, SUB 2 when PMARK is set; nothing written), clears on request and gives the merged maxima.
XSYNC goes on when the entries have retired and their writes are performed. All end the open convoy. (R286, R288,
R296, R297, R300, R301, R302, R303, R73, R304, R305, R306) -/
def Obligations.TransformInstructionResults : Prop :=
  (∀ (d a b : Reg) (tk : TokenReq) (sp : BitVec 5) (quad dit tm : Bool) (rc dir : BitVec 2) (conj bc : Bool) (s : State),
    ∀ r ∈ transformRows d a b tk sp quad dit tm rc dir conj bc s,
    (bits s.own.xctl 0 5 ≠ 0 → (bits s.own.xctl 5 2 = 1 → 5 ≤ bits s.own.xctl 0 5) → r.2.2.1 →
      ((∀ q ∈ r.2.2.2, q.1.toNat % 16 = 0 ∧ s.RegionIn q) → ((s.cell (cellOf s.cur)).tq (setOf s.cur)).length < 16 →
        ∃ t, exec r.1 s = .next t ∧ s.Posts t 8 s.own (s.withTransform (s.newTransform r.2.1 tk (r.2.2.2.drop (match r.2.1 with | .stage .. => 0 | _ => 1))))) ∧
      ((s.x d).toNat % 16 ≠ 0 → s.Handles → ∃ t, exec r.1 s = .next t ∧ s.TakesTrap t 3 0 (s.x d) s.own.pc)) ∧
    (bits s.own.xctl 0 5 = 0 ∨ (bits s.own.xctl 5 2 = 1 ∧ bits s.own.xctl 0 5 < 5) ∨ ¬ r.2.2.1 → s.Handles →
      ∃ t, exec r.1 s = .next t ∧ s.TakesTrap t 1 0 s.ir s.own.pc)) ∧
  (∀ (d a b : Reg) (s : State),
    (∀ new : Word, new = (s.own.xctl &&& ~~~(s.x b)) ||| (s.x a &&& s.x b) → new.toNat < 128 → bits new 5 2 ≤ 2 → bits new 0 5 ≤ 24 →
      ∃ t, exec (.xcfg d a b) s = .next t ∧ s.Retires t 4 { s.own.closeConvoy with xctl := new, x := t.own.x } ∧ s.SetsX t d s.own.xctl) ∧
    (s.transformsOf s.cur = [] → ∀ ma mb : Nat, ma = (if bitOf (s.x a) 60 then max s.own.maxa.toNat (bits (s.x a) 0 30) else s.own.maxa.toNat) →
      mb = (if bitOf (s.x a) 60 then max s.own.maxb.toNat (bits (s.x a) 30 30) else s.own.maxb.toNat) →
      (bitOf (s.x a) 61 = true ∨ (s.own.pmark = false ∧ 2 * 2 ^ bits s.own.xctl 0 5 * ma * mb < bits s.own.xmod 0 31) →
        ∃ t, exec (.xmodchk d a) s = .next t ∧ s.SetsX t d (BitVec.ofNat 64 (mb * 2 ^ 30 + ma)) ∧
          s.Retires t 4 (if bitOf (s.x a) 62 then { s.own.closeConvoy with maxa := 0, maxb := 0, pmark := false, x := t.own.x }
            else { s.own.closeConvoy with maxa := BitVec.ofNat 30 ma, maxb := BitVec.ofNat 30 mb, x := t.own.x })) ∧
      (bitOf (s.x a) 61 = false → s.Handles →
        (s.own.pmark = true → ∃ t, exec (.xmodchk d a) s = .next t ∧ s.TakesTrap t 9 2 0 s.own.pc) ∧
        (s.own.pmark = false → bits s.own.xmod 0 31 ≤ 2 * 2 ^ bits s.own.xctl 0 5 * ma * mb →
          ∃ t, exec (.xmodchk d a) s = .next t ∧ s.TakesTrap t 9 1 0 s.own.pc)) ∧
      (s.own.async = [] → ∃ t, exec .xsync s = .next t ∧ s.Retires t 4 s.own.closeConvoy)) ∧
    (s.transformsOf s.cur ≠ [] → ∃ t, exec .xsync s = .next t ∧ s.OnlyGroup t s.cur ∧ t.own = s.own.closeConvoy))

/-- SBIND and SCOPY of a Free channel of the group whose descriptor and rules pass the checks of R317 leave the channel
Bound or Copying with the pattern of the descriptor; SUNBIND frees a channel whose requests have landed and whose
tokens are pushed, and otherwise stays at its instruction while the channel requests nothing more; SWMARK releases
bytes of a ring and gives the watermark; SWAIT gives its answer, or enters Waiting while the copy is short of the
target. TKPUSH, when the earlier loads, stores and atomics of the group are performed and the FIFO holds fewer than
255 tokens, adds one and goes on; TKPOP takes one when no write of the asynchronous path of the group is outstanding,
and with an empty FIFO enters Waiting. Both end the open convoy; nothing else changes. (R307, R308, R309, R311, R317,
R318, R316, R38) -/
def Obligations.StreamAndTokenResults : Prop :=
  (∀ (d a b : Reg) (ch : BitVec 4) (tg : Tag) (esz : BitVec 3) (dep : BitVec 8) (tke : Bool) (tkf : BitVec 4) (s : State), ch.toNat < s.own.hold.chans →
    (s.Quiet → (s.own.chan[ch.toNat]).st = .free → (s.x b).toNat % 16 = 0 → ∀ runs leaf, (s.look s.cur .load (s.x b).toNat 48).2 = .here runs leaf →
      runsLocal s.cur runs = true → s.runsBad runs = false → ∀ c : Channel,
      (tg ≠ .e2m1 → d.toNat % s.own.lmul = 0 → s.own.boundOk [] (some d) = true →
        c = Channel.withPattern { Channel.free with st := .bound, base := s.x a, esz := tagWidth tg / 8, tag := tg, vd := d, lmul := s.own.lmul } (s.readRuns runs) →
        c.sizeOk = true → c.alignOk = true → ∃ t, exec (.sbind d a b ch tg) s = .next t ∧
          ({ s with tr := t.tr }).Retires t 8 ((s.own.closeConvoy.setChan ch.toNat c).setTag d tg)) ∧
      (c = Channel.withPattern { Channel.free with st := .copying, base := s.x a, esz := 2 ^ esz.toNat, dst := s.x d, depth := dep.toNat, tke := tke, tkf := tkf }
          (s.readRuns runs) → c.sizeOk = true → c.alignOk = true → (∀ q ∈ s.own.chan.toList, c.overlaps q = false) → (s.x d).toNat % 128 = 0 → s.destOk c = true →
        ∃ t, exec (.scopy d a b ch esz dep tke tkf) s = .next t ∧ ({ s with tr := t.tr }).Retires t 8 (s.own.closeConvoy.setChan ch.toNat c))) ∧
    ((s.own.chan[ch.toNat]).settled = true → ∃ t, exec (.sunbind ch) s = .next t ∧ s.Retires t 4 (s.own.closeConvoy.setChan ch.toNat Channel.free)) ∧
    ((s.own.chan[ch.toNat]).settled = false → ∃ t, exec (.sunbind ch) s = .next t ∧ s.OnlyGroup t s.cur ∧
      t.own = s.own.closeConvoy.setChan ch.toNat { s.own.chan[ch.toNat] with closing := true }) ∧
    ∀ c : Channel, c = s.own.chan[ch.toNat] →
      (c.st = .copying ∨ c.st = .done ∨ c.st = .failed →
        (0 < c.depth → (s.x a).toNat ≤ c.filled → ∃ t, exec (.swmark d a ch) s = .next t ∧ s.SetsX t d (BitVec.ofNat 64 c.filled) ∧
          s.Retires t 4 { (s.own.closeConvoy.setChan ch.toNat { c with released := max c.released (s.x a).toNat }) with x := t.own.x }) ∧
        (c.depth = 0 → ∃ t, exec (.swmark d a ch) s = .next t ∧ s.ClosesGivesX t d (BitVec.ofNat 64 c.filled) 4) ∧
        (∀ v : Word, (s.x a).toNat ≤ c.filled ∧ v = 0 ∨ c.filled < (s.x a).toNat ∧ (c.st = .failed ∧ v = 1 ∨ c.st = .done ∧ v = 2) →
          ∃ t, exec (.swait d a ch) s = .next t ∧ s.ClosesGivesX t d v 4) ∧
        (c.st = .copying → c.filled < (s.x a).toNat → ∃ t, exec (.swait d a ch) s = .next t ∧ s.OnlyGroup t s.cur ∧
          t.own = { s.own.closeConvoy with phase := .waiting (.watermark d ch (s.x a)), wdog := 0 })) ∧
      (c.st = .bound → ∃ t, exec (.swmark d a ch) s = .next t ∧ s.ClosesGivesX t d (BitVec.ofNat 64 c.taken) 4)) ∧
  (∀ (f : BitVec 4) (s : State),
    (s.Quiet → s.own.sent = [] → s.own.fifos[f.toNat] < 255 → ∃ t, exec (.tkpush f) s = .next t ∧
      s.Retires t 4 { s.own.closeConvoy with fifos := s.own.fifos.set f.toNat (s.own.fifos[f.toNat] + 1) }) ∧
    (s.own.fifos[f.toNat] ≠ 0 → s.own.async = [] → ∃ t, exec (.tkpop f) s = .next t ∧
      s.Retires t 4 { s.own.closeConvoy with fifos := s.own.fifos.set f.toNat (s.own.fifos[f.toNat] - 1) }) ∧
    (s.own.fifos[f.toNat] = 0 → ∃ t, exec (.tkpop f) s = .next t ∧ s.OnlyGroup t s.cur ∧
      t.own = { s.own.closeConvoy with phase := .waiting (.token f), wdog := 0 }))

/-- BARINIT takes the least free entry of the unit of the scope, gives it the next generation and gives its handle, 0 when
none is free. An arrival at a live barrier of the own die, with the earlier accesses performed, counts, and completes
the phase when all have arrived; BARARR gives the phase, BAR gives it when the phase is over and otherwise waits.
BARWAIT gives 0 for a completed phase and waits for another. BARFREE frees the entry and tells its waiters, those
whose phase had completed apart from the others. A handle that is not live raises ILLEGAL with SUB 1. (R319, R320,
R321, R323, R324, R330) -/
def Obligations.BarrierResults : Prop :=
  ∀ (d a b : Reg) (s : State),
    (∀ sc n home, sc = (s.x a).toNat → n = (s.x b).toNat → sc ≤ 3 → 1 ≤ n → n ≤ barLimit sc → home = barUnit sc s.cur →
      (s.freeEntry (setOf s.cur) sc home = none → ∃ t, exec (.barinit d a b) s = .next t ∧ s.ClosesGivesX t d 0 4) ∧
      ∀ i key gen, s.freeEntry (setOf s.cur) sc home = some i → key = barKey (setOf s.cur) sc home i → gen = (s.barEntry key).gen % 255 + 1 →
        ∃ t, exec (.barinit d a b) s = .next t ∧ t.bars = s.bars.put key { used := true, gen := gen, count := n, phase := 0, arrivals := 0 } ∧
          ({ s with bars := t.bars }).ClosesGivesX t d (BitVec.ofNat 64 (gen * 2 ^ 24 + home * 2 ^ 12 + i * 2 ^ 4 + sc)) 4) ∧
    (∀ (h : Word) (key : Nat) (e e' : BarEntry), h = s.x a → s.liveHandle s.cur h = .ok (.entry key) → e = s.barEntry key → barDie h = dieOf s.cur →
      s.Settled → s.own.barPending = none → s.own.barPast = false →
      e' = (if e.count ≤ e.arrivals + 1 then { e with phase := e.phase + 1, arrivals := 0 } else { e with arrivals := e.arrivals + 1 }) →
      (∃ t, exec (.bararr d a) s = .next t ∧ t.bars = s.bars.put key e' ∧ ({ s with bars := t.bars }).ClosesGivesX t d (e.phase.setWidth 64) 4) ∧
      ∃ t, exec (.bar d a) s = .next t ∧ t.bars = s.bars.put key e' ∧
        (e.count ≤ e.arrivals + 1 → ({ s with bars := t.bars }).ClosesGivesX t d (e.phase.setWidth 64) 4) ∧
        (e.arrivals + 1 < e.count → ({ s with bars := t.bars }).OnlyGroup t s.cur ∧
          t.own = { s.own.closeConvoy with phase := .waiting (.barrier h e.phase d true), wdog := 0 })) ∧
    (∀ (h : Word) (key : Nat) (e : BarEntry) (p : BitVec 32), h = s.x a → s.liveHandle s.cur h = .ok (.entry key) → e = s.barEntry key → p = (s.x b).setWidth 32 →
      (1 ≤ (e.phase - p).toNat → (e.phase - p).toNat < 2 ^ 31 → ∃ t, exec (.barwait d a b) s = .next t ∧ s.ClosesGivesX t d 0 4) ∧
      (e.phase = p ∨ 2 ^ 31 ≤ (e.phase - p).toNat → ∃ t, exec (.barwait d a b) s = .next t ∧ s.OnlyGroup t s.cur ∧
        t.own = { s.own.closeConvoy with phase := .waiting (.barrier h p d false), wdog := 0 }) ∧
      ∃ t, exec (.barfree a) s = .next t ∧ t = { s with bars := t.bars, groups := t.groups } ∧
        t.bars = s.bars.put key { e with used := false, count := 0, phase := 0, arrivals := 0 } ∧
        (∀ g, g ≠ s.cur → (setOf g ≠ setOf s.cur → t.group g = s.group g) ∧
          (setOf g = setOf s.cur → t.group g = Group.freeBar h e (s.group g))) ∧
        t.own = { (Group.freeBar h e s.own.closeConvoy) with pc := s.own.pc + 4, retired := s.own.retired + 1, phase := .running, dataWait := none, resume := false }) ∧
    (s.liveHandle s.cur (s.x a) = .error 1 → s.own.barPending = none → s.Handles →
      ∀ i ∈ [Instr.bararr d a, .bar d a, .barwait d a b, .barfree a], ∃ t, exec i s = .next t ∧ s.TakesTrap t 1 1 s.ir s.own.pc)

/-- FENCE of scope group, and any FENCE, VSYNC or CPFENCE of a group nothing of which is outstanding, goes on; a FENCE of
stores with an acknowledged-for store to another die or module inside its scope, or of loads with a load from a place
inside its scope outstanding, stays at its instruction. LDA of an aligned word on the own die gives it. STRL of such a
word, with every earlier access performed and no store fault on record, writes it there; every other byte of memory
reads as before. (R333, R341, R342, R343, R344, R345) -/
def Obligations.OrderResults : Prop :=
  ∀ (d a : Reg) (kd : BitVec 2) (sc : BitVec 3) (s : State),
    (∃ t, exec (.fence kd 0) s = .next t ∧ s.Retires t 4 s.own.closeConvoy) ∧
    (s.Settled → ∀ i ∈ [Instr.fence kd sc, .vsync], ∃ t, exec i s = .next t ∧ s.Retires t 4 s.own.closeConvoy) ∧
    (s.own.async = [] → (∀ w ∈ s.own.sent, w.path = false) → ∃ t, exec .cpfence s = .next t ∧ s.Retires t 4 s.own.closeConvoy) ∧
    (∀ w ∈ s.own.sent, w.msg = false → w.path = false → (∀ l ∈ s.own.slices.toList, l = []) → kd = 2 ∨ kd = 3 → (if w.die < 8 then 4 else 5) ≤ sc.toNat →
      ∃ t, exec (.fence kd sc) s = .next t ∧ s.OnlyGroup t s.cur ∧ t.own = s.own.closeConvoy) ∧
    (∀ q r, s.own.late = some q → r ∈ q.runs → scopeOf s.cur r.1 ≤ sc.toNat → (∀ l ∈ s.own.slices.toList, l = []) → kd = 1 ∨ kd = 3 → sc ≠ 0 →
      ∃ t, exec (.fence kd sc) s = .next t ∧ s.OnlyGroup t s.cur ∧ t.own = s.own.closeConvoy) ∧
    (∀ runs leaf, s.LoadStands (s.x a) 8 runs leaf → runsLocal s.cur runs = true → s.runsBad runs = false →
      ∃ t, exec (.lda d a sc) s = .next t ∧ ({ s with tr := t.tr }).ClosesGivesX t d (BitVec.ofNat 64 (natOfBytes (s.readRuns runs))) 4) ∧
    ∀ pa leaf, s.MemCanonical → (s.x a).toNat % 8 = 0 → s.windowOut s.cur (s.x a).toNat 8 = false → s.Settled → s.own.sfrq = [] →
      (s.look s.cur .store (s.x a).toNat 8).2 = .here [(pa, 8)] leaf → reachOf s.cur pa = .local_ →
      ∃ t, exec (.strl d a sc) s = .next t ∧
        (({ s with tr := t.tr }).putOwn { s.own.closeConvoy with
          pc := s.own.pc + 4, retired := s.own.retired + 1, phase := .running, dataWait := none, resume := false }).StoresAt
          t (some s.cur) pa (toBytes 8 (s.x d).toNat)

/-- MCST of an aligned group, its descriptor read at once, with a replica selected and every base outside the windows and
aligned, puts one write per element and selected replica at the tail of the slice queue of its address, in rising
order of elements, then replicas; with no replica selected it raises ILLEGAL. TICKGET at a window address takes the
next number of a dispenser of the own die, whose handle it gives and holds. TICKWAIT goes on when its number is called
and otherwise enters Waiting. TICKDONE, with the earlier accesses performed, advances the number that is done, gives
the ticket up and answers the requests of other modules that are called by it. A ticket that is not held raises
ILLEGAL with SUB 5, a ninth one SUB 6. Nothing else changes. That MCST queues every write in one step
(notes/assumptions/19), as one access for each replica (notes/assumptions/65), and that LINKFAIL names the ticket's
handle (notes/assumptions/84) are the model's choice. (R411, R413, R414, R415, R416, R38) -/
def Obligations.McstAndTicketResults : Prop :=
  ∀ (d a b : Reg) (rm : BitVec 4) (s : State),
    (∀ (desc : List Byte) (tg : Tag) (bases : List Word) (all : List Access), s.Quiet → d.toNat % s.own.lmul = 0 → (s.x a).toNat % 32 = 0 →
      s.ReadsHere (s.x a) 32 desc → tg = s.own.tag d →
      bases = ((upFrom 0 4).filter rm.getLsbD).map (fun k => BitVec.ofNat 64 (natOfBytes (takeBytes desc (8 * k) 8))) →
      all = (upFrom 0 s.own.vl).flatMap (fun i => bases.map fun base => replicaAccess s.own tg (s.own.vbits d) i (base + s.x b)) →
      (rm ≠ 0 → (tg = .e2m1 → s.own.vl % 2 = 0) → s.own.vl ≤ s.own.vlmax tg →
        (∀ base ∈ bases, bits base 48 8 < 0xF0 ∧ (base + s.x b).toNat % elemBytes tg = 0) →
        ∃ t, exec (.mcst d a b rm) s = .next t ∧
          ({ s with tr := t.tr }).Retires t 8 { s.own.closeConvoy with slices := t.own.slices, seq := s.own.seq + all.length } ∧
          ∀ q, q < 4 → t.own.slice q = (all.zipIdx.filter fun p => sliceOf p.1.va.toNat == q).map fun p => { p.1 with seq := s.own.seq + p.2 }) ∧
      (rm = 0 → s.Handles → ∃ t, exec (.mcst d a b rm) s = .next t ∧ ({ s with tr := t.tr }).TakesTrap t 1 0 s.ir s.own.pc)) ∧
    (∀ (key : Nat) (D : Dispenser) (h : Word), key = dispKey (setOf s.cur) (dieOf s.cur) (s.x b).toNat → D = s.dispenser key →
      h = BitVec.ofNat 64 ((8 * ownModule + dieOf s.cur) * 2 ^ 49 + (s.x b).toNat * 2 ^ 32 + D.nextNo.toNat) →
      (inWindow (s.x a).toNat = true → (s.x b).toNat ≤ 15 → s.own.tickets.length < 8 → ∃ t, exec (.tickget d a b) s = .next t ∧
        ({ s with dispensers := s.dispensers.put key { D with nextNo := D.nextNo + 1 } }).Retires t 4
          { s.own.closeConvoy with tickets := s.own.tickets ++ [(h, diePA (dieOf s.cur) 0)], x := t.own.x } ∧ s.SetsX t d h) ∧
      (15 < (s.x b).toNat → s.Handles → ∃ t, exec (.tickget d a b) s = .next t ∧ s.TakesTrap t 1 0 s.ir s.own.pc) ∧
      ((s.x b).toNat ≤ 15 → 8 ≤ s.own.tickets.length → s.Handles → ∃ t, exec (.tickget d a b) s = .next t ∧ s.TakesTrap t 1 6 s.ir s.own.pc)) ∧
    (∀ (h : Word) (pa : Nat) (key w : Nat) (D D1 : Dispenser), h = s.x a → s.own.ticketAt h = some pa → ticketHere h = true → ticketDie h % 8 = dieOf s.cur →
      key = dispKey (setOf s.cur) (dieOf s.cur) (ticketDisp h) → D = s.dispenser key → w = s.ticketWindow (setOf s.cur) →
      D1 = { D with doneNo := D.doneNo + 1 } →
      ((ticketNum h - D.doneNo).toNat < w → ∃ t, exec (.tickwait a) s = .next t ∧ s.Retires t 4 s.own.closeConvoy) ∧
      (w ≤ (ticketNum h - D.doneNo).toNat → ∃ t, exec (.tickwait a) s = .next t ∧ s.Waits t s.own (.ticket h true false)) ∧
      (s.Quiet → s.own.sent = [] → ∃ t, exec (.tickdone a) s = .next t ∧
        ({ s with
          dispensers := s.dispensers.put key { D1 with waiters := D.waiters.filter fun (q : Nat × BitVec 32) => decide (w ≤ (q.2 - D1.doneNo).toNat) }
          out := s.out ++ (D.waiters.filter fun (q : Nat × BitVec 32) => decide ((q.2 - D1.doneNo).toNat < w)).map fun (q : Nat × BitVec 32) => OutPacket.answer q.1 (toBytes 4 q.2.toNat) false
          outAt := t.outAt }).Retires t 4
          { s.own.closeConvoy with tickets := s.own.tickets.eraseP fun k => k.1 == h })) ∧
    (s.own.ticketAt (s.x a) = none → s.Handles → ∀ i ∈ [Instr.tickwait a, .tickdone a], ∃ t, exec i s = .next t ∧ s.TakesTrap t 1 5 s.ir s.own.pc)

/-- MPOST of a descriptor read at once that keeps R426 and R440 gives a handle of the lowest free slot with the next
generation: the receive is posted, or takes the oldest matching message of the tray, and stays at its instruction
while the host has that message; status 2 without a free slot, 1 with 1,024 receives posted. MSEND to the own die puts
a message with the bytes read on its way. MWAIT gives the flag word of a Complete receive and releases the handle, and
waits for another. MPROBE gives the first matching message of the tray in two registers, or zeros. MCANCEL of a Posted
receive writes its record with STATUS 4, releases the handle and gives 0; it gives 1 for one that is landing or
Complete and 2 for none. MDRIP gives its counts; its selector 8 ends a pause of spilling, at supervisor level only.
(R426, R428, R433, R439, R440, R441, R442, R443, R444, R445) -/
def Obligations.MessageInstructionResults : Prop :=
  ∀ (d a b c : Reg) (esz : BitVec 3) (s : State) (k : Nat) (R : Receiver), k = recvKey (dieOf s.cur) (setOf s.cur) → R = s.receiver k →
    (∀ (data : List Byte), s.Quiet → (s.x a).toNat % 64 = 0 → s.ReadsHere (s.x a) 64 data →
      (∀ (slot gen : Nat) (r : Recv), s.own.freeRecv = some slot → gen = (((s.own.recvs.find slot).map RecvSlot.gen).getD 0) % 255 + 1 →
        r = recvOf data (2 ^ esz.toNat) s.cur slot → r.ok data = true → r.flaga.toNat % 16 = 0 →
        (R.posts.length < 1024 → (∀ m ∈ R.tray, r.takes m = false) → ∃ t, exec (.mpost d a esz) s = .next t ∧
          ({ s with tr := t.tr, receivers := s.receivers.put k { R with posts := R.posts ++ [r] } }).Retires t 8
            { s.own.closeConvoy with recvs := s.own.recvs.put slot { gen := gen, st := some .posted }, x := t.own.x } ∧
          s.SetsX t d (BitVec.ofNat 64 (gen * 256 + slot))) ∧
        (∀ m, R.posts.length < 1024 → (R.tray.find? fun q => r.takes q) = some m → m.handed = false ∨ m.back = true → ∃ t, exec (.mpost d a esz) s = .next t ∧
          ({ s with tr := t.tr, receivers := s.receivers.put k { R with tray := R.tray.erase m, landing := R.landing ++ [(r, m)] } }).Retires t 8
            { s.own.closeConvoy with recvs := s.own.recvs.put slot { gen := gen, st := some .landing }, x := t.own.x } ∧
          s.SetsX t d (BitVec.ofNat 64 (gen * 256 + slot))) ∧
        (∀ m, R.posts.length < 1024 → (R.tray.find? fun q => r.takes q) = some m → m.handed = true → m.back = false → (∃ w ∈ R.waitingHost, w.1 = m) →
          ∃ t, exec (.mpost d a esz) s = .next t ∧ ({ s with tr := t.tr }).OnlyGroup t s.cur ∧ t.own = s.own.closeConvoy) ∧
        (1024 ≤ R.posts.length → ∃ t, exec (.mpost d a esz) s = .next t ∧ ({ s with tr := t.tr }).ClosesGivesX t d 1 8)) ∧
      (∀ r : Recv, s.own.freeRecv = none → r = recvOf data (2 ^ esz.toNat) s.cur 0 → r.ok data = true → r.flaga.toNat % 16 = 0 →
        ∃ t, exec (.mpost d a esz) s = .next t ∧ ({ s with tr := t.tr }).ClosesGivesX t d 2 8) ∧
      (∀ (r : Recv) (v : Word × Word), r = recvOf data 1 s.cur 0 → r.src.toNat < 2 ^ 24 → r.smask.toNat < 2 ^ 24 →
        v = (match R.tray.find? fun m => r.takes m with
          | some m => (BitVec.ofNat 64 (2 ^ 63 + m.payload.length * 2 ^ 32 + m.src.toNat % 2 ^ 23), m.tag.setWidth 64)
          | none => (0, 0)) →
        ∃ t, exec (.mprobe d a) s = .next t ∧ ({ s with tr := t.tr }).Retires t 4 { s.own.closeConvoy with x := t.own.x } ∧
          ∀ q : Reg, t.x q = if q = d ∧ q ≠ 0 then v.1 else if q = d + 1 ∧ q ≠ 0 then v.2 else s.x q)) ∧
    (∀ data : List Byte, s.Quiet → inWindow (s.x d).toNat = true → (s.x b).toNat ≤ 2 ^ 20 →
      (s.x b).toNat = 0 ∧ data = [] ∨ 0 < (s.x b).toNat ∧ s.ReadsHere (s.x a) (s.x b).toNat data →
      ∃ t, exec (.msend d a b c) s = .next t ∧
        ({ s with
          tr := t.tr
          flying := s.flying ++ [FlyMsg.mk (dieOf s.cur) (setOf s.cur)
            { src := messageSource s.cur, tag := (s.x c).setWidth 32, payload := data, sender := some s.cur, addr := s.x d
              ctx := (s.slotSet (setOf s.cur)).num, spill := none, handed := false, back := false }] }).Retires t 8 s.own.closeConvoy) ∧
    (∀ (slot : Nat) (flag : Word), (s.own.recvHeld (s.x a) = some (slot, .complete flag) → ∃ t, exec (.mwait d a) s = .next t ∧
        s.Retires t 4 { (s.own.closeConvoy.dropRecv slot) with x := t.own.x } ∧ s.SetsX t d flag) ∧
      (∀ st ∈ [RecvState.posted, .landing], s.own.recvHeld (s.x a) = some (slot, st) → ∃ t, exec (.mwait d a) s = .next t ∧
        s.Waits t s.own (.message d (s.x a).toNat)) ∧
      (∀ st ∈ [RecvState.landing, .complete flag], s.own.recvHeld (s.x a) = some (slot, st) → ∃ t, exec (.mcancel d a) s = .next t ∧ s.ClosesGivesX t d 1 4) ∧
      ∀ (r : Recv) (pa : Nat), s.MemCanonical → s.own.recvHeld (s.x a) = some (slot, .posted) →
        (R.posts.find? fun q => q.group == some s.cur && q.slot == slot) = some r → (s.landingAt (dieOf s.cur) (setOf s.cur) r.flaga).2.toOption = some pa →
        ∃ t, exec (.mcancel d a) s = .next t ∧ s.SetsX t d 0 ∧
          (({ s with tr := t.tr, receivers := s.receivers.put k { R with posts := R.posts.erase r } }).putOwn
            { (s.own.closeConvoy.dropRecv slot) with
              x := t.own.x, pc := s.own.pc + 4, retired := s.own.retired + 1, phase := .running, dataWait := none, resume := false }).StoresAt
            t none pa (toBytes 8 0 ++ toBytes 8 (2 ^ 63 + 4 * 2 ^ 56))) ∧
    (s.own.recvHeld (s.x a) = none →
      (s.Handles → ∃ t, exec (.mwait d a) s = .next t ∧ s.TakesTrap t 1 5 s.ir s.own.pc) ∧
      ∃ t, exec (.mcancel d a) s = .next t ∧ s.ClosesGivesX t d 2 4) ∧
    (∀ p ∈ [(0, BitVec.ofNat 64 R.shareUsed), (1, BitVec.ofNat 64 R.spillUsed), (2, BitVec.ofNat 64 R.tray.length), (3, R.refusals),
        (4, BitVec.ofNat 64 R.posts.length), (5, BitVec.ofNat 64 (bitNat (R.refusing || R.paused) + 2 * bitNat R.paused))],
      (s.x a).toNat = p.1 → ∃ t, exec (.mdrip d a) s = .next t ∧ s.ClosesGivesX t d p.2 4) ∧
    ((s.x a).toNat = 8 →
      (s.own.level = .supervisor → (∀ w ∈ R.waitingHost, w.2 ≠ 0) → ∃ t, exec (.mdrip d a) s = .next t ∧
        ({ s with receivers := s.receivers.put k { R with paused := false } }).ClosesGivesX t d 0 4) ∧
      (s.Handles → ∃ t, exec (.mdrip d a) s = .next t ∧ s.TakesTrap t 2 0 s.ir s.own.pc))

/-- KVSUB of a descriptor read at once that keeps R391, at a sequencer without a pass, records the subscription, gives the
group its ring and gives 0; a list that does not rise, or a page already subscribed for the query, gives 3. KVUNSUB
withdraws the subscriptions of the group to a query of a sequencer without a pass and gives 0, or 1 when it has none.
KVPASS at an idle sequencer whose queries all have pages below P starts the pass with the next number, every
subscription in it, and gives the number; at another it gives 0; P = 0 or P > 1,024 raises ILLEGAL. KVRECV frees the
buffers that are Held and gives the next item, whose buffer becomes Held; without an item it gives bit 63 alone when
the group has no subscription, and waits when it has one. KVPART of a delivered page that is not the next in order
keeps the partial in the entry reserved for it, or waits when there is neither such an entry nor a free one; a page
not delivered raises ILLEGAL with SUB 4. KVDONE gives 0 and takes a written result, 1 while the pass still works on
the query, 2 without either. KVSTAT gives the phase with the pass number and the seven counts. (R374, R378, R383,
R391, R392, R393, R376, R384, R386, R394, R395, R396) -/
def Obligations.KvInstructionResults : Prop :=
  (∀ (d a b : Reg) (dep rb : BitVec 3) (s : State) (k : Nat) (Q : Sequencer), k = seqOf s.cur → Q = s.seqAt k →
    (∀ (head list : List Byte) (s1 s2 s3 : State) (r1 r2 r3 : List (Nat × Nat)) (l1 l2 l3 : Nat) (q npg : Nat) (res : Word) (pages : List Nat),
      s.Quiet → (s.x a).toNat % 64 = 0 → s.look s.cur .load (s.x a).toNat 64 = (s1, .here r1 l1) → runsLocal s.cur r1 = true → s.runsBad r1 = false →
      head = s.readRuns r1 → res = BitVec.ofNat 64 (natOfBytes (takeBytes head 0 8)) → q = natOfBytes (takeBytes head 8 4) →
      npg = natOfBytes (takeBytes head 12 4) → 1 ≤ npg → npg ≤ 1024 → s1.look s.cur .load (s.x a + 64).toNat (4 * npg) = (s2, .here r2 l2) →
      runsLocal s.cur r2 = true → s.runsBad r2 = false → list = s.readRuns r2 → pages = (upFrom 0 npg).map (fun i => natOfBytes (takeBytes list (4 * i) 4)) →
      res.toNat % 64 = 0 → q ≤ 4095 → natOfBytes (takeBytes head 16 48) = 0 → (rb.toNat + dep.toNat) * 65536 ≤ s.own.hold.cstore →
      (¬ (pages.Pairwise (· < ·)) ∨ (∃ p ∈ pages, 1024 ≤ p) → ∃ t, exec (.kvsub d a dep rb) s = .next t ∧ ({ s with tr := t.tr }).ClosesGivesX t d 3 8) ∧
      (pages.Pairwise (· < ·) → (∀ p ∈ pages, p < 1024) → (∀ u ∈ Q.subs, u.query = q → ∀ p ∈ pages, p ∉ u.pages) →
        (∀ g ∈ s.own.ring, g.rbase = rb.toNat ∧ g.bufs.length = dep.toNat) → 0 < s.kvFree (dieOf s.cur) (setOf s.cur) → Q.subs.length < 8192 →
        inWindow res.toNat = false → s2.look s.cur .store res.toNat 536 = (s3, .here r3 l3) → Q.phase = .idle → (∀ F ∈ Q.folds, F.inPass = false) →
        Q.fold? q = none →
        ∃ t, exec (.kvsub d a dep rb) s = .next t ∧ s.SetsX t d 0 ∧
          ({ s with
            tr := t.tr
            seqs := s.seqs.put k { Q with
              subs := Q.subs ++ [Sys2Proof.Machine.Sub.mk s.cur q pages false [] [] [] []]
              folds := Q.folds ++ [Fold.mk q r3 false none [] [] 0 0 0 0 false] } }).Retires t 8
            { s.own.closeConvoy with ring := some (s.own.ring.getD { rbase := rb.toNat, bufs := List.replicate dep.toNat .free }), x := t.own.x })) ∧
    (∀ (q : Nat) (mine : Sys2Proof.Machine.Sub → Bool) (Q1 : Sequencer), q = (s.x a).toNat → mine = (fun u => u.group == s.cur && u.query == q) →
      Q1 = { Q with subs := Q.subs.filter fun u => !mine u } →
      ((∀ u ∈ Q.subs, mine u = false) → ∃ t, exec (.kvunsub d a) s = .next t ∧ s.ClosesGivesX t d 1 4) ∧
      (q ≤ 4095 → (∃ u ∈ Q.subs, mine u = true) → Q.phase = .idle → (∀ u ∈ Q.subs, u.inPass = false) → (∀ F ∈ Q.folds, F.inPass = false ∧ F.written = false) →
        ∃ t, exec (.kvunsub d a) s = .next t ∧ s.SetsX t d 0 ∧ t.seqAt k = (if Q1.subs.any fun u => u.query == q then Q1
            else { Q1 with folds := Q.folds.filter fun F => F.query != q, nMerged := Q.nMerged + ((Q.folds.filter fun F => F.query == q).map Fold.merged).sum }) ∧
          (∀ j, j ≠ k → t.seqAt j = s.seqAt j) ∧
          ({ s with seqs := t.seqs }).Retires t 4
            { s.own.closeConvoy with ring := if Q1.subs.any fun u => u.group == s.cur then s.own.ring else none, x := t.own.x })) ∧
    (∀ (p : Nat) (n : BitVec 32), p = (s.x b).toNat → n = (if Q.passNo = BitVec.allOnes 32 then 1 else Q.passNo + 1) →
      ((s.x a).toNat % 8 = 0 → 1 ≤ p → p ≤ 1024 → Q.phase = .idle → Q.subs ≠ [] →
        (∀ u ∈ Q.subs, ∃ j ∈ u.pages, j < p) → (∀ F ∈ Q.folds, ∃ u ∈ Q.subs, u.query = F.query) →
        ∃ t, exec (.kvpass d a b) s = .next t ∧ ({ s with seqs := t.seqs }).ClosesGivesX t d (n.setWidth 64) 4 ∧
          (∀ j, j ≠ k → t.seqAt j = s.seqAt j) ∧ (t.seqAt k).passNo = n ∧ (t.seqAt k).phase = .main ∧ (t.seqAt k).table = s.x a ∧ (t.seqAt k).p = p ∧
          (t.seqAt k).pos = 0 ∧ (t.seqAt k).by_ = some s.cur ∧ (t.seqAt k).fetches = [] ∧
          (t.seqAt k).subs = Q.subs.map (fun u => { u with
            inPass := true, pending := u.pages.filter (fun j => decide (j < p)), late := [], reserved := [], delivered := [] }) ∧
          ∀ F ∈ (t.seqAt k).folds, F.inPass = true ∧ F.acc = none ∧ F.ready = [] ∧ F.failp = 0 ∧ F.written = false) ∧
      ((s.x a).toNat % 8 = 0 → 1 ≤ p → p ≤ 1024 → Q.phase ≠ .idle → ∃ t, exec (.kvpass d a b) s = .next t ∧ s.ClosesGivesX t d 0 4) ∧
      ((s.x a).toNat % 8 = 0 → p = 0 ∨ 1024 < p → s.Handles → ∃ t, exec (.kvpass d a b) s = .next t ∧ s.TakesTrap t 1 0 s.ir s.own.pc))) ∧
  (∀ (d a b c : Reg) (s : State) (k : Nat) (Q : Sequencer), k = seqOf s.cur → Q = s.seqAt k →
    (∀ freed : Option KvRing, freed = s.own.ring.map (fun r => { r with bufs := r.bufs.map fun f => if f = .held then .free else f }) →
      (∀ (w : Word) (rest : List Word), s.own.items = w :: rest → ∃ t, exec (.kvrecv d) s = .next t ∧ s.SetsX t d w ∧
        s.Retires t 4 { s.own.closeConvoy with
          items := rest, x := t.own.x
          ring := if bitOf w 63 then freed else freed.map fun r => { r with bufs := r.bufs.set (bits w 0 20 / 65536 - r.rbase) .held } }) ∧
      (s.own.items = [] →
        ((∀ u ∈ Q.subs, u.group ≠ s.cur) → ∃ t, exec (.kvrecv d) s = .next t ∧ s.SetsX t d (2 ^ 63) ∧
          s.Retires t 4 { s.own.closeConvoy with ring := freed, x := t.own.x }) ∧
        ((∃ u ∈ Q.subs, u.group = s.cur) → ∃ t, exec (.kvrecv d) s = .next t ∧ s.Waits t { s.own with ring := freed } (.kvItem d)))) ∧
    (∀ (q page : Nat) (P : Partial), q = bits (s.x d) 0 12 → page = bits (s.x d) 16 10 → bits (s.x d) 12 4 = 0 → bits (s.x d) 26 38 = 0 →
      P = { m := (s.x b).setWidth 32, l := (s.x c).setWidth 32, o := BitVec.ofNat 4096 (s.own.vbits a) } →
      a.toNat % s.own.lmul = 0 → s.own.tag a = .f32 →
      (∀ (u : Sys2Proof.Machine.Sub) (F : Fold) (next : Nat), Q.subs.find? (fun u => u.group == s.cur && u.query == q && u.delivered.contains page) = some u → u.inPass = true →
        F ∈ Q.folds → F.query = q → (∀ G ∈ Q.folds, G.query = q → G = F) → F.left.head? = some next → next ≠ page → 
        (u.reserved.contains page = true → F.left.contains page = true → Table.find F.ready next = none → Q.phase = .main → Q.fetches ≠ [] →
          (∀ G ∈ Q.folds, G.inPass = true → G.left ≠ [] ∨ G.written = true) →
          ∃ t, exec (.kvpart d a b c) s = .next t ∧
            ({ s with seqs := s.seqs.put k { Q with
              folds := Q.folds.map fun (G : Fold) => if G.query = q then { G with ready := G.ready ++ [(page, some P)] } else G
              subs := Q.subs.map fun (v : Sub) => if v = u then v.forget page else v } }).Retires t 8 s.own.closeConvoy) ∧
        (u.reserved.contains page = false → s.kvFree (dieOf s.cur) (setOf s.cur) = 0 → ∃ t, exec (.kvpart d a b c) s = .next t ∧
          s.Waits t s.own (.kvSpace q page P.m P.l P.o))) ∧
      ((∀ u ∈ Q.subs, u.group = s.cur → u.query = q → page ∉ u.delivered) → s.Handles → ∃ t, exec (.kvpart d a b c) s = .next t ∧
        s.TakesTrap t 1 4 s.ir s.own.pc)) ∧
    (∀ (q : Nat), q = (s.x a).toNat →
      (Q.fold? q = none → ∃ t, exec (.kvdone d a) s = .next t ∧ s.ClosesGivesX t d 2 4) ∧
      (∀ F : Fold, Q.fold? q = some F →
        (F.written = true → Q.phase = .await → (∃ u ∈ Q.subs, u.query = q) → (∀ G ∈ Q.folds, G.query ≠ q → G.inPass = true → G.left ≠ [] ∨ G.written = true) →
          ∀ fs : List Fold, fs = Q.folds.map (fun G => if G.query = q then { G with written := false, inPass := false, acc := none, left := [], ready := [] } else G) →
          ∃ t, exec (.kvdone d a) s = .next t ∧ t.seqAt k = { Q with folds := fs, phase := if fs.any Fold.written then .await else .idle } ∧
            (∀ j, j ≠ k → t.seqAt j = s.seqAt j) ∧ ({ s with seqs := t.seqs }).ClosesGivesX t d 0 4) ∧
        (F.written = false → ∃ t, exec (.kvdone d a) s = .next t ∧ s.ClosesGivesX t d (if F.inPass then 1 else 2) 4))) ∧
    ∀ p ∈ [(0, Q.phase.code + Q.passNo.toNat * 2 ^ 32), (1, Q.nFetched), (2, Q.nCatch), (3, Q.nCopies), (4, Q.nMerged + (Q.folds.map Fold.merged).sum),
        (5, s.kvHeld (dieOf s.cur) (setOf s.cur)), (6, s.kvFree (dieOf s.cur) (setOf s.cur)), (7, Q.nFailed)],
      (s.x a).toNat = p.1 → ∃ t, exec (.kvstat d a) s = .next t ∧ s.ClosesGivesX t d (BitVec.ofNat 64 p.2) 4)

/-- TRAP at user level enters the handler with cause 0xD, TRAPADDR xa and TRAPPC the instruction behind it; with
TRAPVEC.FWD = 1 the group is Trapped at its own level and the record of its trap registers goes to the host; at
supervisor level the context becomes Faulted, with the cause, cell and slot in the fault word, and the partner that
stands by becomes Active. RTE at supervisor level returns to user level at TRAPPC, with the restart of VRESUME, and
resumes an interrupted wait whose PC is kept; the strips that a channel holds for another PC are given up. At user
level RTE, HALT, GTERM, CTXSAVE, CTXLOAD, SFRPOP and TLBINV raise PRIV. (R87, R88, R89, R90, R93, R94, R137, R140,
R310) -/
def Obligations.TrapAndReturnResults : Prop :=
  ∀ (d a b : Reg) (s : State) (T : Nat), T = setOf s.cur →
    (s.Handles → ∃ t, exec (.trap a) s = .next t ∧ s.TakesTrap t 0xD 0 (s.x a) (s.own.pc + 4)) ∧
    (s.own.level = .user → s.own.over = false → (s.slotSet T).st = .active → bitOf s.own.trapvec 0 = true →
      ∃ t, exec (.trap a) s = .next t ∧ ({ s with port := t.port }).OnlyGroup t s.cur ∧
        t.own = { s.own.closeConvoy with
          trapcause := 0xD, trappc := pcField (s.own.pc + 4), trapaddr := s.x a, trapelem := 0, trapstat := 0
          interrupted := none, dataWait := none, resume := false, chan := s.own.chan.map Channel.unclosed, phase := .trapped false } ∧
        t.port = { s.port with waiting := s.port.waiting ++ [trapRecord s.cur t.own] }) ∧
    (s.own.level = .supervisor → s.own.over = false → (s.slotSet T).st = .active →
      ∃ t, exec (.trap a) s = .next t ∧
        s.FaultsSet t T 0xD (cellOf s.cur % 512) (slotOf s.cur)) ∧
    (s.own.level = .supervisor → ∀ kept : Vector Channel 16, kept = s.own.chan.map (fun c => c.dropHeld fun h => h.pc != s.own.trappc) →
      ∃ t, exec .rte s = .next t ∧ s.OnlyGroup t s.cur ∧
      (s.own.interrupted = none → t.own = { s.own.closeConvoy with
        level := .user, pc := s.own.trappc, resume := bitOf s.own.vresume 16, phase := .running, retired := s.own.retired + 1, chan := kept }) ∧
      ∀ pc w, s.own.interrupted = some (pc, w) → t.own = { s.own.closeConvoy with
        level := .user, pc := s.own.trappc, resume := bitOf s.own.vresume 16, retired := s.own.retired + 1, interrupted := none, chan := kept
        phase := if bitOf s.own.trapstat 2 = true ∧ s.own.trappc = pcField pc then .waiting w else .running
        wdog := if bitOf s.own.trapstat 2 = true ∧ s.own.trappc = pcField pc then 0 else s.own.wdog }) ∧
    (s.Handles → ∀ i ∈ [Instr.rte, .halt, .gterm, .ctxsave d, .ctxload d a, .sfrpop d, .tlbinv a b],
      ∃ t, exec i s = .next t ∧ s.TakesTrap t 2 0 s.ir s.own.pc)

/-- KEND of a group that has nothing outstanding, and GTERM of one at supervisor level, free its slot; the kernel counts
one more ended group, and its completion word, changed where it stands in memory, ORs in the flags of the group, or
has FAILED raised by one; when it was the last group of a placed kernel of which no other group stands, the word shows
Done and the kernel leaves the unit. No other byte of memory changes; every other group is as before, but for WFE on
the line of the word. KEND with a store fault on record takes PAGE_STORE; KEND with contributions that have not ended
waits. (R116, R117, R118, R126, R130, R141, R143) -/
def Obligations.GroupEndResults : Prop :=
  ∀ (s : State) (T num pa : Nat) (k : Kernel), T = setOf s.cur → num = s.own.kernid → s.MemCanonical → s.Rests → (s.slotSet T).kernel? num = some k →
    k.cohort = false → k.cword = some pa → (paHost pa = true ∨ paModule pa = false) →
    ∀ M : Word, M = BitVec.ofNat 64 (natOfBytes (s.readAt pa 8)) →
    ∀ e ∈ [(Instr.kend, fun w => wordFlags w s.own.vfl s.own.mfl s.own.xfl s.own.collOf), (.gterm, fun w => wordFail w 1)],
    (e.1 = .gterm → s.own.level = .supervisor) →
    (k.ended + 1 < k.ngrp → ∃ t, exec e.1 s = .next t ∧ t.groups.find s.cur = none ∧
      (∀ h, h ≠ s.cur → t.group h = touchGroup none pa 8 h (s.group h)) ∧ t.readAt pa 8 = toBytes 8 (e.2 M).toNat ∧ s.OnlyWord t pa ∧
      ∃ j, (t.slotSet T).kernel? num = some j ∧ j.ended = k.ended + 1 ∧ j.word = e.2 k.word ∧ j.st = k.st ∧ j.placed = k.placed) ∧
    (k.ended + 1 = k.ngrp → k.st = .placed → (∀ q ∈ s.groups, setOf q.1 = T → q.2.kernid = num → q.1 = s.cur) →
      ∃ t, exec e.1 s = .next t ∧ t.groups.find s.cur = none ∧ (∀ h, h ≠ s.cur → t.group h = touchGroup none pa 8 h (s.group h)) ∧
      t.readAt pa 8 = toBytes 8 (withBits (e.2 M) 0 3 4).toNat ∧ s.OnlyWord t pa ∧ (t.slotSet T).kernel? num = none)

/-- WFE goes on when the word at xa differs from xb and otherwise waits on its line. GYIELD goes on, marked for 64 clocks
with the other groups of its set on the cell whose next instruction is fetched. SDRAIN goes on when every store is
translated and none has failed; with a store fault on record SDRAIN and KEND take PAGE_STORE. SFRPOP at supervisor
level writes the oldest record to four registers and removes it, or zeros; records of its own clock only count in
LEFT. KEND of a group whose contributions have not ended waits for them. The groups that State.fetched names as ready
for GYIELD are the model's reading (notes/assumptions/40). (R96, R126, R144, R366, R369, R370, R420) -/
def Obligations.GroupControlResults : Prop :=
  ∀ (d a b : Reg) (s : State),
    (∀ (runs : List (Nat × Nat)) (leaf pa n l : Nat) (rest : List (Nat × Nat)), s.LoadReady (s.x a) 8 runs leaf →
      (BitVec.ofNat 64 (natOfBytes (s.readRuns runs)) ≠ s.x b → ∃ t, exec (.wfe a b) s = .next t ∧ ({ s with tr := t.tr }).Retires t 4 s.own.closeConvoy) ∧
      (BitVec.ofNat 64 (natOfBytes (s.readRuns runs)) = s.x b →
        ((s.look s.cur .load (s.x a).toNat 8).1.look s.cur .load (s.x a).toNat 8).2 = .here ((pa, n) :: rest) l →
        ∃ t, exec (.wfe a b) s = .next t ∧ ({ s with tr := t.tr }).Waits t { s.own with dataWait := none } (.event (pa / 128) false))) ∧
    (∀ l : List Nat, l = ((upFrom 0 4).map fun k => groupCode (cellOf s.cur) (setOf s.cur) k).filter
        (fun h => decide (h ≠ s.cur) && (s.groups.find h).isSome && (s.close.retire 4).fetched h) →
      ∃ t, exec .gyield s = .next t ∧ s.Retires t 4 { s.own.closeConvoy with
        yield := if l.isEmpty then s.own.yield else some { others := l, left := 64 } }) ∧
    (s.Quiet → s.own.async = [] →
      (s.own.sfrq = [] → ∃ t, exec .sdrain s = .next t ∧ s.Retires t 4 s.own.closeConvoy) ∧
      (s.own.sfrq ≠ [] → s.Handles → ∃ t, exec .sdrain s = .next t ∧ s.TakesStoreTrap t s.cur) ∧
      (s.own.convoys = [] → s.own.sent = [] →
        (s.own.sfrq ≠ [] → s.Handles → ∃ t, exec .kend s = .next t ∧ s.TakesStoreTrap t s.cur) ∧
        (s.own.sfrq = [] → s.transformsOf s.cur = [] → s.own.collDone ≠ s.own.collIssued → ∃ t, exec .kend s = .next t ∧ s.Waits t s.own .collective))) ∧
    (s.own.level = .supervisor → ∀ (l : List SfRecord) (w : Word × Word × Word × Word),
      (s.own.sfrq = [] ∧ l = [] ∧ w = (0, 0, 0, 0) ∨
        (∃ r rest, s.own.sfrq = r :: rest ∧ r.came = s.clock ∧ l = s.own.sfrq ∧ w = (0, 0, 0, BitVec.ofNat 64 (l.length % 256 * 2 ^ 32))) ∨
        ∃ r, s.own.sfrq = r :: l ∧ r.came ≠ s.clock ∧ w = (r.pc, r.addr, r.data,
        BitVec.ofNat 64 (2 ^ 63 + l.length % 256 * 2 ^ 32 + r.src % 16 * 2 ^ 28 + r.wlog % 16 * 2 ^ 24 + r.sub % 256 * 2 ^ 16 + r.elem % 2 ^ 16))) →
      ∃ t, exec (.sfrpop d) s = .next t ∧ s.Retires t 4 { s.own.closeConvoy with sfrq := l, x := t.own.x } ∧
        ∀ q : Reg, t.x q = if q = 0 then 0 else if q = d then w.1 else if q = d + 1 then w.2.1 else if q = d + 2 then w.2.2.1
          else if q = d + 3 then w.2.2.2 else s.x q)

/-- HALT at supervisor level makes the context Retired, its queues closed, its tokens gone; when another event of the
cycle has already taken effect it changes nothing (CTXYIELD, CTXSAVE and CTXLOAD then give 4). CTXYIELD gives 1 when
no context stands by and 2 while the partner drains; accepted, it gives 0, the context is Pre-empting with the groups
that were Running or Placed Pre-empted, and the partner is Active. CTXSAVE gives 0 and marks the context to be saved,
1 without a save area, 2 when it is marked already. CTXLOAD of a saved context of the list into an Empty set gives 0
and the set is Loading; 1 when the set is not Empty, 2 for a context not saved, 3 for one not in the list; from 2^16
on it raises ILLEGAL, which at supervisor level makes the context Faulted with cause 1. The order of the statuses 1, 2
and 3 is the model's choice (notes/assumptions/77). (R82, R83, R84, R95, R97, R98, R99) -/
def Obligations.ContextInstructionResults : Prop :=
  ∀ (d a : Reg) (s : State) (T : Nat) (S : SlotSet), T = setOf s.cur → S = s.slotSet T →
    (s.own.level = .supervisor →
      (s.dropped T = false → ∃ t, exec .halt s = .next t ∧ (t.slotSet T).st = .retired ∧ (∀ q ∈ (t.slotSet T).queues, q.2.closed = true) ∧
        (t.slotSet T).ingress = [] ∧ (t.slotSet T).egress = [] ∧ (t.slotSet T).waiters = [] ∧ (t.slotSet T).saveMark = false) ∧
      (s.dropped T = true → ∃ t, exec .halt s = .next t ∧ s.OnlyGroup t s.cur ∧ t.own = s.own.closeConvoy)) ∧
    (∀ v : Word, s.dropped T = true ∧ v = 4 ∨ s.dropped T = false ∧
        ((s.slotSet (1 - T)).st = .preempting ∧ v = 2 ∨ (s.slotSet (1 - T)).st ≠ .preempting ∧ (s.slotSet (1 - T)).st ≠ .standby ∧ v = 1) →
      ∃ t, exec (.ctxyield d) s = .next t ∧ s.ClosesGivesX t d v 4) ∧
    (s.dropped T = false → (s.slotSet (1 - T)).st = .standby → (s.slotSet (1 - T)).conductorDone = true → s.own.barPending = none →
      ∃ t, exec (.ctxyield d) s = .next t ∧ t = { s with groups := t.groups, set0 := t.set0, set1 := t.set1, port := { s.port with waiting := t.port.waiting } } ∧
        s.SetsX t d 0 ∧
        t.own = { s.own.closeConvoy.cutConvoy with
          x := t.own.x, pc := s.own.pc + 4, retired := s.own.retired + 1, phase := .preempted, dataWait := none, resume := false } ∧
        t.slotSet T = { S with st := .preempting, drained := [], lastAt := some s.clock } ∧ t.slotSet (1 - T) = { s.slotSet (1 - T) with st := .active } ∧
        ∀ h, h ≠ s.cur → t.group h = if setOf h = T then stopGroup (s.group h) else resumeGroup (s.group h)) ∧
    (s.own.level = .supervisor → ∀ (u : State) (v : Word),
      (s.dropped T = true ∧ v = 4 ∧ u = s ∨ s.dropped T = false ∧
        ((S.img.map Image.saveArea).getD false = false ∧ v = 1 ∧ u = s ∨ (S.img.map Image.saveArea).getD false = true ∧
          (S.saveMark = true ∧ v = 2 ∧ u = s ∨ S.saveMark = false ∧ v = 0 ∧ u = s.putSet T { S with saveMark := true, lastAt := some s.clock }))) →
      ∃ t, exec (.ctxsave d) s = .next t ∧ u.ClosesGivesX t d v 4) ∧
    (s.own.level = .supervisor → (s.x a).toNat < 2 ^ 16 → ∀ v : Word, ∀ found : Option SavedContext, found = s.saved.find? (fun c => c.num == (s.x a).toNat) →
      (s.dropped T = true ∧ v = 4 ∨ s.dropped T = false ∧ ((s.slotSet (1 - T)).st ≠ .empty ∧ v = 1 ∨ (s.slotSet (1 - T)).st = .empty ∧ (found = none ∧ v = 2 ∨
        found.isSome = true ∧ (s.x a).toNat ∉ (S.img.map Image.loadable).getD [] ∧ v = 3))) → ∃ t, exec (.ctxload d a) s = .next t ∧ s.ClosesGivesX t d v 4) ∧
    (s.own.level = .supervisor → 2 ^ 16 ≤ (s.x a).toNat → s.own.over = false → S.st = .active →
      ∃ t, exec (.ctxload d a) s = .next t ∧ s.FaultsSet t T 1 (cellOf s.cur % 512) (slotOf s.cur)) ∧
    (s.own.level = .supervisor → (s.x a).toNat < 2 ^ 16 → s.dropped T = false → (s.slotSet (1 - T)).st = .empty →
      ∀ c, s.saved.find? (fun c => c.num == (s.x a).toNat) = some c → (s.x a).toNat ∈ (S.img.map Image.loadable).getD [] →
      ∃ t, exec (.ctxload d a) s = .next t ∧
        ((s.putSet T { S with lastAt := some s.clock }).putSet (1 - T) { s.slotSet (1 - T) with st := .loading, img := c.set.img } |>.post
          { kind := 6, set := 1 - T, id := 0, body := leCells 8 1 0 ++ leCells 9 1 1 ++ leCells 10 2 ((c.set.img.map Image.num).getD (s.slotSet (1 - T)).loadNum) }).ClosesGivesX t d 0 4)

/-- QWAIT gives 1 for a queue that is not declared, 0 for one whose launches are complete, and otherwise waits for those
there now. QPRIO gives the old priority and sets the new one, or gives all ones. HTOKWAIT takes the oldest ingress
token of a channel that no earlier group awaits, or waits at the end of its line, in the place of an earlier wait of
its level; all ones above 15. HTOKRAISE, with the earlier stores performed, puts a token in the egress FIFO, or waits
while it holds 16. KSTAT gives the state of a kernel with its placed and ended groups, 0 for none. Nothing else
changes. That HTOKRAISE appends the value it was entered with is the model's choice (notes/assumptions/83). (R100,
R108, R109, R111, R112, R127) -/
def Obligations.QueueInstructionResults : Prop :=
  ∀ (d a b : Reg) (s : State) (T : Nat) (S : SlotSet), T = setOf s.cur → S = s.slotSet T →
    ((15 < (s.x a).toNat ∨ S.queues.find (s.x a).toNat = none) →
      (∃ t, exec (.qwait d a) s = .next t ∧ s.ClosesGivesX t d 1 4) ∧ ∃ t, exec (.qprio d a b) s = .next t ∧ s.ClosesGivesX t d (BitVec.allOnes 64) 4) ∧
    (∀ (q : Nat) (Q : Queue) (ks : List Nat), q = (s.x a).toNat → q ≤ 15 → S.queues.find q = some Q →
      ks = (S.kernels.filter fun k => k.queue == some q).map Kernel.num →
      (ks = [] → ∃ t, exec (.qwait d a) s = .next t ∧ s.ClosesGivesX t d 0 4) ∧
      (ks ≠ [] → ∃ t, exec (.qwait d a) s = .next t ∧ s.Waits t s.own (.queue d ks)) ∧
      ((s.x b).toNat ≤ 7 → ∃ t, exec (.qprio d a b) s = .next t ∧
        (s.putSet T { S with queues := S.queues.put q { Q with prio := (s.x b).toNat } }).ClosesGivesX t d (BitVec.ofNat 64 Q.prio) 4) ∧
      (7 < (s.x b).toNat → ∃ t, exec (.qprio d a b) s = .next t ∧ s.ClosesGivesX t d (BitVec.allOnes 64) 4)) ∧
    (15 < (s.x a).toNat → (∃ t, exec (.htokwait d a) s = .next t ∧ s.ClosesGivesX t d (BitVec.allOnes 64) 4) ∧
      ∃ t, exec (.htokraise a b) s = .next t ∧ s.Retires t 4 s.own.closeConvoy) ∧
    (∀ (c : Nat) (l : List (BitVec 32)), c = (s.x a).toNat → c ≤ 15 →
      (∀ (v : BitVec 32) (rest : List (BitVec 32)), S.ingress.findD c [] = v :: rest → s.firstWaiter T c = none → ∃ t, exec (.htokwait d a) s = .next t ∧
        (s.putSet T { S with ingress := S.ingress.put c rest }).ClosesGivesX t d (v.setWidth 64) 4) ∧
      (S.ingress.findD c [] = [] ∨ (s.firstWaiter T c).isSome = true → ∃ t, exec (.htokwait d a) s = .next t ∧
        (s.putSet T { S with waiters := S.waiters.filter (fun q => !(q.1 == s.cur && q.2.2 == s.isSupervisor)) ++ [(s.cur, c, s.isSupervisor)] }).Waits t s.own (.hostTaken d (BitVec.ofNat 4 c))) ∧
      (s.Settled → l = S.egress.findD c [] →
        (l.length < 16 → ∃ t, exec (.htokraise a b) s = .next t ∧
          (s.putSet T { S with egress := S.egress.put c (l ++ [(s.x b).setWidth 32]) }).Retires t 4 s.own.closeConvoy) ∧
        (16 ≤ l.length → ∃ t, exec (.htokraise a b) s = .next t ∧ s.Waits t s.own (.hostGiven (BitVec.ofNat 4 c) ((s.x b).setWidth 32))))) ∧
    (∀ k, (s.x a).toNat < 2 ^ 32 → S.kernels.find? (fun k => k.num == (s.x a).toNat) = some k → ∃ t, exec (.kstat d a) s = .next t ∧
      s.ClosesGivesX t d (BitVec.ofNat 64 (k.ended * 2 ^ 39 + k.placed * 2 ^ 14 + k.st.code)) 4) ∧
    ((2 ^ 32 ≤ (s.x a).toNat ∨ S.kernels.find? (fun k => k.num == (s.x a).toNat) = none) → ∃ t, exec (.kstat d a) s = .next t ∧ s.ClosesGivesX t d 0 4)

/-- KLAUNCH of a record and a descriptor that are read at once and keep R113 and R114, for a declared queue of fewer than
256 launches not yet placed, whose completion word and dependences translate and which fits an empty cell, with the
earlier stores performed, gives the kernel number in bits 63:32, puts the kernel, Queued, behind the others, and
writes 1 to its completion word; no other byte of memory changes. A record that breaks a rule gives 3, an undeclared
queue 2, a full queue 1, a kernel that fits no cell 6; these change nothing else. (R100, R113, R114, R115, R116, R122,
R125) -/
def Obligations.LaunchResults : Prop :=
  ∀ (d a : Reg) (s s1 s2 s3 s4 : State) (T : Nat) (S : SlotSet) (im : Image) (r1 r2 : List (Nat × Nat)) (l1 l2 pa : Nat) (deps : List Nat) (r : LaunchRecord)
      (desc : KernelDesc),
    T = setOf s.cur → S = s.slotSet T → S.img = some im → s.Settled → (s.x a).toNat % 64 = 0 →
    s.look s.cur .load (s.x a).toNat 64 = (s1, .here r1 l1) → runsLocal s.cur r1 = true → s.runsBad r1 = false → r = launchRecord (s.readRuns r1) →
    (recordOk (s.readRuns r1) = false → ∃ t, exec (.klaunch d a) s = .next t ∧ ({ s with tr := t.tr }).ClosesGivesX t d 3 4) ∧
    (recordOk (s.readRuns r1) = true → s1.look s.cur .load r.desc.toNat 32 = (s2, .here r2 l2) → runsLocal s.cur r2 = true → s.runsBad r2 = false →
      desc = kernelDesc (s.readRuns r2) →
      (descOk (s.readRuns r2) = false → ∃ t, exec (.klaunch d a) s = .next t ∧ ({ s with tr := t.tr }).ClosesGivesX t d 3 4) ∧
      (descOk (s.readRuns r2) = true → S.queue? r.queue = none → ∃ t, exec (.klaunch d a) s = .next t ∧ ({ s with tr := t.tr }).ClosesGivesX t d 2 4) ∧
      (descOk (s.readRuns r2) = true → (S.queue? r.queue).isSome = true → s2.wordPlace .store r.cword = (s3, .ok pa) → s3.depPlaces r.deps [] = (s4, .ok deps) →
        (r.cohort = false → emptyFit im desc = 0 → ∃ t, exec (.klaunch d a) s = .next t ∧ ({ s with tr := t.tr }).ClosesGivesX t d 6 4) ∧
        (1 ≤ emptyFit im desc → (r.cohort = true → r.ngrp ≤ 512 * emptyFit im desc) →
          (256 ≤ S.unplaced r.queue → ∃ t, exec (.klaunch d a) s = .next t ∧ ({ s with tr := t.tr }).ClosesGivesX t d 1 4) ∧
          (S.unplaced r.queue < 256 → s.MemCanonical → (paHost pa = true ∨ paModule pa = false) → (∀ q ∈ S.kernels, q.num ≠ S.nextKernel) →
            ∀ k : Kernel, k = { num := S.nextKernel, queue := some r.queue, st := .queued, desc := desc, args := r.args, ngrp := r.ngrp, serial := r.serial
                                cohort := r.cohort, cword := some pa, word := 1, deps := deps, launchable := false, passed := 0, reserving := false, placed := 0
                                ended := 0, bar := { used := true, gen := 0, count := r.ngrp, phase := 0, arrivals := 0 }, after := some (s.cur, s.own.seq), stays := false } →
            ∃ t, exec (.klaunch d a) s = .next t ∧ s.SetsX t d (BitVec.ofNat 64 (S.nextKernel * 2 ^ 32)) ∧
              ((({ s with tr := t.tr }).putSet T { S with
                  kernels := S.kernels ++ [k], nextKernel := if S.nextKernel ≥ 2 ^ 32 - 1 then 1 else S.nextKernel + 1 }).putOwn
                { s.own.closeConvoy with
                  x := t.own.x, pc := s.own.pc + 4, retired := s.own.retired + 1, phase := .running, dataWait := none, resume := false }).StoresAt
                t none pa (toBytes 8 1)))))

/-- TLBINV at supervisor level, with nothing of the context in translation, goes on with every entry of the context for
the page of xa (kind 0), or every one (kind 1), gone from the cell and last-level TLBs, and every pointer of it gone
from the walker caches; a kind above 1 raises ILLEGAL. PGPROBE gives bit 63 with the reason for a translation that
fails, and otherwise the attributes, the size and, at supervisor level, the physical base of the page; a kind above 3
raises ILLEGAL. Nothing else changes but the TLBs and the requests withdrawn. (R353, R362, R371, R372, R87) -/
def Obligations.TranslationInstructionResults : Prop :=
  ∀ (d a b : Reg) (s : State) (im : Image), 
    (s.own.level = .supervisor → (s.slotSet (setOf s.cur)).img = some im → s.Quiet → s.own.sent = [] → s.translatedLeft (setOf s.cur) = false →
      ((s.x b).toNat ≤ 1 → ∃ t, exec (.tlbinv a b) s = .next t ∧
        ({ s with tr := t.tr, port := { s.port with requests := t.port.requests } }).Retires t 4 s.own.closeConvoy ∧
        (∀ c e, (e ∈ t.tr.cells.findD c [] ∨ e ∈ t.tr.dies.findD c []) → e.ctx = im.num → (s.x b).toNat = 0 ∧ e.base ≠ (s.x a).toNat / 2 ^ e.size) ∧
        (∀ c e, e ∈ t.tr.walks.findD c [] → e.ctx ≠ im.num) ∧
        ∀ c e, ((e ∈ s.tr.cells.findD c [] ∧ e.ctx ≠ im.num) → e ∈ t.tr.cells.findD c []) ∧ ((e ∈ s.tr.dies.findD c [] ∧ e.ctx ≠ im.num) → e ∈ t.tr.dies.findD c []))) ∧
    (s.own.level = .supervisor → 1 < (s.x b).toNat → ∃ t, exec (.tlbinv a b) s = .next t ∧ t = s.illegal) ∧
    (∀ (n pa leaf log sub : Nat) (v : Word) (k : Kind), (n, k) ∈ [(0, Kind.load), (1, .store), (2, .atomic), (3, .fetch)] → (s.x b).toNat = n → (s.x a).toNat < 2 ^ 56 →
      ((s.translate (setOf s.cur) (dieOf s.cur) (some s.cur) k (s.x a).toNat).2 = .ok pa leaf log ∧
          v = BitVec.ofNat 64 (leaf / 2 ^ 4 % 2 ^ 7 * 2 ^ 56 + (log - 12) / 2 * 2 ^ 52 +
            (if s.own.level = .supervisor then pa / 2 ^ log * 2 ^ log else 0) / 2 ^ 12 % 2 ^ 40 * 2 ^ 12) ∨
        (s.translate (setOf s.cur) (dieOf s.cur) (some s.cur) k (s.x a).toNat).2 = .fail sub ∧ v = BitVec.ofNat 64 (2 ^ 63 + sub % 16 * 2 ^ 8)) →
      ∃ t, exec (.pgprobe d a b) s = .next t ∧ ({ s with tr := t.tr }).ClosesGivesX t d v 4) ∧
    (2 ^ 56 ≤ (s.x a).toNat → (s.x b).toNat ≤ 3 → ∃ t, exec (.pgprobe d a b) s = .next t ∧ s.ClosesGivesX t d (2 ^ 63 + 4 * 2 ^ 8) 4) ∧
    (3 < (s.x b).toNat → s.Handles → ∃ t, exec (.pgprobe d a b) s = .next t ∧ s.TakesTrap t 1 0 s.ir s.own.pc)

/-- At a boundary of a live group at user level without a store fault to report, ASYNC_TRAP_DELIVERY takes the first held
cause, asynchronous or, with an element, imprecise; in a wait whose event has not occurred it takes it with the wait
kept. PAGE_STORE_DELIVERY takes an unreported store fault. WATCHDOG interrupts a wait at user level whose count has
passed a limit other than 0, or has reached it without the wait's event. GYIELD_RELEASE ends a mark when its clocks
have passed or every group of its set has left Running. CONVOY_DRAIN pushes the tokens of the complete members of the
first convoy, and takes it out of the queue when it is ended with every member complete. A state for which these rules
list nothing is left as it is. (R10, R38, R136, R137, R139, R144, R196, R366) -/
def Obligations.GroupEventResults : Prop :=
  ∀ (b : BitVec 12) (s : State) (g : Nat) (G : Group), g = b.toNat → G = s.group g →
    (∀ c, s.live g = true → bitOf G.trapvec 0 = false → G.over = false → G.firstCause = some c →
      (G.atBoundary = true → G.unreported = false → ∃ t, exec (.asyncTrapDelivery b) s = .next t ∧ ({ s with tr := t.tr }).OnlyGroup t g ∧
        t.group g = { (G.interruptedBy c (if c.elem.isSome then 9 else 2) none) with causes := G.causes.erase c }) ∧
      (∀ w, G.phase = .waiting w → G.level = .user → c.elem = none → s.wakeUp g false = none →
        ∃ t, exec (.asyncTrapDelivery b) s = .next t ∧ s.OnlyGroup t g ∧
        t.group g = { (G.interruptedBy c (2 + 4 + w.code * 16) (some (G.pc, w))) with causes := G.causes.erase c })) ∧
    (G.causes = [] ∨ s.live g = false → exec (.asyncTrapDelivery b) s = .next s) ∧
    (s.live g = true → s.Handling g → G.atBoundary = true → G.unreported = true → ∃ t, exec (.pageStoreDelivery b) s = .next t ∧ ({ s with tr := t.tr }).TakesStoreTrap t g) ∧
    (s.live g = false ∨ G.atBoundary = false ∨ G.unreported = false → exec (.pageStoreDelivery b) s = .next s) ∧
    (∀ w, G.phase = .waiting w →
      (s.live g = true → s.Handling g → bits G.wdoglim 0 48 ≠ 0 → bits G.wdoglim 0 48 < G.wdog ∨ (bits G.wdoglim 0 48 = G.wdog ∧ s.wakeUp g false = none) →
        ∃ t, exec (.watchdog b) s = .next t ∧ s.OnlyGroup t g ∧
        t.group g = { (G.interruptedBy { code := 0xB, sub := 0, addr := 0, elem := none, inst := 0 } (2 + 4 + w.code * 16) (some (G.pc, w))) with wdog := 0 }) ∧
      (bits G.wdoglim 0 48 = 0 ∨ G.wdog < bits G.wdoglim 0 48 ∨ G.level = .supervisor → exec (.watchdog b) s = .next s)) ∧
    (∀ y, G.yield = some y →
      (y.left = 0 ∨ (∀ h ∈ y.others, (s.group h).phase ≠ .running ∧ (s.group h).phase ≠ .placed) → exec (.gyieldRelease b) s = .next (s.putGroup g { G with yield := none })) ∧
      (y.left ≠ 0 → (∃ h ∈ y.others, (s.group h).phase = .running) → exec (.gyieldRelease b) s = .next s)) ∧
    (G.convoys = [] → exec (.convoyDrain b) s = .next s) ∧
    ∀ (c : Convoy) (rest : List Convoy), G.convoys = c :: rest →
      (s.mayIssue g = false → exec (.convoyDrain b) s = .next s) ∧
      ∀ n : Fin 16 → Nat, n = (fun f => (c.members.filter fun m => m.complete && m.push == some (BitVec.ofFin f)).length) →
      s.mayIssue g = true → (∀ f : Fin 16, G.fifos[f] + n f ≤ 255) →
        ∃ t, exec (.convoyDrain b) s = .next t ∧ s.OnlyGroup t g ∧
          t.group g = { G with
            convoys := if c.ended = true ∧ (∀ m ∈ c.members, m.complete = true) then rest
              else { c with members := c.members.map fun m => if m.complete then { m with push := none } else m } :: rest
            fifos := (t.group g).fifos } ∧
          ∀ f : Fin 16, (t.group g).fifos[f] = G.fifos[f] + n f

/-- For a live group WAIT_WAKE ends: a barrier whose phase has completed (0, or the phase for BAR); a freed barrier (all
ones); a token there (taken by TKPOP; a vector instruction goes on); queue launches complete (0); a watermark reached
or a copy ended; a receive Complete (its flag, the handle released) or its handle gone (Cancelled; the model's choice,
log entry 72); a KV item there; a called ticket; a host token there for the first in line; room in an egress FIFO; a
write to the line of WFE, which may also end without cause; contributions all ended. It gives the result of the
instruction and the group goes on behind it, or with it; a wait whose event has not occurred or whose count passed its
limit, and a group that is not live or not waiting, are left as they are. (R96, R128, R135, R316, R330, R394, R415,
R442) -/
def Obligations.WaitWakeResults : Prop :=
  ∀ (b : BitVec 12) (s u : State) (g : Nat) (G : Group), g = b.toNat → G = s.group g → u = { s with cur := g } →
    (s.live g = false ∨ (∀ w, G.phase ≠ .waiting w) ∨ G.limitPassed = true → exec (.waitWake b) s = .next s) ∧
    (s.live g = true → G.limitPassed = false → ∀ (d : Reg) (f ch : BitVec 4) (h v : Word) (p : BitVec 32) (q : Bool) (key slot : Nat) (ks : List Nat) (rest : List Word) (l : List (BitVec 32))
        (runs : List (Nat × Nat)),
      (G.phase = .waiting (.barrier h p d q) → s.liveHandle g h = .ok (.entry key) →
        (1 ≤ ((s.barEntry key).phase - p).toNat → ((s.barEntry key).phase - p).toNat < 2 ^ 31 → ∃ t, exec (.waitWake b) s = .next t ∧
          u.GivesX t d (if q then p.setWidth 64 else 0) 4) ∧
        ((s.barEntry key).phase = p → exec (.waitWake b) s = .next s)) ∧
      (∀ v, G.phase = .waiting (.passed d v) → ∃ t, exec (.waitWake b) s = .next t ∧ u.GivesX t d v 4) ∧
      (G.phase = .waiting (.freed d) → ∃ t, exec (.waitWake b) s = .next t ∧ u.GivesX t d (BitVec.allOnes 64) 4) ∧
      (G.phase = .waiting (.token f) →
        (G.fifos[f.toNat] ≠ 0 → G.async = [] → ∃ t, exec (.waitWake b) s = .next t ∧ u.Retires t 4 { G with fifos := G.fifos.set f.toNat (G.fifos[f.toNat] - 1) }) ∧
        (G.fifos[f.toNat] = 0 → exec (.waitWake b) s = .next s)) ∧
      (G.phase = .waiting (.vecToken f) →
        (G.fifos[f.toNat] ≠ 0 → exec (.waitWake b) s = .next (u.putGroup g { G with phase := .running })) ∧
        (G.fifos[f.toNat] = 0 → exec (.waitWake b) s = .next s)) ∧
      (G.phase = .waiting (.queue d ks) →
        ((∀ k ∈ (s.slotSet (setOf g)).kernels, k.num ∉ ks) → ∃ t, exec (.waitWake b) s = .next t ∧ u.GivesX t d 0 4) ∧
        ((∃ k ∈ (s.slotSet (setOf g)).kernels, k.num ∈ ks) → exec (.waitWake b) s = .next s)) ∧
      (G.phase = .waiting (.watermark d ch h) → ∀ c, c = G.chan[ch.toNat] →
        (h.toNat ≤ c.filled ∧ v = 0 ∨ c.filled < h.toNat ∧ (c.st = .failed ∧ v = 1 ∨ c.st ≠ .failed ∧ c.st ≠ .copying ∧ v = 2) →
          ∃ t, exec (.waitWake b) s = .next t ∧ u.GivesX t d v 4) ∧
        (c.filled < h.toNat → c.st = .copying → exec (.waitWake b) s = .next s)) ∧
      (G.phase = .waiting (.place runs) →
        (s.behind g runs = false → exec (.waitWake b) s = .next (u.putGroup g { G with phase := .running })) ∧
        (s.behind g runs = true → exec (.waitWake b) s = .next s)) ∧
      (∀ K, G.phase = .waiting (.message d K) →
        (G.recvHeld (BitVec.ofNat 64 K) = some (slot, .complete v) → ∃ t, exec (.waitWake b) s = .next t ∧
          u.Retires t 4 { (G.dropRecv slot) with x := t.own.x } ∧ u.SetsX t d v) ∧
        (G.recvHeld (BitVec.ofNat 64 K) = some (slot, .posted) ∨ G.recvHeld (BitVec.ofNat 64 K) = some (slot, .landing) → exec (.waitWake b) s = .next s) ∧
        (G.recvHeld (BitVec.ofNat 64 K) = none → ∃ t, exec (.waitWake b) s = .next t ∧ u.GivesX t d (2 ^ 63 + 4 * 2 ^ 56) 4)) ∧
      (G.phase = .waiting (.kvItem d) →
        (G.items = v :: rest → bitOf v 63 = true → ∃ t, exec (.waitWake b) s = .next t ∧ u.Retires t 4 { G with items := rest, x := t.own.x } ∧ u.SetsX t d v) ∧
        (G.items = [] → (∃ k ∈ (s.seqAt (seqOf g)).subs, k.group = g) → exec (.waitWake b) s = .next s)) ∧
      (∀ i j, G.phase = .waiting (.ticket h i j) → ticketHere h = true → ∀ D, D = s.dispenser (dispKey (setOf g) (ticketDie h % 8) (ticketDisp h)) →
        ((ticketNum h - D.doneNo).toNat < s.ticketWindow (setOf g) → ∃ t, exec (.waitWake b) s = .next t ∧ u.Retires t 4 G) ∧
        (s.ticketWindow (setOf g) ≤ (ticketNum h - D.doneNo).toNat → exec (.waitWake b) s = .next s)) ∧
      (∀ i j, G.phase = .waiting (.ticket h i j) → ticketHere h = false →
        (j = true → ∃ t, exec (.waitWake b) s = .next t ∧ u.Retires t 4 G) ∧ (j = false → exec (.waitWake b) s = .next s)) ∧
      (G.phase = .waiting (.hostTaken d ch) → ∀ S, S = s.slotSet (setOf g) →
        (s.firstWaiter (setOf g) ch.toNat = some g → S.ingress.findD ch.toNat [] = p :: l → ∃ t, exec (.waitWake b) s = .next t ∧
          (u.putSet (setOf g) { S with ingress := S.ingress.put ch.toNat l, waiters := S.waiters.filter fun k => !(k.1 == g && k.2.2 == decide (G.level = .supervisor)) }).GivesX t d (p.setWidth 64) 4) ∧
        (S.ingress.findD ch.toNat [] = [] → exec (.waitWake b) s = .next s)) ∧
      (G.phase = .waiting (.hostGiven ch p) → ∀ S, S = s.slotSet (setOf g) → l = S.egress.findD ch.toNat [] →
        (l.length < 16 → ∃ t, exec (.waitWake b) s = .next t ∧ (u.putSet (setOf g) { S with egress := S.egress.put ch.toNat (l ++ [p]) }).Retires t 4 G) ∧
        (16 ≤ l.length → exec (.waitWake b) s = .next s)) ∧
      (∀ line, G.phase = .waiting (.event line q) → ∃ t, exec (.waitWake b) s = .next t ∧ u.Retires t 4 G) ∧
      (G.phase = .waiting .collective →
        (G.collDone = G.collIssued → exec (.waitWake b) s = .next (u.putGroup g { G with phase := .running })) ∧
        (G.collDone ≠ G.collIssued → exec (.waitWake b) s = .next s)))

/-- CELL_DRAIN_COMPLETE, when every group of the draining context on the cell has stopped, counts the cell and notes in
VRESUME where its convoys have stopped; after the last one the context stands by. SLOT_STATE_UNCORR faults the
context. CONTEXT_LOAD_COMPLETE refused by firmware leaves the set Empty and ends the command with its status; an image
that passes its checks stands by next to an Active context, with its parts of the stores zero but for what the image
says and the leaves that map them; a saved context gets its groups back. CONTEXT_SAVE_COMPLETE of a marked context
that stands by and has nothing on its way empties its set and keeps the copy. A set that is not Loading, or failed
firmware, takes no load. (R10, R82, R84, R86, R98, R130, R450, R451) -/
def Obligations.ContextEventResults : Prop :=
  ∀ (T : BitVec 1) (b : BitVec 9) (e : BitVec 12) (fd : LoadFinding) (s : State) (t0 : Nat) (S : SlotSet), t0 = T.toNat → S = s.slotSet t0 →
    (∀ (D : Nat) (Sd : SlotSet) (l : List Nat), s.drainingSet = some D → (s.slotSet (1 - D)).st = .active → Sd = s.slotSet D → l = setAdd Sd.drained b.toNat →
      (∀ h ∈ s.groupsOf D, cellOf h = b.toNat → s.groupDrained h = true) →
      ∃ t, exec (.cellDrainComplete b) s = .next t ∧ t = { s with groups := t.groups, set0 := t.set0, set1 := t.set1, port := { s.port with waiting := t.port.waiting } } ∧
        ((∃ h ∈ s.groupsOf D, cellOf h ∉ l) → t.slotSet D = { Sd with drained := l }) ∧
        ((∀ h ∈ s.groupsOf D, cellOf h ∈ l) → t.slotSet D = { Sd with drained := l, st := .standby }) ∧
        t.slotSet (1 - D) = s.slotSet (1 - D) ∧ ∀ h, t.group h =
          if setOf h = D ∧ cellOf h = b.toNat then
            (match (s.group h).phase with | .trapped _ => s.group h | .running => { (s.group h).markResume with phase := .preempted } | _ => (s.group h).markResume)
          else s.group h) ∧
    ((s.slotSet (setOf e.toNat)).st ∈ [CtxState.active, .preempting, .standby] →
      ∃ t, exec (.slotStateUncorr e) s = .next t ∧ s.FaultsSet t (setOf e.toNat) 0xF0 (cellOf e.toNat) (slotOf e.toNat)) ∧
    (S.st ≠ .loading ∨ s.firmware ≠ .running → exec (.contextLoadComplete T fd) s = .next s) ∧
    (S.st = .loading → s.firmware = .running → ∀ p ∈ [(LoadFinding.badSignature, 4), (.belowRelease, 0xB)], ∀ c, s.port.cmd = some c → c.code = 1 ∨ c.code = 2 → c.set = t0 →
      ∃ t, exec (.contextLoadComplete T p.1) s = .next t ∧ t.slotSet t0 = { SlotSet.fresh with lastAt := S.lastAt } ∧
        t = { s with set0 := t.set0, set1 := t.set1, port := t.port } ∧ t.slotSet (1 - t0) = s.slotSet (1 - t0) ∧
        t.port = { s.port with waiting := t.port.waiting, busy := false, done := true, status := p.2, result := [], cmd := none }) ∧
    (∀ (im : Image) (c : Command), S.st = .loading → s.firmware = .running → S.img = none → im.num = S.loadNum → s.port.cmd = some c → c.code = 1 → c.set = t0 → memNat c.args 24 1 = 0 →
      s.MemCanonical → s.freshStatus t0 im = 0 → (s.wordAts t0 im).2 = .ok () → (s.slotSet (1 - t0)).st = .active →
      ∃ t, exec (.contextLoadComplete T (.image im)) s = .next t ∧ (t.slotSet t0).st = .standby ∧ (t.slotSet t0).img = some im ∧ (t.slotSet t0).kernels = [] ∧
        t.groups = s.groups ∧ t.slotSet (1 - t0) = s.slotSet (1 - t0) ∧ t.hostMem = s.hostMem ∧
        (∀ p, im.parts = [p] → memNat t.mem (partUp im t0 p.entry) 8 = (partUp im t0 p.place ||| p.flags) % 2 ^ 64) ∧
        (∀ a, (∀ q ∈ im.cells, q.1 ≠ a) → (∀ p ∈ im.parts, a < partUp im t0 p.entry ∨ partUp im t0 p.entry + 8 ≤ a) → memByte t.mem a = if inPart im t0 a then 0 else memByte s.mem a) ∧
        t.port = { s.port with waiting := t.port.waiting, busy := false, done := true, status := 0, result := leCells 0 2 im.num, cmd := none }) ∧
    (∀ (im : Image) (c : SavedContext), S.st = .loading → s.firmware = .running → S.img = some im → s.saved.find? (fun c => c.num == im.num) = some c → s.imageStatus t0 im = 0 →
      (s.slotSet (1 - t0)).st = .active → (c.groups.map fun q => regroup t0 q.1).Nodup →
      ∃ t, exec (.contextLoadComplete T .saved) s = .next t ∧ (t.slotSet t0).st = .standby ∧ t.saved = s.saved.filter (fun q => q.num != c.num) ∧
        t.slotSet (1 - t0) = s.slotSet (1 - t0) ∧ t.hostMem = s.hostMem ∧
        ∀ q ∈ c.groups, t.groups.find (regroup t0 q.1) = some (q.2.move t0 (partUp im t0) q.1)) ∧
    (∀ im, S.img = some im → s.firmware = .running → S.st = .standby → S.saveMark = true ∨ S.saveCmd = true → s.savable t0 = true → s.MemCanonical →
      ∃ t, exec (.contextSaveComplete T) s = .next t ∧ t.slotSet t0 = SlotSet.fresh ∧ t.slotSet (1 - t0) = s.slotSet (1 - t0) ∧
        (∀ h, t.groups.find h = if setOf h = t0 then none else s.groups.find h) ∧ t.hostMem = s.hostMem ∧
        (∀ a, memByte t.mem a = if inPart im t0 a then 0 else memByte s.mem a) ∧
        t.saved = s.saved.filter (fun q => q.num != im.num) ++ [s.savedCopy t0 im]) ∧
    (S.st ≠ .standby ∨ s.firmware ≠ .running → exec (.contextSaveComplete T) s = .next s)

/-- KERNEL_LAUNCHABLE makes a Queued kernel whose predecessors are placed, that is not serial or is alone, and whose
dependences show Done, launchable, and asks for a decision. A decision without a candidate is the last until something
changes, and no kernel has been passed over. With one candidate, which no reservation holds back and no launch order
delays, the decision places its next group on the cell of R129 in its lowest free slot, in the start state of R121,
counts it, and is followed by another. When the kernel becomes Placing or Placed, STATE of its completion word (2, 3)
is written where the word stands, its other bits and every other byte of memory as before, or the update goes to the
word of another module; otherwise no memory changes. Every other group is as before, but for WFE on the line of the
word. That a decision follows another one is the model's choice (notes/assumptions/41), and that a launchable kernel
stays so (notes/assumptions/83). (R102, R104, R116, R117, R121, R129, R130) -/
def Obligations.PlacementResults : Prop :=
  ∀ (kn : BitVec 32) (far : List Host.Cell) (s : State) (T : Nat) (S : SlotSet), s.activeSet = some T → S = s.slotSet T →
    (∀ k, S.kernel? kn.toNat = some k →
      (k.st = .queued → k.launchable = false → s.meets T S k far = true → exec (.kernelLaunchable kn far) s =
        .next (s.putSet T { S.putKernel { k with launchable := true } with placeDue := true })) ∧
      (k.st ≠ .queued ∨ s.meets T S k far = false → exec (.kernelLaunchable kn far) s = .next s)) ∧
    (S.kernel? kn.toNat = none → exec (.kernelLaunchable kn far) s = .next s) ∧
    (S.placeDue = false → (∀ k ∈ S.kernels, k.stays = true → s.launchSeen k = false) → exec .placementDecision s = .next s) ∧
    (S.placeDue = true → (∀ k ∈ S.kernels, k.launchable = true → k.st ≠ .queued ∧ k.st ≠ .placing) → (∀ i ∈ S.kernels, ∀ j ∈ S.kernels, i.num = j.num → i = j) →
      exec .placementDecision s = .next (s.putSet T { S with placeDue := false, kernels := S.kernels.map fun k => { k with stays := false, passed := 0 } })) ∧
    ∀ (k : Kernel) (q c slot : Nat) (Q : Queue) (im : Image) (free : List Nat), S.placeDue = true → k ∈ S.kernels → k.launchable = true → k.st = .queued ∨ k.st = .placing →
      (∀ j ∈ S.kernels, j.launchable = true → j.st = .queued ∨ j.st = .placing → j = k) → (∀ j ∈ S.kernels, j.num = k.num → j = k) →
      (∀ j ∈ S.kernels, j.reserving = false) → k.queue = some q → q ≤ 15 → S.queues.find q = some Q → Q.prio ≤ 7 → k.cohort = false → s.launchSeen k = true →
      S.img = some im → s.chooseCell T k.desc (s.mayUse k) = some c → s.freeSlots T c = slot :: free → k.placed < k.ngrp →
      ∃ t, exec .placementDecision s = .next t ∧
        t.group (groupCode c T slot) = Group.start im k.desc k.args k.placed k.num k.ngrp (s.holdingFor T c im k.desc) ∧
        (t.slotSet T).placeDue = true ∧ t.slotSet (1 - T) = s.slotSet (1 - T) ∧
        (∃ j, (t.slotSet T).kernel? k.num = some j ∧ j.placed = k.placed + 1 ∧ j.st = if k.placed + 1 = k.ngrp then .placed else .placing) ∧
        (k.placed + 1 ≠ k.ngrp → k.st = .placing → t.mem = s.mem ∧ t.hostMem = s.hostMem ∧ t.out = s.out ∧ ∀ h, h ≠ groupCode c T slot → t.group h = s.group h) ∧
        ∀ (pa n : Nat) (M : Word), k.cword = some pa → n = (if k.placed + 1 = k.ngrp then 3 else 2) → k.placed + 1 = k.ngrp ∨ k.st = .queued →
          (paHost pa = true ∨ paModule pa = false → s.MemCanonical → M = BitVec.ofNat 64 (natOfBytes (s.readAt pa 8)) →
            t.readAt pa 8 = toBytes 8 (withBits M 0 3 n).toNat ∧ s.OnlyWord t pa ∧ t.out = s.out ∧
            ∀ h, h ≠ groupCode c T slot → t.group h = touchGroup none pa 8 h (s.group h)) ∧
          (paHost pa = false → paModule pa = true → t.mem = s.mem ∧ t.hostMem = s.hostMem ∧
            t.out = s.out ++ [.request pa (.update (BitVec.ofNat 64 (7 - n)) (BitVec.ofNat 64 n) 0) (groupCode 0 T 0)] ∧ ∀ h, h ≠ groupCode c T slot → t.group h = s.group h)

/-- PAGE_WALK_COMPLETE of one of the 64 oldest misses, in hardware mode, that finds a leaf which permits the access puts
the page into the last-level TLB of the die and ends the miss, and any other outcome ends the miss; in host-assisted
mode it does nothing. XLATE_DEADLINE withdraws the request and refuses the miss. ATS and PRI completions move their
request along. SCATTER_ADD_UPDATE of an element at the head of its queue, whose place is on the own die and holds good
data, writes the updated element; data that are bad are reported with the lowest element; a head that is no such
element is left. (R10, R241, R247, R359, R360, R446) -/
def Obligations.PageEventResults : Prop :=
  ∀ (e : BitVec 3) (ix : BitVec 12) (id : BitVec 32) (ok : Bool) (b : BitVec 12) (q : BitVec 2) (s : State),
    (∀ m im, ((s.tr.misses.findD e.toNat []).take 64)[ix.toNat]? = some m → (s.slotSet m.set).img = some im →
      (im.hostWalk = true → exec (.pageWalkComplete e ix) s = .next s) ∧
      (im.hostWalk = false → m.answer = none → ∃ t, exec (.pageWalkComplete e ix) s = .next t ∧ t = { s with tr := t.tr } ∧ m ∉ t.tr.misses.findD e.toNat [] ∧
        ∀ leaf log, (s.hardwareWalk im e.toNat (m.granule * 4096)).leaf = .ok (leaf, log) →
          (permits (missKind m.kind) leaf = true → TlbEntry.mk im.num (m.granule * 4096 / 2 ^ log) log leaf
              (some (m.granule * 4096 / 2 ^ if log = 30 then 30 else log - 2 * entryRep leaf)) ∈ t.tr.dies.findD e.toNat []) ∧
          (permits (missKind m.kind) leaf = false → t.tr.dies = s.tr.dies))) ∧
    (((s.tr.misses.findD e.toNat []).take 64)[ix.toNat]? = none → exec (.pageWalkComplete e ix) s = .next s) ∧
    (∀ die T granule m, s.port.requests.find id.toNat = some (.translate die T granule) →
      (s.tr.misses.findD die []).find? (fun m => m.request == some id.toNat) = some m → (s.slotSet T).img.isSome = true →
      exec (.xlateDeadline id) s = .next { s with
        port := { s.port with requests := s.port.requests.drop id.toNat }
        tr := { s.tr with misses := s.tr.misses.put die ((s.tr.misses.findD die []).filterMap fun q =>
          if q = m then (if m.joined.isEmpty then none else some { m with request := none, answer := some none }) else some q) } }) ∧
    (s.port.requests.find id.toNat = none → exec (.xlateDeadline id) s = .next s) ∧
    (∃ t, exec (.atsTranslationCompletion id ok) s = .next t ∧ t = { s with tr := { s.tr with ats := t.tr.ats } } ∧
      t.tr.ats = s.tr.ats.map fun r => if r.id = id.toNat then { r with st :=
        if r.st = .asking then (if ok then .granted else .paging) else if r.st = .retrying then (if ok then .granted else .failed) else r.st } else r) ∧
    (exec (.priPageRequestResponse id ok) s = .next { s with tr := { s.tr with ats := s.tr.ats.map fun r =>
      if r.id = id.toNat then { r with st := if r.st = .paging then .retrying else r.st } else r } }) ∧
    ∀ (g : Nat) (a : Access) (rest : List Access), g = b.toNat → (s.group g).slice q.toNat = a :: rest →
      (a.isAtomic = false → exec (.scatterAddUpdate b q) s = .next s) ∧
      (∀ (op : BitVec 2) (tg : Tag) (pa : Nat), a.op = .scatter op tg → a.pa = some [(pa, a.len)] → a.len = tagWidth tg / 8 → 0 < a.len → reachOf g pa = .local_ →
        s.mustStay g q.toNat a = false → s.outOfOrder g q.toNat a [(pa, a.len)] = false →
        (s.badData pa a.len = false → s.MemCanonical → ∃ t, exec (.scatterAddUpdate b q) s = .next t ∧
          (s.putGroup g ((s.group g).setSlice q.toNat rest)).StoresAt t (some g) pa
            (toBytes a.len (scatterValue op tg (natOfBytes (s.readAt pa a.len)) a.data))) ∧
        (s.badData pa a.len = true → (s.group g).causes = [] → exec (.scatterAddUpdate b q) s =
          .next (s.putGroup g { (s.group g).setSlice q.toNat rest with causes := [{ code := 0xC, sub := 0, addr := a.va, elem := some a.elem, inst := a.inst }] })))

/-- MATRIX_ENTRY_ISSUE of the entry at the head of the queue, whose group has no store or write before it, whose token is
there and which waits for no watermark, marks it issued and takes the token; a multiply takes its snapshot of the B
operand and its clocks. TLD_ROWBLOCK_LAND puts the next row-block of an issued TLD into its tile register, which the
last one classifies. MATRIX_ENTRY_RETIRE spends clocks within the window, and with none owed takes the effect of the
head: a tile of TMV, a zero accumulator of AZERO, the sum of products of MMAI, the rounded sum of MMA and MMAZ with
the flags, the rows of ACCST put on the asynchronous path; the entry leaves and pushes its token, a multiply counted
by its path as it retires. MATRIX_WINDOW begins a new window when CYCLE of the cell has passed a multiple of 256.
Nothing else changes. At retirement BLD puts the bytes of its rows, and BST two tile registers, on the asynchronous
path as the write of a whole B-store tile with its tag and POISON, BLD raising MQFAULT for data that failed. ACCMV
converts each element of the accumulator to the tag of vd and raises MFL, or with POISON writes none. AZERO of tag f64
zeroes a pair. MMAS adds the kept slice products to both accumulators of its pair. A multiply with a poisoned operand,
scale tile or accumulator changes no byte and sets POISON on its accumulators. That an entry takes its effect in one
step is the model's choice (notes/assumptions/21). (R66, R68, R258, R260, R261, R263, R265, R266, R273, R276, R277,
R281) -/
def Obligations.MatrixEventResults : Prop :=
  (∀ (b : BitVec 9) (far : FarData) (lost : Bool) (s : State) (C : CellState), C = s.cell b.toNat →
    (C.mq = [] → ∀ i ∈ [Instr.matrixEntryIssue b, .tldRowblockLand b far lost, .matrixEntryRetire b far lost], exec i s = .next s) ∧
    (∀ n : Nat, n = cellCycle b.toNat s.clock / 256 →
      (C.window < n → exec (.matrixWindow b) s = .next (s.putCell b.toNat
        { C with window := n, spent := 0, spent0 := 0, spent1 := 0, capNow := C.cap, limNow0 := C.lim0, limNow1 := C.lim1 })) ∧
      (n ≤ C.window → exec (.matrixWindow b) s = .next s)) ∧
    ∀ (e : MatrixEntry) (rest : List MatrixEntry) (g : Nat) (G H : Group), C.mq = e :: rest → e ∉ rest → g = e.group → G = s.group g →
      (e.issued = false → s.mayIssue g = true → (∀ l ∈ G.slices.toList, l = []) → (∀ w ∈ G.sent, w.held = none) → G.async = [] → s.behind g (s.entryRuns e) = false →
        (∀ r ∈ e.rows, ∀ p ∈ r.2, paModule p.1 = false) →
        (match e.tok.pop with | some f => G.fifos[f.toNat] ≠ 0 ∧ H = { G with fifos := G.fifos.set f.toNat (G.fifos[f.toNat] - 1) } | none => H = G) →
        ((∀ k ad td n ta tb sct, e.op ≠ .mul k ad td n ta tb sct) →
          exec (.matrixEntryIssue b) s = .next ((s.putGroup g H).putCell b.toNat { C with mq := { e with issued := true } :: rest })) ∧
        (∀ k ad td n ta tb sct, e.op = .mul k ad td n ta tb sct →
          exec (.matrixEntryIssue b) s = .next ((s.putGroup g H).putCell b.toNat { C with mq :=
            { e with issued := true, chained := false, snap := some (s.snapshot g n)
                     owed := mulClocks k e.vcfg (mulPath H k ad td ta tb sct (s.snapshot g n).2 false) false } :: rest }))) ∧
      (∀ (td : BitVec 3) (base stride : Word) (tg : Tag) (data : List Byte) (bad : Option (Nat × Word)) (r : MatrixEntry), e.op = .tld td base stride tg → e.issued = true →
        e.effected = false → e.landed < 4 → s.readRows e far lost ((e.rows.drop (4 * e.landed)).take 4) = some (r, data, bad) → e.landed < 3 ∨ e.bad.or bad = none →
        ∃ t, exec (.tldRowblockLand b far lost) s = .next t ∧
          t = (s.putGroup g (t.group g)).putCell b.toNat { C with
            mq := { r with landed := e.landed + 1, bad := e.bad.or bad, effected := decide (e.landed = 3) } :: rest } ∧
          t.group g = { G with
            t := (t.group g).t
            tdir := if e.landed = 3 then G.tdir.set td.toNat (classify .reg tg false ((t.group g).t[td.toNat]).toNat) else G.tdir } ∧ (∀ k : Fin 8, k.val ≠ td.toNat → (t.group g).t[k] = G.t[k]) ∧
          ∀ r, r < 4 → elemOf ((t.group g).t[td.toNat]).toNat 1536 r =
            if r = e.landed then natOfBytes data % 2 ^ 1536 else elemOf (G.t[td.toNat]).toNat 1536 r) ∧
      (e.issued = true → e.effected = true ∨ e.owed = 0 →
        (match e.tok.push with | some f => G.fifos[f.toNat] < 255 ∧ H = { G with fifos := G.fifos.set f.toNat (G.fifos[f.toNat] + 1) } | none => H = G) →
        (e.effected = true → exec (.matrixEntryRetire b far lost) s = .next ((s.putGroup g { H with
            melided := if e.elided = some true then G.melided + 1 else G.melided
            missued := if e.elided = some false then G.missued + 1 else G.missued }).putCell b.toNat { C with mq := rest })) ∧
        (e.effected = false →
        (∀ (td : BitVec 3) (bits : BitVec 6144) (tg : Tag), e.op = .tmv td bits tg → exec (.matrixEntryRetire b far lost) s =
          .next ((s.putGroup g { H with
            t := G.t.set td.toNat bits, tdir := G.tdir.set td.toNat (classify .reg tg false bits.toNat) }).putCell b.toNat { C with mq := rest })) ∧
        (∀ (ad : BitVec 2) (tg : Tag), e.op = .azero ad tg → tg ≠ .f64 → exec (.matrixEntryRetire b far lost) s =
          .next ((s.putGroup g { H with
            a := G.a.set ad.toNat 0, adir := G.adir.set ad.toNat (classify .acc tg false 0) }).putCell b.toNat { C with mq := rest })) ∧
        (∀ (ad : BitVec 2) (base stride : Word), e.op = .accst ad base stride → ∃ t, exec (.matrixEntryRetire b far lost) s = .next t ∧
          t = (s.putGroup g { H with async := (t.group g).async }).putCell b.toNat { C with mq := rest } ∧
          (t.group g).async = G.async ++ (upFrom 0 16).map fun i => AsyncWrite.mk (.virt (base + BitVec.ofNat 64 i * stride))
            (toBytes 128 (elemOf (G.a[ad.toNat]).toNat 1024 i)) (G.adir[ad.toNat]).poison (some (G.adir[ad.toNat]).tag) none e.pc i false none) ∧
        (∀ (k ad : BitVec 2) (td : BitVec 3) (n : Nat) (ta tb : Tag) (sct : Option (BitVec 3)) (sn : BitVec 12288 × TileEntry), e.op = .mul k ad td n ta tb sct → k ≠ 3 →
          e.snap = some sn → (G.tdir[td.toNat]).poison = false → sn.2.poison = false → (∀ q, sct = some q → (G.tdir[q.toNat]).poison = false) →
          (k = 1 ∨ (G.adir[ad.toNat]).poison = false) → ∀ val : Nat → Nat × BitVec 6,
          val = (fun p => if k = 2 then (mmaiAt ta tb (G.t[td.toNat]).toNat sn.1.toNat (elemOf (G.a[ad.toNat]).toNat 32 p) (p / 32) (p % 32), 0)
            else mmaAt ta tb (Sys2Proof.Machine.bits e.vcfg 2 3) (G.t[td.toNat]).toNat sn.1.toNat (sct.map fun q => (G.t[q.toNat]).toNat)
              (if k = 1 then 0 else elemOf (G.a[ad.toNat]).toNat 32 p) (p / 32) (p % 32)) →
          ∃ t, exec (.matrixEntryRetire b far lost) s = .next t ∧
            t = (s.putGroup g { H with
              a := (t.group g).a, adir := (t.group g).adir, mfl := G.mfl ||| ((upFrom 0 512).foldl (fun f p => f ||| (val p).2) 0)
              melided := (t.group g).melided, missued := (t.group g).missued }).putCell b.toNat { C with mq := rest } ∧
            (t.group g).melided + (t.group g).missued = G.melided + G.missued + 1 ∧
            (∀ p, p < 512 → elemOf ((t.group g).a[ad.toNat]).toNat 32 p = (val p).1 % 2 ^ 32) ∧
            (t.group g).adir[ad.toNat] = classify .acc (if k = 2 then .s32 else .f32) false ((t.group g).a[ad.toNat]).toNat ∧
            ∀ q : Fin 4, q.val ≠ ad.toNat → (t.group g).a[q] = G.a[q] ∧ (t.group g).adir[q] = G.adir[q]))) ∧
      (e.issued = true → e.effected = false → 0 < e.owed → rest = [] → ∀ lim used k, lim = ((if setOf g = 0 then C.limNow0 else C.limNow1).getD (((s.slotSet (setOf g)).img.bind Image.lim).getD 256)) →
        used = (if setOf g = 0 then C.spent0 else C.spent1) → k = min e.owed (min (C.capNow - C.spent) (lim - used)) →
        (k = 0 → exec (.matrixEntryRetire b far lost) s = .next s) ∧
        (0 < k → ∃ t, exec (.matrixEntryRetire b far lost) s = .next t ∧ t = s.putCell b.toNat { C with
          mq := [{ e with owed := e.owed - k }], spent := C.spent + k, spent0 := if setOf g = 0 then used + k else C.spent0
          spent1 := if setOf g = 0 then C.spent1 else used + k }))) ∧
  (∀ (b : BitVec 9) (far : FarData) (lost : Bool) (s : State) (C : CellState) (e : MatrixEntry) (rest : List MatrixEntry) (g : Nat) (G H : Group),
    C = s.cell b.toNat → C.mq = e :: rest → e ∉ rest → g = e.group → G = s.group g → e.issued = true → e.effected = false → e.owed = 0 →
    (match e.tok.push with | some f => G.fifos[f.toNat] < 255 ∧ H = { G with fifos := G.fifos.set f.toNat (G.fifos[f.toNat] + 1) } | none => H = G) →
    ∀ left : Group → State, left = (fun K => (s.putGroup g K).putCell b.toNat { C with mq := rest }) →
    (∀ (n : Nat) (base : Word) (tg : Tag) (pa : Nat) (r : MatrixEntry) (data : List Byte) (bad : Option (Nat × Word)), e.op = .bld n base tg →
      s.tileRuns g n = some [(pa, 1536)] → s.readRows e far lost e.rows = some (r, data, bad) → data.length = 1536 →
      ∀ A, A = AsyncWrite.mk (.phys pa) data false (some tg) (some bad.isSome) e.pc 0 false none →
      (bad = none → exec (.matrixEntryRetire b far lost) s = .next (left { H with async := G.async ++ [A] })) ∧
      ∀ sub line, bad = some (sub, line) → G.over = false → G.causes = [] → exec (.matrixEntryRetire b far lost) s =
        .next (left { H with async := G.async ++ [A], causes := [{ code := 0x12, sub := sub, addr := line, elem := none, inst := 0 }] })) ∧
    (∀ (n : Nat) (ta : BitVec 3) (pa : Nat) (lo hi : Fin 8), e.op = .bst n ta → lo.val = ta.toNat → hi.val = lo.val + 1 → s.tileRuns g n = some [(pa, 1536)] →
      exec (.matrixEntryRetire b far lost) s = .next (left { H with async := G.async ++
        [AsyncWrite.mk (.phys pa) (toBytes 768 (G.t[lo]).toNat ++ toBytes 768 (G.t[hi]).toNat) false (some (G.tdir[lo]).tag)
          (some ((G.tdir[lo]).poison || (G.tdir[hi]).poison)) e.pc 0 false none] })) ∧
    (∀ (vd : Reg) (aa : BitVec 2) (tg : Tag) (lm n : Nat), e.op = .accmv vd aa tg → lm = 2 ^ bits e.vcfg 0 2 → vd.toNat + lm ≤ 32 →
      n = (if (G.adir[aa.toNat]).tag = .f64 then 256 else 512) → n * tagWidth tg ≤ 8192 * lm →
      ((G.adir[aa.toNat]).poison = true → exec (.matrixEntryRetire b far lost) s = .next (left H)) ∧
      ((G.adir[aa.toNat]).poison = false → ∀ val : Nat → Nat × BitVec 6,
        val = (fun i => convert (G.adir[aa.toNat]).tag tg (bits e.vcfg 2 3) (bitOf e.vcfg 9) e.xmod.toNat
          (elemOf (G.a[aa.toNat]).toNat (tagWidth (G.adir[aa.toNat]).tag) i)) →
        ∃ t, exec (.matrixEntryRetire b far lost) s = .next t ∧
          t = left { H with v := (t.group g).v, mfl := G.mfl ||| (upFrom 0 n).foldl (fun f i => f ||| (val i).2) 0 } ∧
          (∀ i, elemOf (groupBits (t.group g).v vd.toNat lm) (tagWidth tg) i =
            if i < n then (val i).1 % 2 ^ tagWidth tg else elemOf (groupBits G.v vd.toNat lm) (tagWidth tg) i) ∧
          ∀ q : Fin 32, q.val < vd.toNat ∨ vd.toNat + lm ≤ q.val → (t.group g).v[q] = G.v[q])) ∧
    (∀ (ad : BitVec 2) (lo hi : Fin 4), e.op = .azero ad .f64 → lo.val = ad.toNat → hi.val = lo.val + 1 → exec (.matrixEntryRetire b far lost) s =
      .next (left { H with a := (G.a.set lo.val 0).set hi.val 0
                           adir := (G.adir.set lo.val (classify .acc .f64 false 0)).set hi.val (classify .acc .f64 false 0) })) ∧
    (∀ (k ad : BitVec 2) (td : BitVec 3) (n : Nat) (ta tb : Tag) (sct : Option (BitVec 3)) (sn : BitVec 12288 × TileEntry), e.op = .mul k ad td n ta tb sct →
      e.snap = some sn →
      (∀ lo hi : Fin 4, k = 3 → lo.val = ad.toNat → hi.val = lo.val + 1 → (G.tdir[td.toNat]).poison = false → sn.2.poison = false →
        (∀ q, sct = some q → (G.tdir[q.toNat]).poison = false) → (G.adir[lo]).poison = false → (G.adir[hi]).poison = false →
        ∀ val : Fin 4 → Nat → Nat → Nat × BitVec 6, val = (fun q half p => mmasAt (bits e.vcfg 2 3) (bits e.vcfg 5 4) (G.t[td.toNat]).toNat sn.1.toNat
          (elemOf (G.a[q]).toNat 64 p) (p / 16) (16 * half + p % 16)) →
        ∃ t, exec (.matrixEntryRetire b far lost) s = .next t ∧
          t = left { H with
            a := (t.group g).a, adir := (t.group g).adir
            mfl := G.mfl ||| ((upFrom 0 256).foldl (fun f p => f ||| (val lo 0 p).2) 0 ||| (upFrom 0 256).foldl (fun f p => f ||| (val hi 1 p).2) 0)
            melided := (t.group g).melided, missued := (t.group g).missued } ∧
          (t.group g).melided + (t.group g).missued = G.melided + G.missued + 1 ∧
          (∀ p, p < 256 → elemOf ((t.group g).a[lo]).toNat 64 p = (val lo 0 p).1 % 2 ^ 64 ∧ elemOf ((t.group g).a[hi]).toNat 64 p = (val hi 1 p).1 % 2 ^ 64) ∧
          (∀ q ∈ [lo, hi], (t.group g).adir[q] = classify .acc .f64 false ((t.group g).a[q]).toNat) ∧
          ∀ q : Fin 4, q ≠ lo → q ≠ hi → (t.group g).a[q] = G.a[q] ∧ (t.group g).adir[q] = G.adir[q]) ∧
      (((G.tdir[td.toNat]).poison = true ∨ sn.2.poison = true ∨ (∃ q, sct = some q ∧ (G.tdir[q.toNat]).poison = true) ∨
          k ≠ 1 ∧ (G.adir[ad.toNat]).poison = true ∨ k = 3 ∧ ∃ q : Fin 4, q.val = ad.toNat + 1 ∧ (G.adir[q]).poison = true) →
        ∃ t, exec (.matrixEntryRetire b far lost) s = .next t ∧ t = left { H with adir := (t.group g).adir, missued := G.missued + 1 } ∧
          ∀ q : Fin 4, (t.group g).adir[q] = if q.val = ad.toNat ∨ k = 3 ∧ q.val = ad.toNat + 1 then { G.adir[q] with poison := true } else G.adir[q])))

/-- TRANSFORM_ENTRY_START of the oldest entry of the context that the cell serves, with the engine free and no store,
write, token or watermark before it, marks it started. TRANSFORM_ENTRY_RETIRE of the started entry puts its writes on
the asynchronous path in order, its flags into XFL, its recorded magnitude into MAXA or MAXB, and pushes its token.
The writes of XTWID in mode Q32 are the powers of the root modulo q; those of XPERM in modes CF32 and Q32 are the
points of the source in bit-reversed order, or transposed. XTWID in modes CF32 and BFP writes the cosine and the
negated sine of each multiple of its angle, rounded to the layout. XSTAGE in modes CF32 and Q32 writes each chosen
point as one output of its butterfly, or with QUAD = 1 of two butterflies in the order of DIT, and no other point; in
mode BFP every point and exponent by the renormalisation of R72. XPERM in mode BFP brings every block to the largest
exponent. XPOINT writes, point by point or block by block, the products of what it reads with its own earlier outputs
in place. XNORM gives a block of finite points the smallest exponent that holds it, a BFP point its f32 values, and
renormalises without loss. That regions are read as they stand when the entry retires is the model's choice
(notes/assumptions/22). (R73, R286, R289, R290, R298, R300, R301, R71, R72, R285, R297, R299) -/
def Obligations.TransformEventResults : Prop :=
  (∀ (b : BitVec 9) (s : State) (C : CellState) (T : Nat), C = s.cell b.toNat → T = (if s.serves 0 b.toNat then 0 else 1) →
    (C.tq0 = [] → C.tq1 = [] → ∀ i ∈ [Instr.transformEntryStart b, .transformEntryRetire b], exec i s = .next s) ∧
    ((∃ e ∈ C.tq0 ++ C.tq1, e.started = true) → exec (.transformEntryStart b) s = .next s) ∧
    (∀ (e : TransformEntry) (rest : List TransformEntry) (G H : Group), s.serves T b.toNat = true → C.tq T = e :: rest → e ∉ rest → (∀ q ∈ C.tq0 ++ C.tq1, q.started = false) →
      G = s.group e.group → (∀ l ∈ G.slices.toList, l = []) → (∀ w ∈ G.sent, w.msg = true) → G.async = [] → (∀ c ∈ G.chan.toList, c.st ≠ .copying) →
      (match e.tok.pop with | some f => G.fifos[f.toNat] ≠ 0 ∧ H = { G with fifos := G.fifos.set f.toNat (G.fifos[f.toNat] - 1) } | none => H = G) →
      exec (.transformEntryStart b) s = .next ((s.putGroup e.group H).putCell b.toNat (C.putTq T ({ e with started := true } :: rest)))) ∧
    (∀ (e : TransformEntry) (rest : List TransformEntry) (G H : Group) (o : XOut) (rec : Nat), C.tq (setOf e.group) = e :: rest → e.started = true →
      cellOf e.group = b.toNat → (setOf e.group = 1 → ∀ q ∈ C.tq0, q.started = false) → G = s.group e.group → G.over = false → o = s.transformOut e → o.failed = none →
      rec = (match e.op with | .stage _ _ _ _ _ _ _ _ r => r | _ => 0) →
      (match e.tok.push with | some f => G.fifos[f.toNat] < 255 ∧ H = { G with fifos := G.fifos.set f.toNat (G.fifos[f.toNat] + 1) } | none => H = G) →
      exec (.transformEntryRetire b) s = .next (({ s with fresh := s.fresh + 1 }.putGroup e.group
        { H with
          async := G.async ++ o.writes, xfl := G.xfl ||| o.flags
          maxa := if rec = 1 ∧ G.maxa < BitVec.ofNat 30 o.top then BitVec.ofNat 30 o.top else G.maxa
          maxb := if rec = 2 ∧ G.maxb < BitVec.ofNat 30 o.top then BitVec.ofNat 30 o.top else G.maxb }).putCell b.toNat (C.putTq (setOf e.group) rest))) ∧
    ∀ (e : TransformEntry) (base root : Word) (count p : Nat),
      (e.op = .twid base root count → bits e.xctl 5 2 = 2 → 1 < bits e.xmod 0 31 → p < count →
        ∃ w, (s.transformOut e).writes[p]? = some w ∧ w.place = .virt (BitVec.ofNat 64 (base.toNat + 4 * p)) ∧
          w.data = toBytes 4 (root.toNat ^ p % bits e.xmod 0 31) ∧ w.mark = false) ∧
      ∀ (rs : Nat) (tr : Bool), e.op = .perm base root rs tr → bits e.xctl 5 2 ≠ 1 → p < 2 ^ bits e.xctl 0 5 → ∀ src pb, pb = (if bits e.xctl 5 2 = 0 then 8 else 4) →
        src = root.toNat + pb * (if tr then p % 2 ^ rs * 2 ^ (bits e.xctl 0 5 - rs) + p / 2 ^ rs else revBits (bits e.xctl 0 5) p) →
        ∀ runs, s.window e.group (src / 2 ^ 48) (src % 2 ^ 48) pb = some runs → (s.readRuns runs).length = pb →
        (tr = true → rs ≤ bits e.xctl 0 5) →
        ∃ w, (s.transformOut e).writes[p]? = some w ∧ w.place = .virt (BitVec.ofNat 64 (base.toNat + pb * p)) ∧ w.data = s.readRuns runs ∧
          w.mark = s.runsBad runs) ∧
  (∀ (s : State) (e : TransformEntry) (o : XOut) (n mode pb : Nat), o = s.transformOut e → n = 2 ^ bits e.xctl 0 5 → mode = bits e.xctl 5 2 → pb = (if mode = 0 then 8 else 4) →
    (∀ (base root : Word) (count p : Nat), e.op = .twid base root count → p < count → ∀ t, t = turnNum (((p : Int) * root.toInt) % (n : Int)).toNat n →
      (mode = 0 → o.Writes p (base.toNat + 8 * p) (toBytes 8 (twiddle32 t.2 + twiddle32 t.1.negate * 2 ^ 32))) ∧
      (mode = 1 → o.Writes p (base.toNat + 4 * p) (toBytes 4 (twiddle16 t.2 + twiddle16 t.1.negate * 2 ^ 16)))) ∧
    (∀ (d tb : Word) (f c sp rc : Nat) (quad dit tm : Bool), e.op = .stage d tb f c sp quad dit tm rc →
      (c = 0 → o.writes = []) ∧
      (0 < c → sp + 1 ≤ bits e.xctl 0 5 → (quad = true → 1 ≤ sp) → o.failed = none → ∀ (far : Nat) (tw : Nat → Nat → Nat → Point) (X : Nat → Point) (bf : Nat → Nat),
        far = (if tm then n / 2 else 0) →
        tw = (fun off h b => s.pointAt e.group mode (tb.toNat + (off + if tm then b else b % 2 ^ h * n / 2 ^ (h + 1)) * pb)) →
        X = (fun p => s.pointAt e.group mode (d.toNat + p * pb)) →
        bf = (fun p => if quad then p / 2 ^ (sp + 1) * 2 ^ (sp - 1) + p % 2 ^ (sp - 1) else p / 2 ^ (sp + 1) * 2 ^ sp + p % 2 ^ sp) →
        (mode ≠ 1 → ∀ (fly : Nat → (Nat → Point) → (Nat → Point) → Nat → Point) (Y : Nat → Point), fly = flyAt mode (bits e.xmod 0 31) e.rm dit →
          Y = (if quad then (if dit then fly sp (tw far sp) (fly (sp - 1) (tw 0 (sp - 1)) X) else fly (sp - 1) (tw far (sp - 1)) (fly sp (tw 0 sp) X))
            else fly sp (tw 0 sp) X) →
          (∀ p, p < n → f ≤ bf p → bf p < f + c → ∃ k, o.Writes k (d.toNat + p * pb) ((Y p).bytes mode)) ∧
          ∀ w ∈ o.writes, ∃ p, p < n ∧ f ≤ bf p ∧ bf p < f + c ∧ w.place = .virt (BitVec.ofNat 64 (d.toNat + p * pb))) ∧
        (mode = 1 → 5 ≤ bits e.xctl 0 5 → f = 0 → c = (if quad then n / 4 else n / 2) → ∀ (S Y : (Nat → Point) × (Nat → Int)), S = (X, fun k => signedOf 8 (s.engineRead e.group (d.toNat + 4 * n + k) 1).1) →
          Y = (if quad then (if dit then bfpStep sp dit (tw far sp) (bfpStep (sp - 1) dit (tw 0 (sp - 1)) S)
              else bfpStep (sp - 1) dit (tw far (sp - 1)) (bfpStep sp dit (tw 0 sp) S)) else bfpStep sp dit (tw 0 sp) S) →
          (∀ p, p < n → o.Writes p (d.toNat + 4 * p) ((Y.1 p).bytes 1)) ∧
          ∀ k, k < n / 32 → o.Writes (n + k) (d.toNat + 4 * n + k) (toBytes 1 (wrapTo 8 (Y.2 k)))))) ∧
    (∀ (d a : Word) (rs : Nat) (tr : Bool) (E : Nat → Int) (top : Int), e.op = .perm d a rs tr → mode = 1 → 5 ≤ bits e.xctl 0 5 → o.failed = none → (tr = true → rs ≤ bits e.xctl 0 5) →
      E = (fun k => signedOf 8 (s.engineRead e.group (a.toNat + 4 * n + k) 1).1) → (∀ k, k < n / 32 → E k ≤ top) → (∃ k, k < n / 32 ∧ E k = top) →
      (∀ p, p < n → ∀ q x, q = (if tr then p % 2 ^ rs * 2 ^ (bits e.xctl 0 5 - rs) + p / 2 ^ rs else revBits (bits e.xctl 0 5) p) →
        x = s.pointAt e.group 1 (a.toNat + 4 * q) →
        o.Writes p (d.toNat + 4 * p) (toBytes 4 (wrapTo 16 (rneShift (signedOf 16 x.re) (top - E (q / 32))) +
          wrapTo 16 (rneShift (signedOf 16 x.im) (top - E (q / 32))) * 2 ^ 16))) ∧
      ∀ k, k < n / 32 → o.Writes (n + k) (d.toNat + 4 * n + k) (toBytes 1 (wrapTo 8 top))) ∧
    (∀ (d a b : Word) (conj bc : Bool), e.op = .point d a b conj bc →
      (mode ≠ 1 → ∀ p, p < n → ∀ (u : State) (x y : Point), u = s.applyOut e.group (o.writes.take p) → x = u.pointAt e.group mode (a.toNat + p * pb) →
        y = u.pointAt e.group mode (if bc then b.toNat else b.toNat + p * pb) → x.bad = false → y.bad = false →
        o.Writes p (d.toNat + p * pb) ((pointMul mode (bits e.xmod 0 31) e.rm x { y with im := if conj then Nat.xor y.im 0x80000000 else y.im }).1.bytes mode)) ∧
      (mode = 1 → 5 ≤ bits e.xctl 0 5 → ∀ j, j < n / 32 → ∀ (u : State) (ex ey : Int) (m : Int × List Int × BitVec 6), u = s.applyOut e.group (o.writes.take (33 * j)) →
        o.failed = none →
        ex = signedOf 8 (u.engineRead e.group (a.toNat + 4 * n + j) 1).1 →
        ey = signedOf 8 (u.engineRead e.group (if bc then b.toNat + 4 else b.toNat + 4 * n + j) 1).1 →
        m = renormBlock (ex + ey) ((upFrom (32 * j) 32).map fun p =>
          let x := u.pointAt e.group 1 (a.toNat + 4 * p)
          let y := u.pointAt e.group 1 (if bc then b.toNat else b.toNat + 4 * p)
          let yi := if conj then (bfpNum ey y.im).negate else bfpNum ey y.im
          let z := cplxMul (bfpNum ex x.re, bfpNum ex x.im) (bfpNum ey y.re, yi)
          [z.1, z.2]).flatten →
        (∀ i, i < 32 → o.Writes (33 * j + i) (d.toNat + 4 * (32 * j + i)) (toBytes 4 (wrapTo 16 (m.2.1.getD (2 * i) 0) + wrapTo 16 (m.2.1.getD (2 * i + 1) 0) * 2 ^ 16))) ∧
        o.Writes (33 * j + 32) (d.toNat + 4 * n + j) (toBytes 1 (wrapTo 8 m.1)))) ∧
    ∀ (d a : Word) (dir : Nat), e.op = .norm d a dir → mode = 1 → 5 ≤ bits e.xctl 0 5 → o.failed = none →
      (dir = 0 → ∀ k, k < n / 32 → ∀ (v : List Sys2Proof.Machine.Num) (E : Int),
        v = ((upFrom (32 * k) 32).map fun p => let x := s.pointAt e.group 0 (a.toNat + 8 * p); [unpack .f32 x.re, unpack .f32 x.im]).flatten →
        (∀ x ∈ v, ∃ m z i, x = .fin m z i) → -128 ≤ E → E ≤ 127 → (∀ x ∈ v, (rneAt (E - 15) x).natAbs ≤ 32767) →
        (∀ E', -128 ≤ E' → E' < E → ∃ x ∈ v, 32767 < (rneAt (E' - 15) x).natAbs) →
        (∀ i, i < 32 → o.Writes (32 * k + i) (d.toNat + 4 * (32 * k + i)) (toBytes 4 (wrapTo 16 (rneAt (E - 15) (v.getD (2 * i) (.nan false))) +
          wrapTo 16 (rneAt (E - 15) (v.getD (2 * i + 1) (.nan false))) * 2 ^ 16))) ∧
        o.Writes (n + k) (d.toNat + 4 * n + k) (toBytes 1 (wrapTo 8 E))) ∧
      (dir = 1 → ∀ p, p < n → ∀ (x : Point) (E : Int), x = s.pointAt e.group 1 (a.toNat + 4 * p) → E = signedOf 8 (s.engineRead e.group (a.toNat + 4 * n + p / 32) 1).1 →
        o.Writes p (d.toNat + 8 * p) (toBytes 8 (toF32 E x.re + toF32 E x.im * 2 ^ 32))) ∧
      (dir = 2 → ∀ k, k < n / 32 → ∀ (ms : List Int) (r : Int × List Int),
        ms = ((upFrom (32 * k) 32).map fun p => let x := s.pointAt e.group 1 (a.toNat + 4 * p); [signedOf 16 x.re, signedOf 16 x.im]).flatten →
        renormFit (signedOf 8 (s.engineRead e.group (a.toNat + 4 * n + k) 1).1) ms = some r →
        (∀ i, i < 32 → o.Writes (32 * k + i) (d.toNat + 4 * (32 * k + i)) (toBytes 4 (wrapTo 16 (r.2.getD (2 * i) 0) + wrapTo 16 (r.2.getD (2 * i + 1) 0) * 2 ^ 16))) ∧
        o.Writes (n + k) (d.toNat + 4 * n + k) (toBytes 1 (wrapTo 8 r.1))))

/-- STREAM_FETCH_ARRIVAL in an Active context fetches the next element of a bound stream within 4 KiB of its progress, and
the next strip of a copy, from the places as they stand; it does nothing past the end, or past the room of a ring.
STRIP_COMMIT hands the next strip that has arrived to the asynchronous path as one line, raises the watermark and
marks the copy Done at its end, or, for a strip that failed, marks it Failed with its reason and raises SFAULT.
BARRIER_REQUEST_ARRIVAL makes the arrival of a group count at its unit, once, unless a link in Retraining holds it.
(R10, R308, R309, R311, R313, R314, R323) -/
def Obligations.StreamEventResults : Prop :=
  ∀ (b : BitVec 12) (ch : BitVec 4) (far : FarData) (lost : Bool) (s : State) (g : Nat) (G : Group) (c : Channel), g = b.toNat → G = s.group g → c = G.chan[ch.toNat] →
    (c.st ≠ .bound → c.st ≠ .copying → exec (.streamFetchArrival b ch far lost) s = .next s) ∧
    (G.over = true → c.st ≠ .copying ∨ c.asked ≤ c.nextStrip → exec (.streamFetchArrival b ch far lost) s = .next s) ∧
    (G.over = false → (s.slotSet (setOf g)).st = .active → (∀ l ∈ G.slices.toList, l = []) → (∀ w ∈ G.sent, w.held = none) → G.async = [] → s.entriesOf g = [] → c.closing = false →
      (∀ (runs : List (Nat × Nat)) (leaf : Nat), c.st = .bound → c.nextElem < c.total → (c.nextElem + 1 - c.taken) * c.esz ≤ 4096 → (c.elemAddr c.nextElem).toNat % 128 + c.esz ≤ 128 →
        (s.look g .load (c.elemAddr c.nextElem).toNat c.esz (engineId 2)).2 = .here runs leaf → runsLocal g runs = true → s.runsBad runs = false →
        ∃ t, exec (.streamFetchArrival b ch far lost) s = .next t ∧ ({ s with tr := t.tr }).OnlyGroup t g ∧
          t.group g = G.setChan ch.toNat { c with buf := c.buf ++ [(c.nextElem, natOfBytes (s.readRuns runs))] }) ∧
      (c.st = .bound → c.total ≤ c.nextElem → exec (.streamFetchArrival b ch far lost) s = .next s) ∧
      (∀ (runs : List (Nat × Nat)) (leaf : Nat), c.st = .copying → c.esz = 128 → 128 * (c.nextStrip + 1) ≤ c.bytes → c.depth = 0 → (c.elemAddr c.nextStrip).toNat % 128 = 0 →
        (s.look g .load (c.elemAddr c.nextStrip).toNat 128 (engineId 2)).2 = .here runs leaf → runsLocal g runs = true → s.runsBad runs = false → (s.readRuns runs).length = 128 →
        ∃ t, exec (.streamFetchArrival b ch far lost) s = .next t ∧ ({ s with tr := t.tr }).OnlyGroup t g ∧
          t.group g = G.setChan ch.toNat { c with arrived := c.arrived ++ [Strip.mk c.nextStrip (s.readRuns runs) 0 0] }) ∧
      (c.st = .copying → c.bytes ≤ 128 * c.nextStrip → exec (.streamFetchArrival b ch far lost) s = .next s)) ∧
    ((s.groups.find g).isSome = true → c.owed = 0 → c.st = .copying → ∀ (x : Strip) (rest : List Strip) (pa : Nat), c.arrived = x :: rest →
      (x.why = 0 → c.tke = false → s.window g (c.dst.toNat / 2 ^ 48) (c.dst.toNat % 2 ^ 48 + (if c.depth = 0 then c.filled else c.filled % (c.depth * 1536))) x.data.length =
          some [(pa, x.data.length)] →
        exec (.stripCommit b ch) s = .next (s.putGroup g { (G.setChan ch.toNat { c with
            filled := c.filled + x.data.length, arrived := rest, st := if c.filled + x.data.length = c.bytes then .done else .copying }) with
          async := G.async ++ [AsyncWrite.mk (.phys pa) x.data false none none G.pc 0 true none] })) ∧
      (x.why = 2 ∨ x.why = 3 → G.over = false → G.causes = [] → exec (.stripCommit b ch) s = .next (s.putGroup g { (G.setChan ch.toNat { c with
        st := .failed, fstrip := x.k, why := x.why, arrived := [] }) with causes := [{ code := 0x14, sub := x.why, addr := x.line, elem := none, inst := 0 }] }))) ∧
    (c.owed = 0 → c.arrived = [] → (s.groups.find g).isSome = true → ∃ t, exec (.stripCommit b ch) s = .next t ∧ s.OnlyGroup t g ∧ t.group g = G) ∧
    (G.barPending = none → exec (.barrierRequestArrival b) s = .next s) ∧
    (∀ h q, G.barPending = some (h, q, none) → s.lostDie g (barDie h) = true → s.Handling g →
      exec (.barrierRequestArrival b) s = .next (s.putGroup g (({ G with barPending := none }).linkFails 2 h G.pc))) ∧
    (∀ h q, G.barPending = some (h, q, none) → s.lostDie g (barDie h) = false → s.heldDie g (barDie h) = true → exec (.barrierRequestArrival b) s = .next s) ∧
    ∀ (h : Word) (q : Bool) (key : Nat) (e : BarEntry), G.barPending = some (h, q, none) → s.lostDie g (barDie h) = false → s.heldDie g (barDie h) = false → s.liveHandle g h = .ok (.entry key) → e = s.barEntry key →
      ∀ e2, e2 = (if e.count ≤ e.arrivals + 1 then { e with phase := e.phase + 1, arrivals := 0 } else { e with arrivals := e.arrivals + 1 }) →
      exec (.barrierRequestArrival b) s = .next (({ s with bars := s.bars.put key e2 }).putGroup g
        { G with barPending := some (h, q, some (.ok e.phase)) })

/-- KV_FETCH_START in the main pass, with a holding entry free, fetches the next page that a subscription needs: its table
entry is read, an entry of 0 is an empty page, one with reserved bits or without a translation fails the page with
KVFAULT, and any other starts a fetch; without a free entry the pass stops. KV_CATCHUP_START lists the late pages,
once per pass. KV_PAGE_MULTICAST reads the bytes of a fetch and writes the oldest page into the first free buffer of
its group with its item, waits while there is no free buffer, and fails a page with KVFAULT when its bytes are bad or
lost on a link. Without an Active context, with four fetches, or outside a pass, nothing happens. That a table entry
and a page are read as they stand at their event is the model's choice (notes/assumptions/39). (R374, R376, R377,
R379, R381, R383, R384, R386, R10) -/
def Obligations.KvEventResults : Prop :=
  ∀ (cl : BitVec 6) (far : FarData) (lost : Bool) (s : State) (T k : Nat) (Q : Sequencer), k = seqKey cl.toNat T → Q = s.seqAt k →
    (s.activeSet = none → s.kvUnlanded cl.toNat = none → s.kvUnasked cl.toNat = none → ∀ i ∈ [Instr.kvFetchStart cl far lost, .kvCatchupStart cl, .kvPageMulticast cl far lost], exec i s = .next s) ∧
    (s.activeSet = some T →
      (s.kvUnasked cl.toNat = none → 4 ≤ Q.fetches.length ∨ Q.phase ∈ [KvPhase.idle, .merging, .await] → exec (.kvFetchStart cl far lost) s = .next s) ∧
      (Q.catchBegun = true ∨ (Q.phase ≠ .stopped ∧ (Q.phase ≠ .main ∨ Q.nextMain.isSome = true)) → exec (.kvCatchupStart cl) s = .next s) ∧
      (Q.fetches = [] → s.kvUnlanded cl.toNat = none → exec (.kvPageMulticast cl far lost) s = .next s) ∧
      (∀ page, s.kvUnasked cl.toNat = none → Q.phase = .main → Q.fetches.length < 4 → Q.nextMain = some page →
        (s.kvFree (k / 16) T = 0 → Q.askedEntry = none → exec (.kvFetchStart cl far lost) s = .next (s.putSeq k { Q with phase := .stopped })) ∧
        (0 < s.kvFree (k / 16) T → ∀ (s0 s1 s2 : State) (tva : Word) (runs places : List (Nat × Nat)) (leaf leaf2 e va sub : Nat) (fault : Nat × Word) (entry : List Byte),
          s0 = s.putSeq k { Q with phase := .main } → tva = Q.table + BitVec.ofNat 64 (8 * page) → s0.kvLook k .load tva.toNat 8 = (s1, .here runs leaf) →
          s1.kvPoor runs far = false → s1.kvLost (k / 16) (k % 2) runs lost = false → s1.kvBytes far runs = some entry → e = natOfBytes entry →
          va = e / 2 ^ 16 * 2 ^ 16 →
          (e = 0 → ∃ t, exec (.kvFetchStart cl far lost) s = .next t ∧ (t.seqAt k).pos = page + 1 ∧ (t.seqAt k).fetches = Q.fetches ∧
            (t.seqAt k).nFailed = Q.nFailed ∧ ∀ u ∈ (t.seqAt k).subs, u.wantsMain page = false) ∧
          (e ≠ 0 → e / 2 % 2 ^ 15 = 0 → inWindow va = false → s1.kvLook k .kv va 65536 = (s2, .here places leaf2) →
            s2.cutOff (k / 16) (k % 2) places = false → (∀ r ∈ places, paFar r.1 = false) →
            ∃ t, exec (.kvFetchStart cl far lost) s = .next t ∧ t = { s with seqs := t.seqs, tr := s2.tr } ∧ (∀ j, j ≠ k → t.seqAt j = s.seqAt j) ∧
              t.seqAt k = { Q with
                pos := page + 1, askedEntry := none, nFetched := Q.nFetched + 1
                fetches := Q.fetches ++ [Fetch.mk page (decide (e % 2 = 1)) (BitVec.ofNat 64 va) false places none] }) ∧
          (e ≠ 0 → (e / 2 % 2 ^ 15 ≠ 0 ∧ fault = (4, tva) ∨
              e / 2 % 2 ^ 15 = 0 ∧ inWindow va = false ∧ s1.kvLook k .kv va 65536 = (s2, .fail sub) ∧ fault = (1, BitVec.ofNat 64 va)) →
            ∃ t, exec (.kvFetchStart cl far lost) s = .next t ∧ (t.seqAt k).pos = page + 1 ∧ (t.seqAt k).nFailed = Q.nFailed + 1 ∧
              (t.seqAt k).fetches = Q.fetches ∧ (∀ u ∈ (t.seqAt k).subs, u.wantsMain page = false) ∧
              ∀ g, Q.by_ = some g → (s.group g).over = false → (∀ c ∈ (s.group g).causes, c.code ≠ 0x10) →
                HeldCause.mk 0x10 fault.1 fault.2 none 0 ∈ (t.group g).causes))) ∧
      (Q.catchBegun = false → Q.phase = .stopped ∨ (Q.phase = .main ∧ Q.nextMain = none) → (∃ u ∈ Q.subs, u.inPass = true ∧ u.late ≠ []) →
        (∀ F ∈ Q.folds, F.inPass = true → F.left ≠ [] ∨ F.written = true) →
        ∃ l : List Nat, exec (.kvCatchupStart cl) s = .next (s.putSeq k { Q with catchBegun := true, catchList := l, phase := .catchup }) ∧
          l.Pairwise (· < ·) ∧ ∀ p, p ∈ l ↔ ∃ u ∈ Q.subs, u.inPass = true ∧ p ∈ u.late) ∧
      ∀ (f : Fetch) (rest : List Fetch) (g : Nat), s.kvUnlanded cl.toNat = none → Q.fetches = f :: rest → f ∉ rest → Q.recipients f = [g] →
        (f.data.isSome = true → (∀ x ∈ rest, x.data.isSome = true) → (s.group g).freeBuffer = none → exec (.kvPageMulticast cl far lost) s = .next s) ∧
        (∀ sub, f.data = none → rest = [] → (s.kvLost (k / 16) (k % 2) f.runs lost = true ∧ sub = 3 ∨
            s.kvLost (k / 16) (k % 2) f.runs lost = false ∧ s.kvPoor f.runs far = true ∧ sub = 2) →
          ∃ t, exec (.kvPageMulticast cl far lost) s = .next t ∧ (t.seqAt k).fetches = [] ∧
            (t.seqAt k).nFailed = Q.nFailed + 1 ∧ ∀ h, Q.by_ = some h → (s.group h).over = false → (∀ c ∈ (s.group h).causes, c.code ≠ 0x10) →
              HeldCause.mk 0x10 sub f.va none 0 ∈ (t.group h).causes) ∧
        ∀ (rb b pa off : Nat) (data : List Byte),
          (f.data = some data ∧ (∀ x ∈ rest, x.data.isSome = true) ∨ f.data = none ∧ s.kvLost (k / 16) (k % 2) f.runs lost = false ∧
            s.kvPoor f.runs far = false ∧ s.kvBytes far f.runs = some data) → (s.group g).freeBuffer = some (rb, b) → off = (rb + b) * 65536 →
          s.window g 0xF0 off 65536 = some [(pa, 65536)] → paHost pa = false → data.length = 65536 → s.MemCanonical → Q.running = true →
          (∀ F ∈ Q.folds, F.inPass = true → F.left ≠ [] ∨ F.written = true) → (∃ F ∈ Q.folds, F.inPass = true ∧ F.written = false) →
          ∃ t, exec (.kvPageMulticast cl far lost) s = .next t ∧
            (({ s with seqs := t.seqs }).putGroup g { (s.group g) with
              ring := (s.group g).ring.map fun (r : KvRing) => { r with bufs := r.bufs.set b .filled }
              items := (s.group g).items ++ [BitVec.ofNat 64 (bitNat f.catchUp * 2 ^ 62 + bitNat f.fmt * 2 ^ 61 + Q.passNo.toNat % 2 ^ 16 * 2 ^ 32 +
                f.page * 2 ^ 20 + off)] }).StoresAt t none pa data ∧
            (∀ j, j ≠ k → t.seqAt j = s.seqAt j) ∧ (t.seqAt k).fetches = rest ∧ (t.seqAt k).nCopies = Q.nCopies + 1 ∧
            (t.seqAt k).nFailed = Q.nFailed ∧ (t.seqAt k).subs = Q.subs.map fun u =>
              if f.for_ u then { u with delivered := setAdd u.delivered f.page, late := setDel u.late f.page } else u)

/-- MESSAGE_ARRIVAL of a message that no earlier one of its source precedes and no link in Retraining holds: one for a
context that is not there is dropped; one that a posted receive matches goes to landing for the oldest match, whose
handle shows it; one that none matches goes to the tray while the share has room and spilling is not paused, and
otherwise, without a spill area, is held at its link with the refusal counted and DRIPFULL. One that has lost its way
raises LINKFAIL to its sender. A message of another module arrives as the last of those on their way.
MESSAGE_LANDING_COMPLETE writes the bytes that the receive has room for, then the record of SRC, tag and flag word,
and tells the handle. RETRY_TICKET_CALL takes the first refused message when it can. SPILL_DEADLINE pauses spilling
and raises DRIPFULL. (R10, R427, R428, R430, R431, R432, R434, R435, R436, R438) -/
def Obligations.MessageEventResults : Prop :=
  ∀ (e : BitVec 3) (T : BitVec 1) (s : State) (k : Nat) (R : Receiver), k = recvKey e.toNat T.toNat → R = s.receiver k →
    (∀ ix, s.flying[ix]? = none → exec (.messageArrival ix none) s = .next s) ∧
    (∀ (ix : Nat) (m : RemoteMessage), exec (.messageArrival ix (some m)) s =
      exec (.messageArrival s.flying.length none) { s with flying := s.flying ++ [flyOf m] }) ∧
    (∀ (ix : Nat) (f : FlyMsg), s.flying[ix]? = some f → s.messageLost f.msg f.die = false → s.messageHeld f.msg f.die = true →
      exec (.messageArrival ix none) s = .next s) ∧
    (∀ (ix : Nat) (f : FlyMsg) (u : State), s.flying[ix]? = some f → s.messageLost f.msg f.die = true → u = { s with flying := s.flying.eraseIdx ix } →
      (f.msg.sender = none → exec (.messageArrival ix none) s = .next u) ∧
      ∀ g, f.msg.sender = some g → (s.group g).over = false → (s.group g).causes = [] → exec (.messageArrival ix none) s =
        .next (u.putGroup g { (s.group g) with causes := [{ code := 0xF, sub := 2, addr := f.msg.addr, elem := none, inst := 0 }] })) ∧
    (∀ (ix : Nat) (f : FlyMsg), s.flying[ix]? = some f → s.messageLost f.msg f.die = false → (∃ j q, j < ix ∧ s.flying[j]? = some q ∧ q.msg.src = f.msg.src ∧ q.die = f.die ∧ q.set = f.set) →
      exec (.messageArrival ix none) s = .next s) ∧
    (∀ (ix : Nat) (f : FlyMsg) (u : State), s.flying[ix]? = some f → f.die = e.toNat → f.set = T.toNat →
      s.messageLost f.msg f.die = false → s.messageHeld f.msg f.die = false → (∀ j q, j < ix → s.flying[j]? = some q → ¬ (q.msg.src = f.msg.src ∧ q.die = f.die ∧ q.set = f.set)) →
      u = { s with flying := s.flying.eraseIdx ix } →
      (s.acceptsCtx T.toNat f.msg.ctx = false → exec (.messageArrival ix none) s = .next u) ∧
      (s.acceptsCtx T.toNat f.msg.ctx = true →
        ((∃ q ∈ R.refused, q.src = f.msg.src) → exec (.messageArrival ix none) s = .next (u.putReceiver k { R with refused := R.refused ++ [f.msg] })) ∧
        ((∀ q ∈ R.refused, q.src ≠ f.msg.src) →
          (∀ r, (R.posts.find? fun p => p.takes f.msg) = some r → exec (.messageArrival ix none) s =
            .next ((match r.group with | some g => u.putGroup g ((s.group g).recvIs r.slot .landing) | none => u).putReceiver k { R with posts := R.posts.erase r, landing := R.landing ++ [(r, f.msg)] })) ∧
          (∀ im, (∀ r ∈ R.posts, r.takes f.msg = false) → (s.slotSet T.toNat).img = some im →
            (R.paused = false → R.shareUsed + f.msg.size ≤ im.dquotaOn e.toNat → exec (.messageArrival ix none) s =
              .next (u.putReceiver k { R with tray := R.tray ++ [f.msg], refusing := false })) ∧
            (R.paused = true ∨ im.dquotaOn e.toNat < R.shareUsed + f.msg.size ∧ im.spillOn e.toNat = 0 → ∀ w, w = u.putReceiver k { R with
                refused := R.refused ++ [f.msg], refusals := R.refusals + 1, refusing := true } →
              (R.refusing = true ∨ s.conductorOf T.toNat = none → exec (.messageArrival ix none) s = .next w) ∧
              ∀ g, R.refusing = false → s.conductorOf T.toNat = some g → (∀ c ∈ (s.group g).causes, c.code ≠ 0xE) →
                exec (.messageArrival ix none) s = .next (w.putGroup g { (s.group g) with
                  causes := (s.group g).causes ++ [{ code := 0xE, sub := 1, addr := BitVec.ofNat 64 (8 * ownModule + e.toNat), elem := none, inst := 0 }] })))))) ∧
    (∀ ix lost, R.landing[ix]? = none → exec (.messageLandingComplete e T ix lost) s = .next s) ∧
    (∀ (ix n pa fa g : Nat) (r : Recv) (m : Msg) (s1 s2 s3 : State) (flag : Word), R.landing[ix]? = some (r, m) → m.spilled = false → n = min m.payload.length r.count →
      s.landingRuns e.toNat T.toNat r ((n + r.esz - 1) / r.esz) 0 n [] = (s1, some ([(pa, n)], none)) → 0 < n → paHost pa = false → s.MemCanonical →
      s2 = s1.write none pa (m.payload.take n) → s2.landingAt e.toNat T.toNat r.flaga = (s3, .ok fa) → r.group = some g →
      flag = BitVec.ofNat 64 (2 ^ 63 + (if m.payload.length > r.count then 1 else 0) * 2 ^ 56 + m.payload.length * 2 ^ 32 + n) →
      ({ s with tr := s1.tr }).StoresAt s2 none pa (m.payload.take n) ∧
      ∃ t, exec (.messageLandingComplete e T ix false) s = .next t ∧
        (({ s2 with tr := s3.tr, receivers := s.receivers.put k { R with landing := R.landing.erase (r, m) }, fresh := s.fresh + 1 }).putGroup g
          { s2.group g with recvs := (s2.group g).recvs.put r.slot (RecvSlot.mk (Table.findD (s2.group g).recvs r.slot (RecvSlot.mk 0 none)).gen (some (.complete flag))) }).StoresAt
          t none fa (toBytes 8 (m.src.toNat + m.tag.toNat * 2 ^ 32) ++ toBytes 8 flag.toNat)) ∧
    (R.refused = [] → exec (.retryTicketCall e T) s = .next s) ∧
    (∀ (m : Msg) (rest : List Msg), R.refused = m :: rest →
      (s.acceptsCtx T.toNat m.ctx = false → exec (.retryTicketCall e T) s = .next (s.putReceiver k { R with refused := rest })) ∧
      (s.acceptsCtx T.toNat m.ctx = true → s.messageHeld m e.toNat = true → exec (.retryTicketCall e T) s = .next s) ∧
      (s.acceptsCtx T.toNat m.ctx = true → s.messageHeld m e.toNat = false →
        (∀ r, (R.posts.find? fun p => p.takes m) = some r → exec (.retryTicketCall e T) s =
          .next ((match r.group with | some g => s.putGroup g ((s.group g).recvIs r.slot .landing) | none => s).putReceiver k { R with refused := rest, posts := R.posts.erase r, landing := R.landing ++ [(r, m)] })) ∧
        ∀ im, (∀ r ∈ R.posts, r.takes m = false) → (s.slotSet T.toNat).img = some im →
          (R.paused = false → R.shareUsed + m.size ≤ im.dquotaOn e.toNat → exec (.retryTicketCall e T) s =
            .next (s.putReceiver k { R with refused := rest, tray := R.tray ++ [m], refusing := !rest.isEmpty })) ∧
          (R.paused = true ∨ im.dquotaOn e.toNat < R.shareUsed + m.size ∧ im.spillOn e.toNat = 0 → exec (.retryTicketCall e T) s = .next s))) ∧
    ∀ id : BitVec 32,
      (s.port.requests.find id.toNat = none → exec (.spillDeadline id) s = .next s) ∧
      (∀ (u : State) (w : Msg × Nat), s.port.requests.find id.toNat = some (.spill e.toNat T.toNat) → R.waitingHost.find? (fun q => q.2 == id.toNat) = some w →
        u = (({ s with port := { s.port with requests := s.port.requests.drop id.toNat } }).putReceiver k { R with
          paused := true, waitingHost := R.waitingHost.map fun (q : Msg × Nat) => if q.2 = id.toNat then (q.1, 0) else q }) →
        (s.conductorOf T.toNat = none → exec (.spillDeadline id) s = .next u) ∧
        ∀ g, s.conductorOf T.toNat = some g → (∀ c ∈ (s.group g).causes, c.code ≠ 0xE) →
          exec (.spillDeadline id) s = .next (u.putGroup g { (s.group g) with
            causes := (s.group g).causes ++ [{ code := 0xE, sub := 2, addr := 0, elem := none, inst := 0 }] }))

/-- REMOTE_REQUEST_ARRIVAL performs the packet at its port and answers it: a read gives the bytes with the mark of bad
data, a write stores them, an atomic and a scatter element write the updated value and give the old one, or, on bad
data, write nothing and say so; a ticket request takes, completes or awaits its number; a completion word is updated.
REMOTE_REPLY_ARRIVAL completes a late load, the data that an instruction waits for, the call of the ticket whose
number it carries or the acknowledgement of its wait, or the oldest acknowledgement; nothing comes through a link in
Retraining, and what has lost its way fails with LINKFAIL SUB 2. REMOTE_DEADLINE fails the oldest remote request of
the group with LINKFAIL, SUB 1 or 2: at the load with the registers and queued stores as before it, at the waiting
instruction, TICKWAIT among them, at the barrier, or as an asynchronous cause for a write, a contribution or a
message; with none it does nothing. The merging of writes (notes/assumptions/63) and the flight of on-module ones
(notes/assumptions/86) are the model's choice. (R408, R409, R331, R252, R247, R413, R414, R415, R416, R328, R10) -/
def Obligations.RemoteEventResults : Prop :=
  ∀ (rq : RemoteRequest) (b : BitVec 12) (far : List Host.Cell) (bad reached : Bool) (why : BitVec 2) (s : State) (g pa sub : Nat) (G : Group), g = b.toNat →
    G = s.group g → pa = rq.pa % 2 ^ 41 → sub = (if why = 2 then 2 else 1) →
    (∀ n, rq.kind = .read n → exec (.remoteRequestArrival rq) s = .next { s with out := s.out ++ [OutPacket.answer rq.src (s.readAt pa n) (s.badData pa n)], outAt := s.clock }) ∧
    (∀ data, rq.kind ∈ [RemoteKind.write data, .multicast data, .ordered data, .marked data] → data ≠ [] → s.MemCanonical →
      ∃ t, exec (.remoteRequestArrival rq) s = .next t ∧
      ({ s with out := s.out ++ [OutPacket.answer rq.src [] false], outAt := s.clock }).StoresAt t none pa data ∧
      (rq.kind = .marked data → t.badData pa data.length = true)) ∧
    (∀ (op : BitVec 3) (uns : Bool) (x expect old : Word), rq.kind = .atomic op uns x expect → old = BitVec.ofNat 64 (natOfBytes (s.readAt pa 8)) →
      (s.badData pa 8 = true → exec (.remoteRequestArrival rq) s = .next { s with out := s.out ++ [OutPacket.answer rq.src [] true], outAt := s.clock }) ∧
      (s.badData pa 8 = false → op = 7 → old ≠ expect →
        exec (.remoteRequestArrival rq) s = .next { s with out := s.out ++ [OutPacket.answer rq.src (toBytes 8 old.toNat) false], outAt := s.clock }) ∧
      (s.badData pa 8 = false → (op = 7 → old = expect) → s.MemCanonical → ∃ t, exec (.remoteRequestArrival rq) s = .next t ∧
        ({ s with out := s.out ++ [OutPacket.answer rq.src (toBytes 8 old.toNat) false], outAt := s.clock }).StoresAt t none pa (toBytes 8 (atomicValue op uns old x expect).toNat))) ∧
    (∀ (op : BitVec 2) (tg : Tag) (x : Nat), rq.kind = .scatter op tg x → 8 ≤ tagWidth tg → s.badData pa (tagWidth tg / 8) = false → s.MemCanonical →
      ∃ t, exec (.remoteRequestArrival rq) s = .next t ∧ ({ s with out := s.out ++ [OutPacket.answer rq.src [] false], outAt := s.clock }).StoresAt t none pa
        (toBytes (tagWidth tg / 8) (scatterValue op tg (natOfBytes (s.readAt pa (tagWidth tg / 8))) x))) ∧
    (∀ (set disp key w : Nat) (num : BitVec 32) (D D1 : Dispenser), key = dispKey set (paDie pa) disp → D = s.dispenser key → w = s.ticketWindow set →
      D1 = { D with doneNo := D.doneNo + 1 } →
      (rq.kind = .ticketGet set disp → exec (.remoteRequestArrival rq) s = .next { s with
        dispensers := s.dispensers.put key { D with nextNo := D.nextNo + 1 }, out := s.out ++ [OutPacket.answer rq.src (toBytes 4 D.nextNo.toNat) false], outAt := s.clock }) ∧
      (rq.kind = .ticketDone set disp → exec (.remoteRequestArrival rq) s = .next { s with
        dispensers := s.dispensers.put key { D1 with waiters := D.waiters.filter fun (q : Nat × BitVec 32) => decide (w ≤ (q.2 - D1.doneNo).toNat) }
        out := s.out ++ ((D.waiters.filter fun (q : Nat × BitVec 32) => decide ((q.2 - D1.doneNo).toNat < w)).map fun (q : Nat × BitVec 32) =>
          OutPacket.answer q.1 (toBytes 4 q.2.toNat) false) ++ [OutPacket.answer rq.src [] false], outAt := s.clock }) ∧
      (rq.kind = .ticketWait set disp num →
        ((num - D.doneNo).toNat < w → exec (.remoteRequestArrival rq) s = .next { s with
          out := s.out ++ [OutPacket.answer rq.src (toBytes 4 num.toNat) false], outAt := s.clock }) ∧
        (w ≤ (num - D.doneNo).toNat → exec (.remoteRequestArrival rq) s = .next { s with
          dispensers := s.dispensers.put key { D with waiters := D.waiters ++ [(rq.src, num)] }
          out := s.out ++ [OutPacket.answer rq.src [] false], outAt := s.clock }))) ∧
    (∀ clear set add : Word, rq.kind = .update clear set add → s.MemCanonical → ∃ t, exec (.remoteRequestArrival rq) s = .next t ∧
      ({ s with out := s.out ++ [OutPacket.answer rq.src [] false], outAt := s.clock }).StoresAt t none pa
        (toBytes 8 (updateWord (BitVec.ofNat 64 (natOfBytes (s.readAt pa 8))) clear set add).toNat)) ∧
    (∀ l, G.late = some l → (∀ r ∈ l.runs, paModule r.1 = false) → farRuns g l.runs = true ∨ G.dataWait = none →
      exec (.remoteReplyArrival b far false) s = exec (.loadDataReturn b) s) ∧
    ((∀ l, G.late = some l → farRuns g l.runs = false) →
      (∀ w, G.dataWait = some w →
        (s.lostRuns g w.asked = true → s.Handling g → exec (.remoteReplyArrival b far bad) s = .next (s.putGroup g (G.linkFails 2 w.va w.pc))) ∧
        (s.lostRuns g w.asked = false → s.heldRuns g w.asked = true → exec (.remoteReplyArrival b far bad) s = .next s) ∧
        (s.lostRuns g w.asked = false → s.heldRuns g w.asked = false → exec (.remoteReplyArrival b far bad) s = .next (s.putGroup g { G with
          dataWait := some { w with arrived := true, bad := if bad then w.bad ++ w.spoils far else w.bad, inbox := w.inbox ++ far } }))) ∧
      (G.late = none → G.dataWait = none →
        (∀ h i c, far ≠ [] → ticketHere h = false → ∀ v : Wait, v = (if (ticketNum h).toNat = natOfBytes (far.map Prod.snd) then Wait.ticket h true true else .ticket h i c) →
          (G.phase = .waiting (.ticket h i c) → G.interrupted = none →
            exec (.remoteReplyArrival b far bad) s = .next (s.putGroup g { G with phase := .waiting v })) ∧
          (∀ p, (∀ w, G.phase ≠ .waiting w) → G.interrupted = some (p, .ticket h i c) →
            exec (.remoteReplyArrival b far bad) s = .next (s.putGroup g { G with interrupted := some (p, v) }))) ∧
        (∀ h c, far = [] → G.sent = [] →
          (G.phase = .waiting (.ticket h false c) → G.interrupted = none →
            (s.ticketHeld g = true → exec (.remoteReplyArrival b far bad) s = .next s) ∧
            (s.ticketHeld g = false → exec (.remoteReplyArrival b far bad) s = .next (s.putGroup g { G with phase := .waiting (.ticket h true c) }))) ∧
          (∀ p, (∀ w, G.phase ≠ .waiting w) → G.interrupted = some (p, .ticket h false c) → s.ticketHeld g = false →
            exec (.remoteReplyArrival b far bad) s = .next (s.putGroup g { G with interrupted := some (p, .ticket h true c) }))) ∧
        (G.ticketAnswer far = none →
          (G.sent = [] → exec (.remoteReplyArrival b far bad) s = .next s) ∧
          ∀ w rest, G.sent = w :: rest → (∀ v, rest.find? (fun v => decide (v.die = w.die)) = some v → v.joined = false) →
            (s.lostDie g w.die = true → G.Takes 0xF → exec (.remoteReplyArrival b far bad) s =
              .next (s.putGroup g (({ G with sent := rest }).withCause 0xF 2 w.va))) ∧
            (s.lostDie g w.die = false → s.heldDie g w.die = true → exec (.remoteReplyArrival b far bad) s = .next s) ∧
            (s.lostDie g w.die = false → s.heldDie g w.die = false →
              (w.held = none → bad = false ∨ w.atomic = false → exec (.remoteReplyArrival b far bad) s = .next (s.putGroup g { G with sent := rest })) ∧
              (w.held = none → bad = true → w.atomic = true → (∀ c ∈ G.causes, c.code = 0xC → c.inst ≠ w.inst) →
                exec (.remoteReplyArrival b far bad) s = .next (s.putGroup g { G with
                  sent := rest, causes := { code := 0xC, sub := 0, addr := w.va, elem := some w.elem, inst := w.inst } :: G.causes })) ∧
              (∀ a runs u, w.held = some (a, runs) → u = s.applyAt g a runs → bad = false →
                exec (.remoteReplyArrival b far bad) s = .next (u.putGroup g { (u.group g) with sent := rest })))))) ∧
    (∀ l, G.late = some l →
      (farRuns g l.runs = false → G.dataWait = none → exec (.remoteDeadline b reached why) s = .next s) ∧
      (farRuns g l.runs = true → s.Handling g → exec (.remoteDeadline b reached why) s = .next (s.putGroup g
        (({ G with
          late := none, x := l.ckX, ctlFlags := l.ckFlags, retired := l.ckRetired, pc := l.pc, vl := l.ckVl, vcfg := l.ckVcfg, xmod := l.ckXmod
          xctl := l.ckXctl, collg := l.ckColl.1, collop := l.ckColl.2.1, collstride := l.ckColl.2.2
          slices := G.slices.map fun (q : List Access) => q.filter fun a => decide (a.seq < l.seq) }).linkFails sub l.va l.pc)))) ∧
    ((∀ l, G.late = some l → farRuns g l.runs = false) →
      (∀ w, G.dataWait = some w →
        (w.arrived = true → exec (.remoteDeadline b reached why) s = .next s) ∧
        (w.arrived = false → w.act = none ∨ reached = false → s.Handling g →
          exec (.remoteDeadline b reached why) s = .next (s.putGroup g (G.linkFails sub w.va w.pc)))) ∧
      (G.late = none → G.dataWait = none →
        (∀ h q, G.barPending = some (h, q, none) → reached = false → s.Handling g →
          exec (.remoteDeadline b reached why) s = .next (s.putGroup g (({ G with barPending := none }).linkFails sub h G.pc))) ∧
        (G.barPending = none →
          (∀ w rest, G.sent = w :: rest → (∀ v, rest.find? (fun v => decide (v.die = w.die)) = some v → v.joined = false) →
            w.held = none ∨ reached = false → G.Takes 0xF → exec (.remoteDeadline b reached why) s =
            .next (s.putGroup g (({ G with sent := rest }).withCause 0xF sub w.va))) ∧
          (∀ h c, G.sent = [] → G.phase = .waiting (.ticket h false c) → s.Handling g → exec (.remoteDeadline b reached why) s =
            .next (s.putGroup g (G.linkFails sub h G.pc))) ∧
          (G.sent = [] → G.ticketAsked = none → ∀ far? : Option Contribution,
            far? = s.colls.find? (fun c => c.group == some g && !c.done && c.failed.isNone && c.leavesDie) →
            (∀ c, far? = some c → G.Takes 0xF → exec (.remoteDeadline b reached why) s =
              .next ((({ s with colls := s.colls.map fun q => if q = c then { q with failed := some sub } else q }).tellFar g c sub).putGroup g (G.withCause 0xF sub c.buffer))) ∧
            (far? = none →
              (∀ f, s.flying.find? (fun f => f.msg.sender == some g && decide (f.die ≠ dieOf g)) = some f → G.Takes 0xF → exec (.remoteDeadline b reached why) s =
                .next (({ s with flying := s.flying.erase f }).putGroup g (G.withCause 0xF sub f.msg.addr))) ∧
              ((∀ f ∈ s.flying, f.msg.sender = some g → f.die = dieOf g) → exec (.remoteDeadline b reached why) s = .next s))))))

/-- FLIT_REPLAY counts one more replay in a row, to 8, on a link that is Up or Degraded. LINK_CRC_FAIL after 8 of them
puts it in Retraining with its packets held, and in host-assisted mode asks the host; before that it does nothing.
LINK_TRAINING_DONE of a Training link, and LINK_RETRAIN_DONE of a Retraining one in hardware mode, end Up on every
lane (Degraded for a die-to-die link in reduced service), Degraded on half of them, Failed on fewer; a TRAINLINK that
waits for the training ends with it. A turn of the host that changes an aperture entry changes that entry alone and
drops every translation of its context. In any other state, and for a number that names no link, nothing happens.
Nothing else changes. COLLECTIVE_UNIT_ACCEPT adds the contribution, or the failure, of a rank on another module.
COLLECTIVE_RESULT_DELIVERY takes the first contribution of the group that has come to its end: one with a result, when
every rank has contributed and agrees, has its bytes handed to the asynchronous path for its buffer, whose write
carries the flags of the result (DONE rises when it is performed); one whose packets a link in Retraining holds stays;
one that has none to write counts DONE; one that failed counts DONE and FAILN. The result of each element is the fold
of the ranks in rising order, converted to the tag of the contribution. With none at its end nothing happens. The
replay count (notes/assumptions/31), the kept contribution records (notes/assumptions/32) and the aperture turn
(notes/assumptions/42) are the model's reading. (R400, R403, R404, R452, R453, R456, R10, R420, R421, R422, R423) -/
def Obligations.LinkAndCollectiveEventResults : Prop :=
  (∀ (lk : BitVec 6) (out : Lanes) (s : State) (k : Nat) (l : Link) (fin : LinkState), k = lk.toNat → l = s.link k →
    fin = (match out with | .full => if s.reduced = true ∧ k < 10 then .degraded else .up | .half => .degraded | .fewer => .failed) →
    ((¬ (k < 10 ∨ 16 ≤ k) ∨ (l.st ≠ .up ∧ l.st ≠ .degraded)) → ∀ i ∈ [Instr.flitReplay lk, .linkCrcFail lk], exec i s = .next s) ∧
    ((k < 10 ∨ 16 ≤ k) → l.st = .up ∨ l.st = .degraded →
      exec (.flitReplay lk) s = .next { s with links := s.links.put k { l with replays := min 8 (l.replays + 1) } } ∧
      (l.replays < 8 → exec (.linkCrcFail lk) s = .next s) ∧
      (8 ≤ l.replays →
        (s.hostRetrain = false → exec (.linkCrcFail lk) s = .next { s with links := s.links.put k { st := .retraining, replays := 0, held := true } }) ∧
        (s.hostRetrain = true → exec (.linkCrcFail lk) s = .next { s with
          links := s.links.put k { st := .retraining, replays := 0, held := true }
          port := { s.port with waiting := s.port.waiting ++ [{ kind := 5, set := 0, id := 0, body := leCells 8 1 k }] } }))) ∧
    (l.st ≠ .training → exec (.linkTrainingDone lk out) s = .next s) ∧
    (l.st ≠ .retraining ∨ s.hostRetrain = true → exec (.linkRetrainDone lk out) s = .next s) ∧
    ((k < 10 ∨ 16 ≤ k) →
      (l.st = .training →
        ((∀ c, s.port.cmd = some c → c.begun = true → c.code = 0xB → memNat c.args 0 1 ≠ k) → exec (.linkTrainingDone lk out) s =
          .next { s with links := s.links.put k { st := fin, replays := 0, held := false } }) ∧
        (∀ c, s.port.cmd = some c → c.begun = true → c.code = 0xB → memNat c.args 0 1 = k → exec (.linkTrainingDone lk out) s =
          .next (({ s with links := s.links.put k { st := fin, replays := 0, held := false } }).answered (if fin = LinkState.failed then 0xA else 0) (leCells 0 1 fin.code)))) ∧
      (l.st = .retraining → s.hostRetrain = false →
        exec (.linkRetrainDone lk out) s = .next { s with links := s.links.put k { st := fin, replays := 0, held := false } })) ∧
    ∀ (T index : Nat) (ap : Option Aperture) (im : Image) (rest : List Turn), T < 2 → s.agenda = Turn.mk 0 (.aperture T index ap) :: rest → s.off = false → s.Punctual →
      (s.slotSet T).img = some im → ∃ u : State, step s = .next u.settleTurn ∧
        u = { s with agenda := rest, set0 := u.set0, set1 := u.set1, tr := u.tr, port := { s.port with requests := u.port.requests } } ∧
        u.slotSet (1 - T) = s.slotSet (1 - T) ∧ u.slotSet T = { s.slotSet T with img := some { im with
          apertures := (im.apertures.filter fun a => decide (a.index ≠ index % 512)) ++ ap.toList.map fun a => { a with index := index % 512 } } } ∧
        ∀ d, ∀ q ∈ u.tr.dies.findD d [], q.ctx ≠ im.num) ∧
  (∀ (b : BitVec 12) (cc : RemoteContribution) (s : State) (g : Nat) (G : Group), g = b.toNat → G = s.group g →
    exec (.collectiveUnitAccept cc) s =
      .next { s with colls := s.colls ++ [{ group := none, num := 0, from_ := cc, buffer := 0, runs := [], failed := cc.fate, done := true }] } ∧
    ((∀ c ∈ s.colls, c.group = some g → c.done = false → (s.collFate c).isSome = false) → exec (.collectiveResultDelivery b) s = .next s) ∧
    ∀ c, s.colls.find? (fun c => c.group == some g && !c.done && (s.collFate c).isSome) = some c →
      (c.failed = none → s.collHeld g c = true → exec (.collectiveResultDelivery b) s = .next s) ∧
      (∀ (data : List Byte) (fl : BitVec 6) (of : Bool) (pa : Nat), s.collHeld g c = false → s.collFate c = some (.result data fl of) → c.runs = [(pa, data.length)] →
        ∃ t, exec (.collectiveResultDelivery b) s = .next t ∧
        t = ({ s with colls := t.colls }).putGroup g { G with
          async := G.async ++ [AsyncWrite.mk (.phys pa) data false none none G.pc 0 false (some (fl, of))] } ∧
        ∀ q ∈ t.colls, ∃ p ∈ s.colls, q = if p = c then { p with done := true } else p) ∧
      (s.collHeld g c = false → s.collFate c = some .combined → ∃ t, exec (.collectiveResultDelivery b) s = .next t ∧
        t = ({ s with colls := t.colls }).putGroup g { G with collDone := G.collDone + 1 }) ∧
      (c.failed.isSome = true ∨ s.collHeld g c = false → s.collFate c = some (.failed none) → ∃ t, exec (.collectiveResultDelivery b) s = .next t ∧
        t = ({ s with colls := t.colls }).putGroup g { G with collDone := G.collDone + 1, collFailn := G.collFailn + 1 }) ∧
      (∀ sub, s.collHeld g c = false → s.collFate c = some (.failed (some sub)) → G.Takes 0xF → ∃ t, exec (.collectiveResultDelivery b) s = .next t ∧
        t = ({ s with colls := t.colls }).putGroup g (({ G with collDone := G.collDone + 1, collFailn := G.collFailn + 1 }).withCause 0xF sub c.buffer)))

/-- HOST_WRITE stores its bytes at a place of the host's memory, or of the module's that a resident context shares with
the host, and does nothing elsewhere; HOST_READ gives the bytes there, poisoned when they are bad, all ones elsewhere,
and in BAR 0 the mailbox, ring and overflow registers. INGRESS_DOORBELL appends a token, or sets the overflow bit of a
full channel; EGRESS_READ takes the oldest token with bit 32, or gives 0; a HOST_READ of its register does the same.
HOST_REGISTER_WRITE writes MBCMD, the argument area and EVHEAD, in 8 or 4 bytes, clears overflow bits, rings a
doorbell, and at MBGO starts a command, or sets LOST while one runs, or is answered 0xF by refused firmware.
EVENT_RING_WRITE puts the oldest held event at EVTAIL unless 64 are unread, when firmware has been verified.
CODE_UNASSIGNED answers 1. Nothing else changes. Offsets that BAR 0 does not list (notes/assumptions/14), what failed
firmware still does (notes/assumptions/49) and the sets that take a doorbell (notes/assumptions/85) are the model's
choice. (R110, R350, R447, R449, R451, R452, R10) -/
def Obligations.HostAccessResults : Prop :=
  ∀ (ad val : BitVec 64) (data : List Byte) (n : Nat) (T : BitVec 1) (ch : BitVec 4) (pl : BitVec 32) (off : BitVec 26) (s : State) (pa o : Nat) (wr : RegWrite) (w : BitVec 32) (v4 : BitVec 64) (S : SlotSet) (p : HostPort),
    pa = ad.toNat → o = off.toNat → S = s.slotSet T.toNat → p = s.port → v4 = w.setWidth 64 →
    (pa < 2 ^ 52 → paHost pa = true ∨ s.inModule pa data.length = true → data ≠ [] → s.MemCanonical →
      ∃ t, exec (.hostWrite ad data) s = .next t ∧ s.StoresAt t none pa data) ∧
    (2 ^ 52 ≤ pa ∨ paHost pa = false ∧ s.inModule pa data.length = false → exec (.hostWrite ad data) s = .next s) ∧
    (pa < 2 ^ 52 → paHost pa = true ∨ s.inModule pa n = true →
      exec (.hostRead ad n) s = .next { s with port := { p with readData := s.readAt pa n, readPoison := !paHost pa && s.badData pa n } }) ∧
    (2 ^ 52 ≤ pa ∧ pa < 2 ^ 63 ∨ pa < 2 ^ 52 ∧ paHost pa = false ∧ s.inModule pa n = false →
      exec (.hostRead ad n) s = .next { s with port := { p with readData := List.replicate n 0xFF, readPoison := true } }) ∧
    (∀ e ∈ [(0, (p.mbcmd &&& 0xFFFFFFFF00FFFFFF).toNat),
        (0x800, if s.firmware = .unverified then 0
          else p.tag.toNat * 2 ^ 32 + bitNat p.busy * 2 ^ 31 + bitNat p.done * 2 ^ 30 + bitNat p.lost * 2 ^ 29 + p.status % 2 ^ 16),
        (0x11000, p.evhead.toNat), (0x11008, p.evtail.toNat), (0x100200, s.set0.overflow.toNat), (0x101200, s.set1.overflow.toNat)],
      pa = 2 ^ 63 + e.1 → exec (.hostRead ad 8) s = .next { s with port := { p with readData := toBytes 8 e.2, readPoison := false } }) ∧
    (∀ l, l = S.ingress.findD ch.toNat [] →
      (S.st ∈ [CtxState.empty, .loading, .retired] → exec (.ingressDoorbell T ch pl) s = .next s) ∧
      (S.st ∉ [CtxState.empty, .loading, .retired] →
        (l.length < 16 → exec (.ingressDoorbell T ch pl) s = .next (s.putSet T.toNat { S with ingress := S.ingress.put ch.toNat (l ++ [pl]) })) ∧
        (16 ≤ l.length → exec (.ingressDoorbell T ch pl) s =
          .next (s.putSet T.toNat { S with overflow := S.overflow ||| BitVec.ofNat 16 (2 ^ ch.toNat) })))) ∧
    (S.egress.findD ch.toNat [] = [] → exec (.egressRead T ch) s = .next { s with port := { p with readData := toBytes 8 0, readPoison := false } }) ∧
    (∀ (v : BitVec 32) (rest : List (BitVec 32)), S.egress.findD ch.toNat [] = v :: rest → ∃ t, exec (.egressRead T ch) s = .next t ∧
      t = { s.putSet T.toNat { S with egress := S.egress.put ch.toNat rest } with
        port := { p with readData := toBytes 8 (2 ^ 32 + v.toNat), readPoison := false } }) ∧
    (o = 0 → exec (.hostRegisterWrite off (.eight val)) s = .next { s with port := { p with mbcmd := val } }) ∧
    (o = 8 ∨ o = 12 ∧ wr = .four w →
      (s.firmware = .running → p.busy = false → exec (.hostRegisterWrite off wr) s = .next { s with port := { p with
        tag := BitVec.ofNat 32 (bits p.mbcmd 32 32), busy := true, done := false, lost := false
        cmd := some { code := bits p.mbcmd 0 16, set := bits p.mbcmd 16 8, reserved := bits p.mbcmd 24 8, args := p.area, begun := false } } }) ∧
      (s.firmware = .running → p.busy = true → exec (.hostRegisterWrite off wr) s = .next { s with port := { p with lost := true } }) ∧
      (s.firmware = .refused → exec (.hostRegisterWrite off wr) s = .next { s with port := { p with
        tag := BitVec.ofNat 32 (bits p.mbcmd 32 32), done := true, status := 0xF, result := [] } }) ∧
      (s.firmware = .unverified ∨ s.firmware = .failed → exec (.hostRegisterWrite off wr) s = .next s)) ∧
    (0x10 ≤ o → o + 8 ≤ 0x800 → exec (.hostRegisterWrite off (.eight val)) s =
      .next { s with port := { p with area := memPutBytes p.area (o - 0x10) (toBytes 8 val.toNat) } }) ∧
    (o = 0x11000 → exec (.hostRegisterWrite off (.eight val)) s = .next { s with port := { p with evhead := val.setWidth 32 } }) ∧
    (o = 0x11000 → exec (.hostRegisterWrite off (.four w)) s = .next { s with port := { p with evhead := w } }) ∧
    (∀ k, k < 2 → o = 0x100200 + 0x1000 * k → exec (.hostRegisterWrite off (.eight val)) s =
      .next (s.putSet k { s.slotSet k with overflow := (s.slotSet k).overflow &&& ~~~(val.setWidth 16) })) ∧
    (o ∉ [0, 8, 0x11000, 0x100200, 0x101200] → o < 0x10 ∨ 0x800 < o + 8 → exec (.hostRegisterWrite off (.eight val)) s = .next s) ∧
    (o = 0 → exec (.hostRegisterWrite off (.four w)) s = .next { s with port := { p with mbcmd := (p.mbcmd &&& 0xFFFFFFFF00000000) ||| v4 } }) ∧
    (o = 4 → exec (.hostRegisterWrite off (.four w)) s = .next { s with port := { p with mbcmd := (p.mbcmd &&& 0xFFFFFFFF) ||| (v4 <<< 32) } }) ∧
    (0x10 ≤ o → o + 4 ≤ 0x800 → exec (.hostRegisterWrite off (.four w)) s =
      .next { s with port := { p with area := memPutBytes p.area (o - 0x10) (toBytes 4 v4.toNat) } }) ∧
    (∀ k, k < 2 → o = 0x100200 + 0x1000 * k → exec (.hostRegisterWrite off (.four w)) s =
      .next (s.putSet k { s.slotSet k with overflow := (s.slotSet k).overflow &&& ~~~(w.setWidth 16) })) ∧
    (o ∉ [0, 4, 8, 12, 0x11000, 0x100200, 0x101200] → o < 0x10 ∨ 0x800 < o + 4 → channelAt 0x100000 o = none →
      exec (.hostRegisterWrite off (.four w)) s = .next s) ∧
    (∀ (U : BitVec 1) (c : BitVec 4), s.tripped = false → o = 0x100000 + 0x1000 * U.toNat + 8 * c.toNat →
      exec (.hostRegisterWrite off (.four w)) s = exec (.ingressDoorbell U c w) s) ∧
    (∀ (U : BitVec 1) (c : BitVec 4), pa = 2 ^ 63 + 0x100100 + 0x1000 * U.toNat + 8 * c.toNat → exec (.hostRead ad 8) s = exec (.egressRead U c) s) ∧
    (p.busy = true → exec .mbgoWhileBusy s = .next { s with port := { p with lost := true } }) ∧
    (p.busy = false → exec .mbgoWhileBusy s = .next s) ∧
    (p.waiting = [] ∨ s.firmware = .unverified ∨ s.firmware = .refused → exec .eventRingWrite s = .next s) ∧
    (∀ e rest, p.waiting = e :: rest → s.firmware = .running ∨ s.firmware = .failed →
      ((p.evtail - p.evhead).toNat = 64 → exec .eventRingWrite s = .next s) ∧
      ((p.evtail - p.evhead).toNat ≠ 64 → exec .eventRingWrite s = .next { s with port := { p with
        ring := p.ring.put (p.evtail.toNat % 64) e, evtail := p.evtail + 1, waiting := rest } })) ∧
    (∀ c, p.cmd = some c → c.code = 0 ∨ 0x10 < c.code → exec .codeUnassigned s = .next (s.answered 1 [])) ∧
    (∀ c, p.cmd = some c → 1 ≤ c.code → c.code ≤ 0x10 → exec .codeUnassigned s = .next s) ∧
    (p.cmd = none → exec .codeUnassigned s = .next s)

/-- LOAD and LOADSAVED into an Empty set make it Loading and go on until the load ends; LOADSAVED of a context that is not
saved answers 7. STOP of an Active context makes it Retired. FAULT of a resident one makes it Faulted with cause 0xF1.
RELEASE makes a Faulted context Retired and answers its fault word, and empties the set of a Retired one. SWITCH makes
the Active context Pre-empting and the one that stands by Active. SAVE marks a context with a save area and goes on
until it is saved. Each answers 3 in any other state, and all but FAULT also when another event of the cycle has taken
effect on the context. The number that CTXPEER shows while LOAD runs is free (notes/assumptions/75). Nothing else
changes for LOAD, LOADSAVED, SAVE and SWITCH. The zero cell and slot of a fault word that names no group
(notes/assumptions/48) and the rank of SWITCH and RELEASE (notes/assumptions/17) are the model's choice. (R82, R84,
R95, R98, R449, R450, R451) -/
def Obligations.ContextCommandResults : Prop :=
  ∀ (s : State) (c : Command) (T : Nat) (S : SlotSet), T = c.set → S = s.slotSet T →
    (s.Runs 1 c (fun o => decide (o < 25)) → memNat c.args 24 1 ≤ 1 →
      (S.st ≠ .empty ∨ s.dropped T = true → exec .cmdLoad s = .next (s.answered 3 [])) ∧
      (S.st = .empty → s.dropped T = false → ∃ t, exec .cmdLoad s = .next t ∧
        t = { s with set0 := t.set0, set1 := t.set1, fresh := s.fresh + 1, port := { s.port with waiting := t.port.waiting, cmd := some { c with begun := true } } } ∧
        t.slotSet T = { S with st := .loading, img := none, loadNum := Config.loadNumber s.fresh % 2 ^ 16, lastAt := some s.clock } ∧ t.slotSet (1 - T) = s.slotSet (1 - T))) ∧
    (s.Runs 2 c (fun o => decide (o < 2)) → ∀ found : Option SavedContext, found = s.saved.find? (fun q => q.num == memNat c.args 0 2) →
      (S.st ≠ .empty ∨ s.dropped T = true → exec .cmdLoadsaved s = .next (s.answered 3 [])) ∧
      (S.st = .empty → s.dropped T = false → found = none → exec .cmdLoadsaved s = .next (s.answered 7 [])) ∧
      (∀ q, S.st = .empty → s.dropped T = false → found = some q → ∃ t, exec .cmdLoadsaved s = .next t ∧
        t = { s with set0 := t.set0, set1 := t.set1, port := { s.port with waiting := t.port.waiting, cmd := some { c with begun := true } } } ∧
        t.slotSet T = { S with st := .loading, img := q.set.img, lastAt := some s.clock } ∧ t.slotSet (1 - T) = s.slotSet (1 - T))) ∧
    (s.Runs 3 c (fun _ => false) →
      (s.dropped T = true ∨ (S.img.map Image.saveArea).getD false = false ∨ (S.st ≠ .standby ∧ S.st ≠ .active) → exec .cmdSave s = .next (s.answered 3 [])) ∧
      (s.dropped T = false → (S.img.map Image.saveArea).getD false = true → S.st = .standby ∨ S.st = .active → ∃ t, exec .cmdSave s = .next t ∧
        t = ({ s with port := { s.port with cmd := some { c with begun := true } } }).putSet T { S with
          lastAt := some s.clock, saveCmd := if S.st = CtxState.standby then true else S.saveCmd, saveMark := if S.st = CtxState.active then true else S.saveMark })) ∧
    (∀ b : Command, s.port.cmd = some b → b.code = 3 → b.begun = true →
      ((s.slotSet b.set).st ∈ [CtxState.standby, .active, .preempting] → exec .cmdSave s = .next s) ∧
      ((s.slotSet b.set).st ∉ [CtxState.standby, .active, .preempting] → exec .cmdSave s = .next (s.answered 3 []))) ∧
    (s.Runs 4 c (fun _ => false) →
      (S.st ≠ .active ∨ s.dropped T = true → exec .cmdStop s = .next (s.answered 3 [])) ∧
      (S.st = .active → s.dropped T = false → ∃ u : State, exec .cmdStop s = .next (u.answered 0 []) ∧ (u.slotSet T).st = .retired ∧
        (∀ q ∈ (u.slotSet T).queues, q.2.closed = true) ∧ (u.slotSet T).ingress = [] ∧ (u.slotSet T).egress = [] ∧ (u.slotSet T).waiters = [])) ∧
    (s.Runs 5 c (fun _ => false) →
      (S.st ∉ [CtxState.active, .preempting, .standby] → exec .cmdFault s = .next (s.answered 3 [])) ∧
      (S.st ∈ [CtxState.active, .preempting, .standby] → ∃ u : State, exec .cmdFault s = .next (u.answered 0 []) ∧ s.FaultsSet u T 0xF1 0 0)) ∧
    (s.Runs 6 c (fun _ => false) →
      (s.dropped T = true → exec .cmdRelease s = .next (s.answered 3 [])) ∧
      (S.st = .faulted → s.dropped T = false → ∃ u : State, exec .cmdRelease s = .next (u.answered 0 (leCells 0 8 S.fault.toNat)) ∧ (u.slotSet T).st = .retired) ∧
      (S.st = .retired → s.dropped T = false → (∀ q ∈ s.groups, setOf q.1 ≠ T) → ∃ u : State, exec .cmdRelease s = .next (u.answered 0 []) ∧ u.slotSet T = SlotSet.fresh ∧
        u.slotSet (1 - T) = s.slotSet (1 - T)) ∧
      (S.st = .retired → s.dropped T = false → (∃ q ∈ s.groups, setOf q.1 = T) → exec .cmdRelease s = .next s) ∧
      (S.st ≠ .faulted → S.st ≠ .retired → exec .cmdRelease s = .next (s.answered 3 []))) ∧
    (s.Runs 7 c (fun _ => false) → ∀ P : SlotSet, P = s.slotSet (1 - T) →
      (P.st ≠ CtxState.active ∨ S.st ≠ CtxState.standby ∨ s.dropped (1 - T) = true → exec .cmdSwitch s = .next (s.answered 3 [])) ∧
      (P.st = .active → S.st = .standby → s.dropped (1 - T) = false → S.conductorDone = true → ∃ u : State, exec .cmdSwitch s = .next (u.answered 0 []) ∧
        u = { s with groups := u.groups, set0 := u.set0, set1 := u.set1, port := { s.port with waiting := u.port.waiting } } ∧
        u.slotSet (1 - T) = { P with st := CtxState.preempting, drained := [], lastAt := some s.clock } ∧ u.slotSet T = { S with st := CtxState.active } ∧
        ∀ h, u.group h = if setOf h = 1 - T then stopGroup (s.group h) else if setOf h = T then resumeGroup (s.group h) else s.group h))

/-- With no command, none of the sixteen acts; words out of range answer 2. RESUME and TERMINATE of a Trapped group return
it to user level at TRAPPC, or free its slot with the kernel counting a failed group; they answer 2 for a group that
does not exist, 3 for a context that is not resident, 6 for one that is not Trapped. SETPLIM sets PLIM from 2,000 to
6,400. TRAINLINK puts a link that is Down or Failed in Training, waits for the end of the training, ends that of a
Retraining link at once, and answers with the state reached. TRAINHBM sets the bit of HBMOK. XLATE and SPILLRET answer
a request, as its deadline does when they refuse, or end with 8. ATTEST writes the report to the host. QUERY gives the
states and numbers of the two contexts. The level of XLATE's leaf (notes/assumptions/16), the cut of a long report
(notes/assumptions/51) and the bounds of the commands (notes/assumptions/59) are the model's reading; the report's
layout is free (notes/assumptions/3). (R90, R360, R403, R436, R449, R450, R453, R457, R460) -/
def Obligations.OtherCommandResults : Prop :=
  ∀ (out : Lanes) (ok : Bool) (s : State) (c : Command) (T : Nat) (S : SlotSet), T = c.set → S = s.slotSet T →
    (∀ e ∈ [(Instr.cmdLoad, 1), (.cmdLoadsaved, 2), (.cmdSave, 3), (.cmdStop, 4), (.cmdFault, 5), (.cmdRelease, 6), (.cmdSwitch, 7), (.cmdResume, 8),
        (.cmdTerminate, 9), (.cmdSetplim, 0xA), (.cmdTrainlink out, 0xB), (.cmdTrainhbm ok, 0xC), (.cmdXlate, 0xD), (.cmdSpillret, 0xE), (.cmdAttest ok, 0xF), (.cmdQuery, 0x10)],
      (s.port.cmd = none → exec e.1 s = .next s) ∧
      (s.firmware = .running → s.port.cmd = some c → c.code = e.2 → c.begun = false → c.reserved ≠ 0 ∨ 1 < c.set → exec e.1 s = .next (s.answered 2 []))) ∧
    (∀ (cell slot g : Nat) (G : Group), cell = memNat c.args 0 2 → slot = memNat c.args 2 1 → g = groupCode cell T slot → G = s.group g →
      (∀ e ∈ [(Instr.cmdResume, 8), (.cmdTerminate, 9)], s.Runs e.2 c (fun o => decide (o < 3)) →
        (511 < cell ∨ 3 < slot → exec e.1 s = .next (s.answered 2 [])) ∧
        (cell ≤ 511 → slot ≤ 3 →
          (S.st ∉ [CtxState.active, .preempting, .standby] → exec e.1 s = .next (s.answered 3 [])) ∧
          (S.st ∈ [CtxState.active, .preempting, .standby] → (∀ b, G.phase ≠ .trapped b) → exec e.1 s = .next (s.answered 6 [])))) ∧
      (∀ b, cell ≤ 511 → slot ≤ 3 → S.st ∈ [CtxState.active, .preempting, .standby] → G.phase = .trapped b →
        (s.Runs 8 c (fun o => decide (o < 3)) → G.interrupted = none → exec .cmdResume s = .next ((s.putGroup g { G with
          level := .user, pc := G.trappc, chan := G.chan.map fun ch => ch.dropHeld fun h => h.pc != G.trappc, resume := bitOf G.vresume 16, phase := (if S.st = CtxState.active then .running else .preempted) }).answered 0 [])) ∧
        (s.Runs 9 c (fun o => decide (o < 3)) → ∀ (k : Kernel) (pa : Nat), s.MemCanonical → ({ s with cur := g }).Rests → S.kernel? G.kernid = some k →
          k.cohort = false → k.cword = some pa → (paHost pa = true ∨ paModule pa = false) → k.ended + 1 < k.ngrp →
          ∃ u : State, exec .cmdTerminate s = .next (u.answered 0 []) ∧ u.groups.find g = none ∧
            (∀ h, h ≠ g → u.group h = touchGroup none pa 8 h (s.group h)) ∧ u.readAt pa 8 = toBytes 8 (wordFail (BitVec.ofNat 64 (natOfBytes (s.readAt pa 8))) 1).toNat ∧ s.OnlyWord u pa ∧
            ∃ j, (u.slotSet T).kernel? G.kernid = some j ∧ j.ended = k.ended + 1 ∧ j.st = k.st))) ∧
    (c.set = 0 →
      (s.Runs 0xA c (fun o => decide (o < 2)) → ∀ w, w = memNat c.args 0 2 →
        (2000 ≤ w → w ≤ 6400 → exec .cmdSetplim s = .next (({ s with plim := w }).answered 0 [])) ∧
        (w < 2000 ∨ 6400 < w → exec .cmdSetplim s = .next (s.answered 2 []))) ∧
      (s.Runs 0xB c (fun o => decide (o < 1)) → ∀ (k : Nat) (fin : LinkState), k = memNat c.args 0 1 →
        fin = (match out with | .full => if s.reduced = true ∧ k < 10 then .degraded else .up | .half => .degraded | .fewer => .failed) →
        (¬ (k < 10 ∨ 16 ≤ k ∧ k < 64) → exec (.cmdTrainlink out) s = .next (s.answered 2 [])) ∧
        (k < 10 ∨ 16 ≤ k ∧ k < 64 →
          ((s.link k).st = .up ∨ (s.link k).st = .degraded → exec (.cmdTrainlink out) s = .next (s.answered 3 [])) ∧
          ((s.link k).st ∈ [LinkState.down, .failed, .training] → exec (.cmdTrainlink out) s = .next { s with
            links := s.links.put k { st := .training, replays := 0, held := (s.link k).held }, port := { s.port with cmd := some { c with begun := true } } }) ∧
          ((s.link k).st = .retraining → exec (.cmdTrainlink out) s =
            .next (({ s with links := s.links.put k { st := fin, replays := 0, held := false } }).answered (if fin = LinkState.failed then 0xA else 0) (leCells 0 1 fin.code))))) ∧
      (∀ (k : Nat) (fin : LinkState), s.port.cmd = some c → c.code = 0xB → c.begun = true → k = memNat c.args 0 1 →
        fin = (match out with | .full => if s.reduced = true ∧ k < 10 then .degraded else .up | .half => .degraded | .fewer => .failed) →
        ((s.link k).st = .training → exec (.cmdTrainlink out) s =
          .next (({ s with links := s.links.put k { st := fin, replays := 0, held := false } }).answered (if fin = LinkState.failed then 0xA else 0) (leCells 0 1 fin.code))) ∧
        ((s.link k).st ≠ .training → exec (.cmdTrainlink out) s = .next s)) ∧
      (s.Runs 0xC c (fun o => decide (o < 2)) → ∀ d k, d = memNat c.args 0 1 → k = memNat c.args 1 1 →
        (7 < d ∨ 1 < k → exec (.cmdTrainhbm ok) s = .next (s.answered 2 [])) ∧
        (d ≤ 7 → k ≤ 1 →
          (s.hbmok.getLsbD (2 * d + k) = true → exec (.cmdTrainhbm ok) s = .next (s.answered 3 [])) ∧
          (s.hbmok.getLsbD (2 * d + k) = false → ok = true → exec (.cmdTrainhbm ok) s =
            .next (({ s with hbmok := s.hbmok ||| BitVec.ofNat 16 (2 ^ (2 * d + k)) }).answered 0 (leCells 0 1 1))) ∧
          (s.hbmok.getLsbD (2 * d + k) = false → ok = false → exec (.cmdTrainhbm ok) s = .next (s.answered 0xA [])))) ∧
      (s.Runs 0xF c (fun o => decide (o < 44)) → ∀ n, n = min (Config.reportLength s.port.reports) (memNat c.args 40 4) →
        (ok = false → exec (.cmdAttest ok) s = .next (s.answered 9 [])) ∧
        (ok = true → 0 < n → s.port.ats = false → s.MemCanonical → ∃ u : State, exec (.cmdAttest ok) s = .next (u.answered 0 (leCells 0 4 n)) ∧
          ({ s with port := { s.port with reports := s.port.reports + 1 } }).StoresAt u none (2 ^ 51 + memNat c.args 32 8 % 2 ^ 51)
            ((upFrom 0 n).map fun i => s.reportByte (s.reportFields ((upFrom 0 32).map fun j => memByte c.args j)) i))) ∧
      (s.Runs 0x10 c (fun _ => false) → exec .cmdQuery s = .next (s.answered 0
        (leCells 0 1 s.set0.st.code ++ leCells 1 1 s.set1.st.code ++ leCells 2 2 s.set0.num ++ leCells 4 2 s.set1.num)))) ∧
    (s.Runs 0xD c (fun o => decide (o < 4 ∨ (8 ≤ o ∧ o < 17))) → ∀ id : BitVec 32, id.toNat = memNat c.args 0 4 →
      (1 < memNat c.args 16 1 → exec .cmdXlate s = .next (s.answered 2 [])) ∧
      (memNat c.args 16 1 ≤ 1 → s.port.requests.find id.toNat = none → exec .cmdXlate s = .next (s.answered 8 [])) ∧
      (∀ die granule, s.port.requests.find id.toNat = some (.translate die T granule) →
        (memNat c.args 16 1 = 1 → ∃ u : State, exec (.xlateDeadline id) s = .next u ∧ exec .cmdXlate s = .next (u.answered 0 [])) ∧
        (∀ m im leaf log, memNat c.args 16 1 = 0 → leaf = memNat c.args 8 8 → (s.tr.misses.findD die []).find? (fun m => m.request == some id.toNat) = some m →
          S.img = some im → log = pageLog 0 leaf → entryBit leaf 0 = true → entryBit leaf 1 = true → malformed s.hbmuse im.apertures 0 leaf = false →
          permits (missKind m.kind) leaf = true → ∃ u : State, exec .cmdXlate s = .next (u.answered 0 []) ∧
            u = { s with tr := u.tr, port := { s.port with requests := s.port.requests.drop id.toNat } } ∧
            TlbEntry.mk im.num (granule * 4096 / 2 ^ log) log leaf none ∈ u.tr.dies.findD die []))) ∧
    (s.Runs 0xE c (fun o => decide (o < 5)) → ∀ id : BitVec 32, id.toNat = memNat c.args 0 4 →
      (1 < memNat c.args 4 1 → exec .cmdSpillret s = .next (s.answered 2 [])) ∧
      (memNat c.args 4 1 ≤ 1 → s.port.requests.find id.toNat = none → exec .cmdSpillret s = .next (s.answered 8 [])) ∧
      (∀ die, s.port.requests.find id.toNat = some (.spill die T) →
        (memNat c.args 4 1 = 1 → ∃ u : State, exec (.spillDeadline id) s = .next u ∧ exec .cmdSpillret s = .next (u.answered 0 [])) ∧
        (∀ (k : Nat) (R : Receiver) (m : Msg) (im : Image), memNat c.args 4 1 = 0 → k = recvKey die T → R = s.receiver k → s.port.ats = false →
          R.waitingHost.find? (fun w => w.2 == id.toNat) = some (m, id.toNat) → S.img = some im →
          exec .cmdSpillret s = .next ((({ s with port := { s.port with requests := s.port.requests.drop id.toNat } }).putReceiver k { R with
            waitingHost := R.waitingHost.filter fun w => w.2 != id.toNat
            tray := R.tray.map fun q => if q = m
              then { m with payload := s.readAt (2 ^ 51 + im.hostSpillAddr + m.spill.getD 0) m.payload.length, back := true, spill := none } else q }).answered 0 []))))

/-- POWER_INTERVAL records PNOW; of firmware that runs, above PLIM every cell goes one step lower, CAP by 16 down to 16
and then GRANT by 1 down to 1, and an event is posted; below 95 % of PLIM every cell goes one step higher. HOT_DIE
from 95 degrees does the first for the cells of its die. THERMAL_TRIP from 110 degrees and the failure of firmware
that was not refused make every resident context Faulted, with causes 0xF2 and 0xF3. MODULE_RESET leaves every context
Empty, no group, the links Training, the stacks as they trained and firmware unverified; POWER_OFF leaves a module
that is off. FIRMWARE_VERIFY ends in running or refused firmware, once. HBM_RETRAIN sets the bit of HBMOK. What of
memory outlives a reset is the choice of notes/assumptions/44. The zero cell and slot of the fault words are the
model's reading (notes/assumptions/48). (R403, R446, R449, R453, R457, R458, R459, R461, R462, R10) -/
def Obligations.PowerAndResetResults : Prop :=
  ∀ (pw : BitVec 13) (e : BitVec 3) (deg : BitVec 8) (kb : BitVec 1) (ok : Bool) (rp : ResetReport) (s : State) (lower higher : CellState → CellState),
    lower = (fun C => if 16 < C.cap then { C with cap := max 16 (C.cap - 16) } else { C with grant := max 1 (C.grant - 1) }) →
    higher = (fun C => if C.grant < 8 then { C with grant := C.grant + 1 } else { C with cap := min 256 (C.cap + 16) }) →
    (∃ t, exec (.powerInterval pw) s = .next t ∧ t = { s with pnow := pw.toNat, cells := t.cells, port := t.port } ∧
      (s.firmware ≠ .running → t = { s with pnow := pw.toNat }) ∧
      (s.firmware = .running → s.plim < pw.toNat → t.port = { s.port with waiting := s.port.waiting ++ [thermalEntry 0 0 3] } ∧
        ∀ k, t.cell k = if k < 512 then lower (s.cell k) else s.cell k) ∧
      (s.firmware = .running → pw.toNat * 100 < s.plim * 95 → t.port = s.port ∧ ∀ k, t.cell k = if k < 512 then higher (s.cell k) else s.cell k) ∧
      (pw.toNat ≤ s.plim → s.plim * 95 ≤ pw.toNat * 100 → t = { s with pnow := pw.toNat })) ∧
    (deg.toNat < 95 ∨ s.firmware ≠ .running → exec (.hotDie e deg) s = .next s) ∧
    (95 ≤ deg.toNat → s.firmware = .running → ∃ t, exec (.hotDie e deg) s = .next t ∧
      t = { s with cells := t.cells, port := { s.port with waiting := s.port.waiting ++ [thermalEntry e.toNat deg.toNat 1] } } ∧
      ∀ k, t.cell k = if k / 64 = e.toNat then lower (s.cell k) else s.cell k) ∧
    (deg.toNat < 110 → exec (.thermalTrip e deg) s = .next s) ∧
    (∀ p ∈ [(Instr.thermalTrip e deg, 0xF2), (.firmwareFailure, 0xF3)], (p.2 = 0xF2 → 110 ≤ deg.toNat) →
      (p.2 = 0xF3 → s.firmware ≠ .refused ∧ s.firmware ≠ .failed) → ∃ t, exec p.1 s = .next t ∧
      t = { s with set0 := t.set0, set1 := t.set1, port := { s.port with waiting := t.port.waiting }
                   tripped := (if p.2 = 0xF2 then true else s.tripped), firmware := (if p.2 = 0xF2 then s.firmware else Firmware.failed) } ∧
      ∀ T, T < 2 →
        ((s.slotSet T).st ∈ [CtxState.active, .preempting, .standby] → (t.slotSet T).st = .faulted ∧ (t.slotSet T).fault = BitVec.ofNat 64 p.2) ∧
        ((s.slotSet T).st ∉ [CtxState.active, .preempting, .standby] → (t.slotSet T).st = (s.slotSet T).st)) ∧
    (s.firmware = .refused ∨ s.firmware = .failed → exec .firmwareFailure s = .next s) ∧
    (∃ t, exec (.moduleReset rp) s = .next t ∧ t.set0 = SlotSet.fresh ∧ t.set1 = SlotSet.fresh ∧ t.groups = [] ∧ t.cells = [] ∧ t.bars = [] ∧ t.seqs = [] ∧
      t.receivers = [] ∧ t.dispensers = [] ∧ t.flying = [] ∧ t.colls = [] ∧ t.out = [] ∧ t.clock = 0 ∧ t.tr = Xlate.fresh ∧ t.plim = 6400 ∧ t.firmware = .unverified ∧
      t.off = false ∧ t.tripped = false ∧ t.hbmok = rp.hbm ∧ t.hbmuse = rp.hbm ∧ t.reduced = decide (rp.hbm ≠ 0xFFFF) ∧ t.pciw = rp.pciw ∧
      (∀ k, (k < 10 ∨ 16 ≤ k ∧ k < 64) → (t.link k).st = .training) ∧
      t.port = { HostPort.fresh with
        ats := rp.ats
        waiting := ((upFrom 0 16).filter fun k => !rp.hbm.getLsbD k).map fun k => { kind := 5, set := 0, id := 0, body := leCells 8 1 (0x80 + k) } } ∧
      t.mem = s.mem ∧ t.hostMem = s.hostMem ∧ t.saved = s.saved) ∧
    (exec .powerOff s = .next { State.reset with agenda := s.agenda, fresh := s.fresh, hostMem := s.hostMem, off := true }) ∧
    (s.firmware ≠ .unverified → exec (.firmwareVerify ok) s = .next s) ∧
    (s.firmware = .unverified → exec (.firmwareVerify ok) s = .next (if ok = true
      then { s with firmware := .running, port := { s.port with done := true, status := 0, tag := 0 } } else { s with firmware := .refused })) ∧
    exec (.hbmRetrain e kb ok) s = .next (if ok = true then { s with hbmok := s.hbmok ||| BitVec.ofNat 16 (2 ^ (2 * e.toNat + kb.toNat)) } else s)

/-- For every well-formed instruction with words whose major opcode (bits 7:1) is below 0x20, the control thread's own,
with every operand at every value the encoding admits, decoding its two words gives it back; its words are below 2^32,
and the second is 0 for a short one. (R26, R29, R30, R31, R32, R36) -/
def Obligations.ScalarRoundTrip : Prop :=
  ∀ i : Instr, i.encoded = true → i.wf = true → encFirst i / 2 % 128 < 0x20 →
    decode (encode i) = .ok i ∧ encFirst i < 2 ^ 32 ∧ encSecond i < 2 ^ 32 ∧ (encFirst i % 2 = 0 → encSecond i = 0)

/-- For every well-formed instruction with words whose major opcode is 0x20 or above, the vector, tile, transform, stream,
message, page, link and system instructions, with every operand at every value the encoding admits, decoding its two
words gives it back; its words are below 2^32, and the second is 0 for a short one. (R26, R29, R30, R31, R33, R34,
R36) -/
def Obligations.UnitRoundTrip : Prop :=
  ∀ i : Instr, i.encoded = true → i.wf = true → 0x20 ≤ encFirst i / 2 % 128 →
    decode (encode i) = .ok i ∧ encFirst i < 2 ^ 32 ∧ encSecond i < 2 ^ 32 ∧ (encFirst i % 2 = 0 → encSecond i = 0)

/-- For every state whose device memory and host memory are in canonical form (addresses strictly rising, no entry equal
to what an unlisted address reads as), whatever the agenda says, the state after a step has both in canonical form.
That an unlisted byte reads 0 is the model's choice (notes/assumptions/6). (R228, R332, R350, R398, R10) -/
def Obligations.MemoryStaysCanonical : Prop :=
  ∀ s t : State, s.MemCanonical → step s = .next t → t.MemCanonical

/-- At reset both resident slot sets are Empty and no context is saved, no group stands, every link is Down, every cell
has CAP 256 and GRANT 8, every barrier entry is free with generation 1, every dispenser and receive engine is empty,
MBSTAT reads 0, PLIM is 6,400, and both memories are in canonical form. That memory reads 0 is the model's choice
(notes/assumptions/6). (R82, R182, R266, R320, R403, R413, R449, R456) -/
def Obligations.ResetState : Prop :=
  State.reset.MemCanonical ∧ (∀ T, (State.reset.slotSet T).st = .empty ∧ (State.reset.slotSet T).num = 0) ∧ State.reset.saved = [] ∧ State.reset.groups = [] ∧
    (∀ k, (State.reset.link k).st = .down) ∧ (∀ c, (State.reset.cell c).cap = 256 ∧ (State.reset.cell c).grant = 8 ∧ (State.reset.cell c).mq = []) ∧
    (∀ k, (State.reset.barEntry k).used = false ∧ (State.reset.barEntry k).gen = 1) ∧
    (∀ k, (State.reset.dispenser k).nextNo = 0 ∧ (State.reset.dispenser k).doneNo = 0) ∧ (∀ k, (State.reset.receiver k).posts = [] ∧ (State.reset.receiver k).tray = []) ∧
    State.reset.plim = 6400 ∧ ∃ t, exec (.hostRead (BitVec.ofNat 64 (2 ^ 63 + 0x800)) 8) State.reset = .next t ∧ t.port.readData = List.replicate 8 0

/-- When the first turn of the agenda, in a clock in which no actor with a place in the order of the clock has acted and
no other event has taken effect on a context, is an issue turn of a group that may act and holds no trap at its
boundary, on a cell that has issued nothing in the clock and whose rotation serves it (no ready group stands before
it), and the words at its PC translate and hold good data on its die, the step, after the clocks of the turn, is exec
of the decoded instruction with its words kept, when it meets no interlock (but a trap waits for the members of the
group's convoys), followed by the rotation of the cell, what follows every turn, and the record of its place in the
clock (notes/assumptions/17); words of no instruction raise ILLEGAL. A turn that names an event which the module can
have is exec of that event, followed the same way. (R26, R27, R36, R133) -/
def Obligations.StepRunsDecoded : Prop :=
  ∀ (s u s0 s1 s2 v : State) (n g w1 w2 : Nat) (late : Bool) (rest : List Turn) (r1 r2 : List (Nat × Nat)) (l1 l2 : Nat),
    (s.agenda = Turn.mk n (.issue g late) :: rest → u = ({ s with agenda := rest }).tick n → u.Punctual → cellOf g ∉ u.issued → u.served g = g → (u.groups.find g).isSome = true → u.mayAct g = true →
      u.boundaryTrap g = none → s0 = { u with cur := g, lateLoads := late } → s0.look g .fetch (u.group g).pc.toNat 4 = (s1, .here r1 l1) →
      runsLocal g r1 = true → s1.runsBad r1 = false → w1 = natOfBytes (s1.readRuns r1) →
      (w1 % 2 = 0 ∧ s2 = s1 ∧ w2 = 0 ∨ w1 % 2 = 1 ∧ s1.look g .fetch ((u.group g).pc + 4).toNat 4 = (s2, .here r2 l2) ∧ runsLocal g r2 = true ∧
        s2.runsBad r2 = false ∧ w2 = natOfBytes (s2.readRuns r2)) →
      v = { s2 with ir := BitVec.ofNat 64 (w1 + 2 ^ 32 * w2) } →
      (∀ i, decodeWords w1 w2 = .ok i → v.free i = true → step s =
        onNext (u.reach (.issue g late)) (onNext State.settleTurn (onNext (fun t => s2.afterIssue t g) (s2.afterMembers g (exec i v))))) ∧
      (∀ e, decodeWords w1 w2 = .error e → v.own.late = none → step s =
        onNext (u.reach (.issue g late)) (onNext State.settleTurn (onNext (fun t => s2.afterIssue t g) (s2.afterMembers g (.next v.illegal)))))) ∧
    ∀ i : Instr, s.agenda = Turn.mk n (.event i) :: rest → u = ({ s with agenda := rest }).tick n → u.Punctual →
      (isEvent i = true → u.admits i = true → step s = onNext (u.reach (.event i)) (onNext State.settleTurn (exec i u))) ∧
      (isEvent i = false ∨ u.admits i = false → step s = .next (u.reach (.event i) u.settleTurn))

/-- addi x10, x10, 8; ldi x10 with its second word; ld.64 x13, 0(x10); fadd.f64 x12, x12, x13; loop x11, −3; kend; and the
word 0, which is no instruction. (R26, R29, R36, R154, R157, R162, R164) -/
def Obligations.DecodeSanity : Prop :=
  decodeWords 0x00214A0A 0 = .ok (.addi 10 10 8) ∧ decodeWords 0x00000A17 0x20000000 = .ok (.ldiLong 10 0x20000000) ∧
    decodeWords 0x03014D1C 0 = .ok (.ld 6 13 10 0) ∧ decodeWords 0x80358C32 0 = .ok (.fadd true 12 12 13) ∧ decodeWords 0xFFF40B30 0 = .ok (.loop 11 (-3)) ∧
    decodeWords 0x008000EC 0 = .ok .kend ∧ decodeWords 0 0 = .error .majorUnassigned

/-- POWER_OFF leaves no memory, no saved context, no group, no context, no link, no entry, no request and no register of
the module at another value than at reset; from then on a turn of any event but MODULE_RESET only leaves the agenda,
and MODULE_RESET wakes the module. (R462) -/
def Obligations.PoweredOffModule : Prop :=
  ∀ s : State, ∃ t, exec .powerOff s = .next t ∧
    t = { State.reset with agenda := s.agenda, fresh := s.fresh, hostMem := s.hostMem, off := true } ∧ t.mem = [] ∧ t.saved = [] ∧
    ∀ (n : Nat) (i : Instr) (rest : List Turn),
      ((∀ rp, i ≠ .moduleReset rp) → step { t with agenda := Turn.mk n (.event i) :: rest } = .next { t with agenda := rest }) ∧
      ∀ rp, i = .moduleReset rp → ∃ u, step { t with agenda := Turn.mk n (.event i) :: rest } = .next u ∧ u.off = false

/-- Each of these answers a next state in every state, and with its own effect where its conditions hold:
KERNEL_LAUNCHABLE makes the kernel launchable; PLACEMENT_DECISION places a group of the one candidate;
TRANSFORM_ENTRY_START marks the entry started, TRANSFORM_ENTRY_RETIRE takes it out with its writes on the asynchronous
path; STREAM_FETCH_ARRIVAL brings the next element; STRIP_COMMIT hands over the strip; BARRIER_REQUEST_ARRIVAL counts
the arrival; KV_FETCH_START advances over an empty page, KV_CATCHUP_START begins the catch-up, KV_PAGE_MULTICAST ends
a page that is lost; REMOTE_REQUEST_ARRIVAL reads and answers; REMOTE_REPLY_ARRIVAL brings the data asked for;
REMOTE_DEADLINE raises LINKFAIL; FLIT_REPLAY counts, LINK_CRC_FAIL retrains, LINK_TRAINING_DONE and LINK_RETRAIN_DONE
end in the state of the lanes; COLLECTIVE_UNIT_ACCEPT takes the contribution, COLLECTIVE_RESULT_DELIVERY hands over
the result; MESSAGE_ARRIVAL matches a receive, MESSAGE_LANDING_COMPLETE ends one of no bytes with its record,
RETRY_TICKET_CALL takes the refused message, SPILL_DEADLINE pauses spilling. Retirement of a transform
(notes/assumptions/22), the replay count (notes/assumptions/31) and the contribution records (notes/assumptions/32)
are the model's choice. (R104, R116, R289, R308, R323, R374, R403, R408, R421, R431, R434, R436) -/
def Obligations.EventsComplete : Prop :=
  ∀ (s : State),
    (∀ (b : BitVec 12) (c : BitVec 9) (cl lk : BitVec 6) (e : BitVec 3) (T : BitVec 1) (ch : BitVec 4) (kn id : BitVec 32) (cells : List Host.Cell) (far : FarData)
        (lost reached : Bool) (why : BitVec 2) (out : Lanes) (rq : RemoteRequest) (cc : RemoteContribution) (ix : Nat) (ext : Option RemoteMessage),
      ∀ i ∈ [Instr.kernelLaunchable kn cells, .placementDecision, .transformEntryStart c, .transformEntryRetire c, .streamFetchArrival b ch far lost, .stripCommit b ch,
        .barrierRequestArrival b, .kvFetchStart cl far lost, .kvCatchupStart cl, .kvPageMulticast cl far lost, .remoteRequestArrival rq, .remoteReplyArrival b cells lost,
        .remoteDeadline b reached why, .flitReplay lk, .linkCrcFail lk, .linkTrainingDone lk out, .linkRetrainDone lk out, .collectiveUnitAccept cc,
        .collectiveResultDelivery b, .messageArrival ix ext, .messageLandingComplete e T ix lost, .retryTicketCall e T, .spillDeadline id], ∃ t, exec i s = .next t) ∧
    (∀ (kn : BitVec 32) (far : List Host.Cell) (T : Nat) (k : Kernel), s.activeSet = some T → (s.slotSet T).kernel? kn.toNat = some k → k.st = .queued →
      k.launchable = false → s.meets T (s.slotSet T) k far = true → ∃ t, exec (.kernelLaunchable kn far) s = .next t ∧ (t.slotSet T).placeDue = true ∧
        ∃ j, (t.slotSet T).kernel? kn.toNat = some j ∧ j.launchable = true) ∧
    (∀ (T : Nat) (S : SlotSet) (k : Kernel) (q c slot : Nat) (Q : Queue) (im : Image) (free : List Nat), s.activeSet = some T → S = s.slotSet T → S.placeDue = true →
      S.kernels = [k] → k.launchable = true → k.st = .queued → k.reserving = false → k.queue = some q → q ≤ 15 → S.queues.find q = some Q → Q.prio ≤ 7 →
      k.cohort = false → s.launchSeen k = true → S.img = some im → s.chooseCell T k.desc (s.mayUse k) = some c → s.freeSlots T c = slot :: free → k.placed < k.ngrp →
      ∃ t, exec .placementDecision s = .next t ∧
        t.group (groupCode c T slot) = Group.start im k.desc k.args k.placed k.num k.ngrp (s.holdingFor T c im k.desc)) ∧
    (∀ (c : BitVec 9) (T : Nat) (e : TransformEntry) (rest : List TransformEntry) (G : Group), T = (if s.serves 0 c.toNat then 0 else 1) → s.serves T c.toNat = true →
      (s.cell c.toNat).tq T = e :: rest → e ∉ rest → (∀ q ∈ (s.cell c.toNat).tq0 ++ (s.cell c.toNat).tq1, q.started = false) → G = s.group e.group →
      (∀ l ∈ G.slices.toList, l = []) → (∀ w ∈ G.sent, w.msg = true) → G.async = [] → (∀ x ∈ G.chan.toList, x.st ≠ .copying) → e.tok.pop = none →
      ∃ t, exec (.transformEntryStart c) s = .next t ∧ (t.cell c.toNat).tq T = { e with started := true } :: rest) ∧
    (∀ (c : BitVec 9) (e : TransformEntry) (rest : List TransformEntry), (s.cell c.toNat).tq (setOf e.group) = e :: rest → e.started = true → cellOf e.group = c.toNat →
      (setOf e.group = 1 → ∀ q ∈ (s.cell c.toNat).tq0, q.started = false) → (s.group e.group).over = false → (s.transformOut e).failed = none → e.tok.push = none →
      ∃ t, exec (.transformEntryRetire c) s = .next t ∧ (t.cell c.toNat).tq (setOf e.group) = rest ∧
        (t.group e.group).async = (s.group e.group).async ++ (s.transformOut e).writes) ∧
    (∀ (b : BitVec 12) (ch : BitVec 4) (far : FarData) (lost : Bool) (G : Group) (c : Channel) (runs : List (Nat × Nat)) (leaf : Nat), G = s.group b.toNat →
      c = G.chan[ch.toNat] → G.over = false → (s.slotSet (setOf b.toNat)).st = .active → (∀ l ∈ G.slices.toList, l = []) → (∀ w ∈ G.sent, w.held = none) → G.async = [] →
      s.entriesOf b.toNat = [] → c.closing = false → c.st = .bound → c.nextElem < c.total → (c.nextElem + 1 - c.taken) * c.esz ≤ 4096 →
      (c.elemAddr c.nextElem).toNat % 128 + c.esz ≤ 128 → (s.look b.toNat .load (c.elemAddr c.nextElem).toNat c.esz (engineId 2)).2 = .here runs leaf →
      runsLocal b.toNat runs = true → s.runsBad runs = false →
      ∃ t, exec (.streamFetchArrival b ch far lost) s = .next t ∧
        t.group b.toNat = G.setChan ch.toNat { c with buf := c.buf ++ [(c.nextElem, natOfBytes (s.readRuns runs))] }) ∧
    (∀ (b : BitVec 12) (ch : BitVec 4) (G : Group) (c : Channel) (x : Strip) (rest : List Strip) (pa : Nat), G = s.group b.toNat → c = G.chan[ch.toNat] →
      (s.groups.find b.toNat).isSome = true → c.owed = 0 → c.st = .copying → c.arrived = x :: rest → x.why = 0 → c.tke = false → c.depth = 0 →
      s.window b.toNat (c.dst.toNat / 2 ^ 48) (c.dst.toNat % 2 ^ 48 + c.filled) x.data.length = some [(pa, x.data.length)] →
      ∃ t, exec (.stripCommit b ch) s = .next t ∧ (t.group b.toNat).async = G.async ++ [AsyncWrite.mk (.phys pa) x.data false none none G.pc 0 true none]) ∧
    (∀ (b : BitVec 12) (h : Word) (q : Bool) (key : Nat), (s.group b.toNat).barPending = some (h, q, none) → s.lostDie b.toNat (barDie h) = false → s.heldDie b.toNat (barDie h) = false →
      s.liveHandle b.toNat h = .ok (.entry key) → ∃ t, exec (.barrierRequestArrival b) s = .next t ∧
        (t.group b.toNat).barPending = some (h, q, some (.ok (s.barEntry key).phase))) ∧
    (∀ (cl : BitVec 6) (far : FarData) (lost : Bool) (T k page : Nat) (Q : Sequencer) (s0 s1 : State) (runs : List (Nat × Nat)) (leaf : Nat) (entry : List Byte),
      s.activeSet = some T → s.kvUnasked cl.toNat = none → k = seqKey cl.toNat T → Q = s.seqAt k → Q.phase = .main → Q.fetches.length < 4 → Q.nextMain = some page → 0 < s.kvFree (k / 16) T →
      s0 = s.putSeq k { Q with phase := .main } → s0.kvLook k .load (Q.table + BitVec.ofNat 64 (8 * page)).toNat 8 = (s1, .here runs leaf) →
      s1.kvPoor runs far = false → s1.kvLost (k / 16) (k % 2) runs lost = false → s1.kvBytes far runs = some entry → natOfBytes entry = 0 →
      ∃ t, exec (.kvFetchStart cl far lost) s = .next t ∧ (t.seqAt k).pos = page + 1) ∧
    (∀ (cl : BitVec 6) (T k : Nat) (Q : Sequencer), s.activeSet = some T → k = seqKey cl.toNat T → Q = s.seqAt k → Q.catchBegun = false → Q.phase = .stopped →
      (∃ u ∈ Q.subs, u.inPass = true ∧ u.late ≠ []) → (∀ F ∈ Q.folds, F.inPass = true → F.left ≠ [] ∨ F.written = true) →
      ∃ t, exec (.kvCatchupStart cl) s = .next t ∧ (t.seqAt k).catchBegun = true ∧ (t.seqAt k).phase = .catchup) ∧
    (∀ (cl : BitVec 6) (far : FarData) (T k g : Nat) (Q : Sequencer) (f : Fetch), s.activeSet = some T → s.kvUnlanded cl.toNat = none → k = seqKey cl.toNat T →
      Q = s.seqAt k → Q.fetches = [f] → Q.recipients f = [g] → f.data = none → s.kvLost (k / 16) (k % 2) f.runs true = true →
      ∃ t, exec (.kvPageMulticast cl far true) s = .next t ∧ (t.seqAt k).fetches = [] ∧ (t.seqAt k).nFailed = Q.nFailed + 1) ∧
    (∀ (rq : RemoteRequest) (n : Nat), rq.kind = .read n → ∃ t, exec (.remoteRequestArrival rq) s = .next t ∧
      t.out = s.out ++ [OutPacket.answer rq.src (s.readAt (rq.pa % 2 ^ 41) n) (s.badData (rq.pa % 2 ^ 41) n)]) ∧
    (∀ (b : BitVec 12) (data : List Host.Cell) (w : DataWait), (s.group b.toNat).late = none → (s.group b.toNat).dataWait = some w → s.lostRuns b.toNat w.asked = false → s.heldRuns b.toNat w.asked = false →
      ∃ t, exec (.remoteReplyArrival b data false) s = .next t ∧ (t.group b.toNat).dataWait = some { w with arrived := true, inbox := w.inbox ++ data }) ∧
    (∀ (b : BitVec 12) (reached : Bool) (why : BitVec 2) (w : DataWait), (s.group b.toNat).late = none → (s.group b.toNat).dataWait = some w → w.arrived = false →
      w.act = none → s.Handling b.toNat → ∃ t, exec (.remoteDeadline b reached why) s = .next t ∧
        t.group b.toNat = (s.group b.toNat).linkFails (if why = 2 then 2 else 1) w.va w.pc) ∧
    (∀ (lk : BitVec 6) (k : Nat) (l : Link) (out : Lanes), k = lk.toNat → (k < 10 ∨ 16 ≤ k) → l = s.link k →
      (l.st = .up → ∃ t, exec (.flitReplay lk) s = .next t ∧ t.link k = { l with replays := min 8 (l.replays + 1) }) ∧
      (l.st = .up → 8 ≤ l.replays → ∃ t, exec (.linkCrcFail lk) s = .next t ∧ t.link k = { st := .retraining, replays := 0, held := true }) ∧
      (l.st = .training → ∃ t, exec (.linkTrainingDone lk out) s = .next t ∧ t.link k = { st := trained s.reduced k out, replays := 0, held := false }) ∧
      (l.st = .retraining → s.hostRetrain = false → ∃ t, exec (.linkRetrainDone lk out) s = .next t ∧
        t.link k = { st := trained s.reduced k out, replays := 0, held := false })) ∧
    (∀ cc : RemoteContribution, ∃ t, exec (.collectiveUnitAccept cc) s = .next t ∧
      t.colls = s.colls ++ [{ group := none, num := 0, from_ := cc, buffer := 0, runs := [], failed := cc.fate, done := true }]) ∧
    (∀ (b : BitVec 12) (c : Contribution) (data : List Byte) (fl : BitVec 6) (of : Bool) (pa : Nat),
      s.colls.find? (fun c => c.group == some b.toNat && !c.done && (s.collFate c).isSome) = some c → s.collFate c = some (.result data fl of) → c.runs = [(pa, data.length)] → s.collHeld b.toNat c = false →
      ∃ t, exec (.collectiveResultDelivery b) s = .next t ∧
        (t.group b.toNat).async = (s.group b.toNat).async ++ [AsyncWrite.mk (.phys pa) data false none none (s.group b.toNat).pc 0 false (some (fl, of))]) ∧
    (∀ (f : FlyMsg) (k : Nat) (r : Recv), s.flying = [f] → f.die < 8 → f.set < 2 → k = recvKey f.die f.set →
      s.messageLost f.msg f.die = false → s.messageHeld f.msg f.die = false → s.acceptsCtx f.set f.msg.ctx = true →
      (s.receiver k).refused = [] → ((s.receiver k).posts.find? fun p => p.takes f.msg) = some r →
      ∃ t, exec (.messageArrival 0 none) s = .next t ∧ t.flying = [] ∧ (t.receiver k).landing = (s.receiver k).landing ++ [(r, f.msg)] ∧
        (t.receiver k).posts = (s.receiver k).posts.erase r) ∧
    (∀ (e : BitVec 3) (T : BitVec 1) (k fa : Nat) (r : Recv) (m : Msg) (s3 : State), k = recvKey e.toNat T.toNat → (s.receiver k).landing = [(r, m)] → m.spilled = false →
      m.payload = [] → s.landingAt e.toNat T.toNat r.flaga = (s3, .ok fa) → r.group = none → s.MemCanonical →
      ∃ t, exec (.messageLandingComplete e T 0 false) s = .next t ∧ (t.receiver k).landing = [] ∧
        ({ s with tr := s3.tr, receivers := t.receivers, fresh := t.fresh }).StoresAt t none fa (toBytes 8 (m.src.toNat + m.tag.toNat * 2 ^ 32) ++ toBytes 8 (2 ^ 63))) ∧
    (∀ (e : BitVec 3) (T : BitVec 1) (k : Nat) (m : Msg) (rest : List Msg) (r : Recv), k = recvKey e.toNat T.toNat → (s.receiver k).refused = m :: rest →
      s.acceptsCtx T.toNat m.ctx = true → s.messageHeld m e.toNat = false → ((s.receiver k).posts.find? fun p => p.takes m) = some r →
      ∃ t, exec (.retryTicketCall e T) s = .next t ∧ (t.receiver k).refused = rest ∧ (t.receiver k).landing = (s.receiver k).landing ++ [(r, m)]) ∧
    ∀ (id : BitVec 32) (e : BitVec 3) (T : BitVec 1) (k : Nat) (w : Msg × Nat), k = recvKey e.toNat T.toNat →
      s.port.requests.find id.toNat = some (.spill e.toNat T.toNat) → ((s.receiver k).waitingHost.find? fun q => q.2 == id.toNat) = some w →
      ∃ t, exec (.spillDeadline id) s = .next t ∧ (t.receiver k).paused = true
end

