-- ==== Sys2Proof/Laws/State.lean ====
section
/-!
SUPPORT. Sys2Proof/Laws/State.lean: one lemma per field and named update of State and Group, each by rfl, so that no
proof unfolds a record update.
-/

namespace Sys2Proof.Machine

/-! ## State.putGroup -/

@[simp] theorem State.putGroup_agenda (s : State) (g : Nat) (G : Group) : (s.putGroup g G).agenda = s.agenda := rfl
@[simp] theorem State.putGroup_cur (s : State) (g : Nat) (G : Group) : (s.putGroup g G).cur = s.cur := rfl
@[simp] theorem State.putGroup_ir (s : State) (g : Nat) (G : Group) : (s.putGroup g G).ir = s.ir := rfl
@[simp] theorem State.putGroup_lateLoads (s : State) (g : Nat) (G : Group) : (s.putGroup g G).lateLoads = s.lateLoads := rfl
@[simp] theorem State.putGroup_fresh (s : State) (g : Nat) (G : Group) : (s.putGroup g G).fresh = s.fresh := rfl
@[simp] theorem State.putGroup_clock (s : State) (g : Nat) (G : Group) : (s.putGroup g G).clock = s.clock := rfl
@[simp] theorem State.putGroup_lastKey (s : State) (g : Nat) (G : Group) : (s.putGroup g G).lastKey = s.lastKey := rfl
@[simp] theorem State.putGroup_issued (s : State) (g : Nat) (G : Group) : (s.putGroup g G).issued = s.issued := rfl
@[simp] theorem State.putGroup_mem (s : State) (g : Nat) (G : Group) : (s.putGroup g G).mem = s.mem := rfl
@[simp] theorem State.putGroup_hostMem (s : State) (g : Nat) (G : Group) : (s.putGroup g G).hostMem = s.hostMem := rfl
@[simp] theorem State.putGroup_poison (s : State) (g : Nat) (G : Group) : (s.putGroup g G).poison = s.poison := rfl
@[simp] theorem State.putGroup_uncorr (s : State) (g : Nat) (G : Group) : (s.putGroup g G).uncorr = s.uncorr := rfl
@[simp] theorem State.putGroup_bdir (s : State) (g : Nat) (G : Group) : (s.putGroup g G).bdir = s.bdir := rfl
@[simp] theorem State.putGroup_cells (s : State) (g : Nat) (G : Group) : (s.putGroup g G).cells = s.cells := rfl
@[simp] theorem State.putGroup_bars (s : State) (g : Nat) (G : Group) : (s.putGroup g G).bars = s.bars := rfl
@[simp] theorem State.putGroup_seqs (s : State) (g : Nat) (G : Group) : (s.putGroup g G).seqs = s.seqs := rfl
@[simp] theorem State.putGroup_tr (s : State) (g : Nat) (G : Group) : (s.putGroup g G).tr = s.tr := rfl
@[simp] theorem State.putGroup_dispensers (s : State) (g : Nat) (G : Group) : (s.putGroup g G).dispensers = s.dispensers := rfl
@[simp] theorem State.putGroup_receivers (s : State) (g : Nat) (G : Group) : (s.putGroup g G).receivers = s.receivers := rfl
@[simp] theorem State.putGroup_flying (s : State) (g : Nat) (G : Group) : (s.putGroup g G).flying = s.flying := rfl
@[simp] theorem State.putGroup_set0 (s : State) (g : Nat) (G : Group) : (s.putGroup g G).set0 = s.set0 := rfl
@[simp] theorem State.putGroup_set1 (s : State) (g : Nat) (G : Group) : (s.putGroup g G).set1 = s.set1 := rfl
@[simp] theorem State.putGroup_saved (s : State) (g : Nat) (G : Group) : (s.putGroup g G).saved = s.saved := rfl
@[simp] theorem State.putGroup_links (s : State) (g : Nat) (G : Group) : (s.putGroup g G).links = s.links := rfl
@[simp] theorem State.putGroup_colls (s : State) (g : Nat) (G : Group) : (s.putGroup g G).colls = s.colls := rfl
@[simp] theorem State.putGroup_out (s : State) (g : Nat) (G : Group) : (s.putGroup g G).out = s.out := rfl
@[simp] theorem State.putGroup_outAt (s : State) (g : Nat) (G : Group) : (s.putGroup g G).outAt = s.outAt := rfl
@[simp] theorem State.putGroup_port (s : State) (g : Nat) (G : Group) : (s.putGroup g G).port = s.port := rfl
@[simp] theorem State.putGroup_plim (s : State) (g : Nat) (G : Group) : (s.putGroup g G).plim = s.plim := rfl
@[simp] theorem State.putGroup_pnow (s : State) (g : Nat) (G : Group) : (s.putGroup g G).pnow = s.pnow := rfl
@[simp] theorem State.putGroup_reduced (s : State) (g : Nat) (G : Group) : (s.putGroup g G).reduced = s.reduced := rfl
@[simp] theorem State.putGroup_hbmok (s : State) (g : Nat) (G : Group) : (s.putGroup g G).hbmok = s.hbmok := rfl
@[simp] theorem State.putGroup_hbmuse (s : State) (g : Nat) (G : Group) : (s.putGroup g G).hbmuse = s.hbmuse := rfl
@[simp] theorem State.putGroup_pciw (s : State) (g : Nat) (G : Group) : (s.putGroup g G).pciw = s.pciw := rfl
@[simp] theorem State.putGroup_firmware (s : State) (g : Nat) (G : Group) : (s.putGroup g G).firmware = s.firmware := rfl
@[simp] theorem State.putGroup_tripped (s : State) (g : Nat) (G : Group) : (s.putGroup g G).tripped = s.tripped := rfl
@[simp] theorem State.putGroup_off (s : State) (g : Nat) (G : Group) : (s.putGroup g G).off = s.off := rfl

/-! ## State.putOwn -/

@[simp] theorem State.putOwn_agenda (s : State) (G : Group) : (s.putOwn G).agenda = s.agenda := rfl
@[simp] theorem State.putOwn_cur (s : State) (G : Group) : (s.putOwn G).cur = s.cur := rfl
@[simp] theorem State.putOwn_ir (s : State) (G : Group) : (s.putOwn G).ir = s.ir := rfl
@[simp] theorem State.putOwn_lateLoads (s : State) (G : Group) : (s.putOwn G).lateLoads = s.lateLoads := rfl
@[simp] theorem State.putOwn_fresh (s : State) (G : Group) : (s.putOwn G).fresh = s.fresh := rfl
@[simp] theorem State.putOwn_clock (s : State) (G : Group) : (s.putOwn G).clock = s.clock := rfl
@[simp] theorem State.putOwn_lastKey (s : State) (G : Group) : (s.putOwn G).lastKey = s.lastKey := rfl
@[simp] theorem State.putOwn_issued (s : State) (G : Group) : (s.putOwn G).issued = s.issued := rfl
@[simp] theorem State.putOwn_mem (s : State) (G : Group) : (s.putOwn G).mem = s.mem := rfl
@[simp] theorem State.putOwn_hostMem (s : State) (G : Group) : (s.putOwn G).hostMem = s.hostMem := rfl
@[simp] theorem State.putOwn_poison (s : State) (G : Group) : (s.putOwn G).poison = s.poison := rfl
@[simp] theorem State.putOwn_uncorr (s : State) (G : Group) : (s.putOwn G).uncorr = s.uncorr := rfl
@[simp] theorem State.putOwn_bdir (s : State) (G : Group) : (s.putOwn G).bdir = s.bdir := rfl
@[simp] theorem State.putOwn_cells (s : State) (G : Group) : (s.putOwn G).cells = s.cells := rfl
@[simp] theorem State.putOwn_bars (s : State) (G : Group) : (s.putOwn G).bars = s.bars := rfl
@[simp] theorem State.putOwn_seqs (s : State) (G : Group) : (s.putOwn G).seqs = s.seqs := rfl
@[simp] theorem State.putOwn_tr (s : State) (G : Group) : (s.putOwn G).tr = s.tr := rfl
@[simp] theorem State.putOwn_dispensers (s : State) (G : Group) : (s.putOwn G).dispensers = s.dispensers := rfl
@[simp] theorem State.putOwn_receivers (s : State) (G : Group) : (s.putOwn G).receivers = s.receivers := rfl
@[simp] theorem State.putOwn_flying (s : State) (G : Group) : (s.putOwn G).flying = s.flying := rfl
@[simp] theorem State.putOwn_set0 (s : State) (G : Group) : (s.putOwn G).set0 = s.set0 := rfl
@[simp] theorem State.putOwn_set1 (s : State) (G : Group) : (s.putOwn G).set1 = s.set1 := rfl
@[simp] theorem State.putOwn_saved (s : State) (G : Group) : (s.putOwn G).saved = s.saved := rfl
@[simp] theorem State.putOwn_links (s : State) (G : Group) : (s.putOwn G).links = s.links := rfl
@[simp] theorem State.putOwn_colls (s : State) (G : Group) : (s.putOwn G).colls = s.colls := rfl
@[simp] theorem State.putOwn_out (s : State) (G : Group) : (s.putOwn G).out = s.out := rfl
@[simp] theorem State.putOwn_outAt (s : State) (G : Group) : (s.putOwn G).outAt = s.outAt := rfl
@[simp] theorem State.putOwn_port (s : State) (G : Group) : (s.putOwn G).port = s.port := rfl
@[simp] theorem State.putOwn_plim (s : State) (G : Group) : (s.putOwn G).plim = s.plim := rfl
@[simp] theorem State.putOwn_pnow (s : State) (G : Group) : (s.putOwn G).pnow = s.pnow := rfl
@[simp] theorem State.putOwn_reduced (s : State) (G : Group) : (s.putOwn G).reduced = s.reduced := rfl
@[simp] theorem State.putOwn_hbmok (s : State) (G : Group) : (s.putOwn G).hbmok = s.hbmok := rfl
@[simp] theorem State.putOwn_hbmuse (s : State) (G : Group) : (s.putOwn G).hbmuse = s.hbmuse := rfl
@[simp] theorem State.putOwn_pciw (s : State) (G : Group) : (s.putOwn G).pciw = s.pciw := rfl
@[simp] theorem State.putOwn_firmware (s : State) (G : Group) : (s.putOwn G).firmware = s.firmware := rfl
@[simp] theorem State.putOwn_tripped (s : State) (G : Group) : (s.putOwn G).tripped = s.tripped := rfl
@[simp] theorem State.putOwn_off (s : State) (G : Group) : (s.putOwn G).off = s.off := rfl

/-! ## State.putCell -/

@[simp] theorem State.putCell_agenda (s : State) (c : Nat) (C : CellState) : (s.putCell c C).agenda = s.agenda := rfl
@[simp] theorem State.putCell_cur (s : State) (c : Nat) (C : CellState) : (s.putCell c C).cur = s.cur := rfl
@[simp] theorem State.putCell_ir (s : State) (c : Nat) (C : CellState) : (s.putCell c C).ir = s.ir := rfl
@[simp] theorem State.putCell_lateLoads (s : State) (c : Nat) (C : CellState) : (s.putCell c C).lateLoads = s.lateLoads := rfl
@[simp] theorem State.putCell_fresh (s : State) (c : Nat) (C : CellState) : (s.putCell c C).fresh = s.fresh := rfl
@[simp] theorem State.putCell_clock (s : State) (c : Nat) (C : CellState) : (s.putCell c C).clock = s.clock := rfl
@[simp] theorem State.putCell_lastKey (s : State) (c : Nat) (C : CellState) : (s.putCell c C).lastKey = s.lastKey := rfl
@[simp] theorem State.putCell_issued (s : State) (c : Nat) (C : CellState) : (s.putCell c C).issued = s.issued := rfl
@[simp] theorem State.putCell_mem (s : State) (c : Nat) (C : CellState) : (s.putCell c C).mem = s.mem := rfl
@[simp] theorem State.putCell_hostMem (s : State) (c : Nat) (C : CellState) : (s.putCell c C).hostMem = s.hostMem := rfl
@[simp] theorem State.putCell_poison (s : State) (c : Nat) (C : CellState) : (s.putCell c C).poison = s.poison := rfl
@[simp] theorem State.putCell_uncorr (s : State) (c : Nat) (C : CellState) : (s.putCell c C).uncorr = s.uncorr := rfl
@[simp] theorem State.putCell_bdir (s : State) (c : Nat) (C : CellState) : (s.putCell c C).bdir = s.bdir := rfl
@[simp] theorem State.putCell_groups (s : State) (c : Nat) (C : CellState) : (s.putCell c C).groups = s.groups := rfl
@[simp] theorem State.putCell_bars (s : State) (c : Nat) (C : CellState) : (s.putCell c C).bars = s.bars := rfl
@[simp] theorem State.putCell_seqs (s : State) (c : Nat) (C : CellState) : (s.putCell c C).seqs = s.seqs := rfl
@[simp] theorem State.putCell_tr (s : State) (c : Nat) (C : CellState) : (s.putCell c C).tr = s.tr := rfl
@[simp] theorem State.putCell_dispensers (s : State) (c : Nat) (C : CellState) : (s.putCell c C).dispensers = s.dispensers := rfl
@[simp] theorem State.putCell_receivers (s : State) (c : Nat) (C : CellState) : (s.putCell c C).receivers = s.receivers := rfl
@[simp] theorem State.putCell_flying (s : State) (c : Nat) (C : CellState) : (s.putCell c C).flying = s.flying := rfl
@[simp] theorem State.putCell_set0 (s : State) (c : Nat) (C : CellState) : (s.putCell c C).set0 = s.set0 := rfl
@[simp] theorem State.putCell_set1 (s : State) (c : Nat) (C : CellState) : (s.putCell c C).set1 = s.set1 := rfl
@[simp] theorem State.putCell_saved (s : State) (c : Nat) (C : CellState) : (s.putCell c C).saved = s.saved := rfl
@[simp] theorem State.putCell_links (s : State) (c : Nat) (C : CellState) : (s.putCell c C).links = s.links := rfl
@[simp] theorem State.putCell_colls (s : State) (c : Nat) (C : CellState) : (s.putCell c C).colls = s.colls := rfl
@[simp] theorem State.putCell_out (s : State) (c : Nat) (C : CellState) : (s.putCell c C).out = s.out := rfl
@[simp] theorem State.putCell_outAt (s : State) (c : Nat) (C : CellState) : (s.putCell c C).outAt = s.outAt := rfl
@[simp] theorem State.putCell_port (s : State) (c : Nat) (C : CellState) : (s.putCell c C).port = s.port := rfl
@[simp] theorem State.putCell_plim (s : State) (c : Nat) (C : CellState) : (s.putCell c C).plim = s.plim := rfl
@[simp] theorem State.putCell_pnow (s : State) (c : Nat) (C : CellState) : (s.putCell c C).pnow = s.pnow := rfl
@[simp] theorem State.putCell_reduced (s : State) (c : Nat) (C : CellState) : (s.putCell c C).reduced = s.reduced := rfl
@[simp] theorem State.putCell_hbmok (s : State) (c : Nat) (C : CellState) : (s.putCell c C).hbmok = s.hbmok := rfl
@[simp] theorem State.putCell_hbmuse (s : State) (c : Nat) (C : CellState) : (s.putCell c C).hbmuse = s.hbmuse := rfl
@[simp] theorem State.putCell_pciw (s : State) (c : Nat) (C : CellState) : (s.putCell c C).pciw = s.pciw := rfl
@[simp] theorem State.putCell_firmware (s : State) (c : Nat) (C : CellState) : (s.putCell c C).firmware = s.firmware := rfl
@[simp] theorem State.putCell_tripped (s : State) (c : Nat) (C : CellState) : (s.putCell c C).tripped = s.tripped := rfl
@[simp] theorem State.putCell_off (s : State) (c : Nat) (C : CellState) : (s.putCell c C).off = s.off := rfl

/-! ## State.post -/

@[simp] theorem State.post_agenda (s : State) (e : RingEntry) : (s.post e).agenda = s.agenda := rfl
@[simp] theorem State.post_cur (s : State) (e : RingEntry) : (s.post e).cur = s.cur := rfl
@[simp] theorem State.post_ir (s : State) (e : RingEntry) : (s.post e).ir = s.ir := rfl
@[simp] theorem State.post_lateLoads (s : State) (e : RingEntry) : (s.post e).lateLoads = s.lateLoads := rfl
@[simp] theorem State.post_fresh (s : State) (e : RingEntry) : (s.post e).fresh = s.fresh := rfl
@[simp] theorem State.post_clock (s : State) (e : RingEntry) : (s.post e).clock = s.clock := rfl
@[simp] theorem State.post_lastKey (s : State) (e : RingEntry) : (s.post e).lastKey = s.lastKey := rfl
@[simp] theorem State.post_issued (s : State) (e : RingEntry) : (s.post e).issued = s.issued := rfl
@[simp] theorem State.post_mem (s : State) (e : RingEntry) : (s.post e).mem = s.mem := rfl
@[simp] theorem State.post_hostMem (s : State) (e : RingEntry) : (s.post e).hostMem = s.hostMem := rfl
@[simp] theorem State.post_poison (s : State) (e : RingEntry) : (s.post e).poison = s.poison := rfl
@[simp] theorem State.post_uncorr (s : State) (e : RingEntry) : (s.post e).uncorr = s.uncorr := rfl
@[simp] theorem State.post_bdir (s : State) (e : RingEntry) : (s.post e).bdir = s.bdir := rfl
@[simp] theorem State.post_groups (s : State) (e : RingEntry) : (s.post e).groups = s.groups := rfl
@[simp] theorem State.post_cells (s : State) (e : RingEntry) : (s.post e).cells = s.cells := rfl
@[simp] theorem State.post_bars (s : State) (e : RingEntry) : (s.post e).bars = s.bars := rfl
@[simp] theorem State.post_seqs (s : State) (e : RingEntry) : (s.post e).seqs = s.seqs := rfl
@[simp] theorem State.post_tr (s : State) (e : RingEntry) : (s.post e).tr = s.tr := rfl
@[simp] theorem State.post_dispensers (s : State) (e : RingEntry) : (s.post e).dispensers = s.dispensers := rfl
@[simp] theorem State.post_receivers (s : State) (e : RingEntry) : (s.post e).receivers = s.receivers := rfl
@[simp] theorem State.post_flying (s : State) (e : RingEntry) : (s.post e).flying = s.flying := rfl
@[simp] theorem State.post_set0 (s : State) (e : RingEntry) : (s.post e).set0 = s.set0 := rfl
@[simp] theorem State.post_set1 (s : State) (e : RingEntry) : (s.post e).set1 = s.set1 := rfl
@[simp] theorem State.post_saved (s : State) (e : RingEntry) : (s.post e).saved = s.saved := rfl
@[simp] theorem State.post_links (s : State) (e : RingEntry) : (s.post e).links = s.links := rfl
@[simp] theorem State.post_colls (s : State) (e : RingEntry) : (s.post e).colls = s.colls := rfl
@[simp] theorem State.post_out (s : State) (e : RingEntry) : (s.post e).out = s.out := rfl
@[simp] theorem State.post_outAt (s : State) (e : RingEntry) : (s.post e).outAt = s.outAt := rfl
@[simp] theorem State.post_plim (s : State) (e : RingEntry) : (s.post e).plim = s.plim := rfl
@[simp] theorem State.post_pnow (s : State) (e : RingEntry) : (s.post e).pnow = s.pnow := rfl
@[simp] theorem State.post_reduced (s : State) (e : RingEntry) : (s.post e).reduced = s.reduced := rfl
@[simp] theorem State.post_hbmok (s : State) (e : RingEntry) : (s.post e).hbmok = s.hbmok := rfl
@[simp] theorem State.post_hbmuse (s : State) (e : RingEntry) : (s.post e).hbmuse = s.hbmuse := rfl
@[simp] theorem State.post_pciw (s : State) (e : RingEntry) : (s.post e).pciw = s.pciw := rfl
@[simp] theorem State.post_firmware (s : State) (e : RingEntry) : (s.post e).firmware = s.firmware := rfl
@[simp] theorem State.post_tripped (s : State) (e : RingEntry) : (s.post e).tripped = s.tripped := rfl
@[simp] theorem State.post_off (s : State) (e : RingEntry) : (s.post e).off = s.off := rfl

/-! ## State.retire -/

@[simp] theorem State.retire_agenda (s : State) (len : Nat) : (s.retire len).agenda = s.agenda := rfl
@[simp] theorem State.retire_cur (s : State) (len : Nat) : (s.retire len).cur = s.cur := rfl
@[simp] theorem State.retire_ir (s : State) (len : Nat) : (s.retire len).ir = s.ir := rfl
@[simp] theorem State.retire_lateLoads (s : State) (len : Nat) : (s.retire len).lateLoads = s.lateLoads := rfl
@[simp] theorem State.retire_fresh (s : State) (len : Nat) : (s.retire len).fresh = s.fresh := rfl
@[simp] theorem State.retire_clock (s : State) (len : Nat) : (s.retire len).clock = s.clock := rfl
@[simp] theorem State.retire_lastKey (s : State) (len : Nat) : (s.retire len).lastKey = s.lastKey := rfl
@[simp] theorem State.retire_issued (s : State) (len : Nat) : (s.retire len).issued = s.issued := rfl
@[simp] theorem State.retire_mem (s : State) (len : Nat) : (s.retire len).mem = s.mem := rfl
@[simp] theorem State.retire_hostMem (s : State) (len : Nat) : (s.retire len).hostMem = s.hostMem := rfl
@[simp] theorem State.retire_poison (s : State) (len : Nat) : (s.retire len).poison = s.poison := rfl
@[simp] theorem State.retire_uncorr (s : State) (len : Nat) : (s.retire len).uncorr = s.uncorr := rfl
@[simp] theorem State.retire_bdir (s : State) (len : Nat) : (s.retire len).bdir = s.bdir := rfl
@[simp] theorem State.retire_cells (s : State) (len : Nat) : (s.retire len).cells = s.cells := rfl
@[simp] theorem State.retire_bars (s : State) (len : Nat) : (s.retire len).bars = s.bars := rfl
@[simp] theorem State.retire_seqs (s : State) (len : Nat) : (s.retire len).seqs = s.seqs := rfl
@[simp] theorem State.retire_tr (s : State) (len : Nat) : (s.retire len).tr = s.tr := rfl
@[simp] theorem State.retire_dispensers (s : State) (len : Nat) : (s.retire len).dispensers = s.dispensers := rfl
@[simp] theorem State.retire_receivers (s : State) (len : Nat) : (s.retire len).receivers = s.receivers := rfl
@[simp] theorem State.retire_flying (s : State) (len : Nat) : (s.retire len).flying = s.flying := rfl
@[simp] theorem State.retire_set0 (s : State) (len : Nat) : (s.retire len).set0 = s.set0 := rfl
@[simp] theorem State.retire_set1 (s : State) (len : Nat) : (s.retire len).set1 = s.set1 := rfl
@[simp] theorem State.retire_saved (s : State) (len : Nat) : (s.retire len).saved = s.saved := rfl
@[simp] theorem State.retire_links (s : State) (len : Nat) : (s.retire len).links = s.links := rfl
@[simp] theorem State.retire_colls (s : State) (len : Nat) : (s.retire len).colls = s.colls := rfl
@[simp] theorem State.retire_out (s : State) (len : Nat) : (s.retire len).out = s.out := rfl
@[simp] theorem State.retire_outAt (s : State) (len : Nat) : (s.retire len).outAt = s.outAt := rfl
@[simp] theorem State.retire_port (s : State) (len : Nat) : (s.retire len).port = s.port := rfl
@[simp] theorem State.retire_plim (s : State) (len : Nat) : (s.retire len).plim = s.plim := rfl
@[simp] theorem State.retire_pnow (s : State) (len : Nat) : (s.retire len).pnow = s.pnow := rfl
@[simp] theorem State.retire_reduced (s : State) (len : Nat) : (s.retire len).reduced = s.reduced := rfl
@[simp] theorem State.retire_hbmok (s : State) (len : Nat) : (s.retire len).hbmok = s.hbmok := rfl
@[simp] theorem State.retire_hbmuse (s : State) (len : Nat) : (s.retire len).hbmuse = s.hbmuse := rfl
@[simp] theorem State.retire_pciw (s : State) (len : Nat) : (s.retire len).pciw = s.pciw := rfl
@[simp] theorem State.retire_firmware (s : State) (len : Nat) : (s.retire len).firmware = s.firmware := rfl
@[simp] theorem State.retire_tripped (s : State) (len : Nat) : (s.retire len).tripped = s.tripped := rfl
@[simp] theorem State.retire_off (s : State) (len : Nat) : (s.retire len).off = s.off := rfl

/-! ## State.retireTo -/

@[simp] theorem State.retireTo_agenda (s : State) (w : Word) : (s.retireTo w).agenda = s.agenda := rfl
@[simp] theorem State.retireTo_cur (s : State) (w : Word) : (s.retireTo w).cur = s.cur := rfl
@[simp] theorem State.retireTo_ir (s : State) (w : Word) : (s.retireTo w).ir = s.ir := rfl
@[simp] theorem State.retireTo_lateLoads (s : State) (w : Word) : (s.retireTo w).lateLoads = s.lateLoads := rfl
@[simp] theorem State.retireTo_fresh (s : State) (w : Word) : (s.retireTo w).fresh = s.fresh := rfl
@[simp] theorem State.retireTo_clock (s : State) (w : Word) : (s.retireTo w).clock = s.clock := rfl
@[simp] theorem State.retireTo_lastKey (s : State) (w : Word) : (s.retireTo w).lastKey = s.lastKey := rfl
@[simp] theorem State.retireTo_issued (s : State) (w : Word) : (s.retireTo w).issued = s.issued := rfl
@[simp] theorem State.retireTo_mem (s : State) (w : Word) : (s.retireTo w).mem = s.mem := rfl
@[simp] theorem State.retireTo_hostMem (s : State) (w : Word) : (s.retireTo w).hostMem = s.hostMem := rfl
@[simp] theorem State.retireTo_poison (s : State) (w : Word) : (s.retireTo w).poison = s.poison := rfl
@[simp] theorem State.retireTo_uncorr (s : State) (w : Word) : (s.retireTo w).uncorr = s.uncorr := rfl
@[simp] theorem State.retireTo_bdir (s : State) (w : Word) : (s.retireTo w).bdir = s.bdir := rfl
@[simp] theorem State.retireTo_cells (s : State) (w : Word) : (s.retireTo w).cells = s.cells := rfl
@[simp] theorem State.retireTo_bars (s : State) (w : Word) : (s.retireTo w).bars = s.bars := rfl
@[simp] theorem State.retireTo_seqs (s : State) (w : Word) : (s.retireTo w).seqs = s.seqs := rfl
@[simp] theorem State.retireTo_tr (s : State) (w : Word) : (s.retireTo w).tr = s.tr := rfl
@[simp] theorem State.retireTo_dispensers (s : State) (w : Word) : (s.retireTo w).dispensers = s.dispensers := rfl
@[simp] theorem State.retireTo_receivers (s : State) (w : Word) : (s.retireTo w).receivers = s.receivers := rfl
@[simp] theorem State.retireTo_flying (s : State) (w : Word) : (s.retireTo w).flying = s.flying := rfl
@[simp] theorem State.retireTo_set0 (s : State) (w : Word) : (s.retireTo w).set0 = s.set0 := rfl
@[simp] theorem State.retireTo_set1 (s : State) (w : Word) : (s.retireTo w).set1 = s.set1 := rfl
@[simp] theorem State.retireTo_saved (s : State) (w : Word) : (s.retireTo w).saved = s.saved := rfl
@[simp] theorem State.retireTo_links (s : State) (w : Word) : (s.retireTo w).links = s.links := rfl
@[simp] theorem State.retireTo_colls (s : State) (w : Word) : (s.retireTo w).colls = s.colls := rfl
@[simp] theorem State.retireTo_out (s : State) (w : Word) : (s.retireTo w).out = s.out := rfl
@[simp] theorem State.retireTo_outAt (s : State) (w : Word) : (s.retireTo w).outAt = s.outAt := rfl
@[simp] theorem State.retireTo_port (s : State) (w : Word) : (s.retireTo w).port = s.port := rfl
@[simp] theorem State.retireTo_plim (s : State) (w : Word) : (s.retireTo w).plim = s.plim := rfl
@[simp] theorem State.retireTo_pnow (s : State) (w : Word) : (s.retireTo w).pnow = s.pnow := rfl
@[simp] theorem State.retireTo_reduced (s : State) (w : Word) : (s.retireTo w).reduced = s.reduced := rfl
@[simp] theorem State.retireTo_hbmok (s : State) (w : Word) : (s.retireTo w).hbmok = s.hbmok := rfl
@[simp] theorem State.retireTo_hbmuse (s : State) (w : Word) : (s.retireTo w).hbmuse = s.hbmuse := rfl
@[simp] theorem State.retireTo_pciw (s : State) (w : Word) : (s.retireTo w).pciw = s.pciw := rfl
@[simp] theorem State.retireTo_firmware (s : State) (w : Word) : (s.retireTo w).firmware = s.firmware := rfl
@[simp] theorem State.retireTo_tripped (s : State) (w : Word) : (s.retireTo w).tripped = s.tripped := rfl
@[simp] theorem State.retireTo_off (s : State) (w : Word) : (s.retireTo w).off = s.off := rfl

/-! ## State.close -/

@[simp] theorem State.close_agenda (s : State) : (s.close).agenda = s.agenda := rfl
@[simp] theorem State.close_cur (s : State) : (s.close).cur = s.cur := rfl
@[simp] theorem State.close_ir (s : State) : (s.close).ir = s.ir := rfl
@[simp] theorem State.close_lateLoads (s : State) : (s.close).lateLoads = s.lateLoads := rfl
@[simp] theorem State.close_fresh (s : State) : (s.close).fresh = s.fresh := rfl
@[simp] theorem State.close_clock (s : State) : (s.close).clock = s.clock := rfl
@[simp] theorem State.close_lastKey (s : State) : (s.close).lastKey = s.lastKey := rfl
@[simp] theorem State.close_issued (s : State) : (s.close).issued = s.issued := rfl
@[simp] theorem State.close_mem (s : State) : (s.close).mem = s.mem := rfl
@[simp] theorem State.close_hostMem (s : State) : (s.close).hostMem = s.hostMem := rfl
@[simp] theorem State.close_poison (s : State) : (s.close).poison = s.poison := rfl
@[simp] theorem State.close_uncorr (s : State) : (s.close).uncorr = s.uncorr := rfl
@[simp] theorem State.close_bdir (s : State) : (s.close).bdir = s.bdir := rfl
@[simp] theorem State.close_cells (s : State) : (s.close).cells = s.cells := rfl
@[simp] theorem State.close_bars (s : State) : (s.close).bars = s.bars := rfl
@[simp] theorem State.close_seqs (s : State) : (s.close).seqs = s.seqs := rfl
@[simp] theorem State.close_tr (s : State) : (s.close).tr = s.tr := rfl
@[simp] theorem State.close_dispensers (s : State) : (s.close).dispensers = s.dispensers := rfl
@[simp] theorem State.close_receivers (s : State) : (s.close).receivers = s.receivers := rfl
@[simp] theorem State.close_flying (s : State) : (s.close).flying = s.flying := rfl
@[simp] theorem State.close_set0 (s : State) : (s.close).set0 = s.set0 := rfl
@[simp] theorem State.close_set1 (s : State) : (s.close).set1 = s.set1 := rfl
@[simp] theorem State.close_saved (s : State) : (s.close).saved = s.saved := rfl
@[simp] theorem State.close_links (s : State) : (s.close).links = s.links := rfl
@[simp] theorem State.close_colls (s : State) : (s.close).colls = s.colls := rfl
@[simp] theorem State.close_out (s : State) : (s.close).out = s.out := rfl
@[simp] theorem State.close_outAt (s : State) : (s.close).outAt = s.outAt := rfl
@[simp] theorem State.close_port (s : State) : (s.close).port = s.port := rfl
@[simp] theorem State.close_plim (s : State) : (s.close).plim = s.plim := rfl
@[simp] theorem State.close_pnow (s : State) : (s.close).pnow = s.pnow := rfl
@[simp] theorem State.close_reduced (s : State) : (s.close).reduced = s.reduced := rfl
@[simp] theorem State.close_hbmok (s : State) : (s.close).hbmok = s.hbmok := rfl
@[simp] theorem State.close_hbmuse (s : State) : (s.close).hbmuse = s.hbmuse := rfl
@[simp] theorem State.close_pciw (s : State) : (s.close).pciw = s.pciw := rfl
@[simp] theorem State.close_firmware (s : State) : (s.close).firmware = s.firmware := rfl
@[simp] theorem State.close_tripped (s : State) : (s.close).tripped = s.tripped := rfl
@[simp] theorem State.close_off (s : State) : (s.close).off = s.off := rfl

/-! ## State.setX -/

@[simp] theorem State.setX_agenda (s : State) (r : Reg) (w : Word) : (s.setX r w).agenda = s.agenda := rfl
@[simp] theorem State.setX_cur (s : State) (r : Reg) (w : Word) : (s.setX r w).cur = s.cur := rfl
@[simp] theorem State.setX_ir (s : State) (r : Reg) (w : Word) : (s.setX r w).ir = s.ir := rfl
@[simp] theorem State.setX_lateLoads (s : State) (r : Reg) (w : Word) : (s.setX r w).lateLoads = s.lateLoads := rfl
@[simp] theorem State.setX_fresh (s : State) (r : Reg) (w : Word) : (s.setX r w).fresh = s.fresh := rfl
@[simp] theorem State.setX_clock (s : State) (r : Reg) (w : Word) : (s.setX r w).clock = s.clock := rfl
@[simp] theorem State.setX_lastKey (s : State) (r : Reg) (w : Word) : (s.setX r w).lastKey = s.lastKey := rfl
@[simp] theorem State.setX_issued (s : State) (r : Reg) (w : Word) : (s.setX r w).issued = s.issued := rfl
@[simp] theorem State.setX_mem (s : State) (r : Reg) (w : Word) : (s.setX r w).mem = s.mem := rfl
@[simp] theorem State.setX_hostMem (s : State) (r : Reg) (w : Word) : (s.setX r w).hostMem = s.hostMem := rfl
@[simp] theorem State.setX_poison (s : State) (r : Reg) (w : Word) : (s.setX r w).poison = s.poison := rfl
@[simp] theorem State.setX_uncorr (s : State) (r : Reg) (w : Word) : (s.setX r w).uncorr = s.uncorr := rfl
@[simp] theorem State.setX_bdir (s : State) (r : Reg) (w : Word) : (s.setX r w).bdir = s.bdir := rfl
@[simp] theorem State.setX_cells (s : State) (r : Reg) (w : Word) : (s.setX r w).cells = s.cells := rfl
@[simp] theorem State.setX_bars (s : State) (r : Reg) (w : Word) : (s.setX r w).bars = s.bars := rfl
@[simp] theorem State.setX_seqs (s : State) (r : Reg) (w : Word) : (s.setX r w).seqs = s.seqs := rfl
@[simp] theorem State.setX_tr (s : State) (r : Reg) (w : Word) : (s.setX r w).tr = s.tr := rfl
@[simp] theorem State.setX_dispensers (s : State) (r : Reg) (w : Word) : (s.setX r w).dispensers = s.dispensers := rfl
@[simp] theorem State.setX_receivers (s : State) (r : Reg) (w : Word) : (s.setX r w).receivers = s.receivers := rfl
@[simp] theorem State.setX_flying (s : State) (r : Reg) (w : Word) : (s.setX r w).flying = s.flying := rfl
@[simp] theorem State.setX_set0 (s : State) (r : Reg) (w : Word) : (s.setX r w).set0 = s.set0 := rfl
@[simp] theorem State.setX_set1 (s : State) (r : Reg) (w : Word) : (s.setX r w).set1 = s.set1 := rfl
@[simp] theorem State.setX_saved (s : State) (r : Reg) (w : Word) : (s.setX r w).saved = s.saved := rfl
@[simp] theorem State.setX_links (s : State) (r : Reg) (w : Word) : (s.setX r w).links = s.links := rfl
@[simp] theorem State.setX_colls (s : State) (r : Reg) (w : Word) : (s.setX r w).colls = s.colls := rfl
@[simp] theorem State.setX_out (s : State) (r : Reg) (w : Word) : (s.setX r w).out = s.out := rfl
@[simp] theorem State.setX_outAt (s : State) (r : Reg) (w : Word) : (s.setX r w).outAt = s.outAt := rfl
@[simp] theorem State.setX_port (s : State) (r : Reg) (w : Word) : (s.setX r w).port = s.port := rfl
@[simp] theorem State.setX_plim (s : State) (r : Reg) (w : Word) : (s.setX r w).plim = s.plim := rfl
@[simp] theorem State.setX_pnow (s : State) (r : Reg) (w : Word) : (s.setX r w).pnow = s.pnow := rfl
@[simp] theorem State.setX_reduced (s : State) (r : Reg) (w : Word) : (s.setX r w).reduced = s.reduced := rfl
@[simp] theorem State.setX_hbmok (s : State) (r : Reg) (w : Word) : (s.setX r w).hbmok = s.hbmok := rfl
@[simp] theorem State.setX_hbmuse (s : State) (r : Reg) (w : Word) : (s.setX r w).hbmuse = s.hbmuse := rfl
@[simp] theorem State.setX_pciw (s : State) (r : Reg) (w : Word) : (s.setX r w).pciw = s.pciw := rfl
@[simp] theorem State.setX_firmware (s : State) (r : Reg) (w : Word) : (s.setX r w).firmware = s.firmware := rfl
@[simp] theorem State.setX_tripped (s : State) (r : Reg) (w : Word) : (s.setX r w).tripped = s.tripped := rfl
@[simp] theorem State.setX_off (s : State) (r : Reg) (w : Word) : (s.setX r w).off = s.off := rfl

/-! ## State.done -/

@[simp] theorem State.done_agenda (s : State) (d : Reg) (w : Word) (len : Nat) : (s.done d w len).agenda = s.agenda := rfl
@[simp] theorem State.done_cur (s : State) (d : Reg) (w : Word) (len : Nat) : (s.done d w len).cur = s.cur := rfl
@[simp] theorem State.done_ir (s : State) (d : Reg) (w : Word) (len : Nat) : (s.done d w len).ir = s.ir := rfl
@[simp] theorem State.done_lateLoads (s : State) (d : Reg) (w : Word) (len : Nat) : (s.done d w len).lateLoads = s.lateLoads := rfl
@[simp] theorem State.done_fresh (s : State) (d : Reg) (w : Word) (len : Nat) : (s.done d w len).fresh = s.fresh := rfl
@[simp] theorem State.done_clock (s : State) (d : Reg) (w : Word) (len : Nat) : (s.done d w len).clock = s.clock := rfl
@[simp] theorem State.done_lastKey (s : State) (d : Reg) (w : Word) (len : Nat) : (s.done d w len).lastKey = s.lastKey := rfl
@[simp] theorem State.done_issued (s : State) (d : Reg) (w : Word) (len : Nat) : (s.done d w len).issued = s.issued := rfl
@[simp] theorem State.done_mem (s : State) (d : Reg) (w : Word) (len : Nat) : (s.done d w len).mem = s.mem := rfl
@[simp] theorem State.done_hostMem (s : State) (d : Reg) (w : Word) (len : Nat) : (s.done d w len).hostMem = s.hostMem := rfl
@[simp] theorem State.done_poison (s : State) (d : Reg) (w : Word) (len : Nat) : (s.done d w len).poison = s.poison := rfl
@[simp] theorem State.done_uncorr (s : State) (d : Reg) (w : Word) (len : Nat) : (s.done d w len).uncorr = s.uncorr := rfl
@[simp] theorem State.done_bdir (s : State) (d : Reg) (w : Word) (len : Nat) : (s.done d w len).bdir = s.bdir := rfl
@[simp] theorem State.done_cells (s : State) (d : Reg) (w : Word) (len : Nat) : (s.done d w len).cells = s.cells := rfl
@[simp] theorem State.done_bars (s : State) (d : Reg) (w : Word) (len : Nat) : (s.done d w len).bars = s.bars := rfl
@[simp] theorem State.done_seqs (s : State) (d : Reg) (w : Word) (len : Nat) : (s.done d w len).seqs = s.seqs := rfl
@[simp] theorem State.done_tr (s : State) (d : Reg) (w : Word) (len : Nat) : (s.done d w len).tr = s.tr := rfl
@[simp] theorem State.done_dispensers (s : State) (d : Reg) (w : Word) (len : Nat) : (s.done d w len).dispensers = s.dispensers := rfl
@[simp] theorem State.done_receivers (s : State) (d : Reg) (w : Word) (len : Nat) : (s.done d w len).receivers = s.receivers := rfl
@[simp] theorem State.done_flying (s : State) (d : Reg) (w : Word) (len : Nat) : (s.done d w len).flying = s.flying := rfl
@[simp] theorem State.done_set0 (s : State) (d : Reg) (w : Word) (len : Nat) : (s.done d w len).set0 = s.set0 := rfl
@[simp] theorem State.done_set1 (s : State) (d : Reg) (w : Word) (len : Nat) : (s.done d w len).set1 = s.set1 := rfl
@[simp] theorem State.done_saved (s : State) (d : Reg) (w : Word) (len : Nat) : (s.done d w len).saved = s.saved := rfl
@[simp] theorem State.done_links (s : State) (d : Reg) (w : Word) (len : Nat) : (s.done d w len).links = s.links := rfl
@[simp] theorem State.done_colls (s : State) (d : Reg) (w : Word) (len : Nat) : (s.done d w len).colls = s.colls := rfl
@[simp] theorem State.done_out (s : State) (d : Reg) (w : Word) (len : Nat) : (s.done d w len).out = s.out := rfl
@[simp] theorem State.done_outAt (s : State) (d : Reg) (w : Word) (len : Nat) : (s.done d w len).outAt = s.outAt := rfl
@[simp] theorem State.done_port (s : State) (d : Reg) (w : Word) (len : Nat) : (s.done d w len).port = s.port := rfl
@[simp] theorem State.done_plim (s : State) (d : Reg) (w : Word) (len : Nat) : (s.done d w len).plim = s.plim := rfl
@[simp] theorem State.done_pnow (s : State) (d : Reg) (w : Word) (len : Nat) : (s.done d w len).pnow = s.pnow := rfl
@[simp] theorem State.done_reduced (s : State) (d : Reg) (w : Word) (len : Nat) : (s.done d w len).reduced = s.reduced := rfl
@[simp] theorem State.done_hbmok (s : State) (d : Reg) (w : Word) (len : Nat) : (s.done d w len).hbmok = s.hbmok := rfl
@[simp] theorem State.done_hbmuse (s : State) (d : Reg) (w : Word) (len : Nat) : (s.done d w len).hbmuse = s.hbmuse := rfl
@[simp] theorem State.done_pciw (s : State) (d : Reg) (w : Word) (len : Nat) : (s.done d w len).pciw = s.pciw := rfl
@[simp] theorem State.done_firmware (s : State) (d : Reg) (w : Word) (len : Nat) : (s.done d w len).firmware = s.firmware := rfl
@[simp] theorem State.done_tripped (s : State) (d : Reg) (w : Word) (len : Nat) : (s.done d w len).tripped = s.tripped := rfl
@[simp] theorem State.done_off (s : State) (d : Reg) (w : Word) (len : Nat) : (s.done d w len).off = s.off := rfl

/-! ## State.wait -/

@[simp] theorem State.wait_agenda (s : State) (w : Wait) : (s.wait w).agenda = s.agenda := rfl
@[simp] theorem State.wait_cur (s : State) (w : Wait) : (s.wait w).cur = s.cur := rfl
@[simp] theorem State.wait_ir (s : State) (w : Wait) : (s.wait w).ir = s.ir := rfl
@[simp] theorem State.wait_lateLoads (s : State) (w : Wait) : (s.wait w).lateLoads = s.lateLoads := rfl
@[simp] theorem State.wait_fresh (s : State) (w : Wait) : (s.wait w).fresh = s.fresh := rfl
@[simp] theorem State.wait_clock (s : State) (w : Wait) : (s.wait w).clock = s.clock := rfl
@[simp] theorem State.wait_lastKey (s : State) (w : Wait) : (s.wait w).lastKey = s.lastKey := rfl
@[simp] theorem State.wait_issued (s : State) (w : Wait) : (s.wait w).issued = s.issued := rfl
@[simp] theorem State.wait_mem (s : State) (w : Wait) : (s.wait w).mem = s.mem := rfl
@[simp] theorem State.wait_hostMem (s : State) (w : Wait) : (s.wait w).hostMem = s.hostMem := rfl
@[simp] theorem State.wait_poison (s : State) (w : Wait) : (s.wait w).poison = s.poison := rfl
@[simp] theorem State.wait_uncorr (s : State) (w : Wait) : (s.wait w).uncorr = s.uncorr := rfl
@[simp] theorem State.wait_bdir (s : State) (w : Wait) : (s.wait w).bdir = s.bdir := rfl
@[simp] theorem State.wait_cells (s : State) (w : Wait) : (s.wait w).cells = s.cells := rfl
@[simp] theorem State.wait_bars (s : State) (w : Wait) : (s.wait w).bars = s.bars := rfl
@[simp] theorem State.wait_seqs (s : State) (w : Wait) : (s.wait w).seqs = s.seqs := rfl
@[simp] theorem State.wait_tr (s : State) (w : Wait) : (s.wait w).tr = s.tr := rfl
@[simp] theorem State.wait_dispensers (s : State) (w : Wait) : (s.wait w).dispensers = s.dispensers := rfl
@[simp] theorem State.wait_receivers (s : State) (w : Wait) : (s.wait w).receivers = s.receivers := rfl
@[simp] theorem State.wait_flying (s : State) (w : Wait) : (s.wait w).flying = s.flying := rfl
@[simp] theorem State.wait_set0 (s : State) (w : Wait) : (s.wait w).set0 = s.set0 := rfl
@[simp] theorem State.wait_set1 (s : State) (w : Wait) : (s.wait w).set1 = s.set1 := rfl
@[simp] theorem State.wait_saved (s : State) (w : Wait) : (s.wait w).saved = s.saved := rfl
@[simp] theorem State.wait_links (s : State) (w : Wait) : (s.wait w).links = s.links := rfl
@[simp] theorem State.wait_colls (s : State) (w : Wait) : (s.wait w).colls = s.colls := rfl
@[simp] theorem State.wait_out (s : State) (w : Wait) : (s.wait w).out = s.out := rfl
@[simp] theorem State.wait_outAt (s : State) (w : Wait) : (s.wait w).outAt = s.outAt := rfl
@[simp] theorem State.wait_port (s : State) (w : Wait) : (s.wait w).port = s.port := rfl
@[simp] theorem State.wait_plim (s : State) (w : Wait) : (s.wait w).plim = s.plim := rfl
@[simp] theorem State.wait_pnow (s : State) (w : Wait) : (s.wait w).pnow = s.pnow := rfl
@[simp] theorem State.wait_reduced (s : State) (w : Wait) : (s.wait w).reduced = s.reduced := rfl
@[simp] theorem State.wait_hbmok (s : State) (w : Wait) : (s.wait w).hbmok = s.hbmok := rfl
@[simp] theorem State.wait_hbmuse (s : State) (w : Wait) : (s.wait w).hbmuse = s.hbmuse := rfl
@[simp] theorem State.wait_pciw (s : State) (w : Wait) : (s.wait w).pciw = s.pciw := rfl
@[simp] theorem State.wait_firmware (s : State) (w : Wait) : (s.wait w).firmware = s.firmware := rfl
@[simp] theorem State.wait_tripped (s : State) (w : Wait) : (s.wait w).tripped = s.tripped := rfl
@[simp] theorem State.wait_off (s : State) (w : Wait) : (s.wait w).off = s.off := rfl

/-! ## State.putSet -/

@[simp] theorem State.putSet_agenda (s : State) (t : Nat) (S : SlotSet) : (s.putSet t S).agenda = s.agenda := by unfold State.putSet; split <;> rfl
@[simp] theorem State.putSet_cur (s : State) (t : Nat) (S : SlotSet) : (s.putSet t S).cur = s.cur := by unfold State.putSet; split <;> rfl
@[simp] theorem State.putSet_ir (s : State) (t : Nat) (S : SlotSet) : (s.putSet t S).ir = s.ir := by unfold State.putSet; split <;> rfl
@[simp] theorem State.putSet_lateLoads (s : State) (t : Nat) (S : SlotSet) : (s.putSet t S).lateLoads = s.lateLoads := by unfold State.putSet; split <;> rfl
@[simp] theorem State.putSet_fresh (s : State) (t : Nat) (S : SlotSet) : (s.putSet t S).fresh = s.fresh := by unfold State.putSet; split <;> rfl
@[simp] theorem State.putSet_clock (s : State) (t : Nat) (S : SlotSet) : (s.putSet t S).clock = s.clock := by unfold State.putSet; split <;> rfl
@[simp] theorem State.putSet_lastKey (s : State) (t : Nat) (S : SlotSet) : (s.putSet t S).lastKey = s.lastKey := by unfold State.putSet; split <;> rfl
@[simp] theorem State.putSet_issued (s : State) (t : Nat) (S : SlotSet) : (s.putSet t S).issued = s.issued := by unfold State.putSet; split <;> rfl
@[simp] theorem State.putSet_mem (s : State) (t : Nat) (S : SlotSet) : (s.putSet t S).mem = s.mem := by unfold State.putSet; split <;> rfl
@[simp] theorem State.putSet_hostMem (s : State) (t : Nat) (S : SlotSet) : (s.putSet t S).hostMem = s.hostMem := by unfold State.putSet; split <;> rfl
@[simp] theorem State.putSet_poison (s : State) (t : Nat) (S : SlotSet) : (s.putSet t S).poison = s.poison := by unfold State.putSet; split <;> rfl
@[simp] theorem State.putSet_uncorr (s : State) (t : Nat) (S : SlotSet) : (s.putSet t S).uncorr = s.uncorr := by unfold State.putSet; split <;> rfl
@[simp] theorem State.putSet_bdir (s : State) (t : Nat) (S : SlotSet) : (s.putSet t S).bdir = s.bdir := by unfold State.putSet; split <;> rfl
@[simp] theorem State.putSet_groups (s : State) (t : Nat) (S : SlotSet) : (s.putSet t S).groups = s.groups := by unfold State.putSet; split <;> rfl
@[simp] theorem State.putSet_cells (s : State) (t : Nat) (S : SlotSet) : (s.putSet t S).cells = s.cells := by unfold State.putSet; split <;> rfl
@[simp] theorem State.putSet_bars (s : State) (t : Nat) (S : SlotSet) : (s.putSet t S).bars = s.bars := by unfold State.putSet; split <;> rfl
@[simp] theorem State.putSet_seqs (s : State) (t : Nat) (S : SlotSet) : (s.putSet t S).seqs = s.seqs := by unfold State.putSet; split <;> rfl
@[simp] theorem State.putSet_tr (s : State) (t : Nat) (S : SlotSet) : (s.putSet t S).tr = s.tr := by unfold State.putSet; split <;> rfl
@[simp] theorem State.putSet_dispensers (s : State) (t : Nat) (S : SlotSet) : (s.putSet t S).dispensers = s.dispensers := by unfold State.putSet; split <;> rfl
@[simp] theorem State.putSet_receivers (s : State) (t : Nat) (S : SlotSet) : (s.putSet t S).receivers = s.receivers := by unfold State.putSet; split <;> rfl
@[simp] theorem State.putSet_flying (s : State) (t : Nat) (S : SlotSet) : (s.putSet t S).flying = s.flying := by unfold State.putSet; split <;> rfl
@[simp] theorem State.putSet_saved (s : State) (t : Nat) (S : SlotSet) : (s.putSet t S).saved = s.saved := by unfold State.putSet; split <;> rfl
@[simp] theorem State.putSet_links (s : State) (t : Nat) (S : SlotSet) : (s.putSet t S).links = s.links := by unfold State.putSet; split <;> rfl
@[simp] theorem State.putSet_colls (s : State) (t : Nat) (S : SlotSet) : (s.putSet t S).colls = s.colls := by unfold State.putSet; split <;> rfl
@[simp] theorem State.putSet_out (s : State) (t : Nat) (S : SlotSet) : (s.putSet t S).out = s.out := by unfold State.putSet; split <;> rfl
@[simp] theorem State.putSet_outAt (s : State) (t : Nat) (S : SlotSet) : (s.putSet t S).outAt = s.outAt := by unfold State.putSet; split <;> rfl
@[simp] theorem State.putSet_port (s : State) (t : Nat) (S : SlotSet) : (s.putSet t S).port = s.port := by unfold State.putSet; split <;> rfl
@[simp] theorem State.putSet_plim (s : State) (t : Nat) (S : SlotSet) : (s.putSet t S).plim = s.plim := by unfold State.putSet; split <;> rfl
@[simp] theorem State.putSet_pnow (s : State) (t : Nat) (S : SlotSet) : (s.putSet t S).pnow = s.pnow := by unfold State.putSet; split <;> rfl
@[simp] theorem State.putSet_reduced (s : State) (t : Nat) (S : SlotSet) : (s.putSet t S).reduced = s.reduced := by unfold State.putSet; split <;> rfl
@[simp] theorem State.putSet_hbmok (s : State) (t : Nat) (S : SlotSet) : (s.putSet t S).hbmok = s.hbmok := by unfold State.putSet; split <;> rfl
@[simp] theorem State.putSet_hbmuse (s : State) (t : Nat) (S : SlotSet) : (s.putSet t S).hbmuse = s.hbmuse := by unfold State.putSet; split <;> rfl
@[simp] theorem State.putSet_pciw (s : State) (t : Nat) (S : SlotSet) : (s.putSet t S).pciw = s.pciw := by unfold State.putSet; split <;> rfl
@[simp] theorem State.putSet_firmware (s : State) (t : Nat) (S : SlotSet) : (s.putSet t S).firmware = s.firmware := by unfold State.putSet; split <;> rfl
@[simp] theorem State.putSet_tripped (s : State) (t : Nat) (S : SlotSet) : (s.putSet t S).tripped = s.tripped := by unfold State.putSet; split <;> rfl
@[simp] theorem State.putSet_off (s : State) (t : Nat) (S : SlotSet) : (s.putSet t S).off = s.off := by unfold State.putSet; split <;> rfl

/-! ## Group.retire -/

@[simp] theorem Group.retire_level (G : Group) (len : Nat) : (G.retire len).level = G.level := rfl
@[simp] theorem Group.retire_x (G : Group) (len : Nat) : (G.retire len).x = G.x := rfl
@[simp] theorem Group.retire_v (G : Group) (len : Nat) : (G.retire len).v = G.v := rfl
@[simp] theorem Group.retire_vtag (G : Group) (len : Nat) : (G.retire len).vtag = G.vtag := rfl
@[simp] theorem Group.retire_m (G : Group) (len : Nat) : (G.retire len).m = G.m := rfl
@[simp] theorem Group.retire_t (G : Group) (len : Nat) : (G.retire len).t = G.t := rfl
@[simp] theorem Group.retire_tdir (G : Group) (len : Nat) : (G.retire len).tdir = G.tdir := rfl
@[simp] theorem Group.retire_a (G : Group) (len : Nat) : (G.retire len).a = G.a := rfl
@[simp] theorem Group.retire_adir (G : Group) (len : Nat) : (G.retire len).adir = G.adir := rfl
@[simp] theorem Group.retire_laneFlags (G : Group) (len : Nat) : (G.retire len).laneFlags = G.laneFlags := rfl
@[simp] theorem Group.retire_ctlFlags (G : Group) (len : Nat) : (G.retire len).ctlFlags = G.ctlFlags := rfl
@[simp] theorem Group.retire_mfl (G : Group) (len : Nat) : (G.retire len).mfl = G.mfl := rfl
@[simp] theorem Group.retire_xfl (G : Group) (len : Nat) : (G.retire len).xfl = G.xfl := rfl
@[simp] theorem Group.retire_xen (G : Group) (len : Nat) : (G.retire len).xen = G.xen := rfl
@[simp] theorem Group.retire_vl (G : Group) (len : Nat) : (G.retire len).vl = G.vl := rfl
@[simp] theorem Group.retire_vcfg (G : Group) (len : Nat) : (G.retire len).vcfg = G.vcfg := rfl
@[simp] theorem Group.retire_vresume (G : Group) (len : Nat) : (G.retire len).vresume = G.vresume := rfl
@[simp] theorem Group.retire_xmod (G : Group) (len : Nat) : (G.retire len).xmod = G.xmod := rfl
@[simp] theorem Group.retire_xctl (G : Group) (len : Nat) : (G.retire len).xctl = G.xctl := rfl
@[simp] theorem Group.retire_collg (G : Group) (len : Nat) : (G.retire len).collg = G.collg := rfl
@[simp] theorem Group.retire_collop (G : Group) (len : Nat) : (G.retire len).collop = G.collop := rfl
@[simp] theorem Group.retire_collstride (G : Group) (len : Nat) : (G.retire len).collstride = G.collstride := rfl
@[simp] theorem Group.retire_collDone (G : Group) (len : Nat) : (G.retire len).collDone = G.collDone := rfl
@[simp] theorem Group.retire_collFailn (G : Group) (len : Nat) : (G.retire len).collFailn = G.collFailn := rfl
@[simp] theorem Group.retire_collFl (G : Group) (len : Nat) : (G.retire len).collFl = G.collFl := rfl
@[simp] theorem Group.retire_collOf (G : Group) (len : Nat) : (G.retire len).collOf = G.collOf := rfl
@[simp] theorem Group.retire_collIssued (G : Group) (len : Nat) : (G.retire len).collIssued = G.collIssued := rfl
@[simp] theorem Group.retire_grpid (G : Group) (len : Nat) : (G.retire len).grpid = G.grpid := rfl
@[simp] theorem Group.retire_kernid (G : Group) (len : Nat) : (G.retire len).kernid = G.kernid := rfl
@[simp] theorem Group.retire_ngroups (G : Group) (len : Nat) : (G.retire len).ngroups = G.ngroups := rfl
@[simp] theorem Group.retire_kargs (G : Group) (len : Nat) : (G.retire len).kargs = G.kargs := rfl
@[simp] theorem Group.retire_melided (G : Group) (len : Nat) : (G.retire len).melided = G.melided := rfl
@[simp] theorem Group.retire_missued (G : Group) (len : Nat) : (G.retire len).missued = G.missued := rfl
@[simp] theorem Group.retire_trapcause (G : Group) (len : Nat) : (G.retire len).trapcause = G.trapcause := rfl
@[simp] theorem Group.retire_trappc (G : Group) (len : Nat) : (G.retire len).trappc = G.trappc := rfl
@[simp] theorem Group.retire_trapaddr (G : Group) (len : Nat) : (G.retire len).trapaddr = G.trapaddr := rfl
@[simp] theorem Group.retire_trapelem (G : Group) (len : Nat) : (G.retire len).trapelem = G.trapelem := rfl
@[simp] theorem Group.retire_trapstat (G : Group) (len : Nat) : (G.retire len).trapstat = G.trapstat := rfl
@[simp] theorem Group.retire_trapvec (G : Group) (len : Nat) : (G.retire len).trapvec = G.trapvec := rfl
@[simp] theorem Group.retire_scratch (G : Group) (len : Nat) : (G.retire len).scratch = G.scratch := rfl
@[simp] theorem Group.retire_wdoglim (G : Group) (len : Nat) : (G.retire len).wdoglim = G.wdoglim := rfl
@[simp] theorem Group.retire_wdog (G : Group) (len : Nat) : (G.retire len).wdog = G.wdog := rfl
@[simp] theorem Group.retire_interrupted (G : Group) (len : Nat) : (G.retire len).interrupted = G.interrupted := rfl
@[simp] theorem Group.retire_sfrq (G : Group) (len : Nat) : (G.retire len).sfrq = G.sfrq := rfl
@[simp] theorem Group.retire_causes (G : Group) (len : Nat) : (G.retire len).causes = G.causes := rfl
@[simp] theorem Group.retire_convoys (G : Group) (len : Nat) : (G.retire len).convoys = G.convoys := rfl
@[simp] theorem Group.retire_slices (G : Group) (len : Nat) : (G.retire len).slices = G.slices := rfl
@[simp] theorem Group.retire_sent (G : Group) (len : Nat) : (G.retire len).sent = G.sent := rfl
@[simp] theorem Group.retire_late (G : Group) (len : Nat) : (G.retire len).late = G.late := rfl
@[simp] theorem Group.retire_async (G : Group) (len : Nat) : (G.retire len).async = G.async := rfl
@[simp] theorem Group.retire_maxa (G : Group) (len : Nat) : (G.retire len).maxa = G.maxa := rfl
@[simp] theorem Group.retire_maxb (G : Group) (len : Nat) : (G.retire len).maxb = G.maxb := rfl
@[simp] theorem Group.retire_pmark (G : Group) (len : Nat) : (G.retire len).pmark = G.pmark := rfl
@[simp] theorem Group.retire_fifos (G : Group) (len : Nat) : (G.retire len).fifos = G.fifos := rfl
@[simp] theorem Group.retire_chan (G : Group) (len : Nat) : (G.retire len).chan = G.chan := rfl
@[simp] theorem Group.retire_tickets (G : Group) (len : Nat) : (G.retire len).tickets = G.tickets := rfl
@[simp] theorem Group.retire_recvs (G : Group) (len : Nat) : (G.retire len).recvs = G.recvs := rfl
@[simp] theorem Group.retire_ring (G : Group) (len : Nat) : (G.retire len).ring = G.ring := rfl
@[simp] theorem Group.retire_items (G : Group) (len : Nat) : (G.retire len).items = G.items := rfl
@[simp] theorem Group.retire_lastPhase (G : Group) (len : Nat) : (G.retire len).lastPhase = G.lastPhase := rfl
@[simp] theorem Group.retire_yield (G : Group) (len : Nat) : (G.retire len).yield = G.yield := rfl
@[simp] theorem Group.retire_hold (G : Group) (len : Nat) : (G.retire len).hold = G.hold := rfl
@[simp] theorem Group.retire_barPending (G : Group) (len : Nat) : (G.retire len).barPending = G.barPending := rfl
@[simp] theorem Group.retire_barPast (G : Group) (len : Nat) : (G.retire len).barPast = G.barPast := rfl
@[simp] theorem Group.retire_seq (G : Group) (len : Nat) : (G.retire len).seq = G.seq := rfl

/-! ## Group.closeConvoy -/

@[simp] theorem Group.closeConvoy_phase (G : Group) : (G.closeConvoy).phase = G.phase := rfl
@[simp] theorem Group.closeConvoy_level (G : Group) : (G.closeConvoy).level = G.level := rfl
@[simp] theorem Group.closeConvoy_pc (G : Group) : (G.closeConvoy).pc = G.pc := rfl
@[simp] theorem Group.closeConvoy_x (G : Group) : (G.closeConvoy).x = G.x := rfl
@[simp] theorem Group.closeConvoy_v (G : Group) : (G.closeConvoy).v = G.v := rfl
@[simp] theorem Group.closeConvoy_vtag (G : Group) : (G.closeConvoy).vtag = G.vtag := rfl
@[simp] theorem Group.closeConvoy_m (G : Group) : (G.closeConvoy).m = G.m := rfl
@[simp] theorem Group.closeConvoy_t (G : Group) : (G.closeConvoy).t = G.t := rfl
@[simp] theorem Group.closeConvoy_tdir (G : Group) : (G.closeConvoy).tdir = G.tdir := rfl
@[simp] theorem Group.closeConvoy_a (G : Group) : (G.closeConvoy).a = G.a := rfl
@[simp] theorem Group.closeConvoy_adir (G : Group) : (G.closeConvoy).adir = G.adir := rfl
@[simp] theorem Group.closeConvoy_laneFlags (G : Group) : (G.closeConvoy).laneFlags = G.laneFlags := rfl
@[simp] theorem Group.closeConvoy_ctlFlags (G : Group) : (G.closeConvoy).ctlFlags = G.ctlFlags := rfl
@[simp] theorem Group.closeConvoy_mfl (G : Group) : (G.closeConvoy).mfl = G.mfl := rfl
@[simp] theorem Group.closeConvoy_xfl (G : Group) : (G.closeConvoy).xfl = G.xfl := rfl
@[simp] theorem Group.closeConvoy_xen (G : Group) : (G.closeConvoy).xen = G.xen := rfl
@[simp] theorem Group.closeConvoy_vl (G : Group) : (G.closeConvoy).vl = G.vl := rfl
@[simp] theorem Group.closeConvoy_vcfg (G : Group) : (G.closeConvoy).vcfg = G.vcfg := rfl
@[simp] theorem Group.closeConvoy_vresume (G : Group) : (G.closeConvoy).vresume = G.vresume := rfl
@[simp] theorem Group.closeConvoy_xmod (G : Group) : (G.closeConvoy).xmod = G.xmod := rfl
@[simp] theorem Group.closeConvoy_xctl (G : Group) : (G.closeConvoy).xctl = G.xctl := rfl
@[simp] theorem Group.closeConvoy_collg (G : Group) : (G.closeConvoy).collg = G.collg := rfl
@[simp] theorem Group.closeConvoy_collop (G : Group) : (G.closeConvoy).collop = G.collop := rfl
@[simp] theorem Group.closeConvoy_collstride (G : Group) : (G.closeConvoy).collstride = G.collstride := rfl
@[simp] theorem Group.closeConvoy_collDone (G : Group) : (G.closeConvoy).collDone = G.collDone := rfl
@[simp] theorem Group.closeConvoy_collFailn (G : Group) : (G.closeConvoy).collFailn = G.collFailn := rfl
@[simp] theorem Group.closeConvoy_collFl (G : Group) : (G.closeConvoy).collFl = G.collFl := rfl
@[simp] theorem Group.closeConvoy_collOf (G : Group) : (G.closeConvoy).collOf = G.collOf := rfl
@[simp] theorem Group.closeConvoy_collIssued (G : Group) : (G.closeConvoy).collIssued = G.collIssued := rfl
@[simp] theorem Group.closeConvoy_grpid (G : Group) : (G.closeConvoy).grpid = G.grpid := rfl
@[simp] theorem Group.closeConvoy_kernid (G : Group) : (G.closeConvoy).kernid = G.kernid := rfl
@[simp] theorem Group.closeConvoy_ngroups (G : Group) : (G.closeConvoy).ngroups = G.ngroups := rfl
@[simp] theorem Group.closeConvoy_kargs (G : Group) : (G.closeConvoy).kargs = G.kargs := rfl
@[simp] theorem Group.closeConvoy_retired (G : Group) : (G.closeConvoy).retired = G.retired := rfl
@[simp] theorem Group.closeConvoy_melided (G : Group) : (G.closeConvoy).melided = G.melided := rfl
@[simp] theorem Group.closeConvoy_missued (G : Group) : (G.closeConvoy).missued = G.missued := rfl
@[simp] theorem Group.closeConvoy_trapcause (G : Group) : (G.closeConvoy).trapcause = G.trapcause := rfl
@[simp] theorem Group.closeConvoy_trappc (G : Group) : (G.closeConvoy).trappc = G.trappc := rfl
@[simp] theorem Group.closeConvoy_trapaddr (G : Group) : (G.closeConvoy).trapaddr = G.trapaddr := rfl
@[simp] theorem Group.closeConvoy_trapelem (G : Group) : (G.closeConvoy).trapelem = G.trapelem := rfl
@[simp] theorem Group.closeConvoy_trapstat (G : Group) : (G.closeConvoy).trapstat = G.trapstat := rfl
@[simp] theorem Group.closeConvoy_trapvec (G : Group) : (G.closeConvoy).trapvec = G.trapvec := rfl
@[simp] theorem Group.closeConvoy_scratch (G : Group) : (G.closeConvoy).scratch = G.scratch := rfl
@[simp] theorem Group.closeConvoy_wdoglim (G : Group) : (G.closeConvoy).wdoglim = G.wdoglim := rfl
@[simp] theorem Group.closeConvoy_wdog (G : Group) : (G.closeConvoy).wdog = G.wdog := rfl
@[simp] theorem Group.closeConvoy_interrupted (G : Group) : (G.closeConvoy).interrupted = G.interrupted := rfl
@[simp] theorem Group.closeConvoy_resume (G : Group) : (G.closeConvoy).resume = G.resume := rfl
@[simp] theorem Group.closeConvoy_sfrq (G : Group) : (G.closeConvoy).sfrq = G.sfrq := rfl
@[simp] theorem Group.closeConvoy_causes (G : Group) : (G.closeConvoy).causes = G.causes := rfl
@[simp] theorem Group.closeConvoy_slices (G : Group) : (G.closeConvoy).slices = G.slices := rfl
@[simp] theorem Group.closeConvoy_sent (G : Group) : (G.closeConvoy).sent = G.sent := rfl
@[simp] theorem Group.closeConvoy_late (G : Group) : (G.closeConvoy).late = G.late := rfl
@[simp] theorem Group.closeConvoy_dataWait (G : Group) : (G.closeConvoy).dataWait = G.dataWait := rfl
@[simp] theorem Group.closeConvoy_async (G : Group) : (G.closeConvoy).async = G.async := rfl
@[simp] theorem Group.closeConvoy_maxa (G : Group) : (G.closeConvoy).maxa = G.maxa := rfl
@[simp] theorem Group.closeConvoy_maxb (G : Group) : (G.closeConvoy).maxb = G.maxb := rfl
@[simp] theorem Group.closeConvoy_pmark (G : Group) : (G.closeConvoy).pmark = G.pmark := rfl
@[simp] theorem Group.closeConvoy_fifos (G : Group) : (G.closeConvoy).fifos = G.fifos := rfl
@[simp] theorem Group.closeConvoy_chan (G : Group) : (G.closeConvoy).chan = G.chan := rfl
@[simp] theorem Group.closeConvoy_tickets (G : Group) : (G.closeConvoy).tickets = G.tickets := rfl
@[simp] theorem Group.closeConvoy_recvs (G : Group) : (G.closeConvoy).recvs = G.recvs := rfl
@[simp] theorem Group.closeConvoy_ring (G : Group) : (G.closeConvoy).ring = G.ring := rfl
@[simp] theorem Group.closeConvoy_items (G : Group) : (G.closeConvoy).items = G.items := rfl
@[simp] theorem Group.closeConvoy_lastPhase (G : Group) : (G.closeConvoy).lastPhase = G.lastPhase := rfl
@[simp] theorem Group.closeConvoy_yield (G : Group) : (G.closeConvoy).yield = G.yield := rfl
@[simp] theorem Group.closeConvoy_hold (G : Group) : (G.closeConvoy).hold = G.hold := rfl
@[simp] theorem Group.closeConvoy_barPending (G : Group) : (G.closeConvoy).barPending = G.barPending := rfl
@[simp] theorem Group.closeConvoy_barPast (G : Group) : (G.closeConvoy).barPast = G.barPast := rfl
@[simp] theorem Group.closeConvoy_seq (G : Group) : (G.closeConvoy).seq = G.seq := rfl

/-! ## Group.accrue -/

@[simp] theorem Group.accrue_phase (G : Group) (f : BitVec 6) : (G.accrue f).phase = G.phase := rfl
@[simp] theorem Group.accrue_level (G : Group) (f : BitVec 6) : (G.accrue f).level = G.level := rfl
@[simp] theorem Group.accrue_pc (G : Group) (f : BitVec 6) : (G.accrue f).pc = G.pc := rfl
@[simp] theorem Group.accrue_x (G : Group) (f : BitVec 6) : (G.accrue f).x = G.x := rfl
@[simp] theorem Group.accrue_v (G : Group) (f : BitVec 6) : (G.accrue f).v = G.v := rfl
@[simp] theorem Group.accrue_vtag (G : Group) (f : BitVec 6) : (G.accrue f).vtag = G.vtag := rfl
@[simp] theorem Group.accrue_m (G : Group) (f : BitVec 6) : (G.accrue f).m = G.m := rfl
@[simp] theorem Group.accrue_t (G : Group) (f : BitVec 6) : (G.accrue f).t = G.t := rfl
@[simp] theorem Group.accrue_tdir (G : Group) (f : BitVec 6) : (G.accrue f).tdir = G.tdir := rfl
@[simp] theorem Group.accrue_a (G : Group) (f : BitVec 6) : (G.accrue f).a = G.a := rfl
@[simp] theorem Group.accrue_adir (G : Group) (f : BitVec 6) : (G.accrue f).adir = G.adir := rfl
@[simp] theorem Group.accrue_laneFlags (G : Group) (f : BitVec 6) : (G.accrue f).laneFlags = G.laneFlags := rfl
@[simp] theorem Group.accrue_mfl (G : Group) (f : BitVec 6) : (G.accrue f).mfl = G.mfl := rfl
@[simp] theorem Group.accrue_xfl (G : Group) (f : BitVec 6) : (G.accrue f).xfl = G.xfl := rfl
@[simp] theorem Group.accrue_xen (G : Group) (f : BitVec 6) : (G.accrue f).xen = G.xen := rfl
@[simp] theorem Group.accrue_vl (G : Group) (f : BitVec 6) : (G.accrue f).vl = G.vl := rfl
@[simp] theorem Group.accrue_vcfg (G : Group) (f : BitVec 6) : (G.accrue f).vcfg = G.vcfg := rfl
@[simp] theorem Group.accrue_vresume (G : Group) (f : BitVec 6) : (G.accrue f).vresume = G.vresume := rfl
@[simp] theorem Group.accrue_xmod (G : Group) (f : BitVec 6) : (G.accrue f).xmod = G.xmod := rfl
@[simp] theorem Group.accrue_xctl (G : Group) (f : BitVec 6) : (G.accrue f).xctl = G.xctl := rfl
@[simp] theorem Group.accrue_collg (G : Group) (f : BitVec 6) : (G.accrue f).collg = G.collg := rfl
@[simp] theorem Group.accrue_collop (G : Group) (f : BitVec 6) : (G.accrue f).collop = G.collop := rfl
@[simp] theorem Group.accrue_collstride (G : Group) (f : BitVec 6) : (G.accrue f).collstride = G.collstride := rfl
@[simp] theorem Group.accrue_collDone (G : Group) (f : BitVec 6) : (G.accrue f).collDone = G.collDone := rfl
@[simp] theorem Group.accrue_collFailn (G : Group) (f : BitVec 6) : (G.accrue f).collFailn = G.collFailn := rfl
@[simp] theorem Group.accrue_collFl (G : Group) (f : BitVec 6) : (G.accrue f).collFl = G.collFl := rfl
@[simp] theorem Group.accrue_collOf (G : Group) (f : BitVec 6) : (G.accrue f).collOf = G.collOf := rfl
@[simp] theorem Group.accrue_collIssued (G : Group) (f : BitVec 6) : (G.accrue f).collIssued = G.collIssued := rfl
@[simp] theorem Group.accrue_grpid (G : Group) (f : BitVec 6) : (G.accrue f).grpid = G.grpid := rfl
@[simp] theorem Group.accrue_kernid (G : Group) (f : BitVec 6) : (G.accrue f).kernid = G.kernid := rfl
@[simp] theorem Group.accrue_ngroups (G : Group) (f : BitVec 6) : (G.accrue f).ngroups = G.ngroups := rfl
@[simp] theorem Group.accrue_kargs (G : Group) (f : BitVec 6) : (G.accrue f).kargs = G.kargs := rfl
@[simp] theorem Group.accrue_retired (G : Group) (f : BitVec 6) : (G.accrue f).retired = G.retired := rfl
@[simp] theorem Group.accrue_melided (G : Group) (f : BitVec 6) : (G.accrue f).melided = G.melided := rfl
@[simp] theorem Group.accrue_missued (G : Group) (f : BitVec 6) : (G.accrue f).missued = G.missued := rfl
@[simp] theorem Group.accrue_trapcause (G : Group) (f : BitVec 6) : (G.accrue f).trapcause = G.trapcause := rfl
@[simp] theorem Group.accrue_trappc (G : Group) (f : BitVec 6) : (G.accrue f).trappc = G.trappc := rfl
@[simp] theorem Group.accrue_trapaddr (G : Group) (f : BitVec 6) : (G.accrue f).trapaddr = G.trapaddr := rfl
@[simp] theorem Group.accrue_trapelem (G : Group) (f : BitVec 6) : (G.accrue f).trapelem = G.trapelem := rfl
@[simp] theorem Group.accrue_trapstat (G : Group) (f : BitVec 6) : (G.accrue f).trapstat = G.trapstat := rfl
@[simp] theorem Group.accrue_trapvec (G : Group) (f : BitVec 6) : (G.accrue f).trapvec = G.trapvec := rfl
@[simp] theorem Group.accrue_scratch (G : Group) (f : BitVec 6) : (G.accrue f).scratch = G.scratch := rfl
@[simp] theorem Group.accrue_wdoglim (G : Group) (f : BitVec 6) : (G.accrue f).wdoglim = G.wdoglim := rfl
@[simp] theorem Group.accrue_wdog (G : Group) (f : BitVec 6) : (G.accrue f).wdog = G.wdog := rfl
@[simp] theorem Group.accrue_interrupted (G : Group) (f : BitVec 6) : (G.accrue f).interrupted = G.interrupted := rfl
@[simp] theorem Group.accrue_resume (G : Group) (f : BitVec 6) : (G.accrue f).resume = G.resume := rfl
@[simp] theorem Group.accrue_sfrq (G : Group) (f : BitVec 6) : (G.accrue f).sfrq = G.sfrq := rfl
@[simp] theorem Group.accrue_causes (G : Group) (f : BitVec 6) : (G.accrue f).causes = G.causes := rfl
@[simp] theorem Group.accrue_convoys (G : Group) (f : BitVec 6) : (G.accrue f).convoys = G.convoys := rfl
@[simp] theorem Group.accrue_slices (G : Group) (f : BitVec 6) : (G.accrue f).slices = G.slices := rfl
@[simp] theorem Group.accrue_sent (G : Group) (f : BitVec 6) : (G.accrue f).sent = G.sent := rfl
@[simp] theorem Group.accrue_late (G : Group) (f : BitVec 6) : (G.accrue f).late = G.late := rfl
@[simp] theorem Group.accrue_dataWait (G : Group) (f : BitVec 6) : (G.accrue f).dataWait = G.dataWait := rfl
@[simp] theorem Group.accrue_async (G : Group) (f : BitVec 6) : (G.accrue f).async = G.async := rfl
@[simp] theorem Group.accrue_maxa (G : Group) (f : BitVec 6) : (G.accrue f).maxa = G.maxa := rfl
@[simp] theorem Group.accrue_maxb (G : Group) (f : BitVec 6) : (G.accrue f).maxb = G.maxb := rfl
@[simp] theorem Group.accrue_pmark (G : Group) (f : BitVec 6) : (G.accrue f).pmark = G.pmark := rfl
@[simp] theorem Group.accrue_fifos (G : Group) (f : BitVec 6) : (G.accrue f).fifos = G.fifos := rfl
@[simp] theorem Group.accrue_chan (G : Group) (f : BitVec 6) : (G.accrue f).chan = G.chan := rfl
@[simp] theorem Group.accrue_tickets (G : Group) (f : BitVec 6) : (G.accrue f).tickets = G.tickets := rfl
@[simp] theorem Group.accrue_recvs (G : Group) (f : BitVec 6) : (G.accrue f).recvs = G.recvs := rfl
@[simp] theorem Group.accrue_ring (G : Group) (f : BitVec 6) : (G.accrue f).ring = G.ring := rfl
@[simp] theorem Group.accrue_items (G : Group) (f : BitVec 6) : (G.accrue f).items = G.items := rfl
@[simp] theorem Group.accrue_lastPhase (G : Group) (f : BitVec 6) : (G.accrue f).lastPhase = G.lastPhase := rfl
@[simp] theorem Group.accrue_yield (G : Group) (f : BitVec 6) : (G.accrue f).yield = G.yield := rfl
@[simp] theorem Group.accrue_hold (G : Group) (f : BitVec 6) : (G.accrue f).hold = G.hold := rfl
@[simp] theorem Group.accrue_barPending (G : Group) (f : BitVec 6) : (G.accrue f).barPending = G.barPending := rfl
@[simp] theorem Group.accrue_barPast (G : Group) (f : BitVec 6) : (G.accrue f).barPast = G.barPast := rfl
@[simp] theorem Group.accrue_seq (G : Group) (f : BitVec 6) : (G.accrue f).seq = G.seq := rfl

/-! ## Group.enterWait -/

@[simp] theorem Group.enterWait_level (G : Group) (w : Wait) : (G.enterWait w).level = G.level := rfl
@[simp] theorem Group.enterWait_pc (G : Group) (w : Wait) : (G.enterWait w).pc = G.pc := rfl
@[simp] theorem Group.enterWait_x (G : Group) (w : Wait) : (G.enterWait w).x = G.x := rfl
@[simp] theorem Group.enterWait_v (G : Group) (w : Wait) : (G.enterWait w).v = G.v := rfl
@[simp] theorem Group.enterWait_vtag (G : Group) (w : Wait) : (G.enterWait w).vtag = G.vtag := rfl
@[simp] theorem Group.enterWait_m (G : Group) (w : Wait) : (G.enterWait w).m = G.m := rfl
@[simp] theorem Group.enterWait_t (G : Group) (w : Wait) : (G.enterWait w).t = G.t := rfl
@[simp] theorem Group.enterWait_tdir (G : Group) (w : Wait) : (G.enterWait w).tdir = G.tdir := rfl
@[simp] theorem Group.enterWait_a (G : Group) (w : Wait) : (G.enterWait w).a = G.a := rfl
@[simp] theorem Group.enterWait_adir (G : Group) (w : Wait) : (G.enterWait w).adir = G.adir := rfl
@[simp] theorem Group.enterWait_laneFlags (G : Group) (w : Wait) : (G.enterWait w).laneFlags = G.laneFlags := rfl
@[simp] theorem Group.enterWait_ctlFlags (G : Group) (w : Wait) : (G.enterWait w).ctlFlags = G.ctlFlags := rfl
@[simp] theorem Group.enterWait_mfl (G : Group) (w : Wait) : (G.enterWait w).mfl = G.mfl := rfl
@[simp] theorem Group.enterWait_xfl (G : Group) (w : Wait) : (G.enterWait w).xfl = G.xfl := rfl
@[simp] theorem Group.enterWait_xen (G : Group) (w : Wait) : (G.enterWait w).xen = G.xen := rfl
@[simp] theorem Group.enterWait_vl (G : Group) (w : Wait) : (G.enterWait w).vl = G.vl := rfl
@[simp] theorem Group.enterWait_vcfg (G : Group) (w : Wait) : (G.enterWait w).vcfg = G.vcfg := rfl
@[simp] theorem Group.enterWait_vresume (G : Group) (w : Wait) : (G.enterWait w).vresume = G.vresume := rfl
@[simp] theorem Group.enterWait_xmod (G : Group) (w : Wait) : (G.enterWait w).xmod = G.xmod := rfl
@[simp] theorem Group.enterWait_xctl (G : Group) (w : Wait) : (G.enterWait w).xctl = G.xctl := rfl
@[simp] theorem Group.enterWait_collg (G : Group) (w : Wait) : (G.enterWait w).collg = G.collg := rfl
@[simp] theorem Group.enterWait_collop (G : Group) (w : Wait) : (G.enterWait w).collop = G.collop := rfl
@[simp] theorem Group.enterWait_collstride (G : Group) (w : Wait) : (G.enterWait w).collstride = G.collstride := rfl
@[simp] theorem Group.enterWait_collDone (G : Group) (w : Wait) : (G.enterWait w).collDone = G.collDone := rfl
@[simp] theorem Group.enterWait_collFailn (G : Group) (w : Wait) : (G.enterWait w).collFailn = G.collFailn := rfl
@[simp] theorem Group.enterWait_collFl (G : Group) (w : Wait) : (G.enterWait w).collFl = G.collFl := rfl
@[simp] theorem Group.enterWait_collOf (G : Group) (w : Wait) : (G.enterWait w).collOf = G.collOf := rfl
@[simp] theorem Group.enterWait_collIssued (G : Group) (w : Wait) : (G.enterWait w).collIssued = G.collIssued := rfl
@[simp] theorem Group.enterWait_grpid (G : Group) (w : Wait) : (G.enterWait w).grpid = G.grpid := rfl
@[simp] theorem Group.enterWait_kernid (G : Group) (w : Wait) : (G.enterWait w).kernid = G.kernid := rfl
@[simp] theorem Group.enterWait_ngroups (G : Group) (w : Wait) : (G.enterWait w).ngroups = G.ngroups := rfl
@[simp] theorem Group.enterWait_kargs (G : Group) (w : Wait) : (G.enterWait w).kargs = G.kargs := rfl
@[simp] theorem Group.enterWait_retired (G : Group) (w : Wait) : (G.enterWait w).retired = G.retired := rfl
@[simp] theorem Group.enterWait_melided (G : Group) (w : Wait) : (G.enterWait w).melided = G.melided := rfl
@[simp] theorem Group.enterWait_missued (G : Group) (w : Wait) : (G.enterWait w).missued = G.missued := rfl
@[simp] theorem Group.enterWait_trapcause (G : Group) (w : Wait) : (G.enterWait w).trapcause = G.trapcause := rfl
@[simp] theorem Group.enterWait_trappc (G : Group) (w : Wait) : (G.enterWait w).trappc = G.trappc := rfl
@[simp] theorem Group.enterWait_trapaddr (G : Group) (w : Wait) : (G.enterWait w).trapaddr = G.trapaddr := rfl
@[simp] theorem Group.enterWait_trapelem (G : Group) (w : Wait) : (G.enterWait w).trapelem = G.trapelem := rfl
@[simp] theorem Group.enterWait_trapstat (G : Group) (w : Wait) : (G.enterWait w).trapstat = G.trapstat := rfl
@[simp] theorem Group.enterWait_trapvec (G : Group) (w : Wait) : (G.enterWait w).trapvec = G.trapvec := rfl
@[simp] theorem Group.enterWait_scratch (G : Group) (w : Wait) : (G.enterWait w).scratch = G.scratch := rfl
@[simp] theorem Group.enterWait_wdoglim (G : Group) (w : Wait) : (G.enterWait w).wdoglim = G.wdoglim := rfl
@[simp] theorem Group.enterWait_interrupted (G : Group) (w : Wait) : (G.enterWait w).interrupted = G.interrupted := rfl
@[simp] theorem Group.enterWait_resume (G : Group) (w : Wait) : (G.enterWait w).resume = G.resume := rfl
@[simp] theorem Group.enterWait_sfrq (G : Group) (w : Wait) : (G.enterWait w).sfrq = G.sfrq := rfl
@[simp] theorem Group.enterWait_causes (G : Group) (w : Wait) : (G.enterWait w).causes = G.causes := rfl
@[simp] theorem Group.enterWait_convoys (G : Group) (w : Wait) : (G.enterWait w).convoys = G.convoys := rfl
@[simp] theorem Group.enterWait_slices (G : Group) (w : Wait) : (G.enterWait w).slices = G.slices := rfl
@[simp] theorem Group.enterWait_sent (G : Group) (w : Wait) : (G.enterWait w).sent = G.sent := rfl
@[simp] theorem Group.enterWait_late (G : Group) (w : Wait) : (G.enterWait w).late = G.late := rfl
@[simp] theorem Group.enterWait_dataWait (G : Group) (w : Wait) : (G.enterWait w).dataWait = G.dataWait := rfl
@[simp] theorem Group.enterWait_async (G : Group) (w : Wait) : (G.enterWait w).async = G.async := rfl
@[simp] theorem Group.enterWait_maxa (G : Group) (w : Wait) : (G.enterWait w).maxa = G.maxa := rfl
@[simp] theorem Group.enterWait_maxb (G : Group) (w : Wait) : (G.enterWait w).maxb = G.maxb := rfl
@[simp] theorem Group.enterWait_pmark (G : Group) (w : Wait) : (G.enterWait w).pmark = G.pmark := rfl
@[simp] theorem Group.enterWait_fifos (G : Group) (w : Wait) : (G.enterWait w).fifos = G.fifos := rfl
@[simp] theorem Group.enterWait_chan (G : Group) (w : Wait) : (G.enterWait w).chan = G.chan := rfl
@[simp] theorem Group.enterWait_tickets (G : Group) (w : Wait) : (G.enterWait w).tickets = G.tickets := rfl
@[simp] theorem Group.enterWait_recvs (G : Group) (w : Wait) : (G.enterWait w).recvs = G.recvs := rfl
@[simp] theorem Group.enterWait_ring (G : Group) (w : Wait) : (G.enterWait w).ring = G.ring := rfl
@[simp] theorem Group.enterWait_items (G : Group) (w : Wait) : (G.enterWait w).items = G.items := rfl
@[simp] theorem Group.enterWait_lastPhase (G : Group) (w : Wait) : (G.enterWait w).lastPhase = G.lastPhase := rfl
@[simp] theorem Group.enterWait_yield (G : Group) (w : Wait) : (G.enterWait w).yield = G.yield := rfl
@[simp] theorem Group.enterWait_hold (G : Group) (w : Wait) : (G.enterWait w).hold = G.hold := rfl
@[simp] theorem Group.enterWait_barPending (G : Group) (w : Wait) : (G.enterWait w).barPending = G.barPending := rfl
@[simp] theorem Group.enterWait_barPast (G : Group) (w : Wait) : (G.enterWait w).barPast = G.barPast := rfl
@[simp] theorem Group.enterWait_seq (G : Group) (w : Wait) : (G.enterWait w).seq = G.seq := rfl

/-! ## Group.setReg -/

@[simp] theorem Group.setReg_phase (G : Group) (r : Reg) (w : Word) : (G.setReg r w).phase = G.phase := by unfold Group.setReg; split <;> rfl
@[simp] theorem Group.setReg_level (G : Group) (r : Reg) (w : Word) : (G.setReg r w).level = G.level := by unfold Group.setReg; split <;> rfl
@[simp] theorem Group.setReg_pc (G : Group) (r : Reg) (w : Word) : (G.setReg r w).pc = G.pc := by unfold Group.setReg; split <;> rfl
@[simp] theorem Group.setReg_v (G : Group) (r : Reg) (w : Word) : (G.setReg r w).v = G.v := by unfold Group.setReg; split <;> rfl
@[simp] theorem Group.setReg_vtag (G : Group) (r : Reg) (w : Word) : (G.setReg r w).vtag = G.vtag := by unfold Group.setReg; split <;> rfl
@[simp] theorem Group.setReg_m (G : Group) (r : Reg) (w : Word) : (G.setReg r w).m = G.m := by unfold Group.setReg; split <;> rfl
@[simp] theorem Group.setReg_t (G : Group) (r : Reg) (w : Word) : (G.setReg r w).t = G.t := by unfold Group.setReg; split <;> rfl
@[simp] theorem Group.setReg_tdir (G : Group) (r : Reg) (w : Word) : (G.setReg r w).tdir = G.tdir := by unfold Group.setReg; split <;> rfl
@[simp] theorem Group.setReg_a (G : Group) (r : Reg) (w : Word) : (G.setReg r w).a = G.a := by unfold Group.setReg; split <;> rfl
@[simp] theorem Group.setReg_adir (G : Group) (r : Reg) (w : Word) : (G.setReg r w).adir = G.adir := by unfold Group.setReg; split <;> rfl
@[simp] theorem Group.setReg_laneFlags (G : Group) (r : Reg) (w : Word) : (G.setReg r w).laneFlags = G.laneFlags := by unfold Group.setReg; split <;> rfl
@[simp] theorem Group.setReg_ctlFlags (G : Group) (r : Reg) (w : Word) : (G.setReg r w).ctlFlags = G.ctlFlags := by unfold Group.setReg; split <;> rfl
@[simp] theorem Group.setReg_mfl (G : Group) (r : Reg) (w : Word) : (G.setReg r w).mfl = G.mfl := by unfold Group.setReg; split <;> rfl
@[simp] theorem Group.setReg_xfl (G : Group) (r : Reg) (w : Word) : (G.setReg r w).xfl = G.xfl := by unfold Group.setReg; split <;> rfl
@[simp] theorem Group.setReg_xen (G : Group) (r : Reg) (w : Word) : (G.setReg r w).xen = G.xen := by unfold Group.setReg; split <;> rfl
@[simp] theorem Group.setReg_vl (G : Group) (r : Reg) (w : Word) : (G.setReg r w).vl = G.vl := by unfold Group.setReg; split <;> rfl
@[simp] theorem Group.setReg_vcfg (G : Group) (r : Reg) (w : Word) : (G.setReg r w).vcfg = G.vcfg := by unfold Group.setReg; split <;> rfl
@[simp] theorem Group.setReg_vresume (G : Group) (r : Reg) (w : Word) : (G.setReg r w).vresume = G.vresume := by unfold Group.setReg; split <;> rfl
@[simp] theorem Group.setReg_xmod (G : Group) (r : Reg) (w : Word) : (G.setReg r w).xmod = G.xmod := by unfold Group.setReg; split <;> rfl
@[simp] theorem Group.setReg_xctl (G : Group) (r : Reg) (w : Word) : (G.setReg r w).xctl = G.xctl := by unfold Group.setReg; split <;> rfl
@[simp] theorem Group.setReg_collg (G : Group) (r : Reg) (w : Word) : (G.setReg r w).collg = G.collg := by unfold Group.setReg; split <;> rfl
@[simp] theorem Group.setReg_collop (G : Group) (r : Reg) (w : Word) : (G.setReg r w).collop = G.collop := by unfold Group.setReg; split <;> rfl
@[simp] theorem Group.setReg_collstride (G : Group) (r : Reg) (w : Word) : (G.setReg r w).collstride = G.collstride := by unfold Group.setReg; split <;> rfl
@[simp] theorem Group.setReg_collDone (G : Group) (r : Reg) (w : Word) : (G.setReg r w).collDone = G.collDone := by unfold Group.setReg; split <;> rfl
@[simp] theorem Group.setReg_collFailn (G : Group) (r : Reg) (w : Word) : (G.setReg r w).collFailn = G.collFailn := by unfold Group.setReg; split <;> rfl
@[simp] theorem Group.setReg_collFl (G : Group) (r : Reg) (w : Word) : (G.setReg r w).collFl = G.collFl := by unfold Group.setReg; split <;> rfl
@[simp] theorem Group.setReg_collOf (G : Group) (r : Reg) (w : Word) : (G.setReg r w).collOf = G.collOf := by unfold Group.setReg; split <;> rfl
@[simp] theorem Group.setReg_collIssued (G : Group) (r : Reg) (w : Word) : (G.setReg r w).collIssued = G.collIssued := by unfold Group.setReg; split <;> rfl
@[simp] theorem Group.setReg_grpid (G : Group) (r : Reg) (w : Word) : (G.setReg r w).grpid = G.grpid := by unfold Group.setReg; split <;> rfl
@[simp] theorem Group.setReg_kernid (G : Group) (r : Reg) (w : Word) : (G.setReg r w).kernid = G.kernid := by unfold Group.setReg; split <;> rfl
@[simp] theorem Group.setReg_ngroups (G : Group) (r : Reg) (w : Word) : (G.setReg r w).ngroups = G.ngroups := by unfold Group.setReg; split <;> rfl
@[simp] theorem Group.setReg_kargs (G : Group) (r : Reg) (w : Word) : (G.setReg r w).kargs = G.kargs := by unfold Group.setReg; split <;> rfl
@[simp] theorem Group.setReg_retired (G : Group) (r : Reg) (w : Word) : (G.setReg r w).retired = G.retired := by unfold Group.setReg; split <;> rfl
@[simp] theorem Group.setReg_melided (G : Group) (r : Reg) (w : Word) : (G.setReg r w).melided = G.melided := by unfold Group.setReg; split <;> rfl
@[simp] theorem Group.setReg_missued (G : Group) (r : Reg) (w : Word) : (G.setReg r w).missued = G.missued := by unfold Group.setReg; split <;> rfl
@[simp] theorem Group.setReg_trapcause (G : Group) (r : Reg) (w : Word) : (G.setReg r w).trapcause = G.trapcause := by unfold Group.setReg; split <;> rfl
@[simp] theorem Group.setReg_trappc (G : Group) (r : Reg) (w : Word) : (G.setReg r w).trappc = G.trappc := by unfold Group.setReg; split <;> rfl
@[simp] theorem Group.setReg_trapaddr (G : Group) (r : Reg) (w : Word) : (G.setReg r w).trapaddr = G.trapaddr := by unfold Group.setReg; split <;> rfl
@[simp] theorem Group.setReg_trapelem (G : Group) (r : Reg) (w : Word) : (G.setReg r w).trapelem = G.trapelem := by unfold Group.setReg; split <;> rfl
@[simp] theorem Group.setReg_trapstat (G : Group) (r : Reg) (w : Word) : (G.setReg r w).trapstat = G.trapstat := by unfold Group.setReg; split <;> rfl
@[simp] theorem Group.setReg_trapvec (G : Group) (r : Reg) (w : Word) : (G.setReg r w).trapvec = G.trapvec := by unfold Group.setReg; split <;> rfl
@[simp] theorem Group.setReg_scratch (G : Group) (r : Reg) (w : Word) : (G.setReg r w).scratch = G.scratch := by unfold Group.setReg; split <;> rfl
@[simp] theorem Group.setReg_wdoglim (G : Group) (r : Reg) (w : Word) : (G.setReg r w).wdoglim = G.wdoglim := by unfold Group.setReg; split <;> rfl
@[simp] theorem Group.setReg_wdog (G : Group) (r : Reg) (w : Word) : (G.setReg r w).wdog = G.wdog := by unfold Group.setReg; split <;> rfl
@[simp] theorem Group.setReg_interrupted (G : Group) (r : Reg) (w : Word) : (G.setReg r w).interrupted = G.interrupted := by unfold Group.setReg; split <;> rfl
@[simp] theorem Group.setReg_resume (G : Group) (r : Reg) (w : Word) : (G.setReg r w).resume = G.resume := by unfold Group.setReg; split <;> rfl
@[simp] theorem Group.setReg_sfrq (G : Group) (r : Reg) (w : Word) : (G.setReg r w).sfrq = G.sfrq := by unfold Group.setReg; split <;> rfl
@[simp] theorem Group.setReg_causes (G : Group) (r : Reg) (w : Word) : (G.setReg r w).causes = G.causes := by unfold Group.setReg; split <;> rfl
@[simp] theorem Group.setReg_convoys (G : Group) (r : Reg) (w : Word) : (G.setReg r w).convoys = G.convoys := by unfold Group.setReg; split <;> rfl
@[simp] theorem Group.setReg_slices (G : Group) (r : Reg) (w : Word) : (G.setReg r w).slices = G.slices := by unfold Group.setReg; split <;> rfl
@[simp] theorem Group.setReg_sent (G : Group) (r : Reg) (w : Word) : (G.setReg r w).sent = G.sent := by unfold Group.setReg; split <;> rfl
@[simp] theorem Group.setReg_late (G : Group) (r : Reg) (w : Word) : (G.setReg r w).late = G.late := by unfold Group.setReg; split <;> rfl
@[simp] theorem Group.setReg_dataWait (G : Group) (r : Reg) (w : Word) : (G.setReg r w).dataWait = G.dataWait := by unfold Group.setReg; split <;> rfl
@[simp] theorem Group.setReg_async (G : Group) (r : Reg) (w : Word) : (G.setReg r w).async = G.async := by unfold Group.setReg; split <;> rfl
@[simp] theorem Group.setReg_maxa (G : Group) (r : Reg) (w : Word) : (G.setReg r w).maxa = G.maxa := by unfold Group.setReg; split <;> rfl
@[simp] theorem Group.setReg_maxb (G : Group) (r : Reg) (w : Word) : (G.setReg r w).maxb = G.maxb := by unfold Group.setReg; split <;> rfl
@[simp] theorem Group.setReg_pmark (G : Group) (r : Reg) (w : Word) : (G.setReg r w).pmark = G.pmark := by unfold Group.setReg; split <;> rfl
@[simp] theorem Group.setReg_fifos (G : Group) (r : Reg) (w : Word) : (G.setReg r w).fifos = G.fifos := by unfold Group.setReg; split <;> rfl
@[simp] theorem Group.setReg_chan (G : Group) (r : Reg) (w : Word) : (G.setReg r w).chan = G.chan := by unfold Group.setReg; split <;> rfl
@[simp] theorem Group.setReg_tickets (G : Group) (r : Reg) (w : Word) : (G.setReg r w).tickets = G.tickets := by unfold Group.setReg; split <;> rfl
@[simp] theorem Group.setReg_recvs (G : Group) (r : Reg) (w : Word) : (G.setReg r w).recvs = G.recvs := by unfold Group.setReg; split <;> rfl
@[simp] theorem Group.setReg_ring (G : Group) (r : Reg) (w : Word) : (G.setReg r w).ring = G.ring := by unfold Group.setReg; split <;> rfl
@[simp] theorem Group.setReg_items (G : Group) (r : Reg) (w : Word) : (G.setReg r w).items = G.items := by unfold Group.setReg; split <;> rfl
@[simp] theorem Group.setReg_lastPhase (G : Group) (r : Reg) (w : Word) : (G.setReg r w).lastPhase = G.lastPhase := by unfold Group.setReg; split <;> rfl
@[simp] theorem Group.setReg_yield (G : Group) (r : Reg) (w : Word) : (G.setReg r w).yield = G.yield := by unfold Group.setReg; split <;> rfl
@[simp] theorem Group.setReg_hold (G : Group) (r : Reg) (w : Word) : (G.setReg r w).hold = G.hold := by unfold Group.setReg; split <;> rfl
@[simp] theorem Group.setReg_barPending (G : Group) (r : Reg) (w : Word) : (G.setReg r w).barPending = G.barPending := by unfold Group.setReg; split <;> rfl
@[simp] theorem Group.setReg_barPast (G : Group) (r : Reg) (w : Word) : (G.setReg r w).barPast = G.barPast := by unfold Group.setReg; split <;> rfl
@[simp] theorem Group.setReg_seq (G : Group) (r : Reg) (w : Word) : (G.setReg r w).seq = G.seq := by unfold Group.setReg; split <;> rfl

end Sys2Proof.Machine
end

