-- ==== Sys2Proof/Laws/Ops.lean ====
section
/-!
SUPPORT. Sys2Proof/Laws/Ops.lean: tables and groups read back after a write, and what the shared operations of the control
thread do: retirement, a register result, a branch, a trap.
-/

namespace Sys2Proof.Machine

/-! ## Tables -/

@[simp] theorem Table.find_put_self {α : Type} (t : Table α) (n : Nat) (a : α) : Table.find (Table.put t n a) n = some a := by
  induction t with
  | nil => simp [Table.put, Table.find]
  | cons e t ih =>
    obtain ⟨k, v⟩ := e
    unfold Table.put
    split
    · simp [Table.find]
    · split
      · simp [Table.find]
      · rename_i h1 h2; simp [Table.find, h2, ih]

theorem Table.find_put_ne {α : Type} (t : Table α) {n m : Nat} (a : α) (h : m ≠ n) :
    Table.find (Table.put t n a) m = Table.find t m := by
  induction t with
  | nil => simp [Table.put, Table.find, h]
  | cons e t ih =>
    obtain ⟨k, v⟩ := e
    unfold Table.put
    split
    · simp [Table.find, h]
    · split
      · rename_i h1 h2; subst h2; simp [Table.find, h]
      · simp only [Table.find, ih]

theorem Table.findD_put_ne {α : Type} (t : Table α) {n m : Nat} (a d : α) (h : m ≠ n) :
    Table.findD (Table.put t n a) m d = Table.findD t m d := by simp only [Table.findD, Table.find_put_ne t a h]

@[simp] theorem Table.findD_put_self {α : Type} (t : Table α) (n : Nat) (a d : α) : Table.findD (Table.put t n a) n d = a := by
  simp only [Table.findD, Table.find_put_self, Option.getD_some]

/-- Writing an entry twice leaves the second. -/
@[simp] theorem Table.put_put {α : Type} (t : Table α) (n : Nat) (a b : α) : Table.put (Table.put t n a) n b = Table.put t n b := by
  induction t with
  | nil => simp [Table.put]
  | cons e t ih =>
    obtain ⟨k, v⟩ := e
    by_cases h1 : n < k
    · simp [Table.put, h1]
    · by_cases h2 : n = k
      · subst h2; simp [Table.put]
      · simp [Table.put, h1, h2, ih]

/-! ## Groups and cells -/

@[simp] theorem State.group_putGroup (s : State) (g : Nat) (G : Group) : (s.putGroup g G).group g = G := by
  simp [State.group, State.putGroup]

theorem State.group_putGroup_ne (s : State) {g h : Nat} (G : Group) (hne : h ≠ g) : (s.putGroup g G).group h = s.group h := by
  simp [State.group, State.putGroup, Table.findD_put_ne _ _ _ hne]

@[simp] theorem State.putGroup_putGroup (s : State) (g : Nat) (G H : Group) : (s.putGroup g G).putGroup g H = s.putGroup g H := by
  simp [State.putGroup]

@[simp] theorem State.putOwn_putOwn (s : State) (G H : Group) : (s.putOwn G).putOwn H = s.putOwn H := by
  simp [State.putOwn, State.putGroup]

@[simp] theorem State.own_putOwn (s : State) (G : Group) : (s.putOwn G).own = G := by
  simp [State.own, State.putOwn, State.putGroup, State.group]

@[simp] theorem State.cell_putCell (s : State) (c : Nat) (C : CellState) : (s.putCell c C).cell c = C := by
  simp [State.cell, State.putCell]

@[simp] theorem State.group_putCell (s : State) (c : Nat) (C : CellState) (g : Nat) : (s.putCell c C).group g = s.group g := rfl

@[simp] theorem State.slotSet_putGroup (s : State) (g : Nat) (G : Group) (t : Nat) : (s.putGroup g G).slotSet t = s.slotSet t := rfl

@[simp] theorem State.slotSet_putOwn (s : State) (G : Group) (t : Nat) : (s.putOwn G).slotSet t = s.slotSet t := rfl

/-- A change of one group changes only that group. -/
theorem State.onlyGroup_putGroup (s : State) (g : Nat) (G : Group) : s.OnlyGroup (s.putGroup g G) g :=
  ⟨rfl, fun _ h => Table.find_put_ne _ _ h, fun _ => rfl, fun _ => rfl⟩

theorem State.onlyGroup_putOwn (s : State) (G : Group) : s.OnlyGroup (s.putOwn G) s.cur := s.onlyGroup_putGroup s.cur G

/-! ## Registers -/

theorem Group.reg_setReg (G : Group) (d r : Reg) (v : Word) :
    (G.setReg d v).reg r = if r = d ∧ r ≠ 0 then v else G.reg r := by
  unfold Group.setReg Group.reg
  by_cases hr : r = 0
  · rw [if_pos hr, if_pos hr]
    exact (if_neg (fun h : r = d ∧ r ≠ 0 => h.2 hr)).symm
  · rw [if_neg hr, if_neg hr]
    by_cases hd : d = 0
    · rw [if_pos hd]
      exact (if_neg (fun h : r = d ∧ r ≠ 0 => hr (h.1.trans hd))).symm
    · rw [if_neg hd]
      by_cases he : r = d
      · subst he
        rw [if_pos (And.intro rfl hr)]
        simp only [Vector.getElem_set_self]
      · rw [if_neg (fun h : r = d ∧ r ≠ 0 => he h.1)]
        exact Vector.getElem_set_ne d.isLt r.isLt (fun h => he (BitVec.eq_of_toNat_eq h).symm)

@[simp] theorem Group.reg_x (G : Group) (r : Reg) (len : Nat) : (G.retire len).reg r = G.reg r := rfl

@[simp] theorem Group.reg_closeConvoy (G : Group) (r : Reg) : G.closeConvoy.reg r = G.reg r := rfl

@[simp] theorem State.x_close (s : State) (r : Reg) : s.close.x r = s.x r := by simp [State.x, State.close]

@[simp] theorem State.own_close (s : State) : s.close.own = s.own.closeConvoy := by simp [State.close]

/-! ## Retirement -/

/-- A group stored and then retired. -/
theorem State.retire_putOwn (s : State) (G : Group) (len : Nat) : (s.putOwn G).retire len = s.putOwn (G.retire len) := by
  simp [State.retire]

/-- Retirement with another group state: pc, count and phase are the instruction's own. -/
theorem State.retires_putOwn (s : State) (G : Group) (len : Nat) (hp : G.pc = s.own.pc) (hr : G.retired = s.own.retired) :
    s.Retires ((s.putOwn G).retire len) len G := by
  rw [State.retire_putOwn]
  refine ⟨s.onlyGroup_putOwn _, ?_⟩
  simp [Group.retire, hp, hr]

theorem State.done_eq (s : State) (d : Reg) (v : Word) (len : Nat) : s.done d v len = s.putOwn ((s.own.setReg d v).retire len) := by
  simp [State.done, State.setX, State.retire]

/-- A register result: what `done` does. -/
theorem State.done_gives (s : State) (d : Reg) (v : Word) (len : Nat) : s.GivesX (s.done d v len) d v len := by
  rw [State.done_eq]
  refine ⟨⟨s.onlyGroup_putOwn _, ?_⟩, fun r => ?_⟩
  · simp only [State.own_putOwn]
    unfold Group.retire Group.setReg
    split <;> rfl
  · simp only [State.x, State.own_putOwn, Group.reg_x, Group.reg_setReg]

/-- A register result of a state whose group alone differs from `s`, in fields that retirement does not set. -/
theorem State.done_putOwn (s : State) (G : Group) (d : Reg) (v : Word) (len : Nat) :
    (s.putOwn G).done d v len = s.putOwn ((G.setReg d v).retire len) := by
  simp [State.done_eq]

/-- As `done_gives`, after the close of the open convoy. -/
theorem State.close_done_gives (s : State) (d : Reg) (v : Word) (len : Nat) : s.ClosesGivesX (s.close.done d v len) d v len := by
  rw [State.close, State.done_putOwn]
  refine ⟨⟨s.onlyGroup_putOwn _, ?_⟩, fun r => ?_⟩
  · simp only [State.own_putOwn]
    unfold Group.retire Group.setReg
    split <;> rfl
  · simp only [State.x, State.own_putOwn, Group.reg_x, Group.reg_setReg, Group.reg_closeConvoy]

/-! ## Traps -/

/-- A precise trap of a group that handles its traps. -/
theorem State.trap_takes (s : State) (code sub : Nat) (addr pc : Word) (h : s.Handles) :
    s.TakesTrap (s.trap s.cur { code := code, sub := sub, kind := 0, addr := addr, elem := none, vec := false, pc := pc, wait := none })
      code sub addr pc := by
  obtain ⟨hl, ho, ha, hf⟩ := h
  unfold State.trap
  simp only [State.own] at hl ho hf
  simp only [hl, ho, ha, hf]
  refine ⟨s.onlyGroup_putGroup _ _, ?_⟩
  simp [State.own, State.putGroup, State.group, Group.recordTrap, Group.enterHandler, Trap.stat, Group.handler]

theorem State.raise_takes (s : State) (code sub : Nat) (addr : Word) (h : s.Handles) :
    s.TakesTrap (s.raise code sub addr) code sub addr s.own.pc := s.trap_takes code sub addr s.own.pc h

/-! ## Results with flags -/

/-- A result whose flags are not enabled. -/
theorem State.doneFlags_ok (s : State) (d : Reg) (r : Nat × BitVec 6) (len : Nat) (h : r.2 &&& s.own.xen = 0) :
    s.Retires (s.doneFlags d r len) len { s.own with x := (s.doneFlags d r len).own.x, ctlFlags := s.own.ctlFlags ||| r.2 } ∧
      s.SetsX (s.doneFlags d r len) d (BitVec.ofNat 64 r.1) := by
  unfold State.doneFlags
  simp only [h, if_true]
  rw [State.done_putOwn]
  refine ⟨⟨s.onlyGroup_putOwn _, ?_⟩, fun q => ?_⟩
  · simp only [State.own_putOwn]
    unfold Group.retire Group.setReg Group.accrue
    split <;> rfl
  · simp only [State.x, State.own_putOwn, Group.reg_x, Group.reg_setReg]
    rfl
/-- A result one of whose flags is enabled: ARITH, the register as it was. -/
theorem State.doneFlags_trap (s : State) (d : Reg) (r : Nat × BitVec 6) (len : Nat) (h : r.2 &&& s.own.xen ≠ 0) (H : s.Handles) :
    (s.putOwn (s.own.accrue r.2)).TakesTrap (s.doneFlags d r len) 8 0 0 s.own.pc := by
  unfold State.doneFlags
  simp only [h, if_false]
  have := State.raise_takes (s.putOwn (s.own.accrue r.2)) 8 0 0 (by
    obtain ⟨a, b, c, e⟩ := H
    refine ⟨?_, ?_, ?_, ?_⟩ <;> simp only [State.own_putOwn, State.putOwn_cur, State.slotSet_putOwn] <;> assumption)
  simpa using this

/-! ## Branches and jumps -/

theorem State.retires_retire (s : State) (len : Nat) : s.Retires (s.retire len) len s.own := by
  have := s.retires_putOwn s.own len rfl rfl
  simpa [State.retire] using this

/-- A jump of a state whose group alone differs from `s`, in fields that the jump does not set. -/
theorem State.jumpsTo_putOwn (s : State) (G : Group) (w : Word) (hr : G.retired = s.own.retired) :
    s.JumpsTo ((s.putOwn G).retireTo w) w G := by
  refine ⟨?_, ?_⟩
  · simp only [State.retireTo, State.putOwn_putOwn]; exact s.onlyGroup_putOwn _
  · simp [State.retireTo, Group.retire, hr]

/-- A branch, taken and not taken. -/
theorem State.branch_ok (s : State) (tk : Bool) (off : Word) (len : Nat) :
    (tk = true → s.JumpsTo (s.branch tk off len) (s.own.pc + off * 4) s.own.closeConvoy) ∧ (tk = false → s.Retires (s.branch tk off len) len s.own) := by
  constructor
  · rintro rfl; exact s.jumpsTo_putOwn _ _ rfl
  · rintro rfl; exact s.retires_retire len

end Sys2Proof.Machine
end

