-- ==== Sys2Proof/Laws/Access.lean ====
section
/-!
SUPPORT. Sys2Proof/Laws/Access.lean: what a translation, a window and an empty slice queue can do.
-/

namespace Sys2Proof.Machine

/-! ## Translation changes the TLBs and miss tables alone, and reads no group -/

theorem State.walkAt_groups (s : State) (gs : Table Group) (ap : List Aperture) (va lvl base : Nat) (seen : List (Nat × Nat)) :
    State.walkAt { s with groups := gs } ap va lvl base seen = s.walkAt ap va lvl base seen := by
  induction lvl generalizing base seen with
  | zero => rfl
  | succ l ih => unfold State.walkAt; simp only [ih]; rfl

theorem State.hardwareWalk_groups (s : State) (gs : Table Group) (im : Image) (die va : Nat) :
    State.hardwareWalk { s with groups := gs } im die va = s.hardwareWalk im die va := by
  unfold State.hardwareWalk
  simp only [State.walkAt_groups]

theorem State.translate_groups (s : State) (gs : Table Group) (set die : Nat) (who : Option Nat) (k : Kind) (va id : Nat) :
    State.translate { s with groups := gs } set die who k va id = s.translate set die who k va id := by
  unfold State.translate
  simp only [State.hardwareWalk_groups]
  rfl

theorem State.pageRuns_groups (s : State) (gs : Table Group) (set die : Nat) (who : Option Nat) (k : Kind) (id fuel va n : Nat) :
    State.pageRuns { s with groups := gs } set die who k id fuel va n =
      ({ (s.pageRuns set die who k id fuel va n).1 with groups := gs }, (s.pageRuns set die who k id fuel va n).2) := by
  induction fuel generalizing s va n with
  | zero => rfl
  | succ f ih =>
    unfold State.pageRuns
    simp only [State.translate_groups]
    cases h : (s.translate set die who k va id).2 with
    | fail sub => rfl
    | wait => rfl
    | ok pa leaf log =>
      simp only
      split
      · rfl
      · have := ih { s with tr := (s.translate set die who k va id).1 } (va + (2 ^ log - va % 2 ^ log)) (n - (2 ^ log - va % 2 ^ log))
        simp only at this
        rw [this]
        rcases State.pageRuns { s with tr := (s.translate set die who k va id).1 } set die who k id f (va + (2 ^ log - va % 2 ^ log))
          (n - (2 ^ log - va % 2 ^ log)) with ⟨s2, o⟩
        cases o <;> rfl

theorem State.pageRuns_tr (s : State) (set die : Nat) (who : Option Nat) (k : Kind) (id fuel va n : Nat) :
    (s.pageRuns set die who k id fuel va n).1 = { s with tr := (s.pageRuns set die who k id fuel va n).1.tr } := by
  induction fuel generalizing s va n with
  | zero => rfl
  | succ f ih =>
    unfold State.pageRuns
    cases h : (s.translate set die who k va id).2 with
    | fail sub => simp only [h]
    | wait => simp only [h]
    | ok pa leaf log =>
      simp only [h]
      split
      · rfl
      · have := ih { s with tr := (s.translate set die who k va id).1 } (va + (2 ^ log - va % 2 ^ log)) (n - (2 ^ log - va % 2 ^ log))
        rcases hh : State.pageRuns { s with tr := (s.translate set die who k va id).1 } set die who k id f (va + (2 ^ log - va % 2 ^ log))
          (n - (2 ^ log - va % 2 ^ log)) with ⟨s2, o⟩
        rw [hh] at this
        cases o <;> exact this

/-- A look changes only what translation holds. -/
theorem State.look_tr (s : State) (g : Nat) (k : Kind) (va n id : Nat) : (s.look g k va n id).1 = { s with tr := (s.look g k va n id).1.tr } := by
  unfold State.look
  simp only
  split
  · rfl
  · split
    · split <;> rfl
    · exact s.pageRuns_tr _ _ _ _ _ _ _ _

/-- What a group holds after a change of one group that keeps its pieces. -/
theorem State.window_putGroup (s : State) (g : Nat) (G : Group) (h win off n : Nat) (hh : G.hold = (s.group g).hold) :
    (s.putGroup g G).window h win off n = s.window h win off n := by
  have : ((s.putGroup g G).group h).hold = (s.group h).hold := by
    by_cases e : h = g
    · subst e; rw [s.group_putGroup, hh]
    · rw [s.group_putGroup_ne G e]
  unfold State.window
  simp only [this]
  rfl

/-- A look reads no group but for the pieces of its windows. -/
theorem State.look_putGroup (s : State) (g : Nat) (G : Group) (h : Nat) (k : Kind) (va n id : Nat) (hh : G.hold = (s.group g).hold) :
    (s.putGroup g G).look h k va n id = ((s.look h k va n id).1.putGroup g G, (s.look h k va n id).2) := by
  unfold State.look
  simp only [s.window_putGroup g G h _ _ _ hh]
  split
  · rfl
  · split
    · split <;> rfl
    · have := s.pageRuns_groups (s.groups.put g G) (setOf h) (dieOf h) (some h) k id (n / 4096 + 2) va n
      have e2 : (s.pageRuns (setOf h) (dieOf h) (some h) k id (n / 4096 + 2) va n).1.groups = s.groups := by rw [State.pageRuns_tr]
      unfold State.putGroup
      rw [this, e2]

end Sys2Proof.Machine
end

