-- ==== Sys2Proof/Laws/Memory.lean ====
section
/-!
SUPPORT. Sys2Proof/Laws/Memory.lean: memory in canonical form: every operation keeps the form, a read after a write
gives the value written, and a write leaves every other byte alone.
-/

namespace Sys2Proof.Machine

/-! ## One byte -/

theorem memByte_memPut (m : List Host.Cell) (a b : Nat) (v : Byte) (hw : Memory.wf m = true) :
    memByte (memPut m a v) b = if b = a then v else memByte m b := by
  have low : ∀ (m : List Host.Cell) (c : Nat) (w : Byte), Memory.wf ((c, w) :: m) = true → ∀ x, x ≤ c → x ≠ c → memByte m x = 0 := by
    intro m
    induction m with
    | nil => intros; rfl
    | cons e t ih =>
      obtain ⟨d, u⟩ := e
      intro c w h x hx hn
      simp only [Memory.wf, Bool.and_eq_true, decide_eq_true_eq] at h
      simp only [memByte]
      rw [if_neg (by omega)]
      exact ih d u h.2 x (by omega) (by omega)
  induction m with
  | nil =>
    unfold memPut
    split
    · rename_i h; subst h; simp [memByte]
    · simp only [memByte]
  | cons e t ih =>
    obtain ⟨c, w⟩ := e
    have ht : Memory.wf t = true := by
      cases t with
      | nil => rfl
      | cons f t => simp only [Memory.wf, Bool.and_eq_true] at hw; exact hw.2
    unfold memPut
    by_cases h1 : a < c
    · rw [if_pos h1]
      by_cases hv : v = 0
      · rw [if_pos hv]; subst hv
        by_cases hb : b = a
        · subst hb; simp only [if_true, memByte]; rw [if_neg (by omega)]
          exact low t c w hw b (by omega) (by omega)
        · rw [if_neg hb]
      · rw [if_neg hv]; simp only [memByte]
    · rw [if_neg h1]
      by_cases h2 : a = c
      · subst h2; rw [if_pos rfl]
        by_cases hv : v = 0
        · rw [if_pos hv]; subst hv
          by_cases hb : b = a
          · subst hb; simp only [if_true]
            cases t with
            | nil => rfl
            | cons f t' =>
              obtain ⟨d, u⟩ := f
              simp only [Memory.wf, Bool.and_eq_true, decide_eq_true_eq] at hw
              simp only [memByte]
              rw [if_neg (by omega)]
              exact low t' d u hw.2 b (by omega) (by omega)
          · rw [if_neg hb]; simp only [memByte]; rw [if_neg hb]
        · rw [if_neg hv]; simp only [memByte]
          by_cases hb : b = a <;> simp [hb]
      · rw [if_neg h2]; simp only [memByte, ih ht]
        by_cases hb : b = a
        · subst hb; simp [h2]
        · simp [hb]

/-- A written memory keeps the canonical form. -/
theorem memPut_wf (m : List Host.Cell) (a : Nat) (v : Byte) (hw : Memory.wf m = true) : Memory.wf (memPut m a v) = true := by
  have cons : ∀ (c : Nat) (w : Byte) (m : List Host.Cell), w ≠ 0 → (∀ d u t, m = (d, u) :: t → c < d) → Memory.wf m = true →
      Memory.wf ((c, w) :: m) = true := by
    intro c w m h1 h2 h3
    cases m with
    | nil => simpa [Memory.wf] using h1
    | cons e t =>
      obtain ⟨d, u⟩ := e
      simp only [Memory.wf, Bool.and_eq_true, decide_eq_true_eq]
      exact ⟨⟨h1, h2 d u t rfl⟩, h3⟩
  induction m with
  | nil => unfold memPut; split <;> simp_all [Memory.wf]
  | cons e t ih =>
    obtain ⟨c, w⟩ := e
    have ht : Memory.wf t = true := by
      cases t with
      | nil => rfl
      | cons f t => simp only [Memory.wf, Bool.and_eq_true] at hw; exact hw.2
    have hc : w ≠ 0 := by
      cases t with
      | nil => simpa [Memory.wf] using hw
      | cons f t => simp only [Memory.wf, Bool.and_eq_true, decide_eq_true_eq] at hw; exact hw.1.1
    have hl : ∀ d u t', t = (d, u) :: t' → c < d := by
      intro d u t' h; subst h
      simp only [Memory.wf, Bool.and_eq_true, decide_eq_true_eq] at hw; exact hw.1.2
    unfold memPut
    split
    · split
      · exact hw
      · exact cons _ _ _ ‹_› (by intro d u t' h; cases h; assumption) hw
    · split
      · rename_i h2; subst h2
        split
        · exact ht
        · exact cons _ _ _ ‹_› hl ht
      · rename_i h1 h2
        refine cons _ _ _ hc ?_ (ih ht)
        intro d u t' h
        cases t with
        | nil =>
          unfold memPut at h
          split at h
          · exact absurd h (by simp)
          · cases h; omega
        | cons f t =>
          obtain ⟨d0, u0⟩ := f
          have := hl d0 u0 t rfl
          unfold memPut at h
          split at h
          · split at h <;> cases h <;> omega
          · split at h
            · split at h
              · subst h
                simp only [Memory.wf, Bool.and_eq_true, decide_eq_true_eq] at ht
                omega
              · cases h; omega
            · cases h; omega

/-- A filtered memory keeps the canonical form. -/
theorem Memory.wf_filter (m : List Host.Cell) (p : Host.Cell → Bool) (hw : Memory.wf m = true) : Memory.wf (m.filter p) = true := by
  have key : ∀ m : List Host.Cell, Memory.wf m = true ↔ m.Pairwise (fun a b => a.1 < b.1) ∧ ∀ c ∈ m, c.2 ≠ 0 := by
    intro m
    induction m with
    | nil => simp [Memory.wf]
    | cons e t ih =>
      obtain ⟨a, v⟩ := e
      cases t with
      | nil => simp [Memory.wf]
      | cons f t =>
        obtain ⟨b, w⟩ := f
        simp only [Memory.wf, Bool.and_eq_true, decide_eq_true_eq, ih, List.pairwise_cons, List.mem_cons, forall_eq_or_imp]
        constructor
        · rintro ⟨⟨hv, hab⟩, ⟨⟨h1, h2⟩, h3⟩⟩
          exact ⟨⟨⟨hab, fun c hc => by have := h1 c hc; omega⟩, h1, h2⟩, hv, h3⟩
        · rintro ⟨⟨⟨hab, h0⟩, h1, h2⟩, hv, h3⟩
          exact ⟨⟨hv, hab⟩, ⟨⟨h1, h2⟩, h3⟩⟩
  rw [key] at hw ⊢
  exact ⟨hw.1.filter _, fun c hc => hw.2 c (List.mem_of_mem_filter hc)⟩

/-! ## Runs of bytes -/

theorem memPutBytes_wf (bs : List Byte) (m : List Host.Cell) (a : Nat) (hw : Memory.wf m = true) : Memory.wf (memPutBytes m a bs) = true := by
  induction bs generalizing m a with
  | nil => exact hw
  | cons b bs ih => exact ih _ _ (memPut_wf m a b hw)

theorem memByte_memPutBytes (bs : List Byte) (m : List Host.Cell) (a b : Nat) (hw : Memory.wf m = true) :
    memByte (memPutBytes m a bs) b = if h : a ≤ b ∧ b < a + bs.length then bs[b - a]'(by omega) else memByte m b := by
  induction bs generalizing m a with
  | nil => simp [memPutBytes]
  | cons v bs ih =>
    simp only [memPutBytes, List.length_cons]
    rw [ih _ _ (memPut_wf m a v hw), memByte_memPut m a b v hw]
    by_cases h1 : b = a
    · subst h1; simp
    · by_cases h2 : a + 1 ≤ b ∧ b < a + 1 + bs.length
      · rw [dif_pos h2, dif_pos (by omega)]
        have : b - a = (b - (a + 1)) + 1 := by omega
        simp only [this, List.getElem_cons_succ]
      · rw [dif_neg h2, if_neg h1, dif_neg (by omega)]

theorem memBytes_length (m : List Host.Cell) (a n : Nat) : (memBytes m a n).length = n := by
  induction n generalizing a with
  | zero => rfl
  | succ n ih => simp [memBytes, ih]

theorem memBytes_getElem (m : List Host.Cell) (a n i : Nat) (h : i < (memBytes m a n).length) : (memBytes m a n)[i] = memByte m (a + i) := by
  induction n generalizing a i with
  | zero => simp [memBytes] at h
  | succ n ih =>
    cases i with
    | zero => rfl
    | succ i =>
      simp only [memBytes, List.getElem_cons_succ]
      rw [ih]; congr 1; omega

/-- A read after a write to the same place gives the bytes written. -/
theorem memBytes_memPutBytes (bs : List Byte) (m : List Host.Cell) (a : Nat) (hw : Memory.wf m = true) :
    memBytes (memPutBytes m a bs) a bs.length = bs := by
  apply List.ext_getElem
  · exact memBytes_length _ _ _
  · intro i h1 h2
    rw [memBytes_getElem, memByte_memPutBytes bs m a _ hw, dif_pos (by omega)]
    simp

/-! ## Bytes written at a place (R332, R96) -/

theorem Table.find_map {α β : Type} (t : Table α) (f : Nat → α → β) (n : Nat) :
    Table.find (t.map fun e => (e.1, f e.1 e.2)) n = (Table.find t n).map (f n) := by
  induction t with
  | nil => rfl
  | cons e t ih =>
    obtain ⟨k, v⟩ := e
    simp only [List.map_cons, Table.find, ih]
    split
    · rename_i h; subst h; rfl
    · rfl

theorem State.group_touch (s : State) (by_ : Option Nat) (lo n h : Nat) : (s.touch by_ lo n).group h = touchGroup by_ lo n h (s.group h) := by
  unfold State.touch State.group Table.findD
  simp only [Table.find_map]
  cases Table.find s.groups h with
  | none => rfl
  | some G => rfl

/-- The tile directory's update changes the directory alone. -/
theorem State.reclassify_bdir (s : State) (cell : Nat) (tag : Option Tag) (poison : Option Bool) (l : List Nat) :
    s.reclassify cell tag poison l = { s with bdir := (s.reclassify cell tag poison l).bdir } := by
  induction l generalizing s with
  | nil => rfl
  | cons n ns ih => unfold State.reclassify; rw [ih]

theorem State.retile_bdir (s : State) (tag : Option Tag) (poison : Option Bool) (pa n : Nat) :
    s.retile tag poison pa n = { s with bdir := (s.retile tag poison pa n).bdir } := by
  unfold State.retile
  split
  · exact s.reclassify_bdir _ _ _ _
  · rfl

/-- What a write at a place does: see `State.StoresAt`. -/
theorem State.writeAs_stores (s : State) (by_ : Option Nat) (tag : Option Tag) (poison : Option Bool) (pa : Nat) (data : List Byte)
    (hm : s.MemCanonical) (hd : data ≠ []) : s.StoresAt (s.writeAs by_ tag poison pa data) by_ pa data := by
  have he : data.isEmpty = false := by cases data <;> simp_all
  unfold State.writeAs
  simp only [he]
  by_cases hh : paHost pa = true
  · simp only [hh, if_true, Bool.false_eq_true, if_false]
    refine ⟨rfl, ?_, fun _ _ => rfl, fun a ha => ?_, fun h => by rw [State.group_touch]; rfl⟩
    · unfold State.readAt; simp only [hh, if_true]
      exact memBytes_memPutBytes data s.hostMem _ hm.2
    · show memByte (memPutBytes s.hostMem (pa % 2 ^ 51) data) a = _
      rw [memByte_memPutBytes _ _ _ _ hm.2, dif_neg]
      rcases ha with ha | ha | ha
      · exact absurd (hh.symm.trans ha) (by decide)
      · omega
      · omega
  · have hf : paHost pa = false := by simpa using hh
    simp only [hf, Bool.false_eq_true, if_false]
    rw [State.retile_bdir]
    refine ⟨rfl, ?_, fun a ha => ?_, fun _ _ => rfl, fun h => by rw [State.group_touch]; rfl⟩
    · unfold State.readAt; simp only [hf, Bool.false_eq_true, if_false]
      exact memBytes_memPutBytes data s.mem _ hm.1
    · show memByte (memPutBytes s.mem pa data) a = _
      rw [memByte_memPutBytes _ _ _ _ hm.1, dif_neg]
      rcases ha with ha | ha | ha
      · exact absurd (hf.symm.trans ha) (by decide)
      · omega
      · omega

end Sys2Proof.Machine
end

