-- ==== Sys2Proof/Laws/Vector.lean ====
section
/-!
SUPPORT. Sys2Proof/Laws/Vector.lean: elements and register groups read back after a write, and what the issue of a vector
instruction and the element loop do when nothing holds them up.
-/

namespace Sys2Proof.Machine

/-! ## Elements of bit strings -/

theorem elemOf_lt (s w i : Nat) : elemOf s w i < 2 ^ w := Nat.mod_lt _ (by positivity)

theorem elemPut_eq (s w i v : Nat) :
    elemPut s w i v = s / 2 ^ (w * i + w) * 2 ^ (w * i + w) + (v % 2 ^ w) * 2 ^ (w * i) + s % 2 ^ (w * i) := by
  unfold elemPut elemOf
  have h1 := Nat.div_add_mod s (2 ^ (w * i))
  have h2 := Nat.div_add_mod (s / 2 ^ (w * i)) (2 ^ w)
  rw [Nat.div_div_eq_div_mul, ← pow_add] at h2
  have h3 : s / 2 ^ (w * i + w) * 2 ^ (w * i + w) = 2 ^ (w * i) * (2 ^ w * (s / 2 ^ (w * i + w))) := by rw [pow_add]; ring
  rw [h3]
  generalize s / 2 ^ (w * i + w) = q at *
  generalize hr : s / 2 ^ (w * i) % 2 ^ w = r at *
  rw [← h2] at h1
  have h4 : 2 ^ (w * i) * (2 ^ w * q + r) = 2 ^ (w * i) * (2 ^ w * q) + r * 2 ^ (w * i) := by ring
  rw [h4] at h1
  omega

/-- An element of a bit string after one was replaced. -/
theorem elemOf_elemPut (s w i j v : Nat) : elemOf (elemPut s w i v) w j = if j = i then v % 2 ^ w else elemOf s w j := by
  rw [elemPut_eq]
  have lo := Nat.mod_lt s (show 0 < 2 ^ (w * i) by positivity)
  have hv := Nat.mod_lt v (show 0 < 2 ^ w by positivity)
  have e1 : s / 2 ^ (w * i + w) * 2 ^ (w * i + w) + v % 2 ^ w * 2 ^ (w * i) + s % 2 ^ (w * i) =
      2 ^ (w * i) * (s / 2 ^ (w * i + w) * 2 ^ w + v % 2 ^ w) + s % 2 ^ (w * i) := by rw [pow_add]; ring
  by_cases h : j = i
  · subst h
    rw [if_pos rfl, e1]
    unfold elemOf
    rw [Nat.mul_add_div (by positivity), Nat.div_eq_of_lt lo, Nat.add_zero, Nat.add_mod, Nat.mul_mod_left, Nat.zero_add, Nat.mod_mod, Nat.mod_mod]
  · rw [if_neg h]
    unfold elemOf
    rcases Nat.lt_or_gt_of_ne h with hl | hg
    · -- below
      have : w * i = w * j + w + w * (i - j - 1) := by
        have : i = j + 1 + (i - j - 1) := by omega
        conv_lhs => rw [this]
        ring
      have e2 : s % 2 ^ (w * i) / 2 ^ (w * j) % 2 ^ w = s / 2 ^ (w * j) % 2 ^ w := by
        rw [this, Nat.add_assoc, pow_add, Nat.mod_mul_right_div_self, pow_add, Nat.mod_mul_right_mod]
      rw [e1]
      have e3 : 2 ^ (w * i) = 2 ^ (w * j) * (2 ^ w * 2 ^ (w * (i - j - 1))) := by rw [← pow_add, ← pow_add]; congr 1; omega
      conv_lhs => rw [e3]
      rw [Nat.mul_assoc, Nat.mul_add_div (by positivity), Nat.mul_assoc, Nat.mul_add_mod, ← e3, e2]
    · -- above
      have : w * j = w * i + w + w * (j - i - 1) := by
        have : j = i + 1 + (j - i - 1) := by omega
        conv_lhs => rw [this]
        ring
      have e2 : (s / 2 ^ (w * i + w) * 2 ^ (w * i + w) + v % 2 ^ w * 2 ^ (w * i) + s % 2 ^ (w * i)) / 2 ^ (w * i + w) = s / 2 ^ (w * i + w) := by
        have : v % 2 ^ w * 2 ^ (w * i) + s % 2 ^ (w * i) < 2 ^ (w * i + w) := by
          have h1 : (v % 2 ^ w + 1) * 2 ^ (w * i) ≤ 2 ^ w * 2 ^ (w * i) := Nat.mul_le_mul_right _ hv
          rw [pow_add, Nat.mul_comm (2 ^ (w * i))]
          have : (v % 2 ^ w + 1) * 2 ^ (w * i) = v % 2 ^ w * 2 ^ (w * i) + 2 ^ (w * i) := by ring
          omega
        rw [Nat.add_assoc, Nat.mul_comm, Nat.mul_add_div (by positivity), Nat.div_eq_of_lt this, Nat.add_zero]
      rw [this, pow_add _ (w * i + w), ← Nat.div_div_eq_div_mul, e2, Nat.div_div_eq_div_mul, ← pow_add]

theorem elemPut_lt (s w i v n : Nat) (hs : s < 2 ^ n) (hi : w * i + w ≤ n) : elemPut s w i v < 2 ^ n := by
  rw [elemPut_eq]
  have hn : 2 ^ n = 2 ^ (n - (w * i + w)) * 2 ^ (w * i + w) := by rw [← pow_add]; congr 1; omega
  have hq : s / 2 ^ (w * i + w) < 2 ^ (n - (w * i + w)) := by rw [Nat.div_lt_iff_lt_mul (by positivity), ← hn]; exact hs
  have lo := Nat.mod_lt s (show 0 < 2 ^ (w * i) by positivity)
  have hv := Nat.mod_lt v (show 0 < 2 ^ w by positivity)
  have : v % 2 ^ w * 2 ^ (w * i) + s % 2 ^ (w * i) < 2 ^ (w * i + w) := by
    have h1 : (v % 2 ^ w + 1) * 2 ^ (w * i) ≤ 2 ^ w * 2 ^ (w * i) := Nat.mul_le_mul_right _ hv
    rw [pow_add, Nat.mul_comm (2 ^ (w * i))]
    have : (v % 2 ^ w + 1) * 2 ^ (w * i) = v % 2 ^ w * 2 ^ (w * i) + 2 ^ (w * i) := by ring
    omega
  have h2 : (s / 2 ^ (w * i + w) + 1) * 2 ^ (w * i + w) ≤ 2 ^ (n - (w * i + w)) * 2 ^ (w * i + w) := Nat.mul_le_mul_right _ hq
  have : (s / 2 ^ (w * i + w) + 1) * 2 ^ (w * i + w) = s / 2 ^ (w * i + w) * 2 ^ (w * i + w) + 2 ^ (w * i + w) := by ring
  omega

/-! ## Register groups -/

theorem groupBits_lt (v : Vector (BitVec 8192) 32) (n k : Nat) : groupBits v n k < 2 ^ (8192 * k) := by
  induction k generalizing n with
  | zero => simp [groupBits]
  | succ k ih =>
    unfold groupBits
    have h1 := (v[n]?.getD 0).isLt
    have h2 := ih (n + 1)
    have e : 2 ^ (8192 * (k + 1)) = 2 ^ 8192 * 2 ^ (8192 * k) := by rw [← pow_add]; congr 1; omega
    rw [e]
    calc (v[n]?.getD 0).toNat + 2 ^ 8192 * groupBits v (n + 1) k
        < 2 ^ 8192 + 2 ^ 8192 * groupBits v (n + 1) k := Nat.add_lt_add_right h1 _
      _ = 2 ^ 8192 * (groupBits v (n + 1) k + 1) := by rw [Nat.mul_add, Nat.mul_one, Nat.add_comm]
      _ ≤ 2 ^ 8192 * 2 ^ (8192 * k) := Nat.mul_le_mul_left _ h2

theorem putGroupBits_out (v : Vector (BitVec 8192) 32) (n b k r : Nat) (hr : r < 32) (ho : r < n ∨ n + k ≤ r) :
    (putGroupBits v n b k)[r] = v[r] := by
  induction k generalizing v n b with
  | zero => rfl
  | succ k ih =>
    unfold putGroupBits
    rw [ih _ _ _ (by omega), Vector.getElem_setIfInBounds]
    rw [if_neg (by omega)]

theorem putTags_out (v : Vector Tag 32) (n : Nat) (t : Tag) (k r : Nat) (hr : r < 32) (ho : r < n ∨ n + k ≤ r) :
    (putTags v n t k)[r] = v[r] := by
  induction k generalizing v n with
  | zero => rfl
  | succ k ih =>
    unfold putTags
    rw [ih _ _ (by omega), Vector.getElem_setIfInBounds]
    rw [if_neg (by omega)]

theorem putTags_in (v : Vector Tag 32) (n : Nat) (t : Tag) (k r : Nat) (hr : r < 32) (h1 : n ≤ r) (h2 : r < n + k) :
    (putTags v n t k)[r] = t := by
  induction k generalizing v n with
  | zero => omega
  | succ k ih =>
    unfold putTags
    by_cases h : n = r
    · subst h; rw [putTags_out _ _ _ _ _ hr (by omega), Vector.getElem_setIfInBounds, if_pos rfl]
    · exact ih _ _ (by omega) (by omega)

theorem groupBits_putGroupBits (v : Vector (BitVec 8192) 32) (n b k : Nat) (hn : n + k ≤ 32) :
    groupBits (putGroupBits v n b k) n k = b % 2 ^ (8192 * k) := by
  induction k generalizing v n b with
  | zero => simp [groupBits, Nat.mod_one]
  | succ k ih =>
    unfold groupBits putGroupBits
    rw [ih _ _ _ (by omega)]
    have h0 : (putGroupBits (v.setIfInBounds n (BitVec.ofNat 8192 b)) (n + 1) (b / 2 ^ 8192) k)[n]?.getD 0 = BitVec.ofNat 8192 b := by
      rw [Vector.getElem?_eq_getElem (by omega), Option.getD_some, putGroupBits_out _ _ _ _ _ (by omega) (by omega), Vector.getElem_setIfInBounds, if_pos rfl]
    rw [h0, BitVec.toNat_ofNat]
    have e : 2 ^ (8192 * (k + 1)) = 2 ^ 8192 * 2 ^ (8192 * k) := by rw [← pow_add]; congr 1; omega
    rw [e, Nat.mod_mul]

theorem Group.lmul_cases (G : Group) : G.lmul = 1 ∨ G.lmul = 2 ∨ G.lmul = 4 ∨ G.lmul = 8 := by
  unfold Group.lmul
  have : bits G.vcfg 0 2 < 4 := Nat.mod_lt _ (by norm_num)
  interval_cases bits G.vcfg 0 2 <;> simp

theorem Group.aligned_room (G : Group) (d : Reg) (h : d.toNat % G.lmul = 0) : d.toNat + G.lmul ≤ 32 := by
  have := d.isLt
  rcases G.lmul_cases with e | e | e | e <;> rw [e] at h ⊢ <;> omega

/-- The bits of a group read back after a write of them. -/
theorem Group.vbits_setBits (G : Group) (d : Reg) (b : Nat) (h : d.toNat % G.lmul = 0) : (G.setBits d b).vbits d = b % 2 ^ (8192 * G.lmul) :=
  groupBits_putGroupBits _ _ _ _ (G.aligned_room d h)

@[simp] theorem Group.setTag_v (G : Group) (d : Reg) (t : Tag) : (G.setTag d t).v = G.v := rfl
@[simp] theorem Group.setTag_vcfg (G : Group) (d : Reg) (t : Tag) : (G.setTag d t).vcfg = G.vcfg := rfl
@[simp] theorem Group.setTag_vtag (G : Group) (d : Reg) (t : Tag) : (G.setTag d t).vtag = putTags G.vtag d.toNat t G.lmul := rfl
@[simp] theorem Group.setBits_v (G : Group) (d : Reg) (b : Nat) : (G.setBits d b).v = putGroupBits G.v d.toNat b G.lmul := rfl
@[simp] theorem Group.setBits_vcfg (G : Group) (d : Reg) (b : Nat) : (G.setBits d b).vcfg = G.vcfg := rfl
@[simp] theorem Group.setBits_vtag (G : Group) (d : Reg) (b : Nat) : (G.setBits d b).vtag = G.vtag := rfl

theorem Group.lmul_congr (G H : Group) (h : G.vcfg = H.vcfg) : G.lmul = H.lmul := by unfold Group.lmul; rw [h]

theorem Group.vbits_of (G : Group) {v : Vector (BitVec 8192) 32} {k : Nat} (d : Reg) (h : G.lmul = k) (hv : G.v = v) : G.vbits d = groupBits v d.toNat k := by
  unfold Group.vbits; rw [h, hv]

/-! ## Issue: nothing in the way -/

theorem Group.boundTo_apart (G : Group) (l : List Reg) (r : Reg) (hr : r ∈ l) (h : ∀ c ∈ G.chan.toList, c.Apart G.lmul l) : G.boundTo r = none := by
  unfold Group.boundTo
  rw [List.find?_eq_none]
  intro n hn
  simp only [Bool.and_eq_true, decide_eq_true_eq, not_and]
  intro hb hv
  by_cases h16 : n < 16
  · rw [Vector.getElem?_eq_getElem h16, Option.getD_some] at hb hv
    exact (h G.chan[n] (by simp) hb r hr).1 hv
  · rw [Vector.getElem?_eq_none (by omega)] at hb
    exact absurd hb (by decide)

theorem Group.boundOk_apart (G : Group) (reads : List Reg) (w : Option Reg) (h : ∀ c ∈ G.chan.toList, c.Apart G.lmul (reads ++ w.toList)) :
    G.boundOk reads w = true := by
  unfold Group.boundOk
  rw [List.all_eq_true]
  intro c hc
  have := h c hc
  unfold Channel.Apart at this
  simp only [Bool.and_eq_true, Bool.not_eq_true']
  refine ⟨?_, ?_⟩
  · cases w with
    | none => rfl
    | some r =>
      simp only [Bool.and_eq_false_iff, decide_eq_false_iff_not]
      by_cases hb : c.st = .bound
      · right; have := (this hb r (by simp)).2; omega
      · left; exact hb
  · rw [List.any_eq_false]
    intro r hr
    simp only [Bool.and_eq_true, decide_eq_true_eq, not_and]
    intro hb h1
    have := (this hb.1 r (by simp [hr])).2
    have := hb.2
    omega

/-- The sources of an instruction whose groups no stream feeds. -/
theorem State.takeSources_apart (s : State) (act : Nat → Bool) (l : List Reg) (acc : List Source)
    (h : ∀ r ∈ l, s.own.boundTo r = none) (ha : ∀ q ∈ acc, q.bits = s.own.vbits q.reg ∧ q.stop = none) :
    ∃ srcs, s.takeSources act l acc = (s, some srcs) ∧ (∀ q ∈ srcs, q.bits = s.own.vbits q.reg ∧ q.stop = none) ∧
      (∀ q ∈ acc, q ∈ srcs) ∧ ∀ r ∈ l, ∃ q ∈ srcs, q.reg = r := by
  induction l generalizing acc with
  | nil => exact ⟨acc, rfl, ha, fun _ h => h, by simp⟩
  | cons r rs ih =>
    unfold State.takeSources
    by_cases hd : (acc.any fun q => q.reg == r) = true
    · rw [if_pos hd]
      obtain ⟨srcs, h1, h2, h3, h4⟩ := ih acc (fun x hx => h x (by simp [hx])) ha
      refine ⟨srcs, h1, h2, h3, fun x hx => ?_⟩
      rcases List.mem_cons.mp hx with rfl | hx
      · obtain ⟨q, hq, he⟩ := List.any_eq_true.mp hd
        exact ⟨q, h3 q hq, by simpa using he⟩
      · exact h4 x hx
    · rw [if_neg hd, h r (by simp)]
      obtain ⟨srcs, h1, h2, h3, h4⟩ := ih (acc ++ [{ reg := r, bits := s.own.vbits r, stop := none }]) (fun x hx => h x (by simp [hx])) (by
        intro q hq
        rcases List.mem_append.mp hq with hq | hq
        · exact ha q hq
        · simp only [List.mem_singleton] at hq; subst hq; exact ⟨rfl, rfl⟩)
      refine ⟨srcs, h1, h2, fun q hq => h3 q (by simp [hq]), fun x hx => ?_⟩
      rcases List.mem_cons.mp hx with rfl | hx
      · exact ⟨_, h3 { reg := x, bits := s.own.vbits x, stop := none } (by simp), rfl⟩
      · exact h4 x hx

theorem srcStop_none (l : List Source) (h : ∀ q ∈ l, q.stop = none) : srcStop l = none := by
  unfold srcStop
  induction l with
  | nil => rfl
  | cons q l ih => simp only [List.foldl_cons, h q (by simp)]; exact ih (fun x hx => h x (by simp [hx]))

theorem srcBits_of (l : List Source) (G : Group) (r : Reg) (h : ∀ q ∈ l, q.bits = G.vbits q.reg) (hr : ∃ q ∈ l, q.reg = r) : srcBits l r = G.vbits r := by
  unfold srcBits
  obtain ⟨q, hq, he⟩ := hr
  cases hf : l.find? fun q => q.reg == r with
  | none =>
    rw [List.find?_eq_none] at hf
    exact absurd (by simp [he]) (hf q hq)
  | some p =>
    have h1 := List.mem_of_find?_eq_some hf
    have h2 := List.find?_some hf
    simp only [Option.map_some, Option.getD_some]
    rw [h p h1]; congr 1; simpa using h2

/-- A pop waits for nothing where the asynchronous path is empty. -/
theorem State.joinPushed_none (s : State) (pop : Option (BitVec 4)) (h : pop.isSome = true → s.own.async = []) : s.joinPushed pop = s := by
  unfold State.joinPushed
  split
  · rename_i hp
    have e : (s.group s.cur).async = [] := h hp
    unfold State.flush
    rw [e]
    rfl
  · rfl

/-- Where no source is fed by a stream, nothing was popped. -/
theorem State.unpop_apart (s old : State) (l : List Reg) (h : ∀ r ∈ l, old.own.boundTo r = none) : s.unpop old l = s := by
  unfold State.unpop
  rw [if_neg]
  simpa using h

/-- The issue of a vector instruction that nothing holds up: its body, with its sources as the registers hold them. -/
theorem State.vectorWith_ready {α : Type} (s : State) (h : VHead) (legal : Bool) (ready : State → List Source → Nat → State × Option α)
    (body : State → α → State) (hr : s.VReady h) (hl : legal = true) :
    ∃ srcs, srcStop srcs = none ∧ (∀ r ∈ h.reads, srcBits srcs r = s.own.vbits r) ∧
      s.vectorWith h legal ready body =
        match ready s srcs s.own.startElem with
        | (s2, none) => s2
        | (s2, some v) => body (s2.putOwn s2.own.begin) v := by
  obtain ⟨ha, hp, hq, hm, hc, ht, hy⟩ := hr
  have e5 : (h.tk.pop.isSome && !s.own.async.isEmpty) = false := by
    by_cases hx : h.tk.pop.isSome = true
    · simp [hx, hy hx]
    · simp [Bool.not_eq_true _ ▸ hx]
  have hb0 : ∀ r ∈ h.reads, s.own.boundTo r = none := fun r hr =>
    s.own.boundTo_apart (h.reads ++ h.writes.toList) r (by simp [hr]) fun c hcc => (hc c hcc).1
  obtain ⟨srcs, h1, h2, -, h4⟩ := s.takeSources_apart (s.own.used h) h.reads [] hb0 (by simp)
  have hs := srcStop_none srcs fun q hq => (h2 q hq).2
  refine ⟨srcs, hs, fun r hr => srcBits_of srcs s.own r (fun q hq => (h2 q hq).1) (h4 r hr), ?_⟩
  have hb := s.own.boundOk_apart h.reads h.writes fun c hcc => (hc c hcc).1
  have e1 : ((h.reads ++ h.writes.toList).all s.own.aligned) = true := by
    rw [List.all_eq_true]; intro r hr; unfold Group.aligned; simpa using ha r hr
  have e2 : s.own.openPipes.contains h.pipe = false := by simpa using hp
  have e3 : ((h.mask.isSome || h.usesMask) && decide (s.own.vl > 8192)) = false := by
    by_cases hx : (h.mask.isSome || h.usesMask) = true
    · rw [show decide (s.own.vl > 8192) = false from decide_eq_false (by have := hm hx; omega), Bool.and_false]
    · simp only [Bool.not_eq_true] at hx; rw [hx]; rfl
  have e4 : (h.tk.pop.filter fun f => decide (s.own.fifos[f.toNat] = 0)) = none := by
    cases hpop : h.tk.pop with
    | none => rfl
    | some f => simp only [Option.filter, ht f hpop]; simp
  unfold State.vectorWith
  simp only [e1, e2, hl, e3, hb, hq, h1, e4, hs, s.joinPushed_none h.tk.pop hy, e5, fun u => State.unpop_apart u s h.reads hb0]
  simp only [Bool.not_true, Bool.false_eq_true, Bool.or_self, if_false, ite_self]
  all_goals rcases ready s srcs s.own.startElem with ⟨s2, _ | v⟩ <;> rfl

/-! ## The element loop -/

theorem upFrom_mem (lo n x : Nat) : x ∈ upFrom lo n ↔ lo ≤ x ∧ x < lo + n := by
  induction n generalizing lo with
  | zero => simp [upFrom]
  | succ n ih => simp only [upFrom, List.mem_cons, ih]; omega

/-- Flags of no consequence leave a group as it is. -/
theorem Group.accrueLane_zero (G : Group) (l : Nat) : G.accrueLane l 0 = G := by
  unfold Group.accrueLane
  have : G.laneFlags.setIfInBounds l ((G.laneFlags[l]?.getD 0) ||| 0) = G.laneFlags := by
    ext i hi
    rw [Vector.getElem_setIfInBounds]
    split
    · rename_i h; subst h; rw [Vector.getElem?_eq_getElem hi]; simp
    · rfl
  rw [this]

/-- The loop over elements none of which raises an enabled flag. -/
theorem elemLoop_done (act : Nat → Bool) (xen : BitVec 6) (w lw : Nat) (f : Nat → Nat × BitVec 6) (n i b : Nat) (G : Group)
    (hf : ∀ j ∈ (upFrom i n).filter act, (f j).2 &&& xen = 0) :
    ∃ b', elemLoop act none xen w lw f n i b G = (b', ((upFrom i n).filter act).foldl (fun H j => H.accrueLane (laneOf lw j) (f j).2) G, none) ∧
      (∀ j, elemOf b' w j = if j ∈ (upFrom i n).filter act then (f j).1 % 2 ^ w else elemOf b w j) ∧
      ∀ top, b < 2 ^ top → (∀ j ∈ (upFrom i n).filter act, w * j + w ≤ top) → b' < 2 ^ top := by
  induction n generalizing i b G with
  | zero => exact ⟨b, rfl, by simp [upFrom], fun _ h _ => h⟩
  | succ n ih =>
    unfold elemLoop
    by_cases ha : act i = true
    · have hi : (f i).2 &&& xen = 0 := hf i (by simp [upFrom, ha])
      simp only [ha, Bool.not_true, Bool.false_eq_true, if_false, hi, ne_eq, not_true_eq_false]
      have hG : (if (f i).2 = 0 then G else G.accrueLane (laneOf lw i) (f i).2) = G.accrueLane (laneOf lw i) (f i).2 := by
        split
        · rename_i h; rw [h, Group.accrueLane_zero]
        · rfl
      rw [hG]
      obtain ⟨b', h1, h2, h3⟩ := ih (i + 1) (elemPut b w i (f i).1) (G.accrueLane (laneOf lw i) (f i).2) (fun j hj => hf j (by simp [upFrom, ha]; right; simpa using hj))
      refine ⟨b', ?_, fun j => ?_, fun top hb ht => ?_⟩
      · rw [h1]; simp [upFrom, ha]
      · rw [h2, elemOf_elemPut]
        have hni : i ∉ (upFrom (i + 1) n).filter act := by rw [List.mem_filter, upFrom_mem]; omega
        simp only [upFrom, List.filter_cons, ha, if_true, List.mem_cons]
        by_cases hj : j = i
        · subst hj; simp [hni]
        · simp [hj]
      · exact h3 top (elemPut_lt _ _ _ _ _ hb (ht i (by simp [upFrom, ha]))) fun j hj => ht j (by simp [upFrom, ha]; right; simpa using hj)
    · have ha' : act i = false := by simpa using ha
      simp only [ha', Bool.not_false, if_true]
      obtain ⟨b', h1, h2, h3⟩ := ih (i + 1) b G (fun j hj => hf j (by simp [upFrom, ha']; simpa using hj))
      refine ⟨b', ?_, fun j => ?_, fun top hb ht => ?_⟩
      · rw [h1]; simp [upFrom, ha']
      · rw [h2]; simp [upFrom, ha']
      · exact h3 top hb fun j hj => ht j (by simp [upFrom, ha']; simpa using hj)

/-- Accrual of lane flags leaves every other field. -/
theorem accrue_foldl (l : List Nat) (lw : Nat) (f : Nat → BitVec 6) (G : Group) :
    l.foldl (fun H j => H.accrueLane (laneOf lw j) (f j)) G = { G with laneFlags := G.flagsAfter lw f l } := by
  unfold Group.flagsAfter
  induction l generalizing G with
  | nil => rfl
  | cons j l ih => simp only [List.foldl_cons]; rw [ih]; rfl

/-! ## Completion of an element by element instruction -/

theorem Channel.dropHeld_none (c : Channel) (p : HeldStrip → Bool) (h : ∀ q ∈ c.held, p q = false) : c.dropHeld p = c := by
  unfold Channel.dropHeld
  rw [if_neg]
  simpa using h

theorem Group.dropStrips_apart (G : Group) (h : ∀ c ∈ G.chan.toList, ∀ q ∈ c.held, q.pc ≠ G.pc) : G.dropStrips = G := by
  have key : G.dropStrips.chan = G.chan := by
    apply Vector.ext
    intro i hi
    unfold Group.dropStrips
    simp only [Vector.getElem_map]
    exact Channel.dropHeld_none _ _ fun q hq => by simpa using h G.chan[i] (by simp) q hq
  show { G with chan := G.dropStrips.chan } = G
  rw [key]

theorem Group.join_popToken (G : Group) (f : Option (BitVec 4)) (h : VHead) : (G.popToken f).join h = G.join h := by cases f <;> rfl

theorem tagWidth_pos (t : Tag) : 0 < tagWidth t := by cases t <;> decide

theorem Group.fits_room (G : Group) (t : Tag) (h : G.fits t = true) (i : Nat) (hi : i < G.vl) : tagWidth t * i + tagWidth t ≤ 8192 * G.lmul := by
  unfold Group.fits Group.vlmax at h
  have h := (Nat.le_div_iff_mul_le (tagWidth_pos t)).mp (of_decide_eq_true h)
  have : tagWidth t * (i + 1) ≤ tagWidth t * G.vl := Nat.mul_le_mul_left _ hi
  rw [Nat.mul_comm (tagWidth t) G.vl] at this
  calc tagWidth t * i + tagWidth t = tagWidth t * (i + 1) := by ring
    _ ≤ _ := by omega

/-- What `vdone` leaves: the group stored, its token gone, its convoy joined. -/
theorem State.vdone_retires (s u : State) (h : VHead) (H : Group) (hu : ∃ G0, u = s.putOwn G0) (hp : H.pc = s.own.pc) (hr : H.retired = s.own.retired)
    (hch : H.chan = s.own.chan) (hfi : H.fifos = s.own.fifos) (hv : H.vresume = if s.own.resume then 0 else s.own.vresume)
    (hheld : ∀ c ∈ s.own.chan.toList, ∀ q ∈ c.held, q.pc ≠ s.own.pc) : s.VRetires ((u.putOwn H).vdone h) h H := by
  obtain ⟨G0, rfl⟩ := hu
  unfold State.vdone
  have e : H.dropStrips = H := H.dropStrips_apart (by rw [hch, hp]; exact hheld)
  simp only [State.putOwn_putOwn, State.own_putOwn, e, State.retire_putOwn]
  refine ⟨s.onlyGroup_putOwn _, ?_⟩
  simp only [State.own_putOwn, Group.join_popToken]
  unfold Group.popToken Group.retire
  cases h.tk.pop <;> simp [hp, hr, hfi, hv]

/-- What `vdone` leaves of a group that differs from the issuing one in its vector registers, their tags and its lane flags. -/
theorem State.vdone_keeps (s u : State) (h : VHead) (v : Vector (BitVec 8192) 32) (w : Vector Tag 32) (l : Vector (BitVec 6) 16)
    (hheld : ∀ c ∈ s.own.chan.toList, ∀ q ∈ c.held, q.pc ≠ s.own.pc)
    (hu : u = (s.putOwn { s.own.begin with v := v, vtag := w, laneFlags := l }).vdone h) :
    s.VRetires u h { s.own with v := u.own.v, vtag := u.own.vtag, laneFlags := u.own.laneFlags } ∧ u.own.v = v ∧ u.own.vtag = w ∧ u.own.laneFlags = l ∧
    u.own.vcfg = s.own.vcfg := by
  have hret := s.vdone_retires (s.putOwn s.own.begin) h { s.own.begin with v := v, vtag := w, laneFlags := l } ⟨s.own.begin, rfl⟩ rfl rfl rfl rfl rfl hheld
  simp only [State.putOwn_putOwn] at hret
  rw [← hu] at hret
  obtain ⟨hg, ho⟩ := hret
  have ev := congrArg Group.v ho
  have ew := congrArg Group.vtag ho
  have el := congrArg Group.laneFlags ho
  have ec := congrArg Group.vcfg ho
  have key : ∀ v' w' l', v' = v → w' = w → l' = l → s.VRetires u h { s.own with v := v', vtag := w', laneFlags := l' } := by
    rintro _ _ _ rfl rfl rfl; exact ⟨hg, ho⟩
  exact ⟨key _ _ _ ev ew el, ev, ew, el, ec⟩

/-- An element by element instruction that nothing holds up and none of whose elements raises an enabled flag. -/
theorem State.elementwise_gives (s : State) (h : VHead) (legal : Bool) (d : Reg) (t : Tag) (lw : Nat) (f : List Source → Nat → Nat × BitVec 6)
    (val : Nat → Nat × BitVec 6) (hr : s.VReady h) (hl : legal = true) (hd : h.writes = some d) (hfit : s.own.fits t = true)
    (hval : ∀ srcs, (∀ r ∈ h.reads, srcBits srcs r = s.own.vbits r) → ∀ i, f srcs i = val i)
    (hf : ∀ i ∈ s.own.steps h.mask, (val i).2 &&& s.own.xen = 0) :
    ∃ u, s.elementwise h legal d t lw f = u ∧
    s.VRetires u h { s.own with v := u.own.v, vtag := u.own.vtag, laneFlags := u.own.laneFlags } ∧
    s.own.OnlyVector u.own d t ∧
    s.own.HasElems u.own d (tagWidth t) (fun i => if i ∈ s.own.steps h.mask then some (val i).1 else none) ∧
    u.own.laneFlags = s.own.flagsAfter lw (fun i => (val i).2) (s.own.steps h.mask) := by
  obtain ⟨srcs, hs, hb, he⟩ := s.vectorWith_ready h legal (fun s1 srcs e => (s1, some (srcs, e)))
    (fun s1 (p : List Source × Nat) =>
      let G := s1.own
      let r := elemLoop (G.active h.mask) (srcStop p.1) G.xen (tagWidth t) lw (f p.1) (G.vl - p.2) p.2 (G.vbits d) G
      match r.2.2 with
      | some st => (s1.putOwn (r.2.1.setBits d r.1)).stopAt st
      | none => (s1.putOwn ((r.2.1.setBits d r.1).setTag d t)).vdone h) hr hl
  refine ⟨_, rfl, ?_⟩
  have hel : s.elementwise h legal d t lw f = s.vectorWith h legal (fun s1 srcs e => (s1, some (srcs, e)))
    (fun s1 (p : List Source × Nat) =>
      let G := s1.own
      let r := elemLoop (G.active h.mask) (srcStop p.1) G.xen (tagWidth t) lw (f p.1) (G.vl - p.2) p.2 (G.vbits d) G
      match r.2.2 with
      | some st => (s1.putOwn (r.2.1.setBits d r.1)).stopAt st
      | none => (s1.putOwn ((r.2.1.setBits d r.1).setTag d t)).vdone h) := rfl
  rw [hel, he]
  clear hel he
  have hvf : f srcs = val := funext fun i => hval srcs hb i
  simp only [State.own_putOwn, hs, hvf]
  have hact : s.own.begin.active h.mask = s.own.active h.mask := rfl
  have hxen : s.own.begin.xen = s.own.xen := rfl
  have hvl : s.own.begin.vl = s.own.vl := rfl
  have hvb : s.own.begin.vbits d = s.own.vbits d := rfl
  rw [hact, hxen, hvl, hvb]
  obtain ⟨b', h1, h2, h3⟩ := elemLoop_done (s.own.active h.mask) s.own.xen (tagWidth t) lw val (s.own.vl - s.own.startElem) s.own.startElem
    (s.own.vbits d) s.own.begin hf
  have hlt : b' < 2 ^ (8192 * s.own.lmul) := h3 _ (groupBits_lt _ _ _) (by
    intro j hj
    rw [List.mem_filter, upFrom_mem] at hj
    exact s.own.fits_room t hfit j (by omega))
  rw [h1, accrue_foldl]
  have hfl : s.own.begin.flagsAfter lw (fun j => (val j).2) ((upFrom s.own.startElem (s.own.vl - s.own.startElem)).filter (s.own.active h.mask)) =
      s.own.flagsAfter lw (fun i => (val i).2) (s.own.steps h.mask) := by
    have : ∀ (l : List Nat) (A B : Group), A.laneFlags = B.laneFlags → A.flagsAfter lw (fun j => (val j).2) l = B.flagsAfter lw (fun j => (val j).2) l := by
      intro l
      induction l with
      | nil => intro A B h; exact h
      | cons j l ih => intro A B h; unfold Group.flagsAfter at *; simp only [List.foldl_cons]; exact ih _ _ (by unfold Group.accrueLane; simp only [h])
    exact this _ _ _ rfl
  rw [hfl]
  have hal : d.toNat % s.own.lmul = 0 := hr.1 d (by simp [hd])
  have hheld : ∀ c ∈ s.own.chan.toList, ∀ q ∈ c.held, q.pc ≠ s.own.pc := fun c hc q hq => (hr.2.2.2.2.1 c hc).2 q hq
  obtain ⟨v, w, l, e, ev, ew, el⟩ : ∃ v w l, ((({ s.own.begin with laneFlags := s.own.flagsAfter lw (fun i => (val i).2) (s.own.steps h.mask) } : Group).setBits d b').setTag d t) =
      { s.own.begin with v := v, vtag := w, laneFlags := l } ∧ v = putGroupBits s.own.v d.toNat b' s.own.lmul ∧ w = putTags s.own.vtag d.toNat t s.own.lmul ∧
      l = s.own.flagsAfter lw (fun i => (val i).2) (s.own.steps h.mask) := ⟨_, _, _, rfl, rfl, rfl, rfl⟩
  simp only [e, State.putOwn_putOwn]
  obtain ⟨k1, k2, k3, k4, k5⟩ := s.vdone_keeps _ h v w l hheld rfl
  refine ⟨k1, ?_, ?_, k4.trans el⟩
  · refine ⟨fun r hr => ⟨?_, ?_⟩, fun r h1 h2 => ?_⟩
    · rw [k2, ev]; exact putGroupBits_out _ _ _ _ _ r.isLt hr
    · rw [k3, ew]; exact putTags_out _ _ _ _ _ r.isLt hr
    · rw [k3, ew]; exact putTags_in _ _ _ _ _ r.isLt h1 h2
  · intro i
    rw [Group.vbits_of _ d (Group.lmul_congr _ s.own k5) (k2.trans ev), groupBits_putGroupBits _ _ _ _ (s.own.aligned_room d hal)]
    rw [Nat.mod_eq_of_lt hlt, h2]
    unfold Group.steps
    by_cases hi : i ∈ (upFrom s.own.startElem (s.own.vl - s.own.startElem)).filter (s.own.active h.mask)
    · simp only [hi, if_true]
    · simp only [hi, if_false]

end Sys2Proof.Machine
end

