-- ==== Sys2Proof/Tests/Slice0.lean ====
section
/-!
SUPPORT. Sys2Proof/Tests/Slice0.lean: ill-formed terms that the checks refuse, words of the spec's listings that decode to
their instructions, single steps with results of the spec, and for each statement with hypotheses a state and operands
that meet them.
-/

open Sys2Proof Sys2Proof.Machine

set_option synthInstance.maxSize 2000
set_option Elab.async false

/-! ## Ill-formed terms, one for each check of WellFormed.lean -/

theorem test_ill_formed_scalar : [Instr.ld 7 1 2 0, .ldLong 7 1 2 0, .fcvt 1 2 0, .fcvt 1 2 5, .csrr 1 7, .csrw 1 2 0x007, .csrs 1 2 0x009, .csrc 1 2 0x111,
    .fence 0 0, .fence 1 6, .lda 1 2 6, .strl 1 2 7, .mpost 1 2 5, .mprobe 3 1, .mprobe 0 1, .kvsub 1 2 0 0, .kvsub 1 2 5 0, .sfrpop 2, .sfrpop 0].map Instr.wf =
    List.replicate 19 false := rfl

theorem test_ill_formed_vector : [Instr.vsetl 5 5 .f32, .vcmp false false none 7 1 2 3, .vcmpLong false false none 7 1 2 3 .idle, .vred false none 1 2 6,
    .vredLong false none 1 2 7 .idle, .vscan false none 1 2 6, .vscanLong false none 1 2 6 .idle, .vscanSeg false 0 1 2 6, .vscanSegLong false 0 1 2 6 .idle,
    .xstage 1 2 3 .idle 0 false false false 3, .xperm 1 2 .idle 1 false, .xnorm 1 2 .idle 3].map Instr.wf = List.replicate 12 false := rfl

/-! ## Words of the spec's listings and tables (08_control_thread to 23_programs_fabric), and of its formats (R29) -/

theorem test_decode_integer : decodeWords 0x000CA502 0 = .ok (.add 5 5 3) ∧ decodeWords 0x0018C604 0 = .ok (.mul 6 6 6) ∧
    decodeWords 0x0314C604 0 = .ok (.remn 6 6 5) ∧ decodeWords 0x00814A0A 0 = .ok (.addi 10 10 32) ∧ decodeWords 0x000CA514 0 = .ok (.shli 5 5 3) ∧
    decodeWords 0x809E1014 0 = .ok (.shri 16 16 39) := ⟨rfl, rfl, rfl, rfl, rfl, rfl⟩

theorem test_decode_constants : decodeWords 0x00080B16 0 = .ok (.ldi 11 2) ∧ decodeWords 0x00000C17 0x3F800000 = .ok (.ldiLong 12 0x3F800000) ∧
    decodeWords 0x00000A19 0x100 = .ok (.ldih 10 0x100) := ⟨rfl, rfl, rfl⟩

theorem test_decode_memory : decodeWords 0x01D16D1C 0 = .ok (.ld 3 13 11 20) ∧ decodeWords 0x0681461C 0 = .ok (.ld 5 6 10 32) ∧
    decodeWords 0x01014C1E 0 = .ok (.st 2 12 10 0) ∧ decodeWords 0x0171531E 0 = .ok (.st 2 19 10 28) ∧ decodeWords 0x017B2038 0 = .ok (.amomax false 0 25 30) :=
  ⟨rfl, rfl, rfl, rfl, rfl⟩

theorem test_decode_control : decodeWords 0x00300B20 0 = .ok (.beq 11 0 12) ∧ decodeWords 0xFFD0002C 0 = .ok (.jal 0 (-12)) ∧
    decodeWords 0xFFBC0B30 0 = .ok (.loop 11 (-17)) ∧ decodeWords 0xFFF80730 0 = .ok (.loop 7 (-2)) := ⟨rfl, rfl, rfl, rfl⟩

theorem test_decode_csr : decodeWords 0x04000536 0 = .ok (.csrr 5 0x020) ∧ decodeWords 0x20001A36 0 = .ok (.csrr 26 0x100) ∧
    decodeWords 0x202C1936 0 = .ok (.csrr 25 0x10B) ∧ decodeWords 0x010CA636 0 = .ok (.csrs 6 5 3) ∧ decodeWords 0x018CA036 0 = .ok (.csrc 0 5 3) :=
  ⟨rfl, rfl, rfl, rfl, rfl⟩

theorem test_decode_vector : decodeWords 0x02180442 0 = .ok (.vtag false false 4 .n32) ∧ decodeWords 0x42180842 0 = .ok (.vtag false true 8 .n32) ∧
    decodeWords 0xC0310446 0 = .ok (.vfma true true none 4 8 12) ∧ decodeWords 0xC081C442 0 = .ok (.vmvx true true none 4 14) ∧
    decodeWords 0x40020462 0 = .ok (.vst true none 4 16) ∧
    decodeWords 0x00EB2C61 0x000B801D = .ok (.vldsLong false none 12 25 26 .idle 11 true (some .f32)) := ⟨rfl, rfl, rfl, rfl, rfl, rfl⟩

theorem test_decode_tile : decodeWords 0x003160A0 0 = .ok (.tld 0 11 12) ∧ decodeWords 0x0080C9A0 0 = .ok (.bld 9 6) ∧
    decodeWords 0x01C5E0A0 0 = .ok (.accst 0 15 17) ∧ decodeWords 0x0182F8A2 0 = .ok (.tclass 24 23) ∧ decodeWords 0x020000A2 0 = .ok .msync ∧
    decodeWords 0x002863A5 0x99000000 = .ok (.mma 3 3 10 .idle .e4m3 .e4m3 none) ∧ decodeWords 0x00A400A5 0x99000000 = .ok (.mmaz 0 0 9 .idle .e4m3 .e4m3 none) :=
  ⟨rfl, rfl, rfl, rfl, rfl, rfl, rfl⟩

theorem test_decode_transform : decodeWords 0x00A8D6B9 0 = .ok (.xtwid 22 6 10 .idle) ∧ decodeWords 0x014ED4B9 0x5C400000 = .ok (.xstage 20 22 19 .idle 11 true false false 1) ∧
    decodeWords 0x014EF4B9 0x5E000000 = .ok (.xstage 20 23 19 .idle 11 true true false 0) ∧ decodeWords 0x026210B9 0x40000000 = .ok (.xpoint 16 16 24 .idle false true) ∧
    decodeWords 0x0303CBB8 0 = .ok (.xmodchk 11 30) := ⟨rfl, rfl, rfl, rfl, rfl⟩

theorem test_decode_order : decodeWords 0x028000C8 0 = .ok (.tkpush 0) ∧ decodeWords 0x030000C8 0 = .ok (.tkpop 0) ∧ decodeWords 0x018380D0 0 = .ok (.bar 0 28) ∧
    decodeWords 0x008000D2 0 = .ok .cpfence ∧ decodeWords 0x007000D2 0 = .ok (.fence 3 4) ∧ decodeWords 0x018DCFD2 0 = .ok (.lda 15 14 3) :=
  ⟨rfl, rfl, rfl, rfl, rfl, rfl⟩

theorem test_decode_message : decodeWords 0x0002CDDB 2 = .ok (.mpost 13 22 2) ∧ decodeWords 0x00B155DB 0x18 = .ok (.msend 21 10 12 24) ∧
    decodeWords 0x0101AFDA 0 = .ok (.mwait 15 13) ∧ decodeWords 0x028253DA 0 = .ok (.mdrip 19 18) := ⟨rfl, rfl, rfl, rfl⟩

theorem test_decode_kv : decodeWords 0x0000CAE1 0x11 = .ok (.kvsub 10 6 2 1) ∧ decodeWords 0x0080AAE0 0 = .ok (.kvunsub 10 5) ∧
    decodeWords 0x01246AE0 0 = .ok (.kvpass 10 3 9) ∧ decodeWords 0x018014E0 0 = .ok (.kvrecv 20) ∧ decodeWords 0x024397E1 0x11 = .ok (.kvpart 23 28 16 17) ∧
    decodeWords 0x0280AAE0 0 = .ok (.kvdone 10 5) ∧ decodeWords 0x03018AE0 0 = .ok (.kvstat 10 12) := ⟨rfl, rfl, rfl, rfl, rfl, rfl, rfl⟩

theorem test_decode_system : decodeWords 0x0001AEEA 0 = .ok (.qwait 14 13) ∧ decodeWords 0x01C000EA 0 = .ok (.htokraise 0 16) ∧
    decodeWords 0x00016AEC 0 = .ok (.klaunch 10 11) ∧ decodeWords 0x000000EE 0 = .ok .gterm ∧ decodeWords 0x008008F0 0 = .ok (.sfrpop 8) ∧
    decodeWords 0x000000F0 0 = .ok .sdrain := ⟨rfl, rfl, rfl, rfl, rfl, rfl⟩

theorem test_decode_unit_tables : decodeWords 0x00316AD0 0 = .ok (.barinit 10 11 12) ∧ decodeWords 0x01316AD0 0 = .ok (.barwait 10 11 12) ∧
    decodeWords 0x020160D0 0 = .ok (.barfree 11) ∧ decodeWords 0x02116CD2 0 = .ok (.strl 12 11 4) ∧ decodeWords 0x0018A8D9 3 = .ok (.mcst 8 5 6 3) ∧
    decodeWords 0x00B16AD8 0 = .ok (.tickget 10 11 12) ∧ decodeWords 0x018140D8 0 = .ok (.tickdone 10) ∧ decodeWords 0x80B16A38 0 = .ok (.amomin true 10 11 12) :=
  ⟨rfl, rfl, rfl, rfl, rfl, rfl, rfl, rfl⟩

theorem test_decode_context_tables : decodeWords 0x0000A0E8 0 = .ok (.trap 5) ∧ decodeWords 0x008000E8 0 = .ok .rte ∧ decodeWords 0x010000E8 0 = .ok .halt ∧
    decodeWords 0x0198A0E8 0 = .ok (.wfe 5 6) ∧ decodeWords 0x03016AE8 0 = .ok (.ctxload 10 11) ∧ decodeWords 0x01016AEA 0 = .ok (.htokwait 10 11) ∧
    decodeWords 0x013160F0 0 = .ok (.tlbinv 11 12) ∧ decodeWords 0x01B16AF0 0 = .ok (.pgprobe 10 11 12) := ⟨rfl, rfl, rfl, rfl, rfl, rfl, rfl, rfl⟩

/-- A first word of R form from its fields (R29). -/
def rForm (S CE MB M F B A D OP L : Nat) : Nat :=
  S * 2 ^ 31 + CE * 2 ^ 30 + MB * 2 ^ 29 + M * 2 ^ 26 + F * 2 ^ 23 + B * 2 ^ 18 + A * 2 ^ 13 + D * 2 ^ 8 + OP * 2 + L

theorem test_decode_vector_forms : decodeWords (rForm 1 0 1 2 2 12 8 1 0x26 0) 0 = .ok (.vcmp true false (some 2) 2 1 8 12) ∧
    decodeWords (rForm 0 1 0 0 1 3 2 1 0x29 0) 0 = .ok (.mor false true 1 2 3) ∧ decodeWords (rForm 0 0 1 7 0 1 8 4 0x2A 0) 0 = .ok (.vred false (some 7) 4 8 1) ∧
    decodeWords (rForm 0 1 0 0 0 12 8 4 0x2B 0) 0 = .ok (.vperm true none 4 8 12) ∧ decodeWords (rForm 0 0 0 0 2 9 5 4 0x30 0) 0 = .ok (.vldx false none 4 5 9) :=
  ⟨rfl, rfl, rfl, rfl, rfl⟩

theorem test_decode_reject : decodeWords 0 0 = .error .majorUnassigned ∧ decodeWords 0x00000003 0 = .error .lengthRefused ∧
    decodeWords (rForm 0 0 0 0 3 0 0 0 4 0) 0 = .error .minorUnassigned ∧ decodeWords (rForm 1 0 0 0 0 5 3 5 1 0) 0 = .error .reservedBit ∧
    decodeWords 0x000000D2 0 = .error .badSelector := ⟨rfl, rfl, rfl, rfl, rfl⟩

/-! ## The states of the tests: one user-level group on cell 511 of a context Active in slot set 0 -/

/-- What the test group holds. -/
def tHold : Holding := { tiles := 8, accs := 4, chans := 16, cstore := 65536, bstore := 12288, csPieces := [(0, 65536)], bPieces := [(0, 12288)] }

/-- The test group: Running at user level at address 0, VL 8. -/
def tGroup : Group := { Group.start bootImage bootDesc 0 0 7 4 tHold with phase := .running, vl := 8 }

/-- The test module with a group in place of it. -/
def tState (G : Group) : State :=
  { State.reset.placeWords 0 with cur := bootGroup, firmware := .running, groups := [(bootGroup, G)], agenda := [] }

/-- The test group with values in registers x5, x6 and x7. -/
def tRegs (a b c : Word) : Group := ((tGroup.setReg 5 a).setReg 6 b).setReg 7 c

/-- The first byte of the group's window on its cell store. -/
def tStore : Word := 0x00F0000000000000

/-- A next state with a value in a register. -/
def gives (r : Host.Outcome State Fault Refusal) (d : Reg) (v : Word) : Bool :=
  match r with
  | .next t => t.x d == v
  | _ => false

/-- A next state of which something holds. -/
def after (r : Host.Outcome State Fault Refusal) (p : State → Bool) : Bool :=
  match r with
  | .next t => p t
  | _ => false

/-! ## Single steps, with results from the spec's rules -/

/-- R151, R152 and R153: sums wrap, MULHN's high half, the division corners, SEL. -/
theorem test_integer : gives (exec (.add 4 5 6) (tState (tRegs (BitVec.allOnes 64) 2 0))) 4 1 = true ∧
    gives (exec (.mulhn 4 5 6) (tState (tRegs (BitVec.allOnes 64) (BitVec.allOnes 64) 0))) 4 0xFFFFFFFFFFFFFFFE = true ∧
    gives (exec (.div 4 5 6) (tState (tRegs (2 ^ 63) (BitVec.allOnes 64) 0))) 4 (2 ^ 63) = true ∧
    gives (exec (.rem 4 5 6) (tState (tRegs (-7) 2 0))) 4 (-1) = true ∧ gives (exec (.divn 4 5 7) (tState (tRegs 9 0 0))) 4 (BitVec.allOnes 64) = true ∧
    gives (exec (.sel 7 5 6) (tState (tRegs 1 2 0))) 7 2 = true := by decide +kernel

/-- R154, R155 and R163: immediates are sign-extended, LDIH keeps the low half, LOOP stops at 0. -/
theorem test_immediates : gives (exec (.addi 4 5 (-8)) (tState (tRegs 5 0 0))) 4 (-3) = true ∧
    gives (exec (.ldih 5 0x20000000) (tState (tRegs 0xFFFFFFFF00000010 0 0))) 5 0x2000000000000010 = true ∧
    after (exec (.loop 5 (-3)) (tState (tRegs 1 0 0))) (fun t => t.x 5 == 0 && t.own.pc == 4) = true ∧
    after (exec (.loop 5 (-3)) (tState (tRegs 2 0 0))) (fun t => t.x 5 == 1 && t.own.pc == -12) = true := by decide +kernel

/-- The dot product of 08_control_thread in its last steps: 1.0 + 2.0 is 3.0, 3.0 + 0.5 is 3.5, 0x400C_0000_0000_0000. -/
theorem test_float : gives (exec (.fadd true 5 5 6) (tState (tRegs 0x3FF0000000000000 0x4000000000000000 0))) 5 0x4008000000000000 = true ∧
    gives (exec (.fadd true 5 5 6) (tState (tRegs 0x4008000000000000 0x3FE0000000000000 0))) 5 0x400C000000000000 = true ∧
    after (exec (.fdiv true 4 5 7) (tState (tRegs 0x3FF0000000000000 0 0))) (fun t => t.x 4 == 0x7FF0000000000000 && t.own.ctlFlags == flagDZ) = true := by
  decide +kernel

/-- R157: a byte loaded with and without its sign, from a store that has been performed. -/
theorem test_store_load : after (exec (.st 0 6 5 0) (tState (tRegs tStore 0x1F0 0))) (fun t => after (exec (.storePerform 4088 0) t) fun u =>
    gives (exec (.ld 0 4 5 0) u) 4 (-16) && gives (exec (.ld 3 4 5 0) u) 4 0xF0) = true := by decide +kernel

/-- R251: AMOMAX takes the greater signed word and gives the old one; AMOCAS writes on a match only. -/
theorem test_atomics : after (exec (.amomax false 4 5 6) (tState (tRegs tStore 9 0))) (fun t => t.x 4 == 0 && gives (exec (.lda 4 5 1) t) 4 9) = true ∧
    after (exec (.amocas 7 5 6) (tState (tRegs tStore 9 1))) (fun t => t.x 7 == 0 && gives (exec (.lda 4 5 1) t) 4 0) = true := by decide +kernel

/-- R88 and R93: TRAP enters the handler at 4 × BASE with cause 0xD and TRAPPC behind it. -/
theorem test_trap : after (exec (.trap 6) (tState { tRegs 0 0x55 0 with trapvec := 0x200, pc := 0x20 })) (fun t =>
    t.own.trapcause == 0xD && t.own.trapaddr == 0x55 && t.own.trappc == 0x24 && t.own.pc == 0x400 && t.own.level == .supervisor) = true := by decide +kernel

/-- R55, R64 and R206: 2.0 of e4m3 (0x40) and 1.0 of f32 add as f32. -/
theorem test_vector_add : after (exec (.vadd false false none 4 8 12) (tState { tRegs 0 0 0 with
      v := (tGroup.v.set 8 0x40).set 12 0x3F800000, vtag := ((tGroup.vtag.set 4 .f32).set 8 .e4m3).set 12 .f32 })) (fun t =>
    elemOf (t.own.vbits 4) 32 0 == 0x40400000 && elemOf (t.own.vbits 4) 32 1 == 0) = true := by decide +kernel

/-- R219: the inclusive sum of 1, 2, 3 of u8 as a scan into u32. -/
theorem test_scan : after (exec (.vscan false none 4 8 0) (tState { tRegs 0 0 0 with v := tGroup.v.set 8 0x030201, vtag := tGroup.vtag.set 8 .n8 })) (fun t =>
    (upFrom 0 4).map (elemOf (t.own.vbits 4) (tagWidth (t.own.tag 4))) == [1, 3, 6, 6]) = true := by decide +kernel

/-! ## Witnesses: states and operands that meet the hypotheses of the statements, clause by clause -/

theorem witness_IntegerResults : (tState (tRegs 9 0 1)).x 7 ≠ 0 ∧ (tState (tRegs 9 0 1)).x 6 = 0 ∧ (tState (tRegs 9 0 1)).own.xen &&& flagDZ = 0 := by
  decide +kernel

/-- Equal operands and operands that differ; counts of 0, 1 and 2. -/
theorem witness_BranchAndLoopResults : ∃ s : State, (s.x 5 = s.x 5 ∧ s.x 5 ≠ s.x 6 ∧ (s.x 6).slt (s.x 5) = true) ∧
    (s.x 5 ≠ 0 ∧ s.x 5 ≠ 1) ∧ s.x 6 = 1 ∧ s.x 7 = 0 := ⟨tState (tRegs 2 1 0), by decide +kernel⟩

/-- The last aligned target below 2^56, one that is misaligned, and 2^56. -/
theorem witness_JumpResults : ∃ s : State, s.Handles ∧ ((s.x 5).toNat % 4 = 0 ∧ (s.x 5).toNat < 2 ^ 56) ∧ (s.x 6).toNat % 4 ≠ 0 ∧ 2 ^ 56 ≤ (s.x 7).toNat :=
  ⟨tState (tRegs (2 ^ 56 - 4) 2 (2 ^ 56)), by decide +kernel⟩

theorem witness_ScalarFloatResults : ∃ s : State, (∃ e ∈ scalarFloatRows true 0 4 5 6 1 s, e.2.2 &&& s.own.xen = 0) ∧
    ∃ e ∈ scalarFloatRows false 1 4 5 6 0x0F s, e.2.2 &&& s.own.xen = 0 := ⟨tState (tRegs 0x3FF0000000000000 0x4000000000000000 0), by decide +kernel⟩

/-- Two groups of f32: 0, 0, 1.0 over 1.0, 1.0, 0. -/
def tDivide : State :=
  tState { tRegs 0x3FF0000000000000 0 0 with
    xen := flagDZ, v := (tGroup.v.set 8 0x3F8000000000000000000000).set 12 0x000000003F8000003F800000, vtag := (tGroup.vtag.set 8 .f32).set 12 .f32 }

/-- A division of 1.0 by 0.0, an integer division by 0, and an element 2 of 1.0 over 0.0 behind two elements of 0 over 1.0. -/
theorem witness_ArithTraps :
    (tDivide.Handles ∧ (∃ e ∈ scalarFloatRows true 0 4 5 6 1 tDivide, e.2.2 &&& tDivide.own.xen ≠ 0) ∧ tDivide.x 6 = 0 ∧ flagDZ &&& tDivide.own.xen ≠ 0) ∧
    ∃ r ∈ arithRows false false none 4 8 12 tDivide.own, r.legal = true ∧ tDivide.own.resume = false ∧ 2 < tDivide.own.vl ∧
      tDivide.own.active r.head.mask 2 = true ∧ (r.val 2).2 &&& tDivide.own.xen ≠ 0 ∧
      (∀ j ∈ (upFrom 0 2).filter (tDivide.own.active r.head.mask), (r.val j).2 &&& tDivide.own.xen = 0) ∧ ∀ e ∈ r.forms .idle, tDivide.VReady e.2 := by
  decide +kernel

/-- VL written, MCTL written at supervisor level; an unassigned number, a supervisor CSR at user level, a read-only CSR, a
reserved bit, a value out of range. -/
theorem witness_CsrAccessResults :
    (csrAssigned 0 = true ∧ csrSupervisor 0 = false ∧ csrAssigned 0x003 = true ∧ csrAssigned 0x100 = true ∧ csrAssigned 0x008 = true ∧
      (tState { tRegs 0 0 0 with level := .supervisor }).own.level = .supervisor) ∧
    (∃ s : State, csrNoWrite 0 = false ∧ (s.x 5 &&& ~~~(csrFields 0) = 0 ∧ csrValueOk 0 (s.x 5) = true) ∧ s.x 6 &&& ~~~(csrFields 8) = 0 ∧ csrValueOk 8 (s.x 6) = true) ∧
    ∃ s : State, s.Handles ∧ csrAssigned 0x007 = false ∧ (csrAssigned 0x104 = true ∧ csrSupervisor 0x104 = true) ∧
      (csrAssigned 0x020 = true ∧ csrSupervisor 0x020 = false ∧ csrNoWrite 0x020 = true) ∧ s.x 7 &&& ~~~(csrFields 0) ≠ 0 ∧ csrValueOk 0 (s.x 5 + 1) = false :=
  ⟨by decide +kernel, ⟨tState (tRegs 16384 0x100 0x8000), by decide +kernel⟩, ⟨tState (tRegs 16384 0x100 0x8000), by decide +kernel⟩⟩

/-- A load of the last doubleword of the window; one behind a queued store of the same bytes; one whose data come late, with
good and with uncorrectable data. -/
theorem witness_ScalarLoadValues :
    (∃ (s : State) (runs : List (Nat × Nat)), s.LoadReady (s.x 5 + (0x7F8 : BitVec 11).signExtend 64) (loadWidth 6) runs 0) ∧
    (∃ (s : State) (runs : List (Nat × Nat)) (q : Access), (s.x 5).toNat % loadWidth 6 = 0 ∧ s.own.late = none ∧ s.Unhindered ∧
      s.own.slice (sliceOf (s.x 5).toNat) = [] ++ [q] ∧ q.op = .store ∧ q.pa = none ∧ q.va = s.x 5 ∧ q.len = loadWidth 6 ∧
      (s.look s.cur .load (s.x 5).toNat (loadWidth 6)).2 = .here runs 0 ∧
      (∀ k : Fin 4, k.val ≠ sliceOf (s.x 5).toNat → s.NoneMeets .load (s.x 5).toNat (loadWidth 6) runs s.own.slices[k]) ∧
      ((s.look s.cur .load (s.x 5).toNat (loadWidth 6)).1.look s.cur q.needs (s.x 5).toNat (loadWidth 6) (queueId q.seq)).2 = .here runs 0) ∧
    (∃ (s : State) (runs : List (Nat × Nat)), s.LoadStands (s.x 5) (loadWidth 6) runs 0 ∧ (∀ r ∈ runs, paModule r.1 = false) ∧ s.lateLoads = true) ∧
    ∃ (u v : State) (l : LateLoad), (u.group 4088).late = some l ∧ (v.group 4088).late = some l ∧ (∀ r ∈ l.runs, paModule r.1 = false) ∧
      u.heldRuns 4088 l.runs = false ∧ v.heldRuns 4088 l.runs = false ∧ u.lostRuns 4088 l.runs = false ∧ v.lostRuns 4088 l.runs = false ∧
      u.runsBad l.runs = false ∧ v.runsBad l.runs = true ∧ v.Handling 4088 := by
  let q : Access := { op := .store, va := tStore, pa := none, len := 8, data := 7, pc := 0, src := 0, elem := 0, replica := false, tag := none, seq := 0, hs := none, inst := 0 }
  let l : LateLoad := { pc := 0, d := 4, va := tStore, w := 6, runs := [(cstorePA 511 0, 8)], ckX := tGroup.x, ckFlags := 0, ckRetired := 0, ckVl := 0, ckVcfg := 0, ckXmod := 0, ckXctl := 0, ckColl := (0, 0, 0), seq := 1 }
  let G := { tRegs tStore 0 0 with late := some l }
  exact ⟨⟨tState (tRegs (tStore + 0xFFF8 - (0x7F8 : BitVec 11).signExtend 64) 0 0), [(cstorePA 511 0xFFF8, 8)], by decide +kernel⟩,
    ⟨tState ((tRegs tStore 0 0).setSlice 0 [q]), [(cstorePA 511 0, 8)], q, by decide +kernel⟩,
    ⟨{ tState (tRegs tStore 0 0) with lateLoads := true }, [(cstorePA 511 0, 8)], by decide +kernel⟩,
    ⟨tState G, { tState G with uncorr := [cstorePA 511 0 / 8] }, l, by decide +kernel⟩⟩

/-- A plain store of a doubleword to the start of the window. -/
def tAccess : Access :=
  { op := .store, va := tStore, pa := none, len := 8, data := 7, pc := 0, src := 0, elem := 0, replica := false, tag := none, seq := 0, hs := none, inst := 0 }

/-- The last word of the window with 63 accesses queued; the head of a queue that translates; one that lies past the window
is no store to come, so the head that fails names address 2^50, which no table maps. -/
theorem witness_StoreResults :
    (∃ s : State, (s.x 5).toNat % 2 ^ 3 = 0 ∧ s.windowOut s.cur (s.x 5).toNat (2 ^ 3) = false ∧ (s.own.slice (sliceOf (s.x 5).toNat)).length < 64 ∧ s.Unhindered) ∧
    (∃ s : State, (s.group 4088).slice 0 = [tAccess] ∧ tAccess.op = .store ∧ tAccess.pa = none ∧ tAccess.replica = false ∧ s.mustStay 4088 0 tAccess = false ∧ s.MemCanonical ∧ s.outOfOrder 4088 0 tAccess [(cstorePA 511 0, 8)] = false ∧
      (s.look 4088 .store tAccess.va.toNat tAccess.len (queueId tAccess.seq)).2 = .here [(cstorePA 511 0, tAccess.len)] 0 ∧ 0 < tAccess.len ∧
      s.unreachable 4088 (cstorePA 511 0) = false ∧ reachOf 4088 (cstorePA 511 0) = .local_) ∧
    ∃ (s : State) (a : Access), (s.group 4088).slice 0 = [a] ∧ a.op = .store ∧ a.pa = none ∧ a.replica = false ∧ s.mustStay 4088 0 a = false ∧
      (s.look 4088 .store a.va.toNat a.len (queueId a.seq)).2 = .fail 1 ∧ (s.group 4088).pastLoad a.seq = false ∧ (s.group 4088).over = false ∧ (s.group 4088).sfrq.length < 16 :=
  ⟨⟨tState ((tRegs (tStore + 0xFFF8) 0 0).setSlice 3 (List.replicate 63 tAccess)), by decide +kernel⟩, ⟨tState ((tRegs 0 0 0).setSlice 0 [tAccess]), by decide +kernel⟩,
   ⟨tState ((tRegs 0 0 0).setSlice 0 [{ tAccess with va := 2 ^ 50 }]), { tAccess with va := 2 ^ 50 }, by decide +kernel⟩⟩

/-- A word of 0 in the window: AMOCAS matches 0 and not 1. -/
theorem witness_AtomicResults : ∃ s : State, s.MemCanonical ∧ s.AtomicReady (s.x 5) (cstorePA 511 0) 0 ∧
    BitVec.ofNat 64 (natOfBytes (s.readAt (cstorePA 511 0) 8)) = s.x 6 ∧ BitVec.ofNat 64 (natOfBytes (s.readAt (cstorePA 511 0) 8)) ≠ s.x 7 :=
  ⟨tState (tRegs tStore 0 1), by decide +kernel⟩

/-- A misaligned address, one that no table maps, the end of the window, and bytes that are uncorrectable. -/
theorem witness_AccessTraps : ∃ s : State, s.Handles ∧ (s.x 5).toNat % loadWidth 6 ≠ 0 ∧ (s.x 5).toNat % 2 ^ 3 ≠ 0 ∧ s.own.late = none ∧
    ((s.x 6).toNat % loadWidth 6 = 0 ∧ (s.look s.cur .load (s.x 6).toNat (loadWidth 6)).2 = .fail 1) ∧
    ((s.x 7).toNat % loadWidth 6 = 0 ∧ (s.look s.cur .load (s.x 7).toNat (loadWidth 6)).2 = .range ∧ s.windowOut s.cur (s.x 7).toNat (2 ^ 3) = true) ∧
    s.LoadStands (s.x 7 + (0x7F8 : BitVec 11).signExtend 64) (loadWidth 6) [(cstorePA 511 0xFFF8, 8)] 0 ∧ runsLocal s.cur [(cstorePA 511 0xFFF8, 8)] = true ∧
    s.lateLoads = false ∧ s.runsBad [(cstorePA 511 0xFFF8, 8)] = true :=
  ⟨{ tState (tRegs 4 (2 ^ 50) (tStore + 0x10000)) with poison := [cstorePA 511 0xFFF8 / 8] }, by decide +kernel⟩

/-- A page at 0x5000 that is host-shared without SYSATOM, in the die's TLB. -/
def tShared : State := { tState (tRegs 0x5000 0 0) with tr := { Xlate.fresh with dies := [(7, [{ ctx := 1, base := 5, size := 12, leaf := bootCode + 0x5000 + 0xF3, index := none }])] } }

/-- LDA and WFE at bad data; an atomic unmapped, outside its window, at a page without SYSATOM and at bad data; STRL with a record
queued, and unmapped. -/
theorem witness_AccessTraps_word :
    (∃ s : State, s = { tState (tRegs tStore (2 ^ 50) (tStore + 0x10000)) with poison := [cstorePA 511 0 / 8] } ∧ s.Handles ∧ s.LoadStands (s.x 5) 8 [(cstorePA 511 0, 8)] 0 ∧
      runsLocal s.cur [(cstorePA 511 0, 8)] = true ∧ s.lateLoads = false ∧ s.runsBad [(cstorePA 511 0, 8)] = true ∧ s.AtomicStands (s.x 5) (cstorePA 511 0) 0 ∧ s.badData (cstorePA 511 0) 8 = true ∧
      ((s.x 6).toNat % 8 = 0 ∧ (s.look s.cur .atomic (s.x 6).toNat 8).2 = .fail 1 ∧ (s.look s.cur .load (s.x 6).toNat 8).2 = .fail 1) ∧
      ((s.x 7).toNat % 8 = 0 ∧ (s.look s.cur .atomic (s.x 7).toNat 8).2 = .range ∧ (s.look s.cur .load (s.x 7).toNat 8).2 = .range ∧ s.windowOut s.cur (s.x 7).toNat 8 = true) ∧
      (s.windowOut s.cur (s.x 6).toNat 8 = false ∧ s.Settled ∧ s.own.sfrq = [] ∧ (s.look s.cur .store (s.x 6).toNat 8).2 = .fail 1)) ∧
    (tShared.Handles ∧ (tShared.x 5).toNat % 8 = 0 ∧ (tShared.look tShared.cur .atomic (tShared.x 5).toNat 8).2 = .here [(bootCode + 0x5000, 8)] (bootCode + 0x5000 + 0xF3) ∧
      leafHS (bootCode + 0x5000 + 0xF3) = true ∧ leafSA (bootCode + 0x5000 + 0xF3) = false) ∧
    ∃ s : State, s = tState { tRegs tStore 0 0 with sfrq := [⟨4, 8, 9, 0, 3, 1, 0, false, 0⟩] } ∧ s.Handles ∧ s.windowOut s.cur (s.x 5).toNat 8 = false ∧ s.Settled ∧ s.own.sfrq ≠ [] :=
  ⟨⟨_, rfl, by decide +kernel⟩, by decide +kernel, ⟨_, rfl, by decide +kernel⟩⟩

/-- Groups v8 and v12 with values and tags, and the tag of v4. -/
def tVecs (ta tb td : Tag) (a b : BitVec 8192) : State :=
  tState { tRegs 5 2 1 with
    v := (tGroup.v.set 8 a).set 12 b, vtag := ((tGroup.vtag.set 8 ta).set 12 tb).set 4 td, m := tGroup.m.set 1 0xA5, fifos := tGroup.fifos.set 2 1 }

/-- A row that is legal, raises no enabled flag and can issue in both forms, popping FIFO 2 in the long one. -/
abbrev tMeets (s : State) (r : VRow) : Prop :=
  r.legal = true ∧ (∀ i ∈ s.own.steps r.head.mask, (r.val i).2 &&& s.own.xen = 0) ∧ ∀ e ∈ r.forms { pop := some 2, push := some 3 }, s.VReady e.2

/-- No enabled flag is raised where none is enabled. -/
theorem t_meets {s : State} {l : List VRow} (hx : s.own.xen = 0)
    (h : ∀ r ∈ l, r.legal = true ∧ ∀ e ∈ r.forms { pop := some 2, push := some 3 }, s.VReady e.2) : ∀ r ∈ l, tMeets s r :=
  fun r hr => ⟨(h r hr).1, fun _ _ => by rw [hx]; exact BitVec.and_zero, (h r hr).2⟩

/-- Every instruction of the rows under a mask: the float ones on f32 groups, the integer ones on n32 groups. -/
theorem witness_VectorComputeResults :
    (∀ r ∈ ((arithRows true true (some 1) 4 8 12 (tVecs .f32 .f32 .f32 7 9).own).eraseIdx 7).eraseIdx 3, tMeets (tVecs .f32 .f32 .f32 7 9) r) ∧
    (∀ r ∈ (arithRows true true (some 1) 4 8 12 (tVecs .n32 .n32 .n32 7 9).own).take 8, tMeets (tVecs .n32 .n32 .n32 7 9) r) ∧
    ∀ r ∈ floatRows false false none 4 8 12 .s32 (tVecs .f32 .s32 .f32 7 9).own, tMeets (tVecs .f32 .s32 .f32 7 9) r :=
  ⟨t_meets (by decide +kernel) (by decide +kernel), t_meets (by decide +kernel) (by decide +kernel), t_meets (by decide +kernel) (by decide +kernel)⟩

theorem witness_VectorDataResults : (∀ r ∈ moveRows true true (some 1) 1 4 8 12 (tVecs .n32 .n32 .n32 7 9), tMeets (tVecs .n32 .n32 .n32 7 9) r) ∧
    (∀ r ∈ logicRows true true (some 1) 4 8 12 (tVecs .n32 .n32 .n32 7 9).own, tMeets (tVecs .n32 .n32 .n32 7 9) r) ∧
    ∀ r ∈ crossRows true (some 1) 1 4 8 12 (tVecs .n32 .n32 .n32 7 9), tMeets (tVecs .n32 .n32 .n32 7 9) r :=
  ⟨t_meets (by decide +kernel) (by decide +kernel), t_meets (by decide +kernel) (by decide +kernel), t_meets (by decide +kernel) (by decide +kernel)⟩

/-- VSETL with two registers and with D = A; a VCFG of the greatest rounding mode and fold, and one above each bound; the
results in x registers; a tag under which VL = VLMAX fits. -/
theorem witness_VectorSettingResults :
    ((5 : Reg) ≠ 6 ∧ (5 : Reg) ≠ 0 ∧ (tState tGroup).Handles) ∧
    (∀ new : Word, new = ((tState (tRegs 0x90 0x7FC 0)).own.vcfg &&& ~~~((tState (tRegs 0x90 0x7FC 0)).x 6)) ||| ((tState (tRegs 0x90 0x7FC 0)).x 5 &&& (tState (tRegs 0x90 0x7FC 0)).x 6) →
      new.toNat < 2048 ∧ bits new 2 3 ≤ 4 ∧ 1 ≤ bits new 5 4 ∧ bits new 5 4 ≤ 8) ∧
    (∀ new : Word, new = ((tState (tRegs 5 0x1C 0)).own.vcfg &&& ~~~((tState (tRegs 5 0x1C 0)).x 6)) ||| ((tState (tRegs 0x14 0x1C 0)).x 5 &&& (tState (tRegs 0x14 0x1C 0)).x 6) →
      4 < bits new 2 3) ∧
    (∀ r ∈ scalarVectorRows true true 4 8 7 1 (tVecs .n32 .n32 .n32 7 9), (tVecs .n32 .n32 .n32 7 9).VReady { r.2.2.1 with len := 4, tk := TokenReq.idle } ∧
      (tVecs .n32 .n32 .n32 7 9).VReady { r.2.2.1 with len := 8, tk := { pop := some 2, push := none } }) ∧
    ({ tGroup with vl := 256 } : Group).fits .f32 = true ∧ ({ tGroup with vl := 257 } : Group).fits .f32 = false ∧
    (tVecs .n32 .n32 .n32 7 9).own.fits .f32 = true ∧ (tVecs .n32 .n32 .n32 7 9).VReady (vtagHead true false 4 .f32 .idle 4) := by
  refine ⟨by decide +kernel, ?_, ?_, by decide +kernel⟩ <;> (rintro _ rfl; decide +kernel)

theorem witness_MaskResults :
    (tVecs .n32 .n32 .n32 7 9).VReady (maskHead true true { pop := some 2, push := none } 8 none [1, 2] [3]) ∧
    (promoteTag ((tVecs .f32 .bf16 .f32 7 9).own.tag 8) ((tVecs .f32 .bf16 .f32 7 9).own.tag 12) = some .f32 ∧ (tVecs .f32 .bf16 .f32 7 9).own.fits .f32 = true ∧
      (tVecs .f32 .bf16 .f32 7 9).own.fits .bf16 = true ∧ (tVecs .f32 .bf16 .f32 7 9).own.xen = 0 ∧
      (tVecs .f32 .bf16 .f32 7 9).VReady (vcmpHead true true (some 1) 3 8 12 .idle 4)) ∧
    (promoteTag ((tVecs .q32 .q32 .f32 1 3).own.tag 8) ((tVecs .q32 .q32 .f32 1 3).own.tag 12) = some .q32 ∧ ((1 : BitVec 3).toNat ≤ 1)) ∧
    tagIsInt ((tVecs .n32 .s32 .f32 1 3).own.tag 8) = true ∧ tagIsInt ((tVecs .n32 .s32 .f32 1 3).own.tag 12) = true ∧
      tagWidth ((tVecs .n32 .s32 .f32 1 3).own.tag 12) = tagWidth ((tVecs .n32 .s32 .f32 1 3).own.tag 8) ∧
      (tVecs .n32 .s32 .f32 1 3).own.lengthsOk 4 ((tVecs .n32 .s32 .f32 1 3).own.tag 8) [8, 12] = true ∧
      (tVecs .n32 .s32 .f32 1 3).VReady (vcarryHead true true 1 4 8 12 .idle 4) := by decide +kernel

/-- A masked sum of n8 elements, whose accumulation format is n64, and a scan of them by segments. -/
theorem witness_FoldResults : ∃ s : State, foldTag 0 (s.own.tag 8) = .n64 ∧ foldAccepts 0 (s.own.tag 8) = true ∧ s.own.fits (s.own.tag 8) = true ∧
    s.own.overlapOk 4 .n64 [8] = true ∧ s.own.xen = 0 ∧ s.VReady (vredHead s.own true (some 1) 4 8 .idle 4) ∧ s.own.lengthsOk 4 .n64 [8] = true ∧ s.own.resume = false ∧
    (∀ i ∈ s.own.steps none, scanFlags 0 (s.own.tag 8) .n64 s.own (s.own.active none) (fun i => (s.own.m[1]).getLsbD i) 8 i &&& s.own.xen = 0) ∧
    s.VReady (vscanHead true none (some 1) 4 8 false { pop := some 2, push := none } 8) :=
  ⟨tVecs .n8 .n32 .f32 0x04030201 0, by decide +kernel⟩

theorem witness_RearrangeResults :
    ((tVecs .n8 .n32 .n16 7 9).own.lengthsOk 4 .n8 [8] = true ∧ (tVecs .n8 .n32 .n16 7 9).VReady (packHead (tVecs .n8 .n32 .n16 7 9).own true true (some 1) 4 8 .idle 4) ∧ (tVecs .n8 .n32 .n16 7 9).VReady (topkHead (tVecs .n8 .n32 .n16 7 9).own true (some 1) 4 8 .idle 4) ∧
      (tVecs .n8 .n32 .n16 7 9).own.tag 8 ≠ .q32 ∧ tagIsInt ((tVecs .n8 .n32 .n16 7 9).own.tag 4) = true ∧
      (tVecs .n8 .n32 .n16 7 9).own.lengthsOk 4 ((tVecs .n8 .n32 .n16 7 9).own.tag 4) [8] = true) ∧
    ∃ s : State, tagIsInt (s.own.tag 8) = true ∧ s.own.tag 12 = s.own.tag 8 ∧ s.own.vl = 16 ∧ s.own.vl % 16 = 0 ∧ 2 * s.own.vl ≤ s.own.vlmax (s.own.tag 8) ∧
      s.VReady (setsHead s.own true 4 8 12 .idle 4) :=
  ⟨by decide +kernel, ⟨tState { (tVecs .n32 .n32 .n32 7 9).own with vl := 16 }, by decide +kernel⟩⟩

/-- A channel bound to v8 with a pattern of 6 elements of 4 bytes, all fetched. -/
def tChannel : Channel :=
  { Channel.free with st := .bound, base := tStore, n := [6, 1, 1, 1], s := [4, 0, 0, 0], esz := 4, tag := .n32, vd := 8, lmul := 1
                      buf := (upFrom 0 6).map fun i => (i, i + 1) }

/-- A convoy member of one element group that has issued it. -/
def tMember (p : Pipe) (push : Option (BitVec 4)) (x : Option Reg) : Member :=
  { pipe := p, push := push, xdst := x, lo := 0, hi := 0, per := 1, unit := 1, total := 1, issued := 1, time := Timing.move
    reads := [], writes := [], serial := false, floor := 0, base := 0, lag := 0, fed := [] }

/-- A convoy of eight elements. -/
def tConvoy (ended : Bool) (l : List Member) : Convoy :=
  { members := l, ended := ended, torn := false, vl := 8, beats := 0, bypass := 0, aged := none, stop := none }

/-- LMUL = 2 with an odd group; a convoy that holds ALU A; a pair of tags without a result; an empty FIFO; a stream of 6
elements for VL = 8. -/
theorem witness_VectorIssueResults :
    (∃ s : State, s.Handles ∧ (∃ q ∈ [(8 : Reg), 13, 4], q.toNat % s.own.lmul ≠ 0) ∧ ∃ r ∈ arithRows false true none 4 8 13 s.own, r.head.reads ++ r.head.writes.toList = [8, 13, 4]) ∧
    (∃ s : State, s.Handles ∧ (∀ q ∈ [(8 : Reg), 12, 4], q.toNat % s.own.lmul = 0) ∧ .aluA ∈ s.own.openPipes) ∧
    (∃ r ∈ arithRows false true none 4 8 12 (tVecs .f32 .n32 .f32 7 9).own, (tVecs .f32 .n32 .f32 7 9).Handles ∧ .aluA ∉ (tVecs .f32 .n32 .f32 7 9).own.openPipes ∧ r.legal = false) ∧
    (∃ r ∈ arithRows false true none 4 8 12 (tVecs .n32 .n32 .f32 7 9).own, r.legal = true ∧ (tVecs .n32 .n32 .f32 7 9).own.fifos[5] = 0 ∧
      (tVecs .n32 .n32 .f32 7 9).VReady { r.head with tk := { TokenReq.idle with pop := none } }) ∧
    ∃ s : State, s.own.boundTo 8 = some 3 ∧ s.own.chan[3]? = some tChannel ∧ tChannel.held = [] ∧ 8 * tChannel.esz = tagWidth (s.own.tag 8) ∧
      s.own.boundOk [8] (some 4) = true ∧ s.own.lengthsOk 4 (s.own.tag 8) [8] = true ∧ s.own.resume = false ∧ (8 : Reg).toNat % s.own.lmul = 0 ∧ (4 : Reg).toNat % s.own.lmul = 0 ∧
      aluPipe false ∉ s.own.openPipes ∧ s.own.vqFull = false ∧ s.own.vl = 8 ∧
      (∀ i < s.own.vl, tChannel.taken + i < tChannel.total → (tChannel.buf.find? fun q => q.1 == tChannel.taken + i).isSome = true) ∧
      ∀ m < 16, m ≠ 3 → ∀ q ∈ (s.own.chan[m]?.map Channel.held).getD [], q.pc ≠ s.own.pc :=
  ⟨⟨tState { (tVecs .n32 .n32 .n32 7 9).own with vcfg := 0x21 }, by decide +kernel⟩,
   ⟨tState { (tVecs .n32 .n32 .n32 7 9).own with convoys := [tConvoy false [tMember .aluA none none]] }, by decide +kernel⟩,
   by decide +kernel, by decide +kernel,
   ⟨tState { (tVecs .n32 .n32 .n32 7 9).own with chan := tGroup.chan.set 3 tChannel }, by decide +kernel⟩⟩

/-- The group of the load and store tests: v4 and v12 of n32, the index group v12 with 0, 4, …, the mask m1. -/
def tMem (a b : Word) : State :=
  tState { tRegs a b 1 with
    v := tGroup.v.set 12 0x0000001C0000001800000014000000100000000C000000080000000400000000
    vtag := (tGroup.vtag.set 12 .n32).set 4 .n32, m := tGroup.m.set 1 0xA5, fifos := tGroup.fifos.set 2 1 }

/-- The walk of a load row's elements. -/
def tWalk (s : State) (f : VForm) : State × List VElem × WalkEnd := s.walk (loadRule .n32) (s.own.active (some 1)) (s.elemAt f 5 .n32) s.own.vl

/-- The three forms on a window, with a mask; one whose window ends before element 5 with element 0 active; one whose element
2 is misaligned. -/
theorem witness_VectorLoadResults : (tMem tStore 4).Quiet ∧
    (∀ q ∈ loadRows true (some 1) 4 5 12 { pop := some 2, push := none } 0 false none (tMem tStore 4),
      q.2.1.legal (tMem tStore 4).own .n32 = true ∧ (tMem tStore 4).own.lengthsOk 4 .n32 q.2.1.index = true ∧
      (tMem tStore 4).VReady { len := q.2.2.1, pipe := .ld, ce := true, tk := q.2.2.2.1, mask := some 1, reads := q.2.1.index, writes := some 4, usesMask := false, xdst := none } ∧
      (tWalk (tMem tStore 4) q.2.1).2.2 = .all ∧
      ∀ r ∈ allRuns (tWalk (tMem tStore 4) q.2.1).2.1, reachOf (tMem tStore 4).cur r.1 = .local_ ∧ (tMem tStore 4).badData r.1 r.2 = false) ∧
    ((tWalk (tMem (tStore + 0xFFEC) 0) .unit).2.2 = .range 5 (tStore + 0x10000) ∧ inWindow ((tMem (tStore + 0xFFEC) 0).x 5).toNat = true ∧
      ∃ i < 5, (tMem (tStore + 0xFFEC) 0).own.active (some 1) i = true) ∧
    ((tWalk (tMem (tStore + 0x10000) 0) .unit).2.2 = .range 0 (tStore + 0x10000) ∧ ∀ j < 0, (tMem (tStore + 0x10000) 0).own.active (some 1) j = false) ∧
    (tWalk (tMem tStore 1) (.strided ((tMem tStore 1).x 6))).2.2 = .stop { e := 2, code := 3, sub := 0, addr := tStore + 2 } ∧ (tMem tStore 1).Handles := by
  decide +kernel

/-- The checks of a store of n32 elements, an update or not, indexed or not. -/
def tStoreRule (u indexed : Bool) : WalkRule :=
  { kind := if u then .atomic else .store, late := !u, bytes := 4, align := 4, distinct := indexed && !u, atomic := u }

/-- Every form of the stores, VSTXA among them, and VSTB of 32 bytes under m1. -/
theorem witness_VectorStoreResults : (tMem tStore 4).Quiet ∧
    (∀ q ∈ storeRows true (some 1) 4 5 12 { pop := some 2, push := none } (tMem tStore 4),
      bitOf (tMem tStore 4).own.collg 0 = false ∧ tagIsInt ((tMem tStore 4).own.tag 4) = true ∧ q.2.1.legal (tMem tStore 4).own .n32 = true ∧
      (∀ r ∈ 4 :: q.2.1.index, (tMem tStore 4).own.fits ((tMem tStore 4).own.tag r) = true) ∧
      (tMem tStore 4).VReady { len := q.2.2.1, pipe := .st, ce := true, tk := q.2.2.2.1, mask := some 1, reads := 4 :: q.2.1.index, writes := none, usesMask := false, xdst := none } ∧
      ((tMem tStore 4).walk (tStoreRule q.2.2.2.2.isSome !q.2.1.index.isEmpty) ((tMem tStore 4).own.active (some 1))
          ((tMem tStore 4).elemAt q.2.1 5 .n32) (tMem tStore 4).own.vl).2.2 = .all) ∧
    (tMem tStore 4).VReady { len := 4, pipe := .st, ce := true, tk := .idle, mask := none, reads := [4], writes := none, usesMask := true, xdst := none } ∧
    ((tMem tStore 4).walk { kind := .store, late := true, bytes := 1, align := 1, distinct := false, atomic := false } (bitAtNat ((tMem tStore 4).own.mask 1))
      (fun j => (tMem tStore 4).x 5 + BitVec.ofNat 64 j) (((tMem tStore 4).own.vl * tagWidth ((tMem tStore 4).own.tag 4) + 7) / 8)).2.2 = .all := by decide +kernel

/-- The group of the collective tests: a contribution of one rank, on the own die of the own module. -/
def tColl : Group :=
  { (tMem tStore 4).own with collg := 1, collstride := BitVec.ofNat 64 (8 * (ownModule % 4096) + 7 + 2 ^ 16), collIssued := 3 }

theorem t_rank : rankDie (bits tColl.collstride 0 15) (bits tColl.collstride 16 15) 0 = 8 * ownModule + 7 := by
  have h : ownModule < 4096 := Nat.mod_lt _ (by decide)
  simp only [tColl, rankDie, bits, BitVec.toNat_ofNat]
  omega

/-- A page inside one granule that nothing holds, of 4,096 bytes; a contribution of one rank with three outstanding. -/
theorem witness_PrefetchAndContributionResults :
    (∃ s : State, s.VReady { len := 8, pipe := .ld, ce := true, tk := { pop := some 2, push := none }, mask := none, reads := [], writes := none, usesMask := false, xdst := none } ∧
      (s.slotSet (setOf s.cur)).img = some bootImage ∧ (s.x 5).toNat < 0xF0 * 2 ^ 48 ∧ (s.x 6).toNat ≠ 0 ∧ (s.x 5).toNat % 4096 + (s.x 6).toNat ≤ 4096 ∧
      tlbHit (s.tr.dies.findD (dieOf s.cur) []) bootImage.num (s.x 5).toNat = none ∧ s.tr.misses.findD (dieOf s.cur) [] = []) ∧
    ∃ s : State, s.own = tColl ∧ s.cur = 4088 ∧ s.Quiet ∧ foldAccepts (bits s.own.collop 0 3) (s.own.tag 4) = true ∧ s.own.tag 4 ≠ .q32 ∧ s.own.tag 4 ≠ .e2m1 ∧ s.own.fits (s.own.tag 4) = true ∧
      bits s.own.collg 47 15 = 0 ∧ rankDie (bits s.own.collstride 0 15) (bits s.own.collstride 16 15) 0 = 8 * ownModule + dieOf s.cur ∧
      (s.own.collIssued - s.own.collDone).toNat < 4 ∧
      s.VReady { len := 4, pipe := .st, ce := true, tk := .idle, mask := none, reads := [4], writes := none, usesMask := false, xdst := none } ∧
      (s.walk { kind := .store, late := false, bytes := 4, align := 4, distinct := false, atomic := true } (s.own.active none) (s.elemAt .unit 5 .n32) s.own.vl).2.2 = .all ∧
      (∀ r ∈ allRuns (s.walk { kind := .store, late := false, bytes := 4, align := 4, distinct := false, atomic := true } (s.own.active none) (s.elemAt .unit 5 .n32) s.own.vl).2.1,
        reachOf s.cur r.1 = .local_) ∧
      (∀ f ∈ farDies (s.own.contribution s.cur .n32 []), s.noExit (dieOf s.cur) (f / 8) = false) ∧
      ∀ f ∈ nearDies (s.own.contribution s.cur .n32 []), s.noRoute (dieOf s.cur) f = false := by
  refine ⟨⟨tMem 0x2000 4096, by decide +kernel⟩, tState tColl, rfl, rfl, by decide +kernel, by decide +kernel, by decide +kernel, by decide +kernel, by decide +kernel,
    by decide +kernel, t_rank, by decide +kernel, by decide +kernel, by decide +kernel, by decide +kernel, ?_, ?_⟩
  all_goals have h1 : bits tColl.collg 47 15 = 0 := by decide +kernel
  all_goals have h2 : (tState tColl).own = tColl := rfl
  · have hf : farDies ((tState tColl).own.contribution (tState tColl).cur .n32 []) = [] := by
      simp only [farDies, Group.contribution, h2, h1]
      show List.filter _ [rankDie _ _ 0] = []
      rw [t_rank]
      simp; omega
    rw [hf]; simp
  · have hn : nearDies ((tState tColl).own.contribution (tState tColl).cur .n32 []) = [7] := by
      simp only [nearDies, Group.contribution, h2, h1]
      show (List.filter _ [rankDie _ _ 0]).map _ = [7]
      rw [t_rank]
      have : (8 * ownModule + 7) / 8 = ownModule := by omega
      simp [this]
    rw [hn]
    decide +kernel

/-- A matrix entry of the test group. -/
def tEntry : MatrixEntry :=
  { group := bootGroup, op := .tmv 0 0 .e4m3, vcfg := 0x20, pc := 0, tok := .idle, seq := 0, issued := false, chained := false
    landed := 0, owed := 0, snap := none, rows := [], bad := none, got := [], poor := [], xmod := 3, effected := false, elided := none }

/-- The test module with entries in its cell's matrix queue, x5 = the window, x6 = 128, x7 a tile number. -/
def tTile (n : Nat) (l : List MatrixEntry) : State :=
  { tState (tRegs tStore 128 (BitVec.ofNat 64 n)) with cells := [(511, { CellState.fresh with mq := l })] }

/-- The bounds: 63 entries, the last tile and accumulator, tile number 7 of 8, number 8 past the B-store part; TCLASS of each
kind; a queue without and with an entry of the group. -/
theorem witness_TileInstructionResults :
    (((tTile 7 (List.replicate 63 tEntry)).cell (cellOf (tTile 7 []).cur)).mq.length < 64 ∧ (7 : BitVec 3).toNat < (tTile 7 []).own.hold.tiles ∧
      ((tTile 7 []).x 5).toNat % 16 = 0 ∧ ((tTile 7 []).x 6).toNat % 16 = 0 ∧ 1536 * (((tTile 7 []).x 7).toNat + 1) ≤ (tTile 7 []).own.hold.bstore ∧
      (∃ rows, ((tTile 7 []).rowPlaces .load false 48 (rowAddrs ((tTile 7 []).x 5) ((tTile 7 []).x 6)) []).2 = some (.ok rows)) ∧
      (∃ rows, ((tTile 7 []).rowPlaces .load false 128 ((upFrom 0 12).map fun i => (tTile 7 []).x 5 + BitVec.ofNat 64 (128 * i)) []).2 = some (.ok rows)) ∧
      ((6 : BitVec 3).toNat % 2 = 0 ∧ (6 : BitVec 3).toNat + 1 < (tTile 7 []).own.hold.tiles ∧ (3 : BitVec 2).toNat < (tTile 7 []).own.hold.accs) ∧
      (∃ rows, ((tTile 7 []).rowPlaces .store true 128 (rowAddrs ((tTile 7 []).x 5) ((tTile 7 []).x 6)) []).2 = some (.ok rows))) ∧
    ((8 : Reg).toNat % (tTile 7 []).own.lmul = 0 ∧ (tTile 7 []).own.boundOk [] (some 8) = true ∧
      (if (tTile 7 []).accTagAt (tTile 7 []).cur 3 = .f64 then 256 else 512) * tagWidth .n8 ≤ 8192 * (tTile 7 []).own.lmul ∧
      ((2 : BitVec 2).toNat % 2 = 0 ∧ (2 : BitVec 2).toNat + 1 < (tTile 7 []).own.hold.accs) ∧
      mulTagsOk 0 .e4m3 .e4m3 = true ∧ mulTagsOk 2 .s8 .s8 = true ∧ (tTile 8 []).own.hold.bstore < 1536 * (((tTile 8 []).x 7).toNat + 1) ∧ (tTile 8 []).Handles ∧
      (tState { tGroup with hold := { tHold with accs := 2 } }).own.hold.accs ≤ (2 : BitVec 2).toNat) ∧
    (tTile 7 []).entriesOf (tTile 7 []).cur = [] ∧ (tTile 7 []).Quiet ∧ (tTile 7 []).own.async = [] ∧
    (bits 7 18 46 = 0 ∧ bits 7 16 2 = 0 ∧ bits 7 0 16 < (tTile 7 []).own.hold.tiles) ∧ (bits 0x10003 16 2 = 1 ∧ bits 0x10003 0 16 < (tTile 7 []).own.hold.accs) ∧
    (bits 0x20007 16 2 = 2 ∧ runTiles (((tTile 7 []).window (tTile 7 []).cur 0xF2 (7 * 1536) 1536).getD []) ≠ []) ∧ bits 0x40000 18 46 ≠ 0 ∧
    (tTile 7 [tEntry]).entriesOf (tTile 7 [tEntry]).cur ≠ [] := by
  refine ⟨⟨by decide +kernel, by decide +kernel, by decide +kernel, by decide +kernel, by decide +kernel, ⟨_, rfl⟩, ⟨_, rfl⟩, by decide +kernel, ⟨_, rfl⟩⟩, by decide +kernel⟩

/-- The transform tests: XCTL, x5 and x6 as regions, x7. -/
def tXform (xctl c : Word) : State := tState { tRegs tStore (tStore + 0x1000) c with xctl := xctl }

/-- What the completion of a row asks for. -/
def tPosts (s : State) (r : Instr × TransformOp × Prop × List (Word × Nat)) : Prop :=
  bits s.own.xctl 0 5 ≠ 0 ∧ (bits s.own.xctl 5 2 = 1 → 5 ≤ bits s.own.xctl 0 5) ∧ r.2.2.1 ∧ (∀ q ∈ r.2.2.2, q.1.toNat % 16 = 0 ∧ s.RegionIn q) ∧
    ((s.cell (cellOf s.cur)).tq (setOf s.cur)).length < 16

/-- Each row in mode CF32 or BFP with 32 points; a misaligned region, LOGN = 0, BFP with LOGN = 4, and a broken rule of
XTWID; XCFG to its greatest values; the maxima below and above the bound; a queue with an entry. -/
theorem witness_TransformInstructionResults :
    ((∃ r ∈ transformRows 5 6 7 .idle 0 false false false 0 0 false false (tXform 5 16), r.1 = .xtwid 5 6 7 .idle ∧ tPosts (tXform 5 16) r) ∧
      (∃ r ∈ transformRows 5 6 7 .idle 0 false false false 0 0 false false (tXform 5 (2 ^ 28)), r.1 = .xstage 5 6 7 .idle 0 false false false 0 ∧ tPosts (tXform 5 (2 ^ 28)) r) ∧
      (∃ r ∈ transformRows 5 6 7 .idle 1 false false true 0 0 false false (tXform 5 0), r.1 = .xperm 5 6 .idle 1 true ∧ tPosts (tXform 5 0) r) ∧
      (∃ r ∈ transformRows 5 6 7 .idle 0 false false false 0 0 true false (tXform 5 (tStore + 0x2000)), r.1 = .xpoint 5 6 7 .idle true false ∧ tPosts (tXform 5 (tStore + 0x2000)) r) ∧
      (∃ r ∈ transformRows 5 6 7 .idle 0 false false false 0 1 false false (tXform 0x25 0), r.1 = .xnorm 5 6 .idle 1 ∧ tPosts (tXform 0x25 0) r)) ∧
    ((tState (tRegs 8 0 0)).x 5).toNat % 16 ≠ 0 ∧ (tXform 0 0).Handles ∧ bits (tXform 0 0).own.xctl 0 5 = 0 ∧ bits (tXform 0x24 0).own.xctl 5 2 = 1 ∧
    bits (tXform 0x24 0).own.xctl 0 5 < 5 ∧ ¬ ((tXform 5 (2 ^ 24 + 1)).x 7).toNat ≤ 2 ^ 24 ∧
    (∀ new : Word, new = ((0 : Word) &&& ~~~(0x7F : Word)) ||| (0x58 &&& 0x7F) → new.toNat < 128 ∧ bits new 5 2 ≤ 2 ∧ bits new 0 5 ≤ 24) ∧
    ((tXform 5 0).transformsOf (tXform 5 0).cur = [] ∧ (tXform 5 0).own.pmark = false ∧ (tXform 5 0).own.async = [] ∧
      2 * 2 ^ bits (tXform 5 0).own.xctl 0 5 * 0 * 0 < bits (tXform 5 0).own.xmod 0 31 ∧ bits (tXform 5 0).own.xmod 0 31 ≤ 2 * 2 ^ bits (tXform 5 0).own.xctl 0 5 * 1 * 1) ∧
    ∃ s : State, s.transformsOf s.cur ≠ [] := by
  refine ⟨⟨?_, ?_, ?_, ?_, ?_⟩, by decide +kernel, by decide +kernel, by decide +kernel, by decide +kernel, by decide +kernel, by decide +kernel, ?_, by decide +kernel,
    { tXform 5 0 with cells := [(511, { CellState.fresh with tq0 := [(tXform 5 0).newTransform (.perm 0 0 0 false) .idle []] })] }, by decide +kernel⟩
  · exact ⟨_, .head _, rfl, by decide +kernel, by decide +kernel, (by decide +kernel : ((tXform 5 16).x 7).toNat ≤ 2 ^ 24),
      by decide +kernel, by decide +kernel⟩
  · exact ⟨_, .tail _ (.head _), rfl, by decide +kernel, by decide +kernel, by dsimp only; decide +kernel,
      by decide +kernel, by decide +kernel⟩
  · exact ⟨_, .tail _ (.tail _ (.head _)), rfl, by decide +kernel, by decide +kernel, by dsimp only; decide +kernel,
      by decide +kernel, by decide +kernel⟩
  · exact ⟨_, .tail _ (.tail _ (.tail _ (.head _))), rfl, by decide +kernel, by decide +kernel, by dsimp only; decide +kernel,
      by decide +kernel, by decide +kernel⟩
  · exact ⟨_, .tail _ (.tail _ (.tail _ (.tail _ (.head _)))), rfl, by decide +kernel, by decide +kernel, by dsimp only; decide +kernel,
      by decide +kernel, by decide +kernel⟩
  · rintro _ rfl; decide +kernel

/-- The test module with bytes at the start of the group's window. -/
def tBytes (G : Group) (l : List Byte) : State :=
  { tState G with mem := memPutBytes (tState G).mem (cstorePA 511 0) l }

/-- A pattern of 16 elements of stride 128. -/
def tPattern : List Byte := toBytes 4 16 ++ toBytes 4 1 ++ toBytes 4 1 ++ toBytes 4 1 ++ toBytes 8 128

/-- SBIND and SCOPY of the last channel with a descriptor in the window; a ring and a line copy at, below and past its target;
a FIFO with 254 tokens, with one and with none. -/
theorem witness_StreamAndTokenResults :
    (∃ (s : State) (c k : Channel), (15 : BitVec 4).toNat < s.own.hold.chans ∧ s.Quiet ∧ (s.own.chan[15]).st = .free ∧ (s.x 6).toNat % 16 = 0 ∧
      (s.look s.cur .load (s.x 6).toNat 48).2 = .here [(cstorePA 511 0, 48)] 0 ∧ runsLocal s.cur [(cstorePA 511 0, 48)] = true ∧ s.runsBad [(cstorePA 511 0, 48)] = false ∧
      (8 : Reg).toNat % s.own.lmul = 0 ∧ s.own.boundOk [] (some 8) = true ∧
      c = Channel.withPattern { Channel.free with st := .bound, base := s.x 5, esz := 4, tag := .n32, vd := 8, lmul := s.own.lmul } (s.readRuns [(cstorePA 511 0, 48)]) ∧
      c.sizeOk = true ∧ c.alignOk = true ∧
      k = Channel.withPattern { Channel.free with st := .copying, base := s.x 5, esz := 2 ^ 4, dst := s.x 7, depth := 1, tke := true, tkf := 3 } (s.readRuns [(cstorePA 511 0, 48)]) ∧
      k.sizeOk = true ∧ k.alignOk = true ∧ (∀ q ∈ s.own.chan.toList, k.overlaps q = false) ∧ (s.x 7).toNat % 128 = 0 ∧ s.destOk k = true) ∧
    (∃ (s : State) (c : Channel), c = s.own.chan[2] ∧ c.st = .copying ∧ 0 < c.depth ∧ (s.x 5).toNat ≤ c.filled ∧ c.filled < (s.x 6).toNat) ∧
    (∃ (s : State) (c : Channel), c = s.own.chan[2] ∧ c.st = .done ∧ c.depth = 0 ∧ c.filled < (s.x 6).toNat) ∧ (∃ s : State, (s.own.chan[2]).st = .bound) ∧
    (∃ s : State, (s.own.chan[2]).settled = true ∧ (s.own.chan[3]).settled = false) ∧
    (∃ s : State, s.Quiet ∧ s.own.sent = [] ∧ s.own.async = [] ∧ s.own.fifos[1] = 254 ∧ s.own.fifos[1] < 255 ∧ s.own.fifos[1] ≠ 0 ∧ s.own.fifos[2] = 0) :=
  ⟨⟨tBytes (tRegs (tStore + 128) tStore (tStore + 0x8000)) tPattern, _, _, by decide +kernel, by decide +kernel, by decide +kernel, by decide +kernel, by decide +kernel,
      by decide +kernel, by decide +kernel, by decide +kernel, by decide +kernel, rfl, by decide +kernel, by decide +kernel, rfl, by decide +kernel, by decide +kernel,
      by decide +kernel, by decide +kernel, by decide +kernel⟩,
   ⟨tState { tRegs 1536 1537 0 with chan := tGroup.chan.set 2 { tChannel with st := .copying, depth := 1, filled := 1536 } }, _, rfl, by decide +kernel⟩,
   ⟨tState { tRegs 1536 1537 0 with chan := tGroup.chan.set 2 { tChannel with st := .done, filled := 1536 } }, _, rfl, by decide +kernel⟩,
   ⟨tState { tRegs 0 0 0 with chan := tGroup.chan.set 2 tChannel }, by decide +kernel⟩,
   ⟨tState { tRegs 0 0 0 with chan := tGroup.chan.set 3 { tChannel with st := .copying, owed := 1 } }, by decide +kernel⟩,
   ⟨tState { tRegs 0 0 0 with fifos := tGroup.fifos.set 1 254 }, by decide +kernel⟩⟩

/-- A barrier entry of the cell's unit, index 0, generation 1, phase 5, for 4 groups. -/
def tBarrier (arrivals : Nat) : State :=
  { tState (tRegs (BitVec.ofNat 64 (2 ^ 24 + 511 * 2 ^ 12)) 4 5) with
    bars := [(barKey 0 0 511 0, { used := true, gen := 1, count := 4, phase := 5, arrivals := arrivals })] }

/-- Scope 0 and 4 groups with entry 1 free, and scope 3 with none free; the arrival before the last and the last; a phase
that is over, the one that runs; a handle of another generation. -/
theorem witness_BarrierResults :
    (((tBarrier 0).freeEntry 0 0 (barUnit 0 (tBarrier 0).cur) = some 1 ∧ ((tBarrier 0).x 6).toNat = 4 ∧ ((tBarrier 0).x 6).toNat ≤ barLimit 0) ∧
      ∃ s : State, s.freeEntry (setOf s.cur) 0 (barUnit 0 s.cur) = none) ∧
    ((tBarrier 2).liveHandle (tBarrier 2).cur ((tBarrier 2).x 5) = .ok (.entry (barKey 0 0 511 0)) ∧ barDie ((tBarrier 2).x 5) = dieOf (tBarrier 2).cur ∧ (tBarrier 2).Settled ∧
      (tBarrier 2).own.barPending = none ∧ (tBarrier 2).own.barPast = false ∧ ((tBarrier 2).barEntry (barKey 0 0 511 0)).arrivals + 1 < 4 ∧
      4 ≤ ((tBarrier 3).barEntry (barKey 0 0 511 0)).arrivals + 1) ∧
    (1 ≤ (((tBarrier 2).barEntry (barKey 0 0 511 0)).phase - 4).toNat ∧ (((tBarrier 2).barEntry (barKey 0 0 511 0)).phase - 4).toNat < 2 ^ 31 ∧
      ((tBarrier 2).barEntry (barKey 0 0 511 0)).phase = ((tBarrier 2).x 7).setWidth 32) ∧
    (tBarrier 2).liveHandle (tBarrier 2).cur ((tBarrier 2).x 5 + 2 ^ 24) = .error 1 ∧ (tBarrier 2).Handles :=
  ⟨⟨by decide +kernel, ⟨{ tState tGroup with bars := (upFrom 0 8).map fun i => (barKey 0 0 511 i, { BarEntry.fresh with used := true }) }, by decide +kernel⟩⟩, by decide +kernel⟩

/-- Nothing outstanding; a store to another die and an access of another module not acknowledged; a load outstanding; a word
of the window. -/
theorem witness_OrderResults :
    (∃ s : State, s.Settled ∧ s.LoadStands (s.x 5) 8 [(cstorePA 511 0, 8)] 0 ∧ runsLocal s.cur [(cstorePA 511 0, 8)] = true ∧
      s.runsBad [(cstorePA 511 0, 8)] = false ∧ s.MemCanonical ∧ (s.x 5).toNat % 8 = 0 ∧ s.windowOut s.cur (s.x 5).toNat 8 = false ∧ s.own.sfrq = [] ∧
      (s.look s.cur .store (s.x 5).toNat 8).2 = .here [(cstorePA 511 0, 8)] 0 ∧ reachOf s.cur (cstorePA 511 0) = .local_) ∧
    (∃ s : State, ∃ w ∈ s.own.sent, w.msg = false ∧ w.path = false ∧ (∀ l ∈ s.own.slices.toList, l = []) ∧ (if w.die < 8 then 4 else 5) ≤ (5 : BitVec 3).toNat) ∧
    ∃ (s : State) (q : LateLoad) (r : Nat × Nat), s.own.late = some q ∧ r ∈ q.runs ∧ scopeOf s.cur r.1 ≤ (1 : BitVec 3).toNat ∧ ∀ l ∈ s.own.slices.toList, l = [] :=
  ⟨⟨tState (tRegs tStore 0 0), by decide +kernel⟩,
   ⟨tState { tRegs 0 0 0 with sent := [{ va := 0, die := 8, atomic := false, msg := false, seq := 0, elem := 0, path := false, held := none, joined := false, inst := 0 }] }, by decide +kernel⟩,
   ⟨tState { tRegs 0 0 0 with
      late := some { pc := 0, d := 4, va := tStore, w := 6, runs := [(cstorePA 511 0, 8)], ckX := tGroup.x, ckFlags := 0, ckRetired := 0, ckVl := 0, ckVcfg := 0, ckXmod := 0, ckXctl := 0, ckColl := (0, 0, 0), seq := 1 } }, _, (cstorePA 511 0, 8), rfl,
     by decide +kernel⟩⟩

/-- A ticket of dispenser 5 of the own die. -/
@[irreducible] def tTicket (n : Nat) : Word := BitVec.ofNat 64 ((8 * ownModule + 7) * 2 ^ 49 + 5 * 2 ^ 32 + n)

theorem t_ticket (n : Nat) (h : n < 2 ^ 32) : ticketHere (tTicket n) = true ∧ ticketDie (tTicket n) % 8 = 7 ∧ ticketDisp (tTicket n) = 5 ∧
    ticketNum (tTicket n) = BitVec.ofNat 32 n := by
  have hm : ownModule < 4096 := Nat.mod_lt _ (by decide)
  have hd : ticketDie (tTicket n) = 8 * ownModule + 7 := by
    unfold tTicket
    simp only [ticketDie, bits, BitVec.toNat_ofNat]; omega
  refine ⟨?_, ?_, ?_, ?_⟩
  · simp only [ticketHere, hd, decide_eq_true_eq]; omega
  · rw [hd]; omega
  · unfold tTicket
    simp only [ticketDisp, bits, BitVec.toNat_ofNat]; omega
  · apply BitVec.eq_of_toNat_eq
    unfold tTicket
    simp only [ticketNum, BitVec.toNat_setWidth, BitVec.toNat_ofNat]; omega

/-- The test module with two tickets of dispenser 5 held, which has given 9 numbers and done 4, in windows of 4. -/
def tTickets (h k : Word) : State :=
  { tState { tRegs h k 0 with tickets := [(h, 0), (k, 0)] } with
    dispensers := [(dispKey 0 7 5, { nextNo := 9, doneNo := 4, waiters := [] })]
    set0 := { (tState tGroup).set0 with img := some { bootImage with window := some 4 } } }

theorem t_tickets (h k : Word) : (tTickets h k).x 5 = h ∧ (tTickets h k).x 6 = k ∧ (tTickets h k).own.tickets = [(h, 0), (k, 0)] ∧ (tTickets h k).Quiet ∧
    (tTickets h k).own.sent = [] ∧ dieOf (tTickets h k).cur = 7 ∧ (tTickets h k).dispenser (dispKey 0 7 5) = { nextNo := 9, doneNo := 4, waiters := [] } ∧
    (tTickets h k).ticketWindow 0 = 4 := ⟨rfl, rfl, rfl,
  ⟨⟨rfl, rfl, fun _ h => absurd h (by exact List.not_mem_nil)⟩, (by decide +kernel : ∀ c ∈ tGroup.chan.toList, c.st ≠ .copying), (by decide +kernel : ∀ l ∈ tGroup.slices.toList, l = []), rfl, rfl⟩, rfl,
  (by decide +kernel : dieOf bootGroup = 7), rfl, rfl⟩

/-- MCST of 8 elements to two replicas. -/
theorem witness_McstAndTicketResults_mcst : ∃ (s : State) (desc : List Byte) (bases : List Word), s.Quiet ∧ (8 : Reg).toNat % s.own.lmul = 0 ∧ (s.x 5).toNat % 32 = 0 ∧
    s.ReadsHere (s.x 5) 32 desc ∧ s.own.tag 8 = .n32 ∧ s.own.vl ≤ s.own.vlmax .n32 ∧ (3 : BitVec 4) ≠ 0 ∧
    bases = ((upFrom 0 4).filter (3 : BitVec 4).getLsbD).map (fun k => BitVec.ofNat 64 (natOfBytes (takeBytes desc (8 * k) 8))) ∧
    ∀ base ∈ bases, bits base 48 8 < 0xF0 ∧ (base + s.x 6).toNat % elemBytes .n32 = 0 :=
  ⟨tBytes { tRegs tStore 64 0 with vtag := tGroup.vtag.set 8 .n32 } (toBytes 8 0x1000 ++ toBytes 8 0x2000 ++ toBytes 8 0 ++ toBytes 8 0),
      toBytes 8 0x1000 ++ toBytes 8 0x2000 ++ toBytes 8 0 ++ toBytes 8 0, [0x1000, 0x2000], by decide +kernel,
      by decide +kernel, by decide +kernel, ⟨[(cstorePA 511 0, 32)], 0, by decide +kernel, by decide +kernel, by decide +kernel, by decide +kernel⟩,
      by decide +kernel, by decide +kernel, by decide +kernel, by decide +kernel, List.forall_mem_cons.2 ⟨by decide +kernel, List.forall_mem_cons.2 ⟨by decide +kernel, fun _ h => nomatch h⟩⟩⟩

/-- Seven tickets held, and dispenser 15; eight held, dispenser 16, and a word that is no ticket held. -/
theorem witness_McstAndTicketResults_tickget :
    (∃ s : State, inWindow (s.x 5).toNat = true ∧ (s.x 6).toNat = 15 ∧ (s.x 6).toNat ≤ 15 ∧ s.own.tickets.length = 7) ∧
    ∃ s : State, 15 < (s.x 6).toNat ∧ (s.x 7).toNat ≤ 15 ∧ 8 ≤ s.own.tickets.length ∧ s.Handles ∧ s.own.ticketAt (s.x 5) = none :=
  ⟨⟨tState { tRegs tStore 15 0 with tickets := List.replicate 7 (0, 0) }, by decide +kernel⟩,
   ⟨tState { tRegs 5 16 15 with tickets := List.replicate 8 (0, 0) }, by decide +kernel⟩⟩

/-- Ticket 7, which is called when 4 are done in windows of 4, and ticket 8, which is not. -/
theorem witness_McstAndTicketResults_tickets :
    ∃ s : State, s.own.tickets = [(s.x 5, 0), (s.x 6, 0)] ∧ s.Quiet ∧ s.own.sent = [] ∧
      (ticketHere (s.x 5) = true ∧ ticketDie (s.x 5) % 8 = dieOf s.cur ∧ ticketDisp (s.x 5) = 5 ∧
        (ticketNum (s.x 5) - (s.dispenser (dispKey 0 7 5)).doneNo).toNat < s.ticketWindow 0) ∧
      ticketHere (s.x 6) = true ∧ ticketDie (s.x 6) % 8 = dieOf s.cur ∧ s.ticketWindow 0 ≤ (ticketNum (s.x 6) - (s.dispenser (dispKey 0 7 5)).doneNo).toNat := by
  refine ⟨tTickets (tTicket 7) (tTicket 8), ?_⟩
  obtain ⟨h5, h6, ht, hq, hs, hd, hD, hw⟩ := t_tickets (tTicket 7) (tTicket 8)
  obtain ⟨a1, a2, a3, a4⟩ := t_ticket 7 (by decide)
  obtain ⟨b1, b2, b3, b4⟩ := t_ticket 8 (by decide)
  rw [h5, h6, ht, hs, hd, hD, hw, a4, b4]
  exact ⟨rfl, hq, rfl, ⟨a1, a2, a3, by decide⟩, b1, b2, by decide⟩

/-- A descriptor of a receive: 64 bytes to the page at 0x2000, the record at 0x1000, any source, tag 9. -/
def tDesc : List Byte :=
  toBytes 8 0x2000 ++ toBytes 8 0x1000 ++ toBytes 4 0 ++ toBytes 4 0 ++ toBytes 4 9 ++ toBytes 4 0xFFFFFFFF ++ toBytes 4 64 ++ toBytes 2 64 ++ toBytes 2 1 ++
    toBytes 2 1 ++ toBytes 2 1 ++ toBytes 4 1 ++ toBytes 4 0 ++ toBytes 4 0 ++ toBytes 4 0 ++ toBytes 4 0

/-- The receive it describes, for handle slot 0 of the test group. -/
def tRecv : Recv :=
  { group := some 4088, slot := 0, dest := 0x2000, flaga := 0x1000, src := 0, smask := 0, tag := 9, tmask := 0xFFFFFFFF, count := 64, n := [64, 1, 1, 1]
    s := [1, 0, 0, 0], esz := 1 }

/-- A message with a tag. -/
def tMsg (tag : BitVec 32) : Msg := { src := 5, tag := tag, payload := [1, 2], sender := none, addr := 0, ctx := 1, spill := none, handed := false, back := false }

/-- The test module with a receive engine's contents and what its receive handles hold, the descriptor in the window. -/
def tMail (posts : List Recv) (tray : List Msg) (recvs : Table RecvSlot) (a : Word) : State :=
  { tBytes { tRegs tStore (2 ^ 20) a with recvs := recvs } tDesc with receivers := [(14, { Receiver.fresh with posts := posts, tray := tray })] }

theorem t_desc : (tMail [] [] [] 0).ReadsHere ((tMail [] [] [] 0).x 5) 64 tDesc ∧ recvOf tDesc (2 ^ (0 : BitVec 3).toNat) 4088 0 = tRecv ∧ tRecv.ok tDesc = true :=
  ⟨⟨[(cstorePA 511 0, 64)], 0, by decide +kernel, by decide +kernel, by decide +kernel, by decide +kernel⟩, by decide +kernel, by decide +kernel⟩

/-- A free handle slot with 1,023 receives posted and a message that does not match, then one that does; 1,024 posted; no
free slot; a send of no bytes and of 64. -/
theorem witness_MessageInstructionResults :
    (recvKey (dieOf (tMail [] [] [] 0).cur) (setOf (tMail [] [] [] 0).cur) = 14 ∧ (tMail [] [] [] 0).Quiet ∧ ((tMail [] [] [] 0).x 5).toNat % 64 = 0 ∧ tRecv.flaga.toNat % 16 = 0 ∧
      (tMail [] [] [] 0).own.freeRecv = some 0 ∧ ((tMail (List.replicate 1023 tRecv) [tMsg 8] [] 0).receiver 14).posts.length < 1024 ∧ (∀ m ∈ [tMsg 8], tRecv.takes m = false) ∧
      ([tMsg 8, tMsg 9].find? fun q => tRecv.takes q) = some (tMsg 9) ∧ (tMsg 9).handed = false ∧ 1024 ≤ (List.replicate 1024 tRecv).length ∧
      (tMail [] [] ((upFrom 0 64).map fun k => (k, RecvSlot.mk 1 (some .posted))) 0).own.freeRecv = none ∧ tRecv.src.toNat < 2 ^ 24 ∧ tRecv.smask.toNat < 2 ^ 24) ∧
    (∀ m : Msg, m = { tMsg 9 with handed := true, spill := some 0 } → ∀ R : Receiver, R = { Receiver.fresh with tray := [m], waitingHost := [(m, 3)] } → R.posts.length < 1024 ∧
      (R.tray.find? fun q => tRecv.takes q) = some m ∧ m.handed = true ∧ m.back = false ∧ (∃ w ∈ R.waitingHost, w.1 = m) ∧ ({ m with back := true }).back = true) ∧
    (inWindow ((tMail [] [] [] 0).x 5).toNat = true ∧ ((tMail [] [] [] 0).x 6).toNat ≤ 2 ^ 20 ∧ ((tMail [] [] [] 0).x 7).toNat = 0) :=
  ⟨by decide +kernel, by rintro _ rfl _ rfl; decide +kernel, by decide +kernel⟩

/-- A Complete, a Posted and a landing receive of handle slot 0 with generation 1, and no such handle; MDRIP's selectors. -/
theorem witness_MessageInstructionResults_handles :
    (tMail [] [] [(0, ⟨1, some (.complete 3)⟩)] 256).own.recvHeld ((tMail [] [] [(0, ⟨1, some (.complete 3)⟩)] 256).x 7) = some (0, .complete 3) ∧
    (tMail [] [] [(0, ⟨1, some .landing⟩)] 256).own.recvHeld ((tMail [] [] [(0, ⟨1, some .landing⟩)] 256).x 7) = some (0, .landing) ∧
    (∃ s : State, s = tMail [tRecv] [] [(0, ⟨1, some .posted⟩)] 256 ∧ s.MemCanonical ∧ s.own.recvHeld (s.x 7) = some (0, .posted) ∧
      ((s.receiver 14).posts.find? fun q => q.group == some s.cur && q.slot == 0) = some tRecv ∧
      (s.landingAt (dieOf s.cur) (setOf s.cur) tRecv.flaga).2.toOption = some (bootCode + 0x1000)) ∧
    (tMail [] [] [] 256).own.recvHeld ((tMail [] [] [] 256).x 7) = none ∧ (tMail [] [] [] 256).Handles ∧ ((tMail [] [] [] 5).x 7).toNat = 5 ∧
    ∃ s : State, (s.x 7).toNat = 8 ∧ s.own.level = .supervisor ∧ ∀ w ∈ (s.receiver 14).waitingHost, w.2 ≠ 0 :=
  ⟨by decide +kernel, by decide +kernel, ⟨_, rfl, by decide +kernel⟩, by decide +kernel, by decide +kernel, by decide +kernel,
   ⟨tState { (tRegs 0 0 8) with level := .supervisor }, by decide +kernel⟩⟩

/-- A sequencer with a subscription of the test group to query 2, pages 1 and 3. -/
def tSub : Sys2Proof.Machine.Sub := { group := 4088, query := 2, pages := [1, 3], inPass := false, late := [], reserved := [], pending := [], delivered := [] }
def tFold : Fold :=
  { query := 2, runs := [(bootCode + 0x1000, 536)], inPass := false, acc := none, left := [], ready := [], failp := 0, flags := 0, top := 0, merged := 0, written := false }

/-- A group with room for a ring of two buffers. -/
def tKvGroup (a b c : Word) : Group := { tRegs a b c with hold := { tHold with cstore := 131072, csPieces := [(0, 131072)] } }

/-- The test module, with a KVSUB descriptor of pages p and q for query 2 in the window, a share of 8 holding entries, and the
sequencer of its cluster. -/
def tKv (Q : Sequencer) (G : Group) (p q : Nat) : State :=
  { tBytes G (toBytes 8 0x1000 ++ toBytes 4 2 ++ toBytes 4 2 ++ List.replicate 48 0 ++ toBytes 4 p ++ toBytes 4 q) with
    seqs := [(seqOf bootGroup, Q)], set0 := { (tState tGroup).set0 with img := some { bootImage with cquota := List.replicate 8 8 } } }

/-- KVSUB of pages that rise to 1,023, of pages that do not. -/
theorem witness_KvInstructionResults_kvsub : ∀ s : State, s = tKv Sequencer.fresh (tKvGroup tStore 0 0) 1 1023 →
    s.Quiet ∧ (s.x 5).toNat % 64 = 0 ∧ (s.look s.cur .load (s.x 5).toNat 64) = (s, .here [(cstorePA 511 0, 64)] 0) ∧
    (s.look s.cur .load (s.x 5 + 64).toNat (4 * 2)) = (s, .here [(cstorePA 511 64, 8)] 0) ∧ s.runsBad [(cstorePA 511 0, 64)] = false ∧ s.runsBad [(cstorePA 511 64, 8)] = false ∧
    natOfBytes (takeBytes (s.readRuns [(cstorePA 511 0, 64)]) 0 8) = 0x1000 ∧ natOfBytes (takeBytes (s.readRuns [(cstorePA 511 0, 64)]) 8 4) = 2 ∧
    natOfBytes (takeBytes (s.readRuns [(cstorePA 511 0, 64)]) 12 4) = 2 ∧ natOfBytes (takeBytes (s.readRuns [(cstorePA 511 0, 64)]) 16 48) = 0 ∧
    (upFrom 0 2).map (fun i => natOfBytes (takeBytes (s.readRuns [(cstorePA 511 64, 8)]) (4 * i) 4)) = [1, 1023] ∧ ((0 : BitVec 3).toNat + (2 : BitVec 3).toNat) * 65536 ≤ s.own.hold.cstore ∧
    ([1, 1023] : List Nat).Pairwise (· < ·) ∧ (∀ p ∈ ([1, 1023] : List Nat), p < 1024) ∧ s.own.ring = none ∧ 0 < s.kvFree (dieOf s.cur) (setOf s.cur) ∧
    (s.look s.cur .store 0x1000 536).2 = .here [(bootCode + 0x1000, 536)] (bootCode + 0x73) ∧ (s.seqAt (seqOf s.cur)).phase = .idle ∧ (s.seqAt (seqOf s.cur)).subs = [] ∧
    (s.seqAt (seqOf s.cur)).folds = [] ∧
    (upFrom 0 2).map (fun i => natOfBytes (takeBytes ((tKv Sequencer.fresh (tKvGroup tStore 0 0) 3 1).readRuns [(cstorePA 511 64, 8)]) (4 * i) 4)) = [3, 1] ∧
    ¬ ([3, 1] : List Nat).Pairwise (· < ·) := by rintro _ rfl; decide +kernel

/-- KVUNSUB of query 2, subscribed, and of query 3, which is not; KVPASS with P = 4 at an idle sequencer and at one in a pass,
and with P = 0 and 1,025. -/
theorem witness_KvInstructionResults_pass : ∃ s u : State, ∃ Q : Sequencer, s.seqAt (seqOf s.cur) = Q ∧
    (s.x 5).toNat = 2 ∧ (s.x 5).toNat ≤ 4095 ∧ (∃ v ∈ Q.subs, (v.group == s.cur && v.query == 2) = true) ∧ Q.phase = .idle ∧ (∀ v ∈ Q.subs, v.inPass = false) ∧
    (∀ F ∈ Q.folds, F.inPass = false ∧ F.written = false) ∧ (∀ v ∈ Q.subs, (v.group == s.cur && v.query == 3) = false) ∧
    ((s.x 6).toNat % 8 = 0 ∧ 1 ≤ (s.x 7).toNat ∧ (s.x 7).toNat ≤ 1024 ∧ Q.subs ≠ [] ∧ (∀ v ∈ Q.subs, ∃ j ∈ v.pages, j < (s.x 7).toNat) ∧
      ∀ F ∈ Q.folds, ∃ v ∈ Q.subs, v.query = F.query) ∧
    ((u.x 6).toNat % 8 = 0 ∧ (u.x 7).toNat = 1025 ∧ (u.x 5).toNat = 0 ∧ u.Handles ∧ (u.seqAt (seqOf u.cur)).phase ≠ .idle) :=
  ⟨tKv { Sequencer.fresh with subs := [tSub], folds := [tFold] } (tKvGroup 2 0x1000 4) 0 0,
   tKv { Sequencer.fresh with phase := .main, passNo := 1 } (tKvGroup 0 0x1000 1025) 0 0, { Sequencer.fresh with subs := [tSub], folds := [tFold] }, by decide +kernel⟩

/-- A group with its subscription in the pass, page 3 delivered with an entry reserved and page 1 to come first; xd names the
page 3 of query 2. -/
def tPart (reserved : List Nat) : State :=
  tKv { Sequencer.fresh with
    phase := .main, passNo := 1, p := 4, fetches := [{ page := 1, fmt := false, va := 0, catchUp := false, runs := [], data := none }]
    subs := [{ tSub with inPass := true, pending := [1, 3], delivered := [3], reserved := reserved }], folds := [{ tFold with inPass := true, left := [1, 3] }] }
    { tKvGroup (2 + 3 * 2 ^ 16) 2 0 with vtag := tGroup.vtag.set 8 .f32, ring := some { rbase := 0, bufs := [.held, .filled] } } 0 0

/-- KVPART out of order with an entry reserved, and with neither; of a page not delivered; an item for KVRECV, none, with and
without a subscription; KVDONE of a query that is written, works, or is not known. -/
theorem witness_KvInstructionResults_items :
    (∀ s : State, s = tPart [3] → bits (s.x 5) 0 12 = 2 ∧ bits (s.x 5) 16 10 = 3 ∧ bits (s.x 5) 12 4 = 0 ∧ bits (s.x 5) 26 38 = 0 ∧ (8 : Reg).toNat % s.own.lmul = 0 ∧
      s.own.boundOk [] (some 8) = true ∧ s.own.tag 8 = .f32 ∧ (∃ u ∈ (s.seqAt (seqOf s.cur)).subs,
        (s.seqAt (seqOf s.cur)).subs.find? (fun u => u.group == s.cur && u.query == 2 && u.delivered.contains 3) = some u ∧ u.inPass = true ∧ u.reserved.contains 3 = true) ∧
      (∃ F ∈ (s.seqAt (seqOf s.cur)).folds, F.query = 2 ∧ F.left.head? = some 1 ∧ F.left.contains 3 = true ∧ Table.find F.ready 1 = none) ∧
      (∀ F ∈ (s.seqAt (seqOf s.cur)).folds, ∀ G ∈ (s.seqAt (seqOf s.cur)).folds, F.query = 2 → G.query = 2 → G = F) ∧ (s.seqAt (seqOf s.cur)).phase = .main ∧
      (s.seqAt (seqOf s.cur)).fetches ≠ [] ∧ (∀ G ∈ (s.seqAt (seqOf s.cur)).folds, G.inPass = true → G.left ≠ [] ∨ G.written = true) ∧ s.own.items = [] ∧
      (∃ u ∈ (s.seqAt (seqOf s.cur)).subs, u.group = s.cur) ∧ ((s.seqAt (seqOf s.cur)).fold? 2).map Fold.written = some false ∧
      (s.seqAt (seqOf s.cur)).fold? 3 = none ∧ s.Handles ∧ ∀ u ∈ (s.seqAt (seqOf s.cur)).subs, u.group = s.cur → u.query = 2 → 1 ∉ u.delivered) ∧
    (∃ s : State, s = { tPart [] with set0 := (tState tGroup).set0 } ∧ s.kvFree (dieOf s.cur) (setOf s.cur) = 0 ∧
      ∃ u ∈ (s.seqAt (seqOf s.cur)).subs, u.delivered.contains 3 = true ∧ u.reserved.contains 3 = false) ∧
    (∃ s : State, s.own.items = [0x10000] ∧ bitOf 0x10000 63 = false ∧ ∀ u ∈ (s.seqAt (seqOf s.cur)).subs, u.group ≠ s.cur) ∧
    ∃ Q : Sequencer, Q.phase = .await ∧ (∃ u ∈ Q.subs, u.query = 2) ∧ (Q.fold? 2).map Fold.written = some true ∧
      ∀ G ∈ Q.folds, G.query ≠ 2 → G.inPass = true → G.left ≠ [] ∨ G.written = true := by
  refine ⟨by rintro _ rfl; decide +kernel, ⟨_, rfl, by decide +kernel⟩, ⟨tState { tKvGroup 0 0 0 with items := [0x10000] }, by decide +kernel⟩,
    ⟨{ Sequencer.fresh with phase := .await, subs := [{ tSub with inPass := true }], folds := [{ tFold with inPass := true, written := true }] }, by decide +kernel⟩⟩

/-- A group that handles its traps, one whose TRAPVEC forwards, one at supervisor level with an interrupted wait and the
partner standing by. -/
theorem witness_TrapAndReturnResults : (tState tGroup).Handles ∧
    (∃ s : State, s.own.level = .user ∧ s.own.over = false ∧ (s.slotSet (setOf s.cur)).st = .active ∧ bitOf s.own.trapvec 0 = true) ∧
    ∃ s : State, s.own.level = .supervisor ∧ s.own.over = false ∧ (s.slotSet (setOf s.cur)).st = .active ∧ s.dropped (setOf s.cur) = false ∧
      (s.slotSet (1 - setOf s.cur)).st = .standby ∧ s.own.interrupted = some (0, .token 1) ∧ bitOf s.own.trapstat 2 = true ∧ s.own.trappc = pcField 0 :=
  ⟨by decide +kernel, ⟨tState { tGroup with trapvec := 1 }, by decide +kernel⟩,
   ⟨{ tState { tGroup with level := .supervisor, interrupted := some (0, .token 1), trapstat := 4 } with set1 := { SlotSet.fresh with st := .standby } }, by decide +kernel⟩⟩

/-- A kernel of n groups, the test group's. -/
def tKernel (n ended : Nat) : Kernel :=
  { num := 7, queue := some 0, st := .placed, desc := bootDesc, args := 0, ngrp := n, serial := false, cohort := false, cword := some (bootCode + 0x1000), word := 3
    deps := [], launchable := true, passed := 0, reserving := false, placed := n, ended := ended, bar := BarEntry.fresh, after := none, stays := false }

/-- The test module with kernels and a set of declared queues. -/
def tKernels (G : Group) (l : List Kernel) : State :=
  { tState { G with kernid := 7 } with set0 := { (tState tGroup).set0 with kernels := l, queues := [(0, { prio := 3, closed := false })] } }

/-- The last group but one, and the last, of a placed kernel; at supervisor level for GTERM. -/
theorem witness_GroupEndResults : ∃ s u : State, s.MemCanonical ∧ s.Rests ∧ (s.slotSet 0).kernel? s.own.kernid = some (tKernel 4 2) ∧ (tKernel 4 2).cohort = false ∧
    (tKernel 4 2).cword = some (bootCode + 0x1000) ∧ paModule (bootCode + 0x1000) = false ∧ s.own.level = .supervisor ∧ (tKernel 4 2).ended + 1 < (tKernel 4 2).ngrp ∧
    u.Rests ∧ (u.slotSet 0).kernel? u.own.kernid = some (tKernel 4 3) ∧ (tKernel 4 3).ended + 1 = (tKernel 4 3).ngrp ∧ (tKernel 4 3).st = .placed ∧
    (∀ q ∈ u.groups, setOf q.1 = 0 → q.2.kernid = 7 → q.1 = u.cur) :=
  ⟨tKernels { tGroup with level := .supervisor } [tKernel 4 2], tKernels tGroup [tKernel 4 3], by decide +kernel⟩

/-- A word that equals xb and one that does not, the last of the window; store faults on record, and none; contributions that
have not ended; supervisor level. -/
theorem witness_GroupControlResults :
    (∃ s : State, s.LoadReady (s.x 5) 8 [(cstorePA 511 0xFFF8, 8)] 0 ∧ BitVec.ofNat 64 (natOfBytes (s.readRuns [(cstorePA 511 0xFFF8, 8)])) = s.x 6 ∧
      BitVec.ofNat 64 (natOfBytes (s.readRuns [(cstorePA 511 0xFFF8, 8)])) ≠ s.x 7 ∧
      ((s.look s.cur .load (s.x 5).toNat 8).1.look s.cur .load (s.x 5).toNat 8).2 = .here ((cstorePA 511 0xFFF8, 8) :: []) 0) ∧
    (∃ s : State, s.Quiet ∧ s.own.async = [] ∧ s.own.sfrq ≠ [] ∧ s.Handles ∧ s.own.convoys = [] ∧ s.own.sent = []) ∧
    (∃ s : State, s.Quiet ∧ s.own.async = [] ∧ s.own.sfrq = [] ∧ s.own.convoys = [] ∧ s.own.sent = [] ∧ s.transformsOf s.cur = [] ∧ s.own.collDone ≠ s.own.collIssued) ∧
    ∃ s : State, s.own.level = .supervisor ∧ s.own.sfrq = [⟨4, 8, 9, 0, 3, 1, 0, true, 1⟩] ∧ s.clock = 0 :=
  ⟨⟨tState (tRegs (tStore + 0xFFF8) 0 1), by decide +kernel⟩, ⟨tState { tGroup with sfrq := [⟨4, 8, 9, 0, 3, 1, 0, false, 0⟩] }, by decide +kernel⟩,
   ⟨tState { tGroup with collIssued := 1 }, by decide +kernel⟩,
   ⟨tState { tGroup with level := .supervisor, sfrq := [⟨4, 8, 9, 0, 3, 1, 0, true, 1⟩] }, by decide +kernel⟩⟩

/-- A saved context of number n. -/
def tSaved (n : Nat) : SavedContext :=
  { num := n, set := { SlotSet.fresh with st := .saved, img := some { bootImage with num := n } }, groups := [(4088, { tGroup with phase := .preempted })], bars := [], seqs := []
    receivers := [], dispensers := [], matrix := [], transform := [], tiles := [], mem := [], poison := [], uncorr := [], lims := [] }

/-- The test module with the partner in a state, an event of this clock or none, a save area and a list of loadable contexts. -/
def tPair (p : CtxState) (G : Group) (last : Option Nat) (area : Bool) : State :=
  { tState G with
    set0 := { (tState tGroup).set0 with lastAt := last, img := some { bootImage with saveArea := area, loadable := [2 ^ 16 - 1] } }
    set1 := { SlotSet.fresh with st := p, conductorDone := true }, saved := [tSaved (2 ^ 16 - 1), tSaved 9] }

theorem witness_ContextInstructionResults :
    ((tPair .standby { tRegs 0 0 0 with level := .supervisor } none true).own.level = .supervisor ∧ (tPair .standby tGroup none true).dropped 0 = false ∧
      (tPair .standby tGroup (some 0) true).dropped 0 = true) ∧
    ((tPair .preempting tGroup none true).slotSet 1).st = .preempting ∧ ((tPair .empty tGroup none true).slotSet 1).st ≠ .preempting ∧ ((tPair .empty tGroup none true).slotSet 1).st ≠ .standby ∧
    ((tPair .standby tGroup none true).slotSet 1).st = .standby ∧ ((tPair .standby tGroup none true).slotSet 1).conductorDone = true ∧ (tPair .standby tGroup none true).own.barPending = none ∧
    ((((tPair .empty tGroup none true).slotSet 0).img.map Image.saveArea).getD false = true ∧ ((tPair .empty tGroup none true).slotSet 0).saveMark = false ∧
      (((tPair .empty tGroup none false).slotSet 0).img.map Image.saveArea).getD false = false) ∧
    (∃ s : State, s = tPair .empty (tRegs (2 ^ 16 - 1) 9 8) none true ∧ (s.x 5).toNat < 2 ^ 16 ∧ (s.slotSet 1).st = .empty ∧
      s.saved.find? (fun c => c.num == (s.x 5).toNat) = some (tSaved (2 ^ 16 - 1)) ∧ (s.x 5).toNat ∈ ((s.slotSet 0).img.map Image.loadable).getD [] ∧
      (s.saved.find? (fun c => c.num == (s.x 6).toNat)).isSome = true ∧ (s.x 6).toNat ∉ ((s.slotSet 0).img.map Image.loadable).getD [] ∧
      s.saved.find? (fun c => c.num == (s.x 7).toNat) = none) ∧
    ∃ s : State, s = tPair .empty { tRegs (2 ^ 16) 0 0 with level := .supervisor } none true ∧ s.own.level = .supervisor ∧ 2 ^ 16 ≤ (s.x 5).toNat ∧ s.own.over = false ∧ (s.slotSet 0).st = .active :=
  ⟨by decide +kernel, by decide +kernel, by decide +kernel, by decide +kernel, by decide +kernel, by decide +kernel, by decide +kernel, by decide +kernel, ⟨_, rfl, by decide +kernel⟩, ⟨_, rfl, by decide +kernel⟩⟩

/-- Queue 0 declared with a kernel and without one, queue 15 not declared, 16 no queue; tokens of channel 1, none of channel 2,
an egress FIFO with 15 and one with 16; kernel 7 and no kernel 8. -/
theorem witness_QueueInstructionResults :
    (∃ s : State, s = tKernels (tRegs 0 7 16) [tKernel 4 2] ∧ (s.x 5).toNat ≤ 15 ∧ (s.slotSet 0).queues.find (s.x 5).toNat = some { prio := 3, closed := false } ∧
      ((s.slotSet 0).kernels.filter fun k => k.queue == some (s.x 5).toNat).map Kernel.num ≠ [] ∧ (s.x 6).toNat ≤ 7 ∧ 15 < (s.x 7).toNat ∧ 7 < (s.x 7).toNat ∧
      (s.slotSet 0).queues.find 15 = none ∧ (s.slotSet 0).kernels.find? (fun k => k.num == (s.x 6).toNat) = some (tKernel 4 2) ∧
      (s.slotSet 0).kernels.find? (fun k => k.num == (s.x 5).toNat) = none) ∧
    ((((tKernels tGroup []).slotSet 0).kernels.filter fun k => k.queue == some 0).map Kernel.num = []) ∧
    ∃ s : State, (s.slotSet 0).ingress.findD 1 [] = [5] ∧ s.firstWaiter 0 1 = none ∧ (s.slotSet 0).ingress.findD 2 [] = [] ∧ s.Settled ∧
      ((s.slotSet 0).egress.findD 1 []).length < 16 ∧ 16 ≤ ((s.slotSet 0).egress.findD 2 []).length :=
  ⟨⟨_, rfl, by decide +kernel⟩, by decide +kernel,
   ⟨{ tState tGroup with set0 := { (tState tGroup).set0 with ingress := [(1, [5])], egress := [(1, List.replicate 15 0), (2, List.replicate 16 0)] } }, by decide +kernel⟩⟩

/-- A launch record (descriptor at 64 in the window, one group, queue q, completion word at 0x1000, no dependence) and the
descriptor it names, of n channels. -/
def tLaunch (q n : Nat) (bad : Nat) (l : List Kernel) : State :=
  let s := tBytes (tRegs tStore 0 0) (toBytes 8 (tStore.toNat + 64) ++ toBytes 8 0 ++ toBytes 4 1 ++ toBytes 1 q ++ toBytes 1 0 ++ toBytes 2 bad ++ toBytes 8 0x1000 ++
    List.replicate 32 0 ++ toBytes 8 0x40 ++ toBytes 1 0 ++ toBytes 1 8 ++ toBytes 1 4 ++ toBytes 1 n ++ toBytes 4 0 ++ toBytes 4 0 ++ List.replicate 12 0)
  { s with set0 := { s.set0 with queues := [(0, { prio := 3, closed := false })], kernels := l, nextKernel := 8 } }

/-- A launch that is accepted, with 255 not yet placed; a reserved field that is set, 17 channels, queue 1, 256 not yet
placed, more store than the context has. -/
theorem witness_LaunchResults :
    (∀ s : State, s = tLaunch 0 16 0 (List.replicate 255 { tKernel 4 0 with st := .queued }) → (s.slotSet 0).img = some bootImage ∧ s.Settled ∧ (s.x 5).toNat % 64 = 0 ∧
      s.look s.cur .load (s.x 5).toNat 64 = (s, .here [(cstorePA 511 0, 64)] 0) ∧ runsLocal s.cur [(cstorePA 511 0, 64)] = true ∧ s.runsBad [(cstorePA 511 0, 64)] = false ∧
      recordOk (s.readRuns [(cstorePA 511 0, 64)]) = true ∧
      s.look s.cur .load (launchRecord (s.readRuns [(cstorePA 511 0, 64)])).desc.toNat 32 = (s, .here [(cstorePA 511 64, 32)] 0) ∧ s.runsBad [(cstorePA 511 64, 32)] = false ∧
      descOk (s.readRuns [(cstorePA 511 64, 32)]) = true ∧ ((s.slotSet 0).queue? 0).isSome = true ∧ (s.slotSet 0).queue? 1 = none ∧
      (s.wordPlace .store 0x1000).2 = .ok (bootCode + 0x1000) ∧ ((s.wordPlace .store 0x1000).1.depPlaces (launchRecord (s.readRuns [(cstorePA 511 0, 64)])).deps []).2 = .ok [] ∧
      1 ≤ emptyFit bootImage (kernelDesc (s.readRuns [(cstorePA 511 64, 32)])) ∧ (s.slotSet 0).unplaced 0 = 255 ∧ s.MemCanonical ∧ paModule (bootCode + 0x1000) = false ∧
      ∀ q ∈ (s.slotSet 0).kernels, q.num ≠ (s.slotSet 0).nextKernel) ∧
    recordOk ((tLaunch 0 16 1 []).readRuns [(cstorePA 511 0, 64)]) = false ∧ descOk ((tLaunch 0 17 0 []).readRuns [(cstorePA 511 64, 32)]) = false ∧
    (launchRecord ((tLaunch 1 16 0 []).readRuns [(cstorePA 511 0, 64)])).queue = 1 ∧ emptyFit bootImage { bootDesc with cstore := 1 } = 0 ∧
    ((tLaunch 0 16 0 (List.replicate 256 { tKernel 4 0 with st := .queued })).slotSet 0).unplaced 0 = 256 := ⟨by rintro _ rfl; decide +kernel, by decide +kernel⟩

/-- Nothing of the context in translation; a page that is mapped, one that is not, an address of 2^56. -/
theorem witness_TranslationInstructionResults : ∃ s : State, s.own.level = .supervisor ∧ (s.slotSet 0).img = some bootImage ∧ s.Quiet ∧ s.own.sent = [] ∧ s.translatedLeft 0 = false ∧
    (s.x 5).toNat = 1 ∧ 1 < (s.x 6).toNat ∧ (s.x 6).toNat = 3 ∧
    (s.translate 0 (dieOf s.cur) (some s.cur) .load 0x1000).2 = .ok (bootCode + 0x1000) (bootCode + 0x73) 30 ∧
    (s.translate 0 (dieOf s.cur) (some s.cur) .load (2 ^ 50)).2 = .fail 1 ∧ 2 ^ 56 ≤ (s.x 7).toNat ∧ (tState (tRegs 0 4 0)).Handles ∧
    3 < ((tState (tRegs 0 4 0)).x 6).toNat := ⟨tState { (tRegs 1 3 (2 ^ 56)) with level := .supervisor }, by decide +kernel⟩

/-- The test group with a held cause. -/
def tCause (G : Group) (elem : Option Nat) : State := tState { G with causes := [{ code := 9, sub := 1, addr := 0, elem := elem, inst := 0 }] }

/-- An asynchronous and an imprecise cause at a boundary, one in a wait; an unreported record; a watchdog at its limit and one
below it; a mark whose peer runs and one with no clock left; an ended convoy with two pushes of FIFO 3, which holds 253. -/
theorem witness_GroupEventResults :
    (∃ s : State, s = tCause tGroup none ∧ s.live 4088 = true ∧ bitOf s.own.trapvec 0 = false ∧ s.own.over = false ∧
      s.own.firstCause = some { code := 9, sub := 1, addr := 0, elem := none, inst := 0 } ∧ s.own.atBoundary = true ∧ s.own.unreported = false) ∧
    (∃ s : State, s = tCause tGroup (some 3) ∧ s.own.firstCause = some { code := 9, sub := 1, addr := 0, elem := some 3, inst := 0 }) ∧
    (∃ s : State, s = tCause { tGroup with phase := .waiting (.token 1) } none ∧ s.live 4088 = true ∧ s.own.level = .user ∧ (s.wakeUp 4088 false).isNone = true) ∧
    (∃ s : State, s = tState { tGroup with sfrq := [⟨4, 8, 9, 0, 3, 1, 0, false, 0⟩] } ∧ s.live 4088 = true ∧ s.Handling 4088 ∧ s.own.atBoundary = true ∧ s.own.unreported = true) ∧
    (∃ s : State, s = tState { tGroup with phase := .waiting (.token 1), wdoglim := 16, wdog := 16 } ∧ s.live 4088 = true ∧ s.Handling 4088 ∧ bits s.own.wdoglim 0 48 ≠ 0 ∧
      bits s.own.wdoglim 0 48 = s.own.wdog ∧ (s.wakeUp 4088 false).isNone = true) ∧
    (∃ s : State, s = tState { tGroup with phase := .waiting (.token 1), wdoglim := 16, wdog := 17 } ∧ bits s.own.wdoglim 0 48 < s.own.wdog) ∧
    (∃ s : State, s = tState { tGroup with phase := .waiting (.token 1), wdoglim := 16, wdog := 15 } ∧ s.own.wdog < bits s.own.wdoglim 0 48) ∧
    (∃ s : State, s.own.yield = some { others := [4088], left := 1 } ∧ ∃ h ∈ [4088], (s.group h).phase = .running) ∧
    ∃ s : State, s.own.convoys = [tConvoy true [tMember .aluA (some 3) none, tMember .ld (some 3) none]] ∧ s.mayIssue 4088 = true ∧
      (∀ m ∈ [tMember .aluA (some 3) none, tMember .ld (some 3) none], m.complete = true) ∧ ∀ f : Fin 16, s.own.fifos[f] + (if f = 3 then 2 else 0) ≤ 255 :=
  ⟨⟨_, rfl, by decide +kernel⟩, ⟨_, rfl, by decide +kernel⟩, ⟨_, rfl, by decide +kernel⟩, ⟨_, rfl, by decide +kernel⟩, ⟨_, rfl, by decide +kernel⟩, ⟨_, rfl, by decide +kernel⟩,
   ⟨_, rfl, by decide +kernel⟩, ⟨tState { tGroup with yield := some { others := [4088], left := 1 } }, by decide +kernel⟩,
   ⟨tState { tGroup with convoys := [tConvoy true [tMember .aluA (some 3) none, tMember .ld (some 3) none]], fifos := tGroup.fifos.set 3 253 }, by decide +kernel⟩⟩

/-- The test module with its group in a wait. -/
def tWaits (w : Wait) (G : Group) : State := tState { G with phase := .waiting w }

/-- Each wait with its event come and not come. -/
theorem witness_WaitWakeResults :
    (∃ s : State, s = tWaits (.barrier ((tBarrier 0).x 5) 4 4 true) tGroup ∧ s.live 4088 = true ∧
      ({ s with bars := (tBarrier 0).bars }).liveHandle 4088 ((tBarrier 0).x 5) = .ok (.entry (barKey 0 0 511 0)) ∧ ((tBarrier 0).barEntry (barKey 0 0 511 0)).phase - 4 = 1) ∧
    (∃ s : State, s = tWaits (.token 1) { tGroup with fifos := tGroup.fifos.set 1 1 } ∧ s.live 4088 = true ∧ (s.group 4088).fifos[1] ≠ 0 ∧ (s.group 4088).fifos[2] = 0 ∧ (s.group 4088).async = [] ∧ (s.group 4088).limitPassed = false) ∧
    (∃ s : State, s = { tWaits (.queue 4 [7]) tGroup with set0 := (tKernels tGroup [tKernel 4 2]).set0 } ∧ s.live 4088 = true ∧ (∃ k ∈ (s.slotSet 0).kernels, k.num ∈ [7]) ∧
      ∀ k ∈ (s.slotSet 0).kernels, k.num ∉ [8]) ∧
    (∃ s : State, s = tWaits (.watermark 4 2 1536) { tGroup with chan := tGroup.chan.set 2 { tChannel with st := .copying, filled := 1536 } } ∧ s.live 4088 = true ∧
      1536 ≤ ((s.group 4088).chan[2]).filled ∧ ((s.group 4088).chan[2]).filled < 1537 ∧ ((s.group 4088).chan[2]).st = .copying) ∧
    (∃ s : State, s = tWaits (.place [(cstorePA 511 16, 8)]) { tGroup with chan := tGroup.chan.set 2 { tChannel with st := .copying, dst := tStore, filled := 16 } } ∧
      s.live 4088 = true ∧ s.behind 4088 [(cstorePA 511 16, 8)] = true ∧ s.behind 4088 [(cstorePA 511 8, 8)] = false) ∧
    (∃ s : State, s = tWaits (.message 4 256) { tGroup with recvs := [(0, ⟨1, some (.complete 3)⟩), (1, ⟨1, some .posted⟩)] } ∧ s.live 4088 = true ∧
      (s.group 4088).recvHeld (BitVec.ofNat 64 256) = some (0, .complete 3) ∧ (s.group 4088).recvHeld (BitVec.ofNat 64 257) = some (1, .posted) ∧
      (s.group 4088).recvHeld (BitVec.ofNat 64 258) = none) ∧
    (∃ s : State, s = { tWaits (.kvItem 4) { tGroup with items := [2 ^ 63] } with seqs := [(seqOf bootGroup, { Sequencer.fresh with subs := [tSub] })] } ∧ s.live 4088 = true ∧
      (s.group 4088).items = [2 ^ 63] ∧ bitOf (2 ^ 63) 63 = true ∧ ∃ k ∈ (s.seqAt (seqOf 4088)).subs, k.group = 4088) ∧
    (∃ s : State, s.live 4088 = true ∧ s.firstWaiter 0 1 = some 4088 ∧ (s.slotSet 0).ingress.findD 1 [] = [5] ∧ (s.slotSet 0).ingress.findD 2 [] = [] ∧
      ((s.slotSet 0).egress.findD 1 []).length = 15 ∧ ((s.slotSet 0).egress.findD 2 []).length = 16 ∧ (s.group 4088).phase = .waiting (.hostTaken 4 1)) ∧
    (∃ s : State, s = tWaits .collective { tGroup with collIssued := 1 } ∧ s.live 4088 = true ∧ (s.group 4088).collDone ≠ (s.group 4088).collIssued ∧ tGroup.collDone = tGroup.collIssued) :=
  ⟨⟨_, rfl, by decide +kernel⟩, ⟨_, rfl, by decide +kernel⟩, ⟨_, rfl, by decide +kernel⟩, ⟨_, rfl, by decide +kernel⟩, ⟨_, rfl, by decide +kernel⟩, ⟨_, rfl, by decide +kernel⟩,
   ⟨_, rfl, by decide +kernel⟩,
   ⟨{ tWaits (.hostTaken 4 1) tGroup with
      set0 := { (tState tGroup).set0 with ingress := [(1, [5])], waiters := [(4088, 1, false)], egress := [(1, List.replicate 15 0), (2, List.replicate 16 0)] } }, by decide +kernel⟩,
   ⟨_, rfl, by decide +kernel⟩⟩

/-- Called and uncalled tickets, as a wait's. -/
theorem witness_WaitWakeResults_ticket : ∃ s : State, s.live 4088 = true ∧ s.dispenser (dispKey 0 7 5) = { nextNo := 9, doneNo := 4, waiters := [] } ∧ s.ticketWindow (setOf 4088) = 4 ∧
    ticketHere (tTicket 7) = true ∧ ticketDie (tTicket 7) % 8 = 7 ∧ ticketDisp (tTicket 7) = 5 ∧ (ticketNum (tTicket 7) - 4).toNat < 4 ∧ 4 ≤ (ticketNum (tTicket 8) - 4).toNat := by
  obtain ⟨a1, a2, a3, a4⟩ := t_ticket 7 (by decide)
  obtain ⟨-, -, -, b4⟩ := t_ticket 8 (by decide)
  refine ⟨tTickets 0 0, by decide +kernel, (t_tickets 0 0).2.2.2.2.2.2.1, by decide +kernel, a1, a2, a3, ?_, ?_⟩
  · rw [a4]; decide
  · rw [b4]; decide

/-- An image with a conductor. -/
def tImage (n : Nat) : Image := { bootImage with num := n, conductor := some { desc := bootDesc, args := 0, cword := 0 } }

/-- Slot set 0 draining with its partner Active: a cell with a group that has stopped and more to come, and the last; a set
that Loads an image, or a saved context, next to an Active one; one that stands by to be saved. -/
theorem witness_ContextEventResults :
    (∃ s : State, s = { tState { tGroup with phase := .running, convoys := [] } with
        set0 := { (tState tGroup).set0 with st := .preempting }, set1 := { (tState tGroup).set0 with st := .active }
        groups := [(4088, { tGroup with phase := .preempted }), (4080, { tGroup with phase := .preempted })] } ∧
      s.drainingSet = some 0 ∧ (s.slotSet 1).st = .active ∧ (∀ h ∈ s.groupsOf 0, cellOf h = 511 → s.groupDrained h = true) ∧
      (∃ h ∈ s.groupsOf 0, cellOf h ∉ setAdd (s.slotSet 0).drained 511) ∧ ∀ h ∈ s.groupsOf 0, cellOf h ∈ setAdd [510] 511) ∧
    (∃ s : State, s = tState tGroup ∧ (s.slotSet (setOf 4088)).st ∈ [CtxState.active, .preempting, .standby] ∧ s.dropped (setOf 4088) = false ∧ (s.slotSet 1).st ≠ .loading ∧
      (s.slotSet 0).st ≠ .standby) ∧
    (∃ s : State, s = { tState tGroup with
        set1 := { SlotSet.fresh with st := .loading }, port := { HostPort.fresh with cmd := some { code := 1, set := 1, reserved := 0, args := [], begun := true } } } ∧
      (s.slotSet 1).st = .loading ∧ (s.slotSet 1).img = none ∧ s.port.cmd = some { code := 1, set := 1, reserved := 0, args := [], begun := true } ∧ memNat [] 24 1 = 0 ∧
      s.MemCanonical ∧ s.freshStatus 1 (tImage 2) = 0 ∧ (s.slotSet 0).st = .active) ∧
    (∃ s : State, s = { tState tGroup with
        set1 := { SlotSet.fresh with st := .loading, img := some (tImage 9) }, saved := [tSaved 9] } ∧
      (s.slotSet 1).st = .loading ∧ s.saved.find? (fun c => c.num == 9) = some (tSaved 9) ∧ (s.slotSet 1).img = some (tImage 9) ∧ (tImage 9).num = 9 ∧ s.imageStatus 1 (tImage 9) = 0 ∧ (s.slotSet 0).st = .active ∧
      ((tSaved 9).groups.map fun q => regroup 1 q.1).Nodup) ∧
    ∃ s : State, s = { tState { tGroup with phase := .preempted } with set0 := { (tState tGroup).set0 with st := .standby, saveMark := true } } ∧
      (s.slotSet 0).img = some bootImage ∧ (s.slotSet 0).st = .standby ∧ (s.slotSet 0).saveMark = true ∧ s.savable 0 = true ∧ s.MemCanonical :=
  ⟨⟨_, rfl, by decide +kernel⟩, ⟨_, rfl, by decide +kernel⟩, ⟨_, rfl, by decide +kernel⟩, ⟨_, rfl, by decide +kernel⟩, ⟨_, rfl, by decide +kernel⟩⟩

/-- Kernel 7, Queued and launchable or not, alone in the context, with one of 4 groups to place. -/
theorem witness_PlacementResults : ∀ k : Kernel, k = { tKernel 4 0 with st := .queued, placed := 3, launchable := true } →
    (∃ s : State, s = tKernels tGroup [{ k with launchable := false }] ∧ s.activeSet = some 0 ∧ (s.slotSet 0).kernel? 7 = some { k with launchable := false } ∧
      s.meets 0 (s.slotSet 0) { k with launchable := false } [] = true ∧ (s.slotSet 0).kernel? 8 = none ∧ (s.slotSet 0).placeDue = false ∧ (∀ j ∈ (s.slotSet 0).kernels, j.stays = true → s.launchSeen j = false) ∧
      (∀ j ∈ (s.slotSet 0).kernels, j.launchable = true → j.st ≠ .queued ∧ j.st ≠ .placing)) ∧
    ∃ s : State, s = { tKernels tGroup [k] with set0 := { (tKernels tGroup [k]).set0 with placeDue := true } } ∧ s.activeSet = some 0 ∧ (s.slotSet 0).placeDue = true ∧
      k ∈ (s.slotSet 0).kernels ∧ k.launchable = true ∧ k.st = .queued ∧ (∀ j ∈ (s.slotSet 0).kernels, j = k) ∧ (∀ i ∈ (s.slotSet 0).kernels, ∀ j ∈ (s.slotSet 0).kernels, i.num = j.num → i = j) ∧ (∀ j ∈ (s.slotSet 0).kernels, j.reserving = false) ∧
      k.queue = some 0 ∧ (s.slotSet 0).queues.find 0 = some { prio := 3, closed := false } ∧ k.cohort = false ∧ s.launchSeen k = true ∧ (s.slotSet 0).img = some bootImage ∧
      s.chooseCell 0 k.desc (s.mayUse k) = some 0 ∧ s.freeSlots 0 0 = 0 :: [1, 2, 3] ∧ k.placed < k.ngrp ∧ k.cword = some (bootCode + 0x1000) ∧ paModule (bootCode + 0x1000) = false ∧ s.MemCanonical ∧
      ({ k with cword := some (2 ^ 50 + 0x1000) }).cword = some (2 ^ 50 + 0x1000) ∧ paHost (2 ^ 50 + 0x1000) = false ∧ paModule (2 ^ 50 + 0x1000) = true := by
  rintro k rfl; exact ⟨⟨_, rfl, by decide +kernel⟩, ⟨_, rfl, by decide +kernel⟩⟩

/-- A miss of a mapped granule in hardware mode and one in host-assisted mode; a request for it; a scatter element at the head
of a queue, with good and bad data. -/
theorem witness_PageEventResults :
    (∃ (s : State) (m : Miss), s = { tState tGroup with tr := { Xlate.fresh with misses := [(7, [m])] } } ∧ ((s.tr.misses.findD 7 []).take 64)[0]? = some m ∧ m.answer = none ∧
      (s.slotSet m.set).img = some bootImage ∧ bootImage.hostWalk = false ∧ ((s.tr.misses.findD 7 []).take 64)[1]? = none ∧
      (s.hardwareWalk bootImage 7 (m.granule * 4096)).leaf.toOption = some (bootCode + 0x73, 30) ∧ permits .load (bootCode + 0x73) = true) ∧
    (∃ (s : State) (m : Miss), s = { tState tGroup with
        tr := { Xlate.fresh with misses := [(7, [m])] }, port := { HostPort.fresh with requests := [(1, .translate 7 0 1)] } } ∧
      s.port.requests.find 1 = some (.translate 7 0 1) ∧ (s.tr.misses.findD 7 []).find? (fun m => m.request == some 1) = some m ∧ (s.slotSet 0).img.isSome = true ∧
      s.port.requests.find 2 = none) ∧
    ∃ s : State, ∀ a : Access, a = { tAccess with op := .scatter 0 .n32, pa := some [(cstorePA 511 0, 4)], len := 4 } →
      s = tState ((tRegs 0 0 0).setSlice 0 [a]) ∧ (s.group 4088).slice 0 = [a] ∧ a.pa = some [(cstorePA 511 0, a.len)] ∧ a.len = tagWidth .n32 / 8 ∧ 0 < a.len ∧
      reachOf 4088 (cstorePA 511 0) = .local_ ∧ s.mustStay 4088 0 a = false ∧ s.outOfOrder 4088 0 a [(cstorePA 511 0, a.len)] = false ∧ s.badData (cstorePA 511 0) a.len = false ∧ s.MemCanonical ∧ (s.group 4088).causes = [] ∧
      ({ s with uncorr := [cstorePA 511 0 / 8] }).badData (cstorePA 511 0) a.len = true ∧ tAccess.isAtomic = false := by
  let m : Miss := { set := 0, granule := 1, request := some 1, kind := 0, idle := false, answer := none, joined := [] }
  exact ⟨⟨_, m, rfl, by decide +kernel⟩, ⟨_, m, rfl, by decide +kernel⟩, ⟨_, by rintro _ rfl; exact ⟨rfl, by decide +kernel⟩⟩⟩

/-- A ticket of another module, called and not. -/
theorem witness_WaitWakeResults_other : ∃ h : Word, ticketHere h = false ∧
    ∀ j : Bool, (tWaits (.ticket h true j) tGroup).live 4088 = true ∧ (tGroup.limitPassed = false) ∧
      ((tWaits (.ticket h true j) tGroup).group 4088).phase = .waiting (.ticket h true j) := by
  by_cases k : ownModule = 0
  · exact ⟨BitVec.ofNat 64 (8 * 2 ^ 49), by rw [ticketHere, k]; decide, fun j => ⟨by cases j <;> rfl, by decide +kernel, by cases j <;> rfl⟩⟩
  · refine ⟨0, ?_, fun j => ⟨by cases j <;> rfl, by decide +kernel, by cases j <;> rfl⟩⟩
    exact decide_eq_false fun e => k (e.symm.trans (by decide))

/-- The test module whose matrix queue holds an entry, another, and a group. -/
def tMatrix (e : MatrixEntry) (rest : List MatrixEntry) (G : Group) : State :=
  { tState G with cells := [(511, { CellState.fresh with mq := e :: rest })] }

/-- A multiply of tile 0 and B-store tile 0 into accumulator 1 as f32, issued, with its snapshot. -/
def tMul (owed : Nat) : MatrixEntry :=
  { tEntry with op := .mul 0 1 0 0 .e4m3 .e4m3 none, issued := true, owed := owed, snap := some (0, TileEntry.zero .e4m3) }

/-- Four rows of 48 bytes in the window. -/
def tLand : MatrixEntry :=
  { tEntry with op := .tld 0 tStore 128 .e4m3, issued := true, landed := 3
                rows := (upFrom 0 16).map fun i => (tStore + BitVec.ofNat 64 (128 * i), [(cstorePA 511 (128 * i), 48)]) }

/-- An empty queue; an entry to issue with and without a token; the last row-block; an issued TMV, AZERO, TLD, ACCST, MMA and
MMAI with nothing owed and room in a FIFO; a multiply with clocks owed, alone in its queue. -/
theorem witness_MatrixEventResults :
    ((tState tGroup).cell 511).mq = [] ∧
    (∃ s : State, s = tMatrix { tEntry with tok := { pop := some 2, push := none } } [] { tGroup with fifos := tGroup.fifos.set 2 1 } ∧
      s.mayIssue 4088 = true ∧ (∀ l ∈ (s.group 4088).slices.toList, l = []) ∧ (∀ w ∈ (s.group 4088).sent, w.held = none) ∧ (s.group 4088).async = [] ∧ s.behind 4088 (s.entryRuns tEntry) = false ∧ tEntry.issued = false ∧
      (∀ r ∈ tEntry.rows, ∀ p ∈ r.2, paModule p.1 = false) ∧ (s.group 4088).fifos[2] ≠ 0) ∧
    (∃ s : State, s = tMatrix tLand [] tGroup ∧ tLand.landed < 4 ∧ tLand.effected = false ∧ tLand.bad = none ∧
      (s.readRows tLand .none false ((tLand.rows.drop (4 * tLand.landed)).take 4)).map (fun q => q.2) = some (List.replicate 192 0, none)) ∧
    (∀ e ∈ [{ tEntry with issued := true }, { tEntry with op := .azero 1 .f32, issued := true }, { tLand with landed := 4, effected := true }, { tEntry with op := .accst 1 tStore 128, issued := true }, tMul 0],
      e.issued = true ∧ (e.effected = true ∨ e.owed = 0) ∧ e ∉ [{ tEntry with seq := 9 }] ∧ e.tok.push = none ∧ e.bad = none) ∧
    (tMul 0).snap = some (0, TileEntry.zero .e4m3) ∧ (tGroup.tdir[0]).poison = false ∧ (TileEntry.zero .e4m3).poison = false ∧ (tGroup.adir[1]).poison = false ∧
    (∃ s : State, s = tMatrix (tMul 300) [] tGroup ∧ 0 < (tMul 300).owed ∧ (tMul 300).effected = false ∧
      min (tMul 300).owed (min ((s.cell 511).capNow - (s.cell 511).spent) (((s.cell 511).limNow0.getD (((s.slotSet 0).img.bind Image.lim).getD 256)) - (s.cell 511).spent0)) = 256) ∧
    ∃ C : CellState, C = { CellState.fresh with spent := 256, spent0 := 256 } ∧ 0 < C.spent ∧ min 44 (min (C.capNow - C.spent) (256 - C.spent0)) = 0 :=
  ⟨by decide +kernel, ⟨_, rfl, by decide +kernel⟩, ⟨_, rfl, by decide +kernel⟩, by decide +kernel, by decide +kernel, by decide +kernel, by decide +kernel, by decide +kernel,
   ⟨_, rfl, by decide +kernel⟩, ⟨_, rfl, by decide +kernel⟩⟩

/-- A BLD of good and of bad data, a BST, an ACCMV of an accumulator without and with POISON, an AZERO of a pair, a multiply of slices,
and operands with POISON; nothing owed, no token. -/
theorem witness_MatrixEventResults_moves :
    (∃ e : MatrixEntry, e = { tEntry with op := .bld 3 tStore .s8, issued := true, rows := (upFrom 0 12).map fun i => (tStore + BitVec.ofNat 64 (128 * i), [(cstorePA 511 (128 * i), 128)]) } ∧
      e.issued = true ∧ e.effected = false ∧ e.owed = 0 ∧ e.tok.push = none ∧ (tMatrix e [] tGroup).tileRuns 4088 3 = some [(bstorePA 511 (3 * 1536), 1536)] ∧
      ((tMatrix e [] tGroup).readRows e .none false e.rows).map (fun q => (q.2.1.length, q.2.2)) = some (1536, none) ∧
      (({ tMatrix e [] tGroup with poison := [cstorePA 511 256 / 8] } : State).readRows e .none false e.rows).map (fun q => q.2) = some (List.replicate 1536 0, some (1, tStore + 256))) ∧
    (∃ lo hi : Fin 8, lo.val = (2 : BitVec 3).toNat ∧ hi.val = lo.val + 1 ∧ ∃ p q : Fin 4, p.val = (2 : BitVec 2).toNat ∧ q.val = p.val + 1) ∧
    (∀ vc : Word, vc = 0x21 → ∀ lm n : Nat, lm = 2 ^ bits vc 0 2 → n = (if (tGroup.adir[0]).tag = .f64 then 256 else 512) → (4 : Reg).toNat + lm ≤ 32 ∧ n * tagWidth .bf16 ≤ 8192 * lm) ∧
    ((tGroup.adir[0]).poison = false ∧ ((tGroup.adir.set 0 { TileEntry.zero .f32 with poison := true })[0]).poison = true ∧ (tGroup.tdir[5]).poison = false ∧
      ((tGroup.tdir.set 5 { TileEntry.zero .s8 with poison := true })[5]).poison = true ∧ (TileEntry.zero .s8).poison = false ∧ (tGroup.adir[2]).poison = false ∧ (tGroup.adir[3]).poison = false) ∧
    ∀ e ∈ [{ tEntry with op := .bst 3 2, issued := true }, { tEntry with op := .accmv 4 0 .bf16, issued := true, vcfg := 0x21 }, { tEntry with op := .azero 2 .f64, issued := true },
        { tEntry with op := .mul 3 2 5 0 .s8 .s8 none, issued := true, snap := some (0, TileEntry.zero .s8) }],
      e.issued = true ∧ e.effected = false ∧ e.owed = 0 ∧ e.tok.push = none ∧ ((tMatrix e [] tGroup).cell 511).mq = [e] ∧ e.group = 4088 :=
  ⟨⟨_, rfl, by decide +kernel⟩, ⟨2, 3, rfl, rfl, 2, 3, rfl, rfl⟩, by rintro _ rfl _ _ rfl rfl; decide +kernel, by decide +kernel, by decide +kernel⟩

theorem le_cellCycle (c n : Nat) : n ≤ cellCycle c n := by
  induction n with
  | zero => exact Nat.zero_le _
  | succ k ih => simp only [cellCycle]; omega

/-- A cell whose CYCLE has passed a multiple of 256 and one that has not. -/
theorem witness_MatrixEventResults_window : ∃ s u : State, (s.cell 511).window < cellCycle 511 s.clock / 256 ∧ cellCycle 511 u.clock / 256 ≤ (u.cell 511).window := by
  refine ⟨{ State.reset with clock := 512 }, State.reset, ?_, ?_⟩
  · have h : 512 ≤ cellCycle 511 512 := le_cellCycle 511 512
    have w : (({ State.reset with clock := 512 } : State).cell 511).window = 0 := rfl
    rw [w]; exact Nat.div_pos (Nat.le_trans (by decide) h) (by decide)
  · exact Nat.le_of_eq rfl

/-- A transform entry of the test group, and the module with it at the head. -/
def tXentry (op : TransformOp) (started : Bool) : TransformEntry :=
  { (tXform 0x45 0).newTransform op .idle [] with xmod := 17, started := started }
/-- An entry with an XCTL, modulus 17; one of the test group. -/
def tXentryOf (xctl : Nat) (op : TransformOp) : TransformEntry := { tXentry op true with xctl := BitVec.ofNat 64 xctl }
def tGroupEntry : TransformEntry := tXentry (.twid 0 3 4) true
def tXqueue (e : TransformEntry) : State := { tState tGroup with cells := [(511, { CellState.fresh with tq0 := [e] })] }

theorem witness_TransformEventResults :
    (∃ s : State, s = tState tGroup ∧ s.activeSet = some 0 ∧ (s.cell 511).tq0 = [] ∧ (s.cell 511).tq1 = []) ∧
    (∃ s : State, s = tXqueue (tXentry (.twid 0 3 4) false) ∧ (∀ q ∈ (s.cell 511).tq0 ++ (s.cell 511).tq1, q.started = false) ∧ (∀ l ∈ (s.group 4088).slices.toList, l = []) ∧
      s.serves 0 511 = true ∧ (∀ w ∈ (s.group 4088).sent, w.msg = true) ∧ (s.group 4088).async = [] ∧ (∀ c ∈ (s.group 4088).chan.toList, c.st ≠ .copying) ∧ (tXentry (.twid 0 3 4) false).tok.pop = none ∧ (tXentry (.twid 0 3 4) false).group = 4088) ∧
    (∃ s : State, s = tXqueue (tXentry (.twid tStore 3 4) true) ∧ cellOf 4088 = 511 ∧ setOf 4088 = 0 ∧ (s.cell 511).tq 0 = [tXentry (.twid tStore 3 4) true] ∧ (s.group 4088).over = false ∧ (s.transformOut (tXentry (.twid tStore 3 4) true)).failed = none ∧
      bits (tXentry (.twid tStore 3 4) true).xctl 5 2 = 2 ∧ 1 < bits (tXentry (.twid tStore 3 4) true).xmod 0 31) ∧
    ∃ s : State, ∀ e : TransformEntry, e = tXentry (.perm (tStore + 0x1000) tStore 2 true) true → s = tXqueue e ∧ bits e.xctl 5 2 ≠ 1 ∧ 31 < 2 ^ bits e.xctl 0 5 ∧
      s.window 4088 0xF0 (4 * (31 % 2 ^ 2 * 2 ^ (5 - 2) + 31 / 2 ^ 2)) 4 = some [(cstorePA 511 124, 4)] ∧ (s.readRuns [(cstorePA 511 124, 4)]).length = 4 ∧ 2 ≤ bits e.xctl 0 5 :=
  ⟨⟨_, rfl, by decide +kernel⟩, ⟨_, rfl, by decide +kernel⟩, ⟨_, rfl, by decide +kernel⟩, ⟨_, by rintro _ rfl; exact ⟨rfl, by decide +kernel⟩⟩⟩

/-- Entries of each kind in each mode, with a point or block in range and none that failed. -/
theorem witness_TransformEventResults_values :
    (∀ m ∈ [0, 1], bits (tXentryOf (5 + 32 * m) (.twid tStore 3 4)).xctl 5 2 = m ∧ (3 : Nat) < 4) ∧
    (∀ m ∈ [0, 2], ((tXqueue tGroupEntry).transformOut (tXentryOf (5 + 32 * m) (.stage tStore (tStore + 0x4000) 0 8 2 true true true 0))).failed = none ∧ 0 < 8 ∧ 2 + 1 ≤ 5 ∧ 1 ≤ 2) ∧
    ((tXqueue tGroupEntry).transformOut (tXentryOf 37 (.stage tStore (tStore + 0x4000) 0 16 2 false false false 0))).failed = none ∧
    (∃ e : TransformEntry, e = tXentryOf 37 (.perm (tStore + 0x1000) tStore 2 true) ∧ ((tXqueue tGroupEntry).transformOut e).failed = none ∧ bits e.xctl 5 2 = 1 ∧ 5 ≤ bits e.xctl 0 5 ∧ 2 ≤ bits e.xctl 0 5 ∧
      (∀ k, k < 1 → signedOf 8 ((tXqueue tGroupEntry).engineRead e.group (tStore.toNat + 128 + k) 1).1 ≤ 0) ∧ signedOf 8 ((tXqueue tGroupEntry).engineRead e.group (tStore.toNat + 128 + 0) 1).1 = 0) ∧
    (∀ m ∈ [0, 2], ((tXqueue tGroupEntry).pointAt 4088 m tStore.toNat).bad = false) ∧
    ((tXqueue tGroupEntry).transformOut (tXentryOf 37 (.point (tStore + 0x1000) tStore (tStore + 0x4000) true false))).failed = none ∧
    (∀ d ∈ [0, 1, 2], ((tXqueue tGroupEntry).transformOut (tXentryOf 37 (.norm (tStore + 0x1000) tStore d))).failed = none) ∧
    (match unpack .f32 0 with | .fin _ _ _ => true | _ => false) = true ∧ (rneAt (-128 - 15) (unpack .f32 0)).natAbs ≤ 32767 ∧ (renormFit 0 (List.replicate 64 0)).isSome = true :=
  ⟨by decide +kernel, by decide +kernel, by decide +kernel, ⟨_, rfl, by decide +kernel⟩, by decide +kernel, by decide +kernel, by decide +kernel, by decide +kernel⟩

/-- Every link of the module in a state. -/
def tLinks (st : LinkState) (held : Bool) : Table Link := (upFrom 0 64).map fun k => (k, { st := st, replays := 0, held := held })

/-- A bound stream with one element to come, and with none; a line copy with a line to fetch, and with none; a strip that has
arrived, and one that failed; a barrier request on its way. -/
theorem witness_StreamEventResults :
    (∃ (s : State) (c : Channel), c = { tChannel with buf := (upFrom 0 5).map fun i => (i, i) } ∧ s = tState { tGroup with chan := tGroup.chan.set 2 c } ∧
      (s.group 4088).over = false ∧ (s.slotSet (setOf 4088)).st = .active ∧ (∀ l ∈ (s.group 4088).slices.toList, l = []) ∧ (∀ w ∈ (s.group 4088).sent, w.held = none) ∧ (s.group 4088).async = [] ∧
      c.closing = false ∧ s.entriesOf 4088 = [] ∧ c.nextElem < c.total ∧
      (c.nextElem + 1 - c.taken) * c.esz ≤ 4096 ∧ (c.elemAddr c.nextElem).toNat % 128 + c.esz ≤ 128 ∧ (s.look 4088 .load (c.elemAddr c.nextElem).toNat c.esz (engineId 2)).2 = .here [(cstorePA 511 20, 4)] 0 ∧
      runsLocal 4088 [(cstorePA 511 20, 4)] = true ∧ s.runsBad [(cstorePA 511 20, 4)] = false ∧ tChannel.total ≤ tChannel.nextElem) ∧
    (∃ (s : State) (c : Channel), c = { Channel.free with st := .copying, base := tStore, n := [2, 1, 1, 1], s := [128, 0, 0, 0], esz := 128, dst := tStore + 0x1000, filled := 128 } ∧
      s = tState { tGroup with chan := tGroup.chan.set 2 c } ∧ 128 * (c.nextStrip + 1) ≤ c.bytes ∧ c.depth = 0 ∧ c.esz = 128 ∧ (c.elemAddr c.nextStrip).toNat % 128 = 0 ∧ c.closing = false ∧ (s.group 4088).async = [] ∧
      (s.look 4088 .load (c.elemAddr c.nextStrip).toNat 128 (engineId 2)).2 = .here [(cstorePA 511 128, 128)] 0 ∧ runsLocal 4088 [(cstorePA 511 128, 128)] = true ∧
      s.runsBad [(cstorePA 511 128, 128)] = false ∧ (s.readRuns [(cstorePA 511 128, 128)]).length = 128 ∧ ({ c with filled := 256 }).bytes ≤ 128 * ({ c with filled := 256 }).nextStrip) ∧
    (∃ (s : State) (c : Channel) (x : Strip), x = { k := 1, data := List.replicate 128 0, why := 0, line := 0 } ∧
      c = { Channel.free with st := .copying, base := tStore, n := [2, 1, 1, 1], s := [128, 0, 0, 0], esz := 128, dst := tStore + 0x1000, filled := 128, arrived := [x] } ∧
      s = tState { tGroup with chan := tGroup.chan.set 2 c } ∧ (s.groups.find 4088).isSome = true ∧ c.owed = 0 ∧ c.tke = false ∧ s.MemCanonical ∧
      s.window 4088 (c.dst.toNat / 2 ^ 48) (c.dst.toNat % 2 ^ 48 + c.filled) x.data.length = some [(cstorePA 511 0x1080, x.data.length)] ∧ paHost (cstorePA 511 0x1080) = false ∧
      0 < x.data.length ∧ (s.group 4088).causes = [] ∧ (s.group 4088).over = false) ∧
    ∃ s : State, s = { tState { tGroup with barPending := some (2 ^ 24 + 511 * 2 ^ 12, false, none) } with bars := (tBarrier 3).bars } ∧
      (s.group 4088).barPending = some (2 ^ 24 + 511 * 2 ^ 12, false, none) ∧ s.lostDie 4088 (barDie (2 ^ 24 + 511 * 2 ^ 12)) = false ∧ s.heldDie 4088 (barDie (2 ^ 24 + 511 * 2 ^ 12)) = false ∧ s.Handling 4088 ∧
      ({ s with links := tLinks .retraining true } : State).lostDie 4088 (barDie (2 ^ 24)) = false ∧ ({ s with links := tLinks .retraining true } : State).heldDie 4088 (barDie (2 ^ 24)) = true ∧
      ({ s with links := tLinks .failed false } : State).lostDie 4088 (barDie (2 ^ 24)) = true ∧ s.liveHandle 4088 (2 ^ 24 + 511 * 2 ^ 12) = .ok (.entry (barKey 0 0 511 0)) :=
  ⟨⟨_, _, rfl, rfl, by decide +kernel⟩, ⟨_, _, rfl, rfl, by decide +kernel⟩, ⟨_, _, _, rfl, rfl, rfl, by decide +kernel⟩, ⟨_, rfl, by decide +kernel⟩⟩

/-- A sequencer in the main pass over 4 pages with a subscription of the test group, the table at 0x3000. -/
def tPass : Sequencer :=
  { Sequencer.fresh with
    phase := .main, passNo := 1, table := 0x3000, p := 4, by_ := some 4088, subs := [{ tSub with inPass := true, pending := [1, 3] }]
    folds := [{ tFold with inPass := true, left := [1, 3] }] }

/-- The test module with that sequencer, its share, the table entry of page 1, and a page that sequencers may read at 0x10000, held in
the die's TLB. -/
def tPassing (Q : Sequencer) (G : Group) (entry : Nat) : State :=
  { tState G with
    seqs := [(seqOf bootGroup, Q)], set0 := { (tState tGroup).set0 with img := some { bootImage with cquota := List.replicate 8 8 } }
    mem := memPutBytes (tState G).mem (bootCode + 0x3008) (toBytes 8 entry)
    tr := { Xlate.fresh with dies := [(7, [{ ctx := 1, base := 1, size := 16, leaf := bootCode + 0x10000 + 0x277, index := none }])] } }

/-- No Active context; the next page with and without a holding entry; table entries of 0, of a page that is mapped and of one
that is not, and one with a reserved bit. -/
theorem witness_KvEventResults_fetch : seqKey (63 : BitVec 6).toNat 0 = 126 ∧ 126 = seqOf bootGroup ∧ State.reset.activeSet = none ∧ State.reset.kvUnlanded 63 = none ∧ State.reset.kvUnasked 63 = none ∧
    (∃ s : State, s = tPassing tPass tGroup 0 ∧ s.activeSet = some 0 ∧ s.kvUnasked 63 = none ∧ tPass.askedEntry = none ∧ (s.seqAt 126).phase = .main ∧ (s.seqAt 126).fetches.length < 4 ∧ (s.seqAt 126).nextMain = some 1 ∧
      0 < s.kvFree (126 / 16) 0 ∧ ({ s with set0 := (tState tGroup).set0 }).kvFree (126 / 16) 0 = 0 ∧
      ((s.putSeq 126 { tPass with phase := .main }).kvLook 126 .load (0x3000 + 8) 8).2 = .here [(bootCode + 0x3008, 8)] (bootCode + 0x73) ∧
      s.kvPoor [(bootCode + 0x3008, 8)] .none = false ∧ s.kvLost (126 / 16) (126 % 2) [(bootCode + 0x3008, 8)] true = false ∧
      (s.kvBytes .none [(bootCode + 0x3008, 8)]).map natOfBytes = some 0) ∧
    (∃ s : State, s = tPassing tPass tGroup 0x10001 ∧ (s.kvBytes .none [(bootCode + 0x3008, 8)]).map natOfBytes = some 0x10001 ∧ 0x10001 / 2 % 2 ^ 15 = 0 ∧ inWindow 0x10000 = false ∧
      (s.kvLook 126 .kv 0x10000 65536).2 = .here [(bootCode + 0x10000, 65536)] (bootCode + 0x10000 + 0x277) ∧
      s.cutOff (126 / 16) (126 % 2) [(bootCode + 0x10000, 65536)] = false ∧ paFar (bootCode + 0x10000) = false) ∧
    (∃ s : State, s = tPassing tPass tGroup (2 ^ 50) ∧ (s.kvBytes .none [(bootCode + 0x3008, 8)]).map natOfBytes = some (2 ^ 50) ∧ 2 ^ 50 / 2 % 2 ^ 15 = 0 ∧ inWindow (2 ^ 50) = false ∧
      (s.kvLook 126 .kv (2 ^ 50) 65536).2 = .fail 1 ∧ (s.group 4088).over = false ∧ (∀ c ∈ (s.group 4088).causes, c.code ≠ 0x10)) ∧
    2 / 2 % 2 ^ 15 ≠ 0 :=
  ⟨by decide +kernel, by decide +kernel, by decide +kernel, by decide +kernel, by decide +kernel, ⟨_, rfl, by decide +kernel⟩, ⟨_, rfl, by decide +kernel⟩, ⟨_, rfl, by decide +kernel⟩, by decide⟩

/-- As many bytes are read as a run has. -/
theorem t_length (s : State) (pa n : Nat) : (s.readRuns [(pa, n)]).length = n := by
  simp only [State.readRuns, State.readAt, List.append_nil]
  split <;> exact memBytes_length _ _ _

/-- A sequencer that has fetched page 1 for the test group, which has a free buffer, or none; one that has stopped with late
pages. -/
theorem witness_KvEventResults_deliver : ∀ f : Fetch, f = { page := 1, fmt := true, va := 0x10000, catchUp := false, runs := [(bootCode + 0x10000, 65536)], data := none } →
    (∃ s : State, s = tPassing { tPass with fetches := [f] } { tKvGroup 0 0 0 with ring := some { rbase := 0, bufs := [.held, .free] } } 0 ∧ (s.seqAt 126).fetches = f :: [] ∧
      (s.seqAt 126).recipients f = [4088] ∧ s.kvUnlanded 63 = none ∧ s.kvPoor f.runs .none = false ∧ s.kvLost (126 / 16) (126 % 2) f.runs false = false ∧ (s.group 4088).freeBuffer = some (0, 1) ∧
      s.window 4088 0xF0 ((0 + 1) * 65536) 65536 = some [(cstorePA 511 65536, 65536)] ∧ paHost (cstorePA 511 65536) = false ∧ s.MemCanonical ∧ (s.seqAt 126).running = true ∧
      (∀ F ∈ (s.seqAt 126).folds, F.inPass = true → F.left ≠ [] ∨ F.written = true) ∧ (∃ F ∈ (s.seqAt 126).folds, F.inPass = true ∧ F.written = false) ∧
      ({ s with uncorr := [(bootCode + 0x10000) / 8] }).kvPoor f.runs .none = true ∧ s.kvLost (126 / 16) (126 % 2) [(diePA 0 0x10000, 65536)] true = true ∧ (tState tGroup).group 4088 = tGroup ∧ tGroup.freeBuffer = none) ∧
    (∀ s : State, s.kvBytes .none f.runs = some (s.readRuns f.runs) ∧ (s.readRuns f.runs).length = 65536) ∧ ({ f with data := some [] }).data.isSome = true ∧
    ∃ Q : Sequencer, Q = { tPass with phase := .stopped, subs := [{ tSub with inPass := true, late := [1] }] } ∧ Q.catchBegun = false ∧ Q.phase = .stopped ∧
      (∃ u ∈ Q.subs, u.inPass = true ∧ u.late ≠ []) ∧ ∀ F ∈ Q.folds, F.inPass = true → F.left ≠ [] ∨ F.written = true := by
  rintro f rfl; exact ⟨⟨_, rfl, by decide +kernel⟩, fun s => ⟨by simp [State.kvBytes, State.readRuns, show paFar (bootCode + 0x10000) = false from by decide +kernel], t_length s _ _⟩, rfl, ⟨_, rfl, by decide +kernel⟩⟩

/-- With no link in Retraining or Failed, no message is held or lost. -/
theorem calm_messages (s : State) (h : s.links = []) (m : Msg) (d : Nat) : s.messageHeld m d = false ∧ s.messageLost m d = false := by
  have f : ∀ k, s.links.find k = none := by rw [h]; exact fun _ => rfl
  have l : s.linkHolds = fun _ => false := by funext k; simp only [State.linkHolds, f]; rfl
  have u : ∀ r, s.usable r = true := by intro r; simp [State.usable, f]
  have n : ∀ a b, s.heldRoute a b = false ∧ s.noRoute a b = false := by intro a b; simp [State.heldRoute, State.noRoute, State.route, u, l]
  simp only [State.messageHeld, State.messageLost]
  split <;> simp [State.heldEntry, State.noEntry, n, l, f, upFrom]

/-- The test module with messages on their way, an image whose shares hold 256 bytes on each die, and a receiver. -/
def tArrives (l : List Msg) (G : Group) (R : Receiver) : State :=
  { tState G with
    flying := l.map fun m => ⟨7, 0, m⟩, receivers := [(14, R)]
    set0 := { (tState tGroup).set0 with img := some { bootImage with dquota := List.replicate 8 256 } } }

/-- Messages of one source in order; a context that is there and one that is not; a match, room in the tray, no room, spilling
paused, with a conductor and without; a message in landing; the first refused one; a message that waits for the host. -/
theorem witness_MessageEventResults :
    (∀ R ∈ [{ Receiver.fresh with posts := [tRecv] }, { Receiver.fresh with refused := [tMsg 7] }, { Receiver.fresh with tray := [tMsg 7] }, { Receiver.fresh with paused := true },
        { Receiver.fresh with tray := [tMsg 7], refusing := true }],
      ∀ s : State, s = tArrives [tMsg 9, tMsg 8] tGroup R → s.flying[0]? = some ⟨7, 0, tMsg 9⟩ ∧ s.flying[1]? = some ⟨7, 0, tMsg 8⟩ ∧ (tMsg 9).src = (tMsg 8).src ∧ s.flying[2]? = none ∧
        s.messageLost (tMsg 9) 7 = false ∧ s.messageHeld (tMsg 9) 7 = false ∧ s.messageLost (tMsg 8) 7 = false ∧ s.acceptsCtx 0 1 = true ∧ s.acceptsCtx 0 2 = false ∧ s.conductorOf 0 = none ∧
        (s.slotSet 0).img = some { bootImage with dquota := List.replicate 8 256 }) ∧
    (({ bootImage with dquota := List.replicate 8 256 } : Image).dquotaOn 7 = 256 ∧ bootImage.spillOn 7 = 0 ∧ (tMsg 9).size = 256 ∧
      ([tRecv].find? fun p => p.takes (tMsg 9)) = some tRecv ∧ tRecv.takes (tMsg 8) = false ∧ Receiver.fresh.shareUsed = 0 ∧ ({ Receiver.fresh with tray := [tMsg 7] }).shareUsed = 256) ∧
    (tArrives [tMsg 9] { tGroup with kernid := 0 } { Receiver.fresh with paused := true }).conductorOf 0 = some 4088 ∧ tGroup.causes = [] ∧ tGroup.over = false ∧
    (∃ s : State, ∀ r : Recv, r = { tRecv with esz := 2 } → s = { tMail [] [] [(0, ⟨1, some .landing⟩)] 0 with receivers := [(14, { Receiver.fresh with landing := [(r, tMsg 9)] })] } ∧
      (s.receiver 14).landing[0]? = some (r, tMsg 9) ∧ (s.receiver 14).landing[1]? = none ∧ (tMsg 9).spilled = false ∧ min (tMsg 9).payload.length r.count = 2 ∧
      (s.landingRuns 7 0 r ((2 + r.esz - 1) / r.esz) 0 2 []).2 = some ([(bootCode + 0x2000, 2)], none) ∧ paHost (bootCode + 0x2000) = false ∧ s.MemCanonical ∧
      (({ s with tr := (s.landingRuns 7 0 r 1 0 2 []).1.tr }).landingAt 7 0 r.flaga).2.toOption = some (bootCode + 0x1000) ∧ r.group = some 4088) ∧
    (∀ R ∈ [{ Receiver.fresh with posts := [tRecv], refused := [tMsg 9] }, { Receiver.fresh with refused := [tMsg 9] }, { Receiver.fresh with refused := [tMsg 9], paused := true }],
      ∀ s : State, s = tArrives [] tGroup R → (s.receiver 14).refused = tMsg 9 :: [] ∧ s.acceptsCtx 0 (tMsg 9).ctx = true ∧ ({ s with set0 := { s.set0 with st := .retired } } : State).acceptsCtx 0 (tMsg 9).ctx = false ∧
        s.messageHeld (tMsg 9) 7 = false) ∧
    ∃ s : State, s = { tState tGroup with
        receivers := [(14, { Receiver.fresh with waitingHost := [(tMsg 9, 3)] })], port := { HostPort.fresh with requests := [(3, .spill 7 0)] } } ∧
      s.port.requests.find 3 = some (.spill 7 0) ∧ (s.receiver 14).waitingHost.find? (fun q => q.2 == 3) = some (tMsg 9, 3) ∧ s.port.requests.find 4 = none ∧ s.conductorOf 0 = none := by
  refine ⟨?_, by decide +kernel, by decide +kernel, by decide +kernel, by decide +kernel, ⟨_, by rintro _ rfl; exact ⟨rfl, by decide +kernel⟩⟩, ?_, ⟨_, rfl, by decide +kernel⟩⟩
  · rintro R hR _ rfl
    have c := fun m => calm_messages (tArrives [tMsg 9, tMsg 8] tGroup R) rfl m 7
    refine ⟨rfl, rfl, rfl, rfl, (c _).2, (c _).1, (c _).2, ?_, ?_, ?_, rfl⟩ <;> (clear c; revert R; decide +kernel)
  · rintro R hR _ rfl
    have c := (calm_messages (tArrives [] tGroup R) rfl (tMsg 9) 7).1
    refine ⟨?_, ?_, ?_, c⟩ <;> (clear c; revert R; decide +kernel)

/-- A message of this module's die 0, whose link to die 7 is in Retraining, and one whose links have Failed, with a sender and
without. -/
theorem witness_MessageEventResults_held : ∀ o : Option Nat, ∀ f : FlyMsg, f = ⟨7, 0, { tMsg 9 with src := BitVec.ofNat 32 (8 * ownModule), sender := o }⟩ →
    (∃ s : State, s.flying[0]? = some f ∧ s.messageLost f.msg f.die = false ∧ s.messageHeld f.msg f.die = true ∧ (s.receiver 14).refused = [f.msg] ∧ s.acceptsCtx 0 f.msg.ctx = true) ∧
    ∃ s : State, s.flying[0]? = some f ∧ s.messageLost f.msg f.die = true ∧ (s.group 4088).over = false ∧ (s.group 4088).causes = [] := by
  rintro o f rfl
  have hs : (BitVec.ofNat 32 (8 * ownModule)).toNat % 2 ^ 15 = 8 * ownModule := by
    have hm : ownModule < 4096 := Nat.mod_lt _ (by decide)
    rw [BitVec.toNat_ofNat]; omega
  have h0 : 8 * ownModule % 8 = 0 := by omega
  have h1 : 8 * ownModule / 8 = ownModule := by omega
  let f : FlyMsg := ⟨7, 0, { tMsg 9 with src := BitVec.ofNat 32 (8 * ownModule), sender := o }⟩
  refine ⟨⟨{ tArrives [f.msg] tGroup { Receiver.fresh with refused := [f.msg] } with links := tLinks .retraining true }, rfl, ?_, ?_, rfl, rfl⟩,
    ⟨{ tArrives [f.msg] tGroup Receiver.fresh with links := tLinks .failed false }, rfl, ?_, rfl, rfl⟩⟩
  · simp only [State.messageLost, hs, h0, h1, if_true]; rfl
  · simp only [State.messageHeld, hs, h0, h1, if_true]; rfl
  · simp only [State.messageLost, hs, h0, h1, if_true]; rfl

/-- A load of the page at 0x1000 of another die, whose data are to come. -/
def tLate : LateLoad := { pc := 0, d := 4, va := 0x1000, w := 6, runs := [(diePA 0 0x1000, 8)], ckX := tGroup.x, ckFlags := 0, ckRetired := 0, ckVl := 0, ckVcfg := 0, ckXmod := 0, ckXctl := 0, ckColl := (0, 0, 0), seq := 1 }

/-- A contribution of the test group, a rank of one. -/
def tContribution (failed : Option Nat) : Contribution :=
  { group := some 4088, num := 0, from_ := { cid := 0, nrm1 := 0, rank := 0, op := 0, kind := 0, base := 7, stride := 1, tag := .n32, set := 0, elems := [5, 6], fate := failed }
    buffer := tStore, runs := [(cstorePA 511 0, 8)], failed := failed, done := false }

/-- A contribution of the test group as the first of two ranks, on die 7 and another. -/
def tFar : Contribution :=
  let c := tContribution none
  { c with from_ := { c.from_ with nrm1 := 1, stride := 1 } }

/-- A word of 0 at a port, with good and bad data; a dispenser that has done 4; a late load of another die; an instruction that
waits, before and after its answer; a barrier request; an access to acknowledge, plain and atomic; a message sent. -/
theorem witness_RemoteEventResults :
    (∃ s : State, s = tState tGroup ∧ s.MemCanonical ∧ s.badData (bootCode + 0x1000) 8 = false ∧ ({ s with poison := [(bootCode + 0x1000) / 8] }).badData (bootCode + 0x1000) 8 = true ∧
      BitVec.ofNat 64 (natOfBytes (s.readAt (bootCode + 0x1000) 8)) ≠ (1 : Word) ∧ 8 ≤ tagWidth .n32 ∧ s.badData (bootCode + 0x1000) (tagWidth .n32 / 8) = false) ∧
    (((7 : BitVec 32) - 4).toNat < (tTickets 0 0).ticketWindow 0 ∧ (tTickets 0 0).ticketWindow 0 ≤ ((8 : BitVec 32) - 4).toNat) ∧
    (∃ s : State, s = tState { tGroup with late := some tLate } ∧ (s.group 4088).late = some tLate ∧ (∀ r ∈ tLate.runs, paModule r.1 = false) ∧
      farRuns 4088 tLate.runs = true ∧ farRuns 4088 [(cstorePA 511 0, 8)] = false ∧ s.Handling 4088) ∧
    (∃ (s : State) (w : DataWait), w = { pc := 0, va := 0x1000, arrived := false, bad := [], inbox := [], asked := [(diePA 0 0x1000, 8)], act := none } ∧ s = tState { tGroup with dataWait := some w } ∧
      (s.group 4088).late = none ∧ (s.group 4088).dataWait = some w ∧ s.lostRuns 4088 w.asked = false ∧ s.heldRuns 4088 w.asked = false ∧ s.Handling 4088 ∧
      ({ s with links := tLinks .retraining true } : State).lostRuns 4088 w.asked = false ∧ ({ s with links := tLinks .retraining true } : State).heldRuns 4088 w.asked = true ∧
      ({ s with links := tLinks .failed false } : State).lostRuns 4088 w.asked = true ∧ w.act = none ∧ ({ w with arrived := true }).arrived = true) ∧
    (∃ s : State, s = tState { tGroup with barPending := some (5, false, none) } ∧ (s.group 4088).late = none ∧ (s.group 4088).dataWait = none ∧
      (s.group 4088).barPending = some (5, false, none) ∧ s.Handling 4088) ∧
    (∃ (s : State) (w : SentWrite), w = { va := 0, die := 0, atomic := true, msg := false, seq := 0, elem := 0, path := false, held := none, joined := false, inst := 0 } ∧
      s = tState { tGroup with sent := [w] } ∧ (s.group 4088).late = none ∧ (s.group 4088).dataWait = none ∧ (s.group 4088).barPending = none ∧
      (s.group 4088).sent = w :: [] ∧ (s.group 4088).ticketAnswer [] = none ∧ s.lostDie 4088 w.die = false ∧ s.heldDie 4088 w.die = false ∧
      ({ s with links := tLinks .retraining true } : State).lostDie 4088 w.die = false ∧ ({ s with links := tLinks .retraining true } : State).heldDie 4088 w.die = true ∧
      ({ s with links := tLinks .failed false } : State).lostDie 4088 w.die = true ∧ ({ w with held := some (tAccess, [(diePA 0 0x1000, 8)]) }).held = some (tAccess, [(diePA 0 0x1000, 8)]) ∧
      w.held = none ∧ w.atomic = true ∧ ({ w with atomic := false }).atomic = false ∧ (s.group 4088).causes = [] ∧ (s.group 4088).Takes 0xF ∧ (s.group 4088).phase = .running) ∧
    (∃ s : State, s = { tState tGroup with flying := [⟨0, 0, { tMsg 9 with sender := some 4088 }⟩] } ∧
      s.colls.find? (fun c => c.group == some 4088 && !c.done && c.failed.isNone && c.leavesDie) = none ∧ (s.group 4088).sent = [] ∧ (s.group 4088).ticketAsked = none ∧
      s.flying.find? (fun f => f.msg.sender == some 4088 && decide (f.die ≠ dieOf 4088)) = some ⟨0, 0, { tMsg 9 with sender := some 4088 }⟩ ∧
      (∀ f ∈ ({ s with flying := [⟨7, 0, { tMsg 9 with sender := some 4088 }⟩] } : State).flying, f.msg.sender = some 4088 → f.die = dieOf 4088) ∧ (s.group 4088).Takes 0xF) ∧
    ∃ s : State, s = { tState tGroup with colls := [tFar] } ∧
      s.colls.find? (fun c => c.group == some 4088 && !c.done && c.failed.isNone && c.leavesDie) = some tFar ∧ (s.group 4088).Takes 0xF :=
  ⟨⟨_, rfl, by decide +kernel⟩, by decide +kernel, ⟨_, rfl, by decide +kernel⟩, ⟨_, _, rfl, rfl, by decide +kernel⟩, ⟨_, rfl, by decide +kernel⟩, ⟨_, _, rfl, rfl, by decide +kernel⟩,
   ⟨_, rfl, rfl, by decide +kernel⟩, ⟨_, rfl, by decide +kernel⟩⟩

/-- The corner dies of the module and their port groups. -/
theorem exitDie_mem (m : Nat) : exitDie m ∈ [(3, 1), (4, 2), (7, 3), (0, 0)] := by
  unfold exitDie; split <;> [skip; split <;> [skip; split]] <;> simp

/-- With every link in Retraining, every exit is held; with none, no packet is. -/
theorem exits_held : ∀ m, ({ State.reset with links := tLinks .retraining true } : State).heldExit 7 m = true := by
  intro m
  have k : ∀ e ∈ [(3, 1), (4, 2), (7, 3), (0, 0)], (({ State.reset with links := tLinks .retraining true } : State).heldRoute 7 e.1 ||
      ((upFrom (16 + 12 * e.2) 12).all (fun k => ({ State.reset with links := tLinks .retraining true } : State).linkIs k .failed || ({ State.reset with links := tLinks .retraining true } : State).linkHolds k) &&
        (upFrom (16 + 12 * e.2) 12).any ({ State.reset with links := tLinks .retraining true } : State).linkHolds)) = true := by decide +kernel
  exact k _ (exitDie_mem m)
theorem calm_dies (s : State) (h : s.links = []) (g d : Nat) : s.heldDie g d = false := by
  have f : ∀ k, s.links.find k = none := by rw [h]; exact fun _ => rfl
  have l : s.linkHolds = fun _ => false := by funext k; simp only [State.linkHolds, f]; rfl
  have u : ∀ r, s.usable r = true := by intro r; simp [State.usable, f]
  have n : ∀ a b, s.heldRoute a b = false := by intro a b; simp [State.heldRoute, State.route, u, l]
  simp only [State.heldDie]
  split <;> simp [State.heldEntry, State.heldExit, n, l, upFrom]

theorem held_dies (s : State) (l : s.links = tLinks .retraining true) (d : Nat) (h : d ≠ 7) : s.heldDie 4088 d = true := by
  have w : s.heldDie 4088 d = ({ State.reset with links := s.links } : State).heldDie 4088 d := rfl
  rw [w, l]
  by_cases z : d < 8
  · have k : ∀ d < 8, d ≠ 7 → ({ State.reset with links := tLinks .retraining true } : State).heldDie 4088 d = true := by decide +kernel
    exact k d z h
  · simp only [State.heldDie, if_neg z, show dieOf 4088 = 7 from rfl, exits_held, Bool.true_or]

/-- The ticket of another module, waited for in the wait and behind a handler, and asked for; its packets held and not. -/
theorem witness_RemoteEventResults_ticket : ∃ h : Word, ticketHere h = false ∧
    (∃ s : State, s = tWaits (.ticket h false false) tGroup ∧ (s.group 4088).phase = .waiting (.ticket h false false) ∧ (s.group 4088).interrupted = none ∧ (s.group 4088).sent = [] ∧
      s.ticketHeld 4088 = false ∧ ({ s with links := tLinks .retraining true } : State).ticketHeld 4088 = true ∧ s.Handling 4088) ∧
    ∃ s : State, s = tState { tGroup with interrupted := some (0, .ticket h false false) } ∧ (∀ w, (s.group 4088).phase ≠ .waiting w) ∧
      (s.group 4088).interrupted = some (0, .ticket h false false) ∧ s.ticketHeld 4088 = false := by
  obtain ⟨h, hh⟩ : ∃ h : Word, ticketHere h = false := by
    by_cases k : ownModule = 0
    · exact ⟨BitVec.ofNat 64 (8 * 2 ^ 49), by rw [ticketHere, k]; decide⟩
    · exact ⟨0, decide_eq_false fun e => k (e.symm.trans (by decide))⟩
  have n : ∀ w, Phase.running ≠ .waiting w := fun _ h => Phase.noConfusion h
  have e : bitOf tGroup.trapvec 0 = false := by decide +kernel
  have p : ∀ s : State, s.links = [] → s.heldDie 4088 (8 + ticketDie h) = false := fun s l => calm_dies s l _ _
  have x : ∀ s : State, s.links = tLinks .retraining true → s.heldDie 4088 (8 + ticketDie h) = true := fun s l => held_dies s l _ (by omega)
  refine ⟨h, hh, ⟨tWaits (.ticket h false false) tGroup, ?_⟩, ⟨tState { tGroup with interrupted := some (0, .ticket h false false) }, ?_⟩⟩
  · refine ⟨rfl, rfl, rfl, rfl, ?_, ?_, rfl, rfl, rfl, e⟩
    · show (State.heldDie _ 4088 (if ticketHere h then _ else _) || false) = false
      rw [hh]; exact (Bool.or_false _).trans (p _ rfl)
    · show (State.heldDie _ 4088 (if ticketHere h then _ else _) || false) = true
      rw [hh]; exact (Bool.or_false _).trans (x _ rfl)
  · refine ⟨rfl, n, rfl, ?_⟩
    show (false || State.heldDie _ 4088 (if ticketHere h then _ else _)) = false
    rw [hh]; exact p _ rfl

/-- The host takes aperture entry 3 away. -/
theorem witness_LinkEventResults_aperture : ∃ s : State, s = { tState tGroup with agenda := [{ ticks := 0, who := .aperture 0 3 none }] } ∧ s.off = false ∧ s.Punctual ∧
    (s.slotSet 0).img = some bootImage := ⟨_, rfl, by decide +kernel⟩

/-- Link 0 and the last port, 63, in each state, with 7 and 8 replays; 10 and 15 name no link; a contribution with its result
and a failed one. -/
theorem witness_LinkAndCollectiveEventResults :
    (∃ s : State, s = { tState tGroup with links := [(0, { st := .up, replays := 7, held := false }), (1, { st := .training, replays := 0, held := false }),
          (2, { st := .retraining, replays := 0, held := true }), (63, { st := .degraded, replays := 8, held := false })] } ∧
      (s.link 0).st = .up ∧ (s.link 0).replays < 8 ∧ (s.link 63).st = .degraded ∧ 8 ≤ (s.link 63).replays ∧ (s.link 1).st = .training ∧ (s.link 2).st = .retraining ∧
      s.hostRetrain = false ∧ ({ s with set0 := { s.set0 with img := some { bootImage with hostRetrain := true } } }).hostRetrain = true ∧ (s.link 3).st ≠ .training ∧
      ¬ (10 < 10 ∨ 16 ≤ 10) ∧ ¬ (15 < 10 ∨ 16 ≤ 15)) ∧
    (∃ s : State, s = { tState tGroup with colls := [tContribution none] } ∧ s.collHeld 4088 (tContribution none) = false ∧ s.MemCanonical ∧ paModule (cstorePA 511 0) = false ∧
      s.colls.find? (fun c => c.group == some 4088 && !c.done && (s.collFate c).isSome) = some (tContribution none) ∧
      s.collFate (tContribution none) = some (.result (toBytes 4 5 ++ toBytes 4 6) 0 false) ∧ (toBytes 4 5 ++ toBytes 4 6).length = 8) ∧
    (∃ s : State, s = { tState tGroup with colls := [tContribution (some 2)] } ∧ s.collFate (tContribution (some 2)) = some (.failed none) ∧ (tContribution (some 2)).failed.isSome = true ∧ s.collHeld 4088 (tContribution (some 2)) = false ∧ (s.group 4088).Takes 0xF) ∧
    (∃ s : State, s = { tState tGroup with colls := [tFar, { tFar with group := none, from_ := { tFar.from_ with rank := 1 }, failed := some 2 }] } ∧
      s.collFate tFar = some (.failed (some 2)) ∧ s.collHeld 4088 tFar = false ∧ (s.group 4088).Takes 0xF ∧ ({ s with links := tLinks .retraining true } : State).collHeld 4088 tFar = true ∧
      tFar.failed = none) ∧
    ∃ (s : State) (c : Contribution), c = { tFar with from_ := { tFar.from_ with kind := 1 } } ∧ s = { tState tGroup with colls := [c] } ∧ s.collFate c = some .combined ∧ s.collHeld 4088 c = false := by
  have n : ∀ s : State, s.links = [] → ∀ c, s.collHeld 4088 c = false := by
    intro s h c; simp only [State.collHeld, calm_dies s h]; exact List.any_eq_false.2 fun _ _ => Bool.false_ne_true
  refine ⟨⟨_, rfl, by decide +kernel⟩, ⟨_, rfl, n _ rfl _, by decide +kernel, by decide +kernel, rfl, rfl, by decide +kernel⟩, ⟨_, rfl, rfl, rfl, n _ rfl _, by decide +kernel⟩,
    ⟨_, rfl, rfl, n _ rfl _, by decide +kernel, ?_, rfl⟩, ⟨_, _, rfl, rfl, rfl, n _ rfl _⟩⟩
  refine List.any_eq_true.2 ⟨1, by decide, ?_⟩
  refine held_dies _ rfl _ ?_
  have d : rankDie tFar.from_.base tFar.from_.stride 1 = 8 := by decide +kernel
  rw [d]; split <;> decide

/-- A command with argument cells. -/
def tCmd (code set : Nat) (args : List Host.Cell) : Command := { code := code, set := set, reserved := 0, args := args, begun := false }

/-- The test module with a command in execution and its two slot sets. -/
def tHost (c : Command) (a b : SlotSet) : State :=
  { tState { tGroup with phase := .trapped false } with
    set0 := a, set1 := b, saved := [tSaved 9], port := { HostPort.fresh with cmd := some c, busy := true, requests := [(1, .translate 7 0 1), (2, .spill 7 0)] }
    tr := { Xlate.fresh with misses := [(7, [{ set := 0, granule := 1, request := some 1, kind := 0, idle := false, answer := none, joined := [] }])] }
    receivers := [(14, { Receiver.fresh with tray := [{ tMsg 9 with spill := some 0 }], waitingHost := [({ tMsg 9 with spill := some 0 }, 2)] })] }

/-- A slot set in a state, with the test image and kernel 7. -/
def tSlots (st : CtxState) : SlotSet :=
  { SlotSet.fresh with st := st, img := some { bootImage with saveArea := true, shared := [(bootCode + 0x1000, 8)] }, conductorDone := true, kernels := [tKernel 4 2], lastAt := none }

/-- The addresses at each edge of the windows, a doorbell's queue with 15 and 16 words, an egress queue with and without one,
the edges of the mailbox's words, a ring with 63 entries and a full one, the codes at the edge of the table. -/
theorem witness_HostAccessResults : ∃ s : State, s.MemCanonical ∧
    (paHost (2 ^ 52 - 1) = true ∧ s.inModule (bootCode + 0x1000) 1 = true ∧ s.inModule (bootCode + 0x1000) 8 = true ∧ paHost (2 ^ 50) = false ∧ s.inModule (2 ^ 50) 1 = false) ∧
    (∀ e : Nat, e < 0x200000 → (BitVec.ofNat 64 (2 ^ 63 + e)).toNat = 2 ^ 63 + e) ∧
    ((s.slotSet 0).st ∉ [CtxState.empty, .loading, .retired] ∧ (s.slotSet 1).st ∈ [CtxState.empty, .loading, .retired] ∧
      ((s.slotSet 0).ingress.findD 1 []).length = 15 ∧ ((s.slotSet 0).ingress.findD 2 []).length = 16) ∧
    ((s.slotSet 0).egress.findD 0 [] = [] ∧ (s.slotSet 0).egress.findD 1 [] = [5]) ∧
    (∀ o ∈ [0, 4, 8, 0x10, 0x7F8, 0x7F9, 0x7FC, 0xC, 0x11000, 0x100000, 0x101078, 0x100200, 0x101200], (BitVec.ofNat 26 o).toNat = o) ∧
    ((∀ o ∈ [0x7FD, 0xFFFFF, 0x100080, 0x100FFF, 0x101080], channelAt 0x100000 o = none) ∧ channelAt 0x100000 0x10007F = some (0, 15)) ∧
    (s.tripped = false ∧ ∀ f ∈ [Firmware.unverified, .refused, .running, .failed], ({ s with firmware := f } : State).firmware = f) ∧
    (s.firmware = .running ∧ s.port.busy = true ∧ s.port.waiting = [{ kind := 3, set := 0, id := 0, body := [] }] ∧ (s.port.evtail - s.port.evhead).toNat = 64 ∧
      s.port.cmd = some (tCmd 0x11 0 [])) ∧
    ((tState tGroup).firmware = .running ∧ (tState tGroup).port.busy = false ∧ (tState tGroup).port.waiting = [] ∧ (tState tGroup).port.cmd = none) ∧
    ∀ c ∈ [1, 0x10], (tHost (tCmd c 0 []) SlotSet.fresh SlotSet.fresh).port.cmd = some (tCmd c 0 []) := by
  refine ⟨{ tHost (tCmd 0x11 0 []) { tSlots .active with ingress := [(1, List.replicate 15 0), (2, List.replicate 16 0)], egress := [(1, [5])] } SlotSet.fresh with
    port := { HostPort.fresh with cmd := some (tCmd 0x11 0 []), busy := true, waiting := [{ kind := 3, set := 0, id := 0, body := [] }], evtail := 64 } },
    by decide +kernel, by decide +kernel, ?_, by decide +kernel, by decide +kernel, by decide +kernel, by decide +kernel, by decide +kernel, by decide +kernel, by decide +kernel, by decide +kernel⟩
  intro e h; simp only [BitVec.toNat_ofNat]; omega

/-- Each command of a context in a state that takes it and in one that does not. -/
theorem witness_ContextCommandResults :
    (∀ c, c = tCmd 1 0 [(24, 1)] → ∀ e ∈ [CtxState.empty, .active], (tHost c { SlotSet.fresh with st := e } SlotSet.fresh).Runs 1 c (fun o => decide (o < 25)) ∧
      memNat c.args 24 1 ≤ 1 ∧ (tHost c { SlotSet.fresh with st := e } SlotSet.fresh).dropped 0 = false) ∧
    (∀ c, c = tCmd 2 0 [(0, 9)] → (tHost c SlotSet.fresh SlotSet.fresh).Runs 2 c (fun o => decide (o < 2)) ∧ (tHost c SlotSet.fresh SlotSet.fresh).dropped 0 = false ∧
      (tHost c SlotSet.fresh SlotSet.fresh).saved.find? (fun q => q.num == memNat c.args 0 2) = some (tSaved 9)) ∧
    (∀ c, c = tCmd 2 1 [(0, 9), (1, 1)] → (tHost c SlotSet.fresh SlotSet.fresh).Runs 2 c (fun o => decide (o < 2)) ∧
      (tHost c SlotSet.fresh SlotSet.fresh).saved.find? (fun q => q.num == memNat c.args 0 2) = none) ∧
    (∀ c ∈ [tCmd 3 0 [], tCmd 4 0 [], tCmd 5 0 [], tCmd 6 0 [], tCmd 7 0 []], ∀ e ∈ [CtxState.empty, .standby, .active, .faulted, .retired],
      (tHost c (tSlots e) (tSlots .active)).Runs c.code c (fun _ => false) ∧ (tHost c (tSlots e) (tSlots .active)).dropped 0 = false ∧
      (((tHost c (tSlots e) (tSlots .active)).slotSet 0).img.map Image.saveArea).getD false = true ∧ ((tHost c (tSlots e) (tSlots .active)).slotSet 0).st = e ∧
      ((tHost c (tSlots e) (tSlots .active)).slotSet 1).st = .active ∧ (tHost c (tSlots e) (tSlots .active)).dropped 1 = false ∧ (tSlots e).conductorDone = true) ∧
    (∃ s : State, s = tHost { tCmd 3 0 [] with begun := true } (tSlots .preempting) SlotSet.fresh ∧ s.port.cmd = some { tCmd 3 0 [] with begun := true }) ∧
    (tHost (tCmd 3 0 []) { tSlots .active with lastAt := some 0 } SlotSet.fresh).dropped 0 = true ∧ (∃ q ∈ (tHost (tCmd 6 0 []) (tSlots .retired) SlotSet.fresh).groups, setOf q.1 = 0) ∧
    (tHost (tCmd 6 1 []) SlotSet.fresh (tSlots .retired)).Runs 6 (tCmd 6 1 []) (fun _ => false) ∧ ∀ q ∈ (tHost (tCmd 6 1 []) SlotSet.fresh (tSlots .retired)).groups, setOf q.1 ≠ 1 :=
  ⟨by rintro _ rfl; decide +kernel, by rintro _ rfl; decide +kernel, by rintro _ rfl; decide +kernel, by decide +kernel, ⟨_, rfl, by decide +kernel⟩, by decide +kernel, by decide +kernel,
   by decide +kernel, by decide +kernel⟩

/-- Every other command with words in range; the edges of cells, slots, limits, links, dies and stacks. -/
theorem witness_OtherCommandResults :
    (∃ s : State, s = tHost { tCmd 8 2 [] with reserved := 1 } (tSlots .active) SlotSet.fresh ∧ s.firmware = .running ∧ s.port.cmd = some { tCmd 8 2 [] with reserved := 1 }) ∧
    (∀ c ∈ [tCmd 8 0 [(0, 255), (1, 1), (2, 0)], tCmd 9 0 [(0, 255), (1, 1), (2, 0)]], ∀ s : State, s = tHost c (tSlots .active) SlotSet.fresh → s.Runs c.code c (fun o => decide (o < 3)) ∧
      groupCode (memNat c.args 0 2) 0 (memNat c.args 2 1) = 4088 ∧ (s.group 4088).phase = .trapped false ∧ (s.group 4088).interrupted = none ∧ s.MemCanonical ∧
      ({ s with cur := 4088 }).Rests ∧ (s.slotSet 0).kernel? 7 = some (tKernel 4 2) ∧ paModule (bootCode + 0x1000) = false ∧ (tKernel 4 2).ended + 1 < (tKernel 4 2).ngrp) ∧
    (∀ c ∈ [tCmd 8 0 [(0, 0), (1, 2)], tCmd 9 0 [(2, 4)], tCmd 8 0 [(2, 3)]], (tHost c (tSlots .active) SlotSet.fresh).Runs c.code c (fun o => decide (o < 3))) ∧
    (∀ c ∈ [tCmd 0xA 0 (leCells 0 2 2000), tCmd 0xA 0 (leCells 0 2 1999), tCmd 0xA 0 (leCells 0 2 6400), tCmd 0xA 0 (leCells 0 2 6401)],
      (tHost c (tSlots .active) SlotSet.fresh).Runs 0xA c (fun o => decide (o < 2))) ∧
    (∀ k ∈ [9, 10, 15, 16, 63, 64], (tHost (tCmd 0xB 0 (leCells 0 1 k)) (tSlots .active) SlotSet.fresh).Runs 0xB (tCmd 0xB 0 (leCells 0 1 k)) (fun o => decide (o < 1)) ∧
      ((tHost (tCmd 0xB 0 (leCells 0 1 k)) (tSlots .active) SlotSet.fresh).link k).st = .down) ∧
    (∀ s : State, s = tHost { tCmd 0xB 0 (leCells 0 1 9) with begun := true } (tSlots .active) SlotSet.fresh → s.port.cmd = some { tCmd 0xB 0 (leCells 0 1 9) with begun := true } ∧
      memNat (leCells 0 1 9) 0 1 = 9 ∧ (s.link 9).st ≠ .training ∧ ({ s with links := [(9, { st := .training, replays := 0, held := false })] }.link 9).st = .training ∧
      ({ s with links := [(9, { st := .retraining, replays := 0, held := true })] }.link 9).st = .retraining) ∧
    (∀ k ∈ [(7, 1), (8, 1), (7, 2)], (tHost (tCmd 0xC 0 (leCells 0 1 k.1 ++ leCells 1 1 k.2)) (tSlots .active) SlotSet.fresh).Runs 0xC (tCmd 0xC 0 (leCells 0 1 k.1 ++ leCells 1 1 k.2))
      (fun o => decide (o < 2))) ∧
    (∀ c, c = tCmd 0xF 0 (leCells 32 8 0 ++ leCells 40 4 64) → (tHost c (tSlots .active) SlotSet.fresh).Runs 0xF c (fun o => decide (o < 44)) ∧ memNat c.args 40 4 = 64 ∧ (tHost c (tSlots .active) SlotSet.fresh).port.ats = false ∧ (tHost c (tSlots .active) SlotSet.fresh).MemCanonical) ∧
    (tHost (tCmd 0x10 0 []) (tSlots .active) SlotSet.fresh).Runs 0x10 (tCmd 0x10 0 []) (fun _ => false) ∧
    (∀ c, c = tCmd 0xD 0 (leCells 0 4 1 ++ leCells 8 8 (bootCode + 0x73)) → ∀ s : State, s = tHost c (tSlots .active) SlotSet.fresh → s.Runs 0xD c (fun o => decide (o < 4 ∨ (8 ≤ o ∧ o < 17))) ∧
      memNat c.args 0 4 = 1 ∧ memNat c.args 16 1 = 0 ∧ memNat c.args 8 8 = bootCode + 0x73 ∧ s.port.requests.find 1 = some (.translate 7 0 1) ∧
      ((s.tr.misses.findD 7 []).find? (fun m => m.request == some 1)).isSome = true ∧ entryBit (bootCode + 0x73) 0 = true ∧ entryBit (bootCode + 0x73) 1 = true ∧
      malformed s.hbmuse bootImage.apertures 0 (bootCode + 0x73) = false ∧ permits (missKind 0) (bootCode + 0x73) = true) ∧
    (∀ v ∈ [1, 2], (tHost (tCmd 0xD 0 (leCells 0 4 7 ++ leCells 16 1 v)) (tSlots .active) SlotSet.fresh).Runs 0xD (tCmd 0xD 0 (leCells 0 4 7 ++ leCells 16 1 v))
      (fun o => decide (o < 4 ∨ (8 ≤ o ∧ o < 17))) ∧ (tHost (tCmd 0xD 0 (leCells 0 4 7 ++ leCells 16 1 v)) (tSlots .active) SlotSet.fresh).port.requests.find 7 = none) ∧
    ∀ v ∈ [0, 1, 2], ∀ s : State, s = tHost (tCmd 0xE 0 (leCells 0 4 2 ++ leCells 4 1 v)) (tSlots .active) SlotSet.fresh →
      s.Runs 0xE (tCmd 0xE 0 (leCells 0 4 2 ++ leCells 4 1 v)) (fun o => decide (o < 5)) ∧ s.port.requests.find 2 = some (.spill 7 0) ∧
      (s.receiver (recvKey 7 0)).waitingHost.find? (fun w => w.2 == 2) = some ({ tMsg 9 with spill := some 0 }, 2) ∧ s.port.ats = false ∧ ((s.slotSet 0).img).isSome = true :=
  ⟨⟨_, rfl, by decide +kernel⟩, by rintro c hc _ rfl; revert c; decide +kernel, by decide +kernel, by decide +kernel, by decide +kernel, by rintro _ rfl; decide +kernel, by decide +kernel, by rintro _ rfl; decide +kernel,
   by decide +kernel, by rintro _ rfl _ rfl; decide +kernel, by decide +kernel, by rintro c hc _ rfl; revert c; decide +kernel⟩

/-- The powers and temperatures at the edges; firmware that is not verified and that runs; a set that Runs and one that is Empty. -/
theorem witness_PowerAndResetResults : ∃ s : State, s = tHost (tCmd 1 0 []) (tSlots .active) SlotSet.fresh ∧
    (s.plim < (6401 : BitVec 13).toNat ∧ (6079 : BitVec 13).toNat * 100 < s.plim * 95 ∧ s.plim * 95 ≤ (6080 : BitVec 13).toNat * 100 ∧ (6400 : BitVec 13).toNat ≤ s.plim) ∧
    ((94 : BitVec 8).toNat < 95 ∧ 95 ≤ (95 : BitVec 8).toNat ∧ (109 : BitVec 8).toNat < 110 ∧ 110 ≤ (110 : BitVec 8).toNat) ∧
    (s.slotSet 0).st ∈ [CtxState.active, .preempting, .standby] ∧ (s.slotSet 1).st ∉ [CtxState.active, .preempting, .standby] ∧ s.firmware ≠ .unverified ∧ s.firmware = .running ∧
    State.reset.firmware = .unverified ∧ ({ s with firmware := .refused } : State).firmware = .refused := ⟨_, rfl, by decide +kernel⟩

/-- A short and a long instruction of each half of the opcode map. -/
theorem witness_ScalarRoundTrip : ∀ i ∈ [Instr.addi 4 5 (-8), .ldiLong 12 0x3F800000], i.encoded = true ∧ i.wf = true ∧ encFirst i / 2 % 128 < 0x20 := by decide +kernel
theorem witness_UnitRoundTrip : ∀ i ∈ [Instr.vfma true true none 4 8 12, .mma 3 3 10 .idle .e4m3 .e4m3 none], i.encoded = true ∧ i.wf = true ∧ 0x20 ≤ encFirst i / 2 % 128 := by
  decide +kernel

/-- A step that stores: the host writes a byte that memory then lists. -/
theorem witness_MemoryStaysCanonical : ∃ s t : State, s.MemCanonical ∧ step s = .next t ∧ memByte t.hostMem 7 = 7 := by
  let s : State := { State.reset with agenda := [{ ticks := 3, who := .event (.hostWrite (BitVec.ofNat 64 (2 ^ 51 + 7)) [7]) }] }
  have a : after (step s) (fun t => decide (memByte t.hostMem 7 = 7)) = true := by decide +kernel
  cases h : step s with
  | next t => rw [h] at a; exact ⟨s, t, by decide +kernel, h, of_decide_eq_true a⟩
  | fault f => rw [h] at a; exact absurd a Bool.false_ne_true
  | refused r => rw [h] at a; exact absurd a Bool.false_ne_true

/-- The test group's turn at a word pair. -/
def tTurn (w : Nat) : State :=
  { tState tGroup with mem := (State.reset.placeWords w).mem, agenda := [{ ticks := 0, who := .issue 4088 false }] }

/-- A short and a long instruction, a word pair that decodes to none; an event that the module has, one that a module that is
off does not have, and a row that is no event. -/
theorem witness_StepRunsDecoded :
    (∀ w ∈ [0x00814A0A, 0x3F80000000000C17, 0xFFFFFFFE], ∀ u : State, u = ({ tTurn w with agenda := [] } : State).tick 0 → u.Punctual ∧ cellOf 4088 ∉ u.issued ∧ u.served 4088 = 4088 ∧ (u.groups.find 4088).isSome = true ∧ u.mayAct 4088 = true ∧
      u.boundaryTrap 4088 = none ∧ ∀ s0 s1 s2 : State, s0 = { u with cur := 4088, lateLoads := false } → s1 = (s0.look 4088 .fetch 0 4).1 → s2 = (s1.look 4088 .fetch 4 4).1 →
      (u.group 4088).pc = 0 ∧ (s0.look 4088 .fetch 0 4).2 = .here [(bootCode, 4)] (bootCode + 0x73) ∧ runsLocal 4088 [(bootCode, 4)] = true ∧ s1.runsBad [(bootCode, 4)] = false ∧
      natOfBytes (s1.readRuns [(bootCode, 4)]) = w % 2 ^ 32 ∧ (s1.look 4088 .fetch 4 4).2 = .here [(bootCode + 4, 4)] (bootCode + 0x73) ∧ runsLocal 4088 [(bootCode + 4, 4)] = true ∧
      s2.runsBad [(bootCode + 4, 4)] = false ∧ natOfBytes (s2.readRuns [(bootCode + 4, 4)]) = w / 2 ^ 32 ∧ s2.free (.addi 10 10 32) = true ∧ s2.own.late = none) ∧
    decodeWords 0x00814A0A 0 = .ok (.addi 10 10 32) ∧ decodeWords 0x00000C17 0x3F800000 = .ok (.ldiLong 12 0x3F800000) ∧
    (match decodeWords 0xFFFFFFFE 0 with | .error _ => true | .ok _ => false) = true ∧
    ((({ tTurn 0 with agenda := [] } : State).tick 0).Punctual ∧ isEvent .mbgoWhileBusy = true ∧ (tTurn 0).admits .mbgoWhileBusy = true ∧ ({ tTurn 0 with off := true } : State).admits .mbgoWhileBusy = false ∧ isEvent .kend = false) :=
  ⟨by rintro w hw _ rfl; refine ⟨?_, ?_, ?_, ?_, ?_, ?_, ?_⟩ <;> [skip; skip; skip; skip; skip; skip; rintro _ _ _ rfl rfl rfl] <;> (revert w; decide +kernel), by decide +kernel, by decide +kernel, by decide +kernel,
   by decide +kernel⟩

/-- The events of EventsComplete whose states the tests above do not show: a stopped sequencer with a late page; the one fetch of a
page on another die, lost; one message that matches a receive; a message of no bytes in landing; a request for a spilled one. -/
theorem witness_EventsComplete :
    (∃ (s : State) (k : Kernel), k = { tKernel 4 0 with st := .queued, placed := 3, launchable := true } ∧
      s = { tKernels tGroup [k] with set0 := { (tKernels tGroup [k]).set0 with placeDue := true } } ∧ (s.slotSet 0).kernels = [k] ∧ k.reserving = false ∧ k.queue = some 0 ∧
      (s.slotSet 0).queues.find 0 = some { prio := 3, closed := false } ∧ s.launchSeen k = true ∧ s.chooseCell 0 k.desc (s.mayUse k) = some 0 ∧ s.freeSlots 0 0 = 0 :: [1, 2, 3]) ∧
    (∃ s : State, s = tPassing { tPass with phase := .stopped, subs := [{ tSub with inPass := true, late := [1] }], folds := [] } tGroup 0 ∧ s.activeSet = some 0 ∧
      (s.seqAt 126).catchBegun = false ∧ (s.seqAt 126).phase = .stopped ∧ (∃ u ∈ (s.seqAt 126).subs, u.inPass = true ∧ u.late ≠ []) ∧ (s.seqAt 126).folds = []) ∧
    (∃ (s : State) (f : Fetch), f = { page := 1, fmt := true, va := 0x10000, catchUp := false, runs := [(diePA 0 0x10000, 65536)], data := none } ∧
      s = tPassing { tPass with fetches := [f] } tGroup 0 ∧ s.activeSet = some 0 ∧ s.kvUnlanded 63 = none ∧ s.kvUnasked 63 = none ∧ (s.seqAt 126).fetches = [f] ∧ (s.seqAt 126).recipients f = [4088] ∧
      s.kvLost (126 / 16) (126 % 2) f.runs true = true) ∧
    (∃ (s : State) (f : FlyMsg), f = ⟨7, 0, tMsg 9⟩ ∧ s = { tMail [tRecv] [] [] 0 with flying := [f] } ∧ recvKey f.die f.set = 14 ∧
      s.messageLost f.msg f.die = false ∧ s.messageHeld f.msg f.die = false ∧ s.acceptsCtx f.set f.msg.ctx = true ∧ (s.receiver 14).refused = [] ∧
      ((s.receiver 14).posts.find? fun p => p.takes f.msg) = some tRecv) ∧
    (∃ (s : State) (r : Recv) (m : Msg), r = { tRecv with group := none } ∧ m = { tMsg 9 with payload := [] } ∧
      s = { tMail [] [] [] 0 with receivers := [(14, { Receiver.fresh with landing := [(r, m)] })] } ∧ (s.receiver 14).landing = [(r, m)] ∧ m.spilled = false ∧ m.payload = [] ∧
      (s.landingAt 7 0 r.flaga).2.toOption = some (bootCode + 0x1000) ∧ s.MemCanonical) ∧
    ∃ s : State, s = { tState tGroup with links := [(0, { st := .up, replays := 8, held := false })] } ∧ (s.link 0).st = .up ∧ 8 ≤ (s.link 0).replays :=
  ⟨⟨_, _, rfl, rfl, by decide +kernel⟩, ⟨_, rfl, by decide +kernel⟩, ⟨_, _, rfl, rfl, by decide +kernel⟩, ⟨_, _, rfl, rfl, rfl, (calm_messages _ rfl _ _).2, (calm_messages _ rfl _ _).1, by decide +kernel⟩,
   ⟨_, _, _, rfl, rfl, rfl, by decide +kernel⟩, ⟨_, rfl, by decide +kernel⟩⟩
end

section
namespace Sys2Proof.Machine

theorem exec_pageWalkComplete (e : BitVec 3) (ix : BitVec 12) (s : State) : exec (.pageWalkComplete e ix) s = execPageWalkComplete e ix s := rfl
theorem exec_xlateDeadline (id : BitVec 32) (s : State) : exec (.xlateDeadline id) s = execXlateDeadline id s := rfl
theorem exec_atsTranslationCompletion (id : BitVec 32) (ok : Bool) (s : State) :
    exec (.atsTranslationCompletion id ok) s = execAtsTranslationCompletion id ok s := rfl
theorem exec_priPageRequestResponse (id : BitVec 32) (ok : Bool) (s : State) :
    exec (.priPageRequestResponse id ok) s = execPriPageRequestResponse id ok s := rfl
theorem exec_scatterAddUpdate (g : BitVec 12) (q : BitVec 2) (s : State) : exec (.scatterAddUpdate g q) s = execScatterAddUpdate g q s := rfl

/-! ## The ends of walks -/

/-- A miss that leaves its die's table is there no more. -/
theorem Xlate.setMiss_none_gone (x : Xlate) (die : Nat) (m : Miss) : m ∉ (x.setMiss die m none).misses.findD die [] := by
  simp only [Xlate.setMiss, Table.findD_put_self, List.mem_filterMap]
  rintro ⟨q, -, hq⟩
  split at hq
  · exact absurd hq (by simp)
  · rename_i hne; exact hne (Option.some.inj hq)

/-- An entry added to a TLB of at least one place is in it. -/
theorem mem_tlbAdd (cap : Nat) (l : List TlbEntry) (e : TlbEntry) (hc : 1 ≤ cap) : e ∈ tlbAdd cap l e := by
  unfold tlbAdd
  simp only [List.length_append, List.length_singleton]
  rw [List.drop_append_of_le_length (by omega)]
  exact List.mem_append_right _ (List.mem_singleton_self e)

/-- An installed page stands in the last-level TLB of its die. -/
theorem Xlate.mem_install (x : Xlate) (set die : Nat) (cell : Option Nat) (e : TlbEntry) : e ∈ (x.install set die cell e).dies.findD die [] := by
  simp only [Xlate.install, Table.findD_put_self]
  exact mem_tlbAdd 1024 _ e (by decide)

/-- The waiting misses of an installed page leave the die's table. -/
theorem Xlate.install_gone (x : Xlate) (die : Nat) (cell : Option Nat) (e : TlbEntry) (m : Miss) (ha : m.answer = none)
    (hb : m.granule * 4096 / 2 ^ e.size = e.base) : m ∉ (x.install m.set die cell e).misses.findD die [] := by
  simp [Xlate.install, ha, hb]

/-- A walk of hardware mode ends its miss; a leaf that permits the access puts its page into the die's TLB. -/
theorem State.pageWalk_ends (s : State) (e : BitVec 3) (ix : BitVec 12) (m : Miss) (im : Image)
    (hm : ((s.tr.misses.findD e.toNat []).take 64)[ix.toNat]? = some m) (hi : (s.slotSet m.set).img = some im) (hw : im.hostWalk = false)
    (ha : m.answer = none) :
    ∃ x : Xlate, execPageWalkComplete e ix s = .next { s with tr := x } ∧ m ∉ x.misses.findD e.toNat [] ∧
      ∀ leaf log, (s.hardwareWalk im e.toNat (m.granule * 4096)).leaf = .ok (leaf, log) →
        (permits (missKind m.kind) leaf = true → tlbEntry false im.num (m.granule * 4096) leaf log ∈ x.dies.findD e.toNat []) ∧
        (permits (missKind m.kind) leaf = false → x.dies = s.tr.dies) := by
  unfold execPageWalkComplete
  simp only [hm, hi, hw]
  cases hl : (s.hardwareWalk im e.toNat (m.granule * 4096)).leaf with
  | error sub => exact ⟨_, rfl, Xlate.setMiss_none_gone _ _ _, by simp⟩
  | ok r =>
    obtain ⟨leaf, log⟩ := r
    by_cases hp : permits (missKind m.kind) leaf = true
    · simp only [hp, if_true]
      refine ⟨_, rfl, Xlate.install_gone _ _ _ _ m ha rfl, ?_⟩
      rintro _ _ ⟨⟩
      exact ⟨fun _ => Xlate.mem_install _ _ _ _ _, fun h => absurd h (by simp [hp])⟩
    · simp only [hp]
      refine ⟨_, rfl, Xlate.setMiss_none_gone _ _ _, ?_⟩
      rintro _ _ ⟨⟩
      exact ⟨fun h => absurd h hp, fun _ => rfl⟩

/-! ## An access at the head of its queue, performed on its own die (R247, R331) -/

/-- A place on a group's own die is neither the host's nor another module's. -/
theorem reachOf_local (g pa : Nat) (h : reachOf g pa = .local_) : paHost pa = false ∧ paModule pa = false ∧ paDie pa = dieOf g := by
  unfold reachOf at h
  split at h
  · exact absurd h (by decide)
  · split at h
    · exact absurd h (by decide)
    · split at h
      · simp_all
      · exact absurd h (by decide)

theorem State.unreachable_local (s : State) (g pa : Nat) (h : reachOf g pa = .local_) : s.unreachable g pa = false := by
  obtain ⟨hh, hm, hd⟩ := reachOf_local g pa h
  simp [State.unreachable, hh, hm, hd]

/-- The head of a slice queue that must not stay and whose one place is on the own die takes its effect there. -/
theorem State.performHead_local (s : State) (g q : Nat) (a : Access) (rest : List Access) (pa : Nat) (hs : (s.group g).slice q = a :: rest)
    (hpa : a.pa = some [(pa, a.len)]) (hl : reachOf g pa = .local_) (hm : s.mustStay g q a = false)
    (ho : s.outOfOrder g q a [(pa, a.len)] = false) :
    s.performHead g q = (s.putGroup g ((s.group g).setSlice q rest)).applyAt g a [(pa, a.len)] := by
  have hn : s.performsNow g a [(pa, a.len)] = true := by simp [State.performsNow, s.unreachable_local g pa hl, hl]
  simp [State.performHead, hs, hm, hpa, State.performAt, ho, hn, State.sendAccess, State.unreachable_local _ g pa hl, hl]

theorem toBytes_length (n v : Nat) : (toBytes n v).length = n := by
  induction n generalizing v with
  | zero => rfl
  | succ n ih => simp [toBytes, ih]

/-- Bytes written over one run. -/
theorem State.writeRuns_one (s : State) (by_ : Option Nat) (tag : Option Tag) (poison : Option Bool) (pa n : Nat) (data : List Byte) (h : data.length = n) :
    s.writeRuns by_ tag poison [(pa, n)] data = s.writeAs by_ tag poison pa data := by
  subst h; simp [State.writeRuns]

theorem State.runsBad_one (s : State) (g pa n : Nat) (h : reachOf g pa = .local_) : s.runsBad [(pa, n)] = s.badData pa n := by
  obtain ⟨hh, hm, -⟩ := reachOf_local g pa h
  simp [State.runsBad, hh, hm]

/-- A scatter element at a place of the own die: the updated element is written, or bad data are reported (R241, R247). -/
theorem State.applyAt_scatter (s : State) (g : Nat) (a : Access) (op : BitVec 2) (t : Tag) (pa : Nat) (hop : a.op = .scatter op t)
    (hl : reachOf g pa = .local_) :
    s.applyAt g a [(pa, a.len)] =
      if s.badData pa a.len = true then s.putGroup g ((s.group g).scatterFault a.va a.elem a.inst)
      else s.writeAs (some g) a.tag none pa (toBytes a.len (scatterValue op t (natOfBytes (s.readAt pa a.len)) a.data)) := by
  simp only [State.applyAt, hop, s.runsBad_one g pa a.len hl, State.readRuns, List.append_nil]
  rw [State.writeRuns_one _ _ _ _ _ _ _ (toBytes_length _ _)]

/-- The first report of a scatter instruction, with nothing else held. -/
theorem Group.scatterFault_first (G : Group) (va : Word) (e inst : Nat) (h : G.causes = []) :
    G.scatterFault va e inst = { G with causes := [{ code := 0xC, sub := 0, addr := va, elem := some e, inst := inst }] } := by
  simp [Group.scatterFault, h]

/-- SCATTER_ADD_UPDATE of a head that is no scatter element leaves it. -/
theorem execScatterAddUpdate_plain (b : BitVec 12) (q : BitVec 2) (s : State) (a : Access) (rest : List Access)
    (hs : (s.group b.toNat).slice q.toNat = a :: rest) (ha : a.isAtomic = false) : execScatterAddUpdate b q s = .next s := by
  simp [execScatterAddUpdate, State.headOf, hs, ha]

/-- SCATTER_ADD_UPDATE of a scatter element performs it. -/
theorem execScatterAddUpdate_scatter (b : BitVec 12) (q : BitVec 2) (s : State) (a : Access) (rest : List Access) (op : BitVec 2) (t : Tag)
    (hs : (s.group b.toNat).slice q.toNat = a :: rest) (hop : a.op = .scatter op t) :
    execScatterAddUpdate b q s = .next (s.performHead b.toNat q.toNat) := by
  simp [execScatterAddUpdate, State.headOf, hs, Access.isAtomic, hop]

/-! ## ATS and PRI (R446) -/

/-- Two functions that agree on states change an ATS translation alike. -/
theorem State.putAts_eq (s : State) (id : Nat) (f g : AtsState → AtsState) (h : ∀ st, f st = g st) :
    s.putAts id f = { s with tr := { s.tr with ats := s.tr.ats.map fun r => if r.id = id then { r with st := g r.st } else r } } := by
  rw [funext h]; rfl

/-- Settles O41: walks by `State.pageWalk_ends`, scatter elements by `State.performHead_local`. -/
theorem pageEventResults : Obligations.PageEventResults := by
  unfold Obligations.PageEventResults
  intro e ix id ok b q s
  refine ⟨?_, ?_, ?_, ?_, ?_, ?_, ?_⟩
  · intro m im hm hi
    refine ⟨fun hw => ?_, fun hw ha => ?_⟩
    · simp [exec_pageWalkComplete, execPageWalkComplete, hm, hi, hw]
    · obtain ⟨x, hx, hg, hd⟩ := s.pageWalk_ends e ix m im hm hi hw ha
      exact ⟨_, hx, rfl, hg, hd⟩
  · intro hm
    simp [exec_pageWalkComplete, execPageWalkComplete, hm]
  · intro die T granule m hr hm hi
    obtain ⟨im, hi⟩ := Option.isSome_iff_exists.mp hi
    have hi' : ∀ p, ({ s with port := p } : State).slotSet T = s.slotSet T := fun _ => rfl
    simp only [exec_xlateDeadline, execXlateDeadline, State.answerMiss, hr, hm, hi', hi]
    rfl
  · intro hr
    simp [exec_xlateDeadline, execXlateDeadline, State.answerMiss, hr]
  · refine ⟨_, congrArg Host.Outcome.next (s.putAts_eq _ _ (fun st => if st = .asking then (if ok then .granted else .paging)
      else if st = .retrying then (if ok then .granted else .failed) else st) fun st => ?_), rfl, rfl⟩
    cases st <;> rfl
  · refine congrArg Host.Outcome.next (s.putAts_eq _ _ (fun st => if st = .paging then .retrying else st) fun st => ?_)
    cases st <;> rfl
  · rintro g a rest rfl hs
    refine ⟨fun ha => execScatterAddUpdate_plain b q s a rest hs ha, ?_⟩
    intro op tg pa hop hpa hlen hpos hl hm ho
    rw [exec_scatterAddUpdate, execScatterAddUpdate_scatter b q s a rest op tg hs hop, s.performHead_local _ _ a rest pa hs hpa hl hm ho,
      State.applyAt_scatter _ _ a op tg pa hop hl]
    have hb : (s.putGroup b.toNat ((s.group b.toNat).setSlice q.toNat rest)).badData pa a.len = s.badData pa a.len := rfl
    rw [hb]
    refine ⟨fun hbad hcan => ⟨_, rfl, ?_⟩, fun hbad hc => ?_⟩
    · rw [if_neg (by simp [hbad])]
      exact State.writeAs_stores _ _ _ _ _ _ hcan (List.ne_nil_of_length_pos (by rw [toBytes_length]; exact hpos))
    · rw [if_pos hbad, State.group_putGroup, State.putGroup_putGroup,
        Group.scatterFault_first ((s.group b.toNat).setSlice q.toNat rest) _ _ _ hc]

end Sys2Proof.Machine
end

section
namespace Sys2Proof.Machine

theorem exec_asyncTrapDelivery (g : BitVec 12) (s : State) : exec (.asyncTrapDelivery g) s = execAsyncTrapDelivery g s := rfl
theorem exec_pageStoreDelivery (g : BitVec 12) (s : State) : exec (.pageStoreDelivery g) s = execPageStoreDelivery g s := rfl
theorem exec_watchdog (g : BitVec 12) (s : State) : exec (.watchdog g) s = execWatchdog g s := rfl
theorem exec_gyieldRelease (g : BitVec 12) (s : State) : exec (.gyieldRelease g) s = execGyieldRelease g s := rfl
theorem exec_convoyDrain (g : BitVec 12) (s : State) : exec (.convoyDrain g) s = execConvoyDrain g s := rfl

/-! ## Traps that are not precise (R88, R137, R139) -/

/-- A trap of a group that handles its traps, of any kind. -/
theorem State.trap_handled (s : State) (g : Nat) (T : Trap) (h : s.Handling g) : s.trap g T = s.putGroup g ((s.group g).recordTrap T).enterHandler := by
  obtain ⟨hl, ho, ha, hf⟩ := h
  simp [State.trap, hl, ho, ha, hf]

/-- As `trap_handled`, of a group that has just been changed in what does not bear on whether it handles its traps. -/
theorem State.trap_putGroup (s : State) (g : Nat) (G : Group) (T : Trap) (h : s.Handling g) (hl : G.level = (s.group g).level)
    (hp : G.phase = (s.group g).phase) (hv : G.trapvec = (s.group g).trapvec) :
    (s.putGroup g G).trap g T = s.putGroup g (G.recordTrap T).enterHandler := by
  rw [State.trap_handled, State.putGroup_putGroup, State.group_putGroup]
  simpa [State.Handling, Group.over, hl, hp, hv] using h

/-- The context of a live group is Active. -/
theorem State.live_active (s : State) (g : Nat) (h : s.live g = true) : (s.slotSet (setOf g)).st = .active := by
  simp only [State.live, State.serves, Bool.and_eq_true, decide_eq_true_eq] at h
  exact h.2.1

theorem Group.atBoundary_user (G : Group) (h : G.atBoundary = true) : G.level = .user := by
  simp only [Group.atBoundary, Bool.and_eq_true, decide_eq_true_eq] at h
  exact h.1.1.1.1

theorem Group.atBoundary_running (G : Group) (h : G.atBoundary = true) : G.phase = .running ∨ G.phase = .placed := by
  simp only [Group.atBoundary, Bool.and_eq_true, decide_eq_true_eq] at h
  exact h.1.1.1.2

/-- The trap of a cause at the group's instruction, as the group then stands in its handler. -/
theorem Group.enterHandler_recordTrap (G : Group) (c : HeldCause) (kind : Nat) (wait : Option Nat) :
    (G.recordTrap { code := c.code, sub := c.sub, kind := kind, addr := c.addr, elem := c.elem, vec := false, pc := G.pc, wait := wait }).enterHandler =
      G.interruptedBy c (kind + (if wait.isSome then 4 else 0) + (if c.elem.isSome then 8 else 0) + wait.getD 0 * 16) none := rfl

/-- A held cause taken by a group that handles its traps. -/
theorem State.takeCause_handled (s : State) (g : Nat) (c : HeldCause) (wait : Option Nat) (h : s.Handling g) :
    s.takeCause g c wait = s.putGroup g (Group.interruptedBy { s.group g with causes := (s.group g).causes.erase c } c
      ((if c.elem.isSome then 1 else 2) + (if wait.isSome then 4 else 0) + (if c.elem.isSome then 8 else 0) + wait.getD 0 * 16) none) :=
  s.trap_putGroup g { s.group g with causes := (s.group g).causes.erase c } _ h rfl rfl rfl

/-- A held cause taken at a boundary. -/
theorem State.takeCause_boundary (s : State) (g : Nat) (c : HeldCause) (h : s.Handling g) :
    s.takeCause g c none = s.putGroup g
      { ((s.group g).interruptedBy c (if c.elem.isSome then 9 else 2) none) with causes := (s.group g).causes.erase c } := by
  rw [s.takeCause_handled g c none h]
  cases c.elem <;> rfl

/-- A held cause without an element taken in a wait, which is kept. -/
theorem State.takeCause_wait (s : State) (g : Nat) (c : HeldCause) (w : Wait) (h : s.Handling g) (he : c.elem = none) :
    (s.takeCause g c (some w.code)).putGroup g { (s.takeCause g c (some w.code)).group g with interrupted := some ((s.group g).pc, w) } = s.putGroup g
      { ((s.group g).interruptedBy c (2 + 4 + w.code * 16) (some ((s.group g).pc, w))) with causes := (s.group g).causes.erase c } := by
  rw [s.takeCause_handled g c _ h, State.putGroup_putGroup, State.group_putGroup, he]
  rfl

/-- The watchdog's trap of a waiting group, its count 0 again. -/
theorem State.trap_watchdog (s : State) (g : Nat) (w : Wait) (h : s.Handling g) (s1 : State)
    (hs : s1 = s.trap g { code := 0xB, sub := 0, kind := 2, addr := 0, elem := none, vec := false, pc := (s.group g).pc, wait := some w.code }) :
    s1.putGroup g { s1.group g with interrupted := some ((s.group g).pc, w), wdog := 0 } = s.putGroup g
      { ((s.group g).interruptedBy { code := 0xB, sub := 0, addr := 0, elem := none, inst := 0 } (2 + 4 + w.code * 16) (some ((s.group g).pc, w))) with
        wdog := 0 } := by
  have ht : s1 = s.putGroup g ((s.group g).interruptedBy { code := 0xB, sub := 0, addr := 0, elem := none, inst := 0 } (2 + 4 + 0 + w.code * 16) none) :=
    hs.trans ((s.trap_handled g _ h).trans (congrArg (s.putGroup g)
      (Group.enterHandler_recordTrap (s.group g) { code := 0xB, sub := 0, addr := 0, elem := none, inst := 0 } 2 (some w.code))))
  rw [ht, State.putGroup_putGroup, State.group_putGroup]
  rfl

/-- PAGE_STORE of a group with records: the oldest one's. -/
theorem State.pageStore_handled (s : State) (g : Nat) (r : SfRecord) (rest : List SfRecord) (h : s.Handling g) (hq : (s.group g).sfrq = r :: rest) :
    s.pageStore g = s.putGroup g (Group.enterHandler (Group.recordTrap { s.group g with sfrq := (s.group g).sfrq.map fun q => { q with reported := true } }
      { code := 5, sub := r.sub, kind := 1, addr := r.addr, elem := none, vec := false, pc := (s.group g).pc, wait := none })) := by
  rw [← s.trap_putGroup g { s.group g with sfrq := (s.group g).sfrq.map fun q => { q with reported := true } } _ h rfl rfl rfl]
  simp only [State.pageStore, hq]

/-- PAGE_STORE of a group with an unreported record. -/
theorem State.pageStore_takes (s : State) (g : Nat) (h : s.Handling g) (hu : (s.group g).unreported = true) : s.TakesStoreTrap (s.pageStore g) g := by
  cases hq : (s.group g).sfrq with
  | nil => simp [Group.unreported, hq] at hu
  | cons r rest =>
    rw [s.pageStore_handled g r rest h hq]
    refine ⟨r, rest, hq, s.onlyGroup_putGroup _ _, ?_⟩
    rw [State.group_putGroup]
    rfl

/-- What leaves a group's misses changes translation alone. -/
theorem State.onlyGroup_leaveMisses (s u : State) (g : Nat) (h : s.OnlyGroup u g) :
    ({ s with tr := (u.leaveMisses g).tr }).OnlyGroup (u.leaveMisses g) g := by
  obtain ⟨hs, hrest⟩ := h
  exact ⟨congrArg (fun v : State => { v with tr := (u.leaveMisses g).tr }) hs, hrest⟩

/-- A watched wait: whether WATCHDOG interrupts it. -/
theorem Group.limitReached_iff (G : Group) :
    G.limitReached = true ↔ G.level = .user ∧ bits G.wdoglim 0 48 ≠ 0 ∧ bits G.wdoglim 0 48 ≤ G.wdog := by
  simp [Group.limitReached, and_assoc]

theorem Group.limitPassed_iff (G : Group) : G.limitPassed = true ↔ G.limitReached = true ∧ bits G.wdoglim 0 48 < G.wdog := by
  simp [Group.limitPassed]

/-! ## Delivery (R139, R366) -/

/-- ASYNC_TRAP_DELIVERY at a boundary. -/
theorem execAsyncTrapDelivery_boundary (b : BitVec 12) (s : State) (c : HeldCause) (hl : s.live b.toNat = true)
    (hc : (s.group b.toNat).firstCause = some c) (hb : (s.group b.toNat).atBoundary = true) (hu : (s.group b.toNat).unreported = false) :
    execAsyncTrapDelivery b s = .next ((s.takeCause b.toNat c none).leaveMisses b.toNat) := by
  rcases Group.atBoundary_running _ hb with hp | hp <;> simp [execAsyncTrapDelivery, hl, hc, hb, hu, hp]

/-- ASYNC_TRAP_DELIVERY in a wait. -/
theorem execAsyncTrapDelivery_wait (b : BitVec 12) (s : State) (c : HeldCause) (w : Wait) (hl : s.live b.toNat = true)
    (hc : (s.group b.toNat).firstCause = some c) (hp : (s.group b.toNat).phase = .waiting w) (hu : (s.group b.toNat).level = .user)
    (he : c.elem = none) (hw : s.wakeUp b.toNat false = none) :
    execAsyncTrapDelivery b s = .next ((s.takeCause b.toNat c (some w.code)).putGroup b.toNat
      { (s.takeCause b.toNat c (some w.code)).group b.toNat with interrupted := some ((s.group b.toNat).pc, w) }) := by
  simp [execAsyncTrapDelivery, hl, hc, hp, hu, he, hw]

theorem execAsyncTrapDelivery_idle (b : BitVec 12) (s : State) (h : (s.group b.toNat).causes = [] ∨ s.live b.toNat = false) :
    execAsyncTrapDelivery b s = .next s := by
  rcases h with h | h
  · have hn : (s.group b.toNat).firstCause = none := by simp [Group.firstCause, h]
    simp [execAsyncTrapDelivery, hn]
  · simp [execAsyncTrapDelivery, h]

/-- WATCHDOG of a wait whose count has reached the limit, without its event or in an earlier clock. -/
theorem execWatchdog_fires (b : BitVec 12) (s : State) (w : Wait) (hl : s.live b.toNat = true) (h : s.Handling b.toNat)
    (hp : (s.group b.toNat).phase = .waiting w) (hr : (s.group b.toNat).limitReached = true)
    (hw : (s.group b.toNat).limitPassed = true ∨ s.wakeUp b.toNat false = none) :
    execWatchdog b s = .next (s.putGroup b.toNat
      { ((s.group b.toNat).interruptedBy { code := 0xB, sub := 0, addr := 0, elem := none, inst := 0 } (2 + 4 + w.code * 16)
          (some ((s.group b.toNat).pc, w))) with wdog := 0 }) := by
  have hor : ((s.group b.toNat).limitPassed || (s.wakeUp b.toNat false).isNone) = true := by
    rcases hw with h | h <;> simp [h]
  simp only [execWatchdog, hp, hl, hr, hor, Bool.and_true, if_true]
  rw [State.trap_watchdog s b.toNat w h _ rfl]

theorem execWatchdog_below (b : BitVec 12) (s : State) (h : (s.group b.toNat).limitReached = false) : execWatchdog b s = .next s := by
  unfold execWatchdog
  cases hp : (s.group b.toNat).phase <;> simp [hp, h]

/-! ## GYIELD's mark (R144) -/

theorem State.yieldOver_iff (s : State) (y : YieldMark) :
    s.yieldOver y = true ↔ y.left = 0 ∨ ∀ h ∈ y.others, (s.group h).phase ≠ .running ∧ (s.group h).phase ≠ .placed := by
  simp [State.yieldOver]

/-! ## The end of a convoy (R196, R316) -/

/-- The tokens that the complete members of a convoy push into a FIFO. -/
def pushesTo (ms : List Member) (f : Fin 16) : Nat := (ms.filter fun m => m.complete && m.push == some (BitVec.ofFin f)).length

/-- A member after its push. -/
def Member.paid (m : Member) : Member := if m.complete then { m with push := none } else m

theorem Group.pushOpt_fifos (G : Group) (p : Option (BitVec 4)) (f : Fin 16) :
    (G.pushOpt p).fifos[f] = G.fifos[f] + if p = some (BitVec.ofFin f) then 1 else 0 := by
  cases p with
  | none => simp [Group.pushOpt]
  | some k =>
    have hk : (some k = some (BitVec.ofFin f)) ↔ k.toNat = f.val := by
      rw [Option.some.injEq]
      exact ⟨fun h => by rw [h]; rfl, fun h => BitVec.eq_of_toNat_eq h⟩
    simp only [Group.pushOpt, Group.pushToken, hk, Fin.getElem_fin, Vector.getElem_set]
    split <;> simp_all

theorem Group.pushOpt_only (G : Group) (p : Option (BitVec 4)) : G.pushOpt p = { G with fifos := (G.pushOpt p).fifos } := by
  cases p <;> rfl

theorem pushesTo_cons (m : Member) (ms : List Member) (f : Fin 16) :
    pushesTo (m :: ms) f = (if m.complete = true ∧ m.push = some (BitVec.ofFin f) then 1 else 0) + pushesTo ms f := by
  unfold pushesTo
  rw [List.filter_cons]
  by_cases h : m.complete = true ∧ m.push = some (BitVec.ofFin f)
  · rw [if_pos h, if_pos (by simp [h.1, h.2]), List.length_cons, Nat.add_comm]
  · rw [if_neg h, if_neg (by simpa using h), Nat.zero_add]

/-- With room in every FIFO, every complete member pushes. -/
theorem payPushes_room (ms : List Member) (G : Group) (h : ∀ f : Fin 16, G.fifos[f] + pushesTo ms f ≤ 255) :
    (payPushes ms G).2 = ms.map Member.paid ∧ (payPushes ms G).1 = { G with fifos := (payPushes ms G).1.fifos } ∧
      ∀ f : Fin 16, (payPushes ms G).1.fifos[f] = G.fifos[f] + pushesTo ms f := by
  induction ms generalizing G with
  | nil => exact ⟨rfl, rfl, fun f => rfl⟩
  | cons m ms ih =>
    by_cases hc : m.complete = true
    · have hroom : G.pushRoom m.push = true := by
        cases hp : m.push with
        | none => rfl
        | some k =>
          have hk := h ⟨k.toNat, k.isLt⟩
          rw [pushesTo_cons, if_pos ⟨hc, by rw [hp]; rfl⟩] at hk
          simp only [Group.pushRoom, decide_eq_true_eq]
          simp only [Fin.getElem_fin] at hk
          omega
      have hfit : ∀ f : Fin 16, (G.pushOpt m.push).fifos[f] + pushesTo ms f ≤ 255 := by
        intro f
        have hf := h f
        rw [pushesTo_cons] at hf
        rw [Group.pushOpt_fifos]
        simp only [hc, true_and] at hf
        omega
      obtain ⟨h1, h2, h3⟩ := ih (G.pushOpt m.push) hfit
      have hstep : payPushes (m :: ms) G = ((payPushes ms (G.pushOpt m.push)).1, { m with push := none } :: (payPushes ms (G.pushOpt m.push)).2) := by
        simp [payPushes, hc, hroom]
      rw [hstep]
      refine ⟨by simp [h1, Member.paid, hc], ?_, fun f => ?_⟩
      · rw [h2, Group.pushOpt_only]
      · rw [h3, Group.pushOpt_fifos, pushesTo_cons]
        simp only [hc, true_and]
        omega
    · have hstep : payPushes (m :: ms) G = ((payPushes ms G).1, m :: (payPushes ms G).2) := by simp [payPushes, hc]
      obtain ⟨h1, h2, h3⟩ := ih G fun f => by have := h f; rw [pushesTo_cons] at this; omega
      rw [hstep]
      refine ⟨by simp [h1, Member.paid, hc], h2, fun f => ?_⟩
      rw [h3, pushesTo_cons, if_neg (fun h => hc h.1), Nat.zero_add]

/-- A convoy whose complete members have pushed is done when every member is complete. -/
theorem all_paid_done (ms : List Member) : ((ms.map Member.paid).all fun m => m.complete && m.push.isNone) = true ↔ ∀ m ∈ ms, m.complete = true := by
  rw [List.all_map, List.all_eq_true]
  refine forall₂_congr fun m _ => ?_
  by_cases hc : m.complete = true
  · have : Member.complete { m with push := none } = m.complete := rfl
    simp [Member.paid, hc, this]
  · simp [Member.paid, hc]

/-- CONVOY_DRAIN with room for every push. -/
theorem execConvoyDrain_room (b : BitVec 12) (s : State) (c : Convoy) (rest : List Convoy) (hc : (s.group b.toNat).convoys = c :: rest)
    (hm : s.mayIssue b.toNat = true) (hr : ∀ f : Fin 16, (s.group b.toNat).fifos[f] + pushesTo c.members f ≤ 255) :
    execConvoyDrain b s = .next (s.putGroup b.toNat { s.group b.toNat with
      convoys := if c.ended = true ∧ (∀ m ∈ c.members, m.complete = true) then rest else { c with members := c.members.map Member.paid } :: rest
      fifos := (payPushes c.members (s.group b.toNat)).1.fifos }) := by
  obtain ⟨hms, hG, -⟩ := payPushes_room c.members (s.group b.toNat) hr
  have hd : (c.ended && (c.members.map Member.paid).all fun m => m.complete && m.push.isNone) =
      decide (c.ended = true ∧ ∀ m ∈ c.members, m.complete = true) := by
    rw [Bool.eq_iff_iff, Bool.and_eq_true, all_paid_done, decide_eq_true_iff]
  simp only [execConvoyDrain, hc, hm, hms, hd, decide_eq_true_eq, Bool.not_true, Bool.false_eq_true, if_false]
  rw [hG]

/-- Settles O37: each event by the lemma about its trap or its queue, R139's order by `Group.firstCause` as it stands. -/
theorem groupEventResults : Obligations.GroupEventResults := by
  unfold Obligations.GroupEventResults
  rintro b s _ _ rfl rfl
  refine ⟨?_, execAsyncTrapDelivery_idle b s, ?_, ?_, ?_, ?_, ?_, ?_⟩
  · intro c hlive hfwd hover hc
    have hact := s.live_active _ hlive
    refine ⟨fun hb hu => ?_, fun w hp hu he hw => ?_⟩
    · have hh : s.Handling b.toNat := ⟨Group.atBoundary_user _ hb, hover, hact, hfwd⟩
      refine ⟨_, execAsyncTrapDelivery_boundary b s c hlive hc hb hu, ?_⟩
      rw [s.takeCause_boundary _ c hh]
      exact ⟨State.onlyGroup_putGroup { s with tr := _ } _ _, State.group_putGroup _ _ _⟩
    · refine ⟨_, execAsyncTrapDelivery_wait b s c w hlive hc hp hu he hw, ?_⟩
      rw [s.takeCause_wait _ c w ⟨hu, hover, hact, hfwd⟩ he]
      exact ⟨s.onlyGroup_putGroup _ _, State.group_putGroup _ _ _⟩
  · intro hlive hh hb hu
    refine ⟨(s.pageStore b.toNat).leaveMisses b.toNat, by simp [exec_pageStoreDelivery, execPageStoreDelivery, hlive, hb, hu], ?_⟩
    obtain ⟨r, rest, hq, ho, hg⟩ := s.pageStore_takes _ hh hu
    exact ⟨r, rest, hq, s.onlyGroup_leaveMisses _ _ ho, hg⟩
  · intro h
    rcases h with h | h | h <;> simp [exec_pageStoreDelivery, execPageStoreDelivery, h]
  · intro w hp
    refine ⟨fun hlive hh hlim hcount => ?_, fun h => execWatchdog_below b s ?_⟩
    · have hreach : (s.group b.toNat).limitReached = true :=
        (Group.limitReached_iff _).mpr ⟨hh.1, hlim, by rcases hcount with h | h <;> omega⟩
      refine ⟨_, execWatchdog_fires b s w hlive hh hp hreach ?_, s.onlyGroup_putGroup _ _, State.group_putGroup _ _ _⟩
      exact hcount.imp (fun h => (Group.limitPassed_iff _).mpr ⟨hreach, h⟩) And.right
    · rw [← Bool.not_eq_true, Group.limitReached_iff]
      rintro ⟨hu, hn, hle⟩
      rcases h with h | h | h
      · exact hn h
      · omega
      · rw [hu] at h; exact absurd h (by decide)
  · intro y hy
    refine ⟨fun h => ?_, fun h0 ⟨h, hm, hr⟩ => ?_⟩
    · simp [exec_gyieldRelease, execGyieldRelease, State.dropMark, hy, (s.yieldOver_iff y).mpr h]
    · have : s.yieldOver y = false := by
        rw [← Bool.not_eq_true, State.yieldOver_iff]
        rintro (h1 | h1)
        · exact h0 h1
        · exact (h1 h hm).1 hr
      simp [exec_gyieldRelease, execGyieldRelease, State.dropMark, hy, this]
  · intro h
    simp [exec_convoyDrain, execConvoyDrain, h]
  · intro c rest hc
    refine ⟨fun hm => by simp [exec_convoyDrain, execConvoyDrain, hc, hm], ?_⟩
    rintro _ rfl hm hroom
    refine ⟨_, execConvoyDrain_room b s c rest hc hm hroom, s.onlyGroup_putGroup _ _, ?_, ?_⟩
    · simp only [State.group_putGroup]
      rfl
    · simp only [State.group_putGroup]
      exact (payPushes_room c.members _ hroom).2.2

end Sys2Proof.Machine
end

section
namespace Sys2Proof.Machine

theorem exec_streamFetchArrival (g : BitVec 12) (ch : BitVec 4) (far : FarData) (lost : Bool) (s : State) :
    exec (.streamFetchArrival g ch far lost) s = execStreamFetchArrival g ch far lost s := rfl
theorem exec_stripCommit (g : BitVec 12) (ch : BitVec 4) (s : State) : exec (.stripCommit g ch) s = execStripCommit g ch s := rfl
theorem exec_barrierRequestArrival (g : BitVec 12) (s : State) : exec (.barrierRequestArrival g) s = execBarrierRequestArrival g s := rfl

/-! ## Nothing queued: nothing to drain -/

/-- A group with no access queued, no access held on its way and no matrix entry: its engines' reads find nothing before them. -/
abbrev State.Unqueued (s : State) (g : Nat) : Prop :=
  (∀ l ∈ (s.group g).slices.toList, l = []) ∧ (∀ w ∈ (s.group g).sent, w.held = none) ∧ s.entriesOf g = []

theorem Group.slice_nil (G : Group) (q : Nat) (h : ∀ l ∈ G.slices.toList, l = []) : G.slice q = [] := by
  unfold Group.slice
  by_cases hq : q < 4
  · rw [Vector.getElem?_eq_getElem hq, Option.getD_some]
    exact h _ (by simp)
  · rw [Vector.getElem?_eq_none (by omega), Option.getD_none]

theorem State.drain_nil (s : State) (g q : Nat) (h : (s.group g).slice q = []) : s.drain g q = s := by simp [State.drain, h, State.drainSlice]

theorem State.drainThose_nil (s : State) (g : Nat) (p : State → Access → Bool) (h : ∀ q, (s.group g).slice q = []) : s.drainThose g p = s :=
  List.foldl_fixed' (fun q => by simp [h, State.drainUntil]) _

theorem State.drainFor_nil (s : State) (g : Nat) (vas : List Word) (runs : List (Nat × Nat)) (h : ∀ q, (s.group g).slice q = []) :
    s.drainFor g vas runs = s := by
  unfold State.drainFor
  rw [List.foldl_fixed' (fun q => s.drain_nil g q (h q))]
  exact s.drainThose_nil g _ h

theorem State.Unqueued.storesClear {s : State} {g : Nat} (h : s.Unqueued g) (q : Nat) (runs : List (Nat × Nat)) : s.storesClear g q runs = true := by
  obtain ⟨hsl, hsent, -⟩ := h
  have hn : ∀ q, (s.group g).slice q = [] := fun q => Group.slice_nil _ q hsl
  have hb : ∀ p, (s.group g).heldBehind q p = false := fun p => by
    simp only [Group.heldBehind, List.any_eq_false]
    intro w hw
    simp [hsent w hw]
  have ha : ∀ n, s.aliasBefore g q n runs = false := fun n => by
    unfold State.aliasBefore
    rw [List.any_eq_false]
    intro p _
    rw [Bool.not_eq_true, Bool.and_eq_false_iff, Bool.or_eq_false_iff, hn]
    refine Or.inr ⟨rfl, List.any_eq_false.mpr fun w hw => ?_⟩
    simp [hsent w hw]
  simp [State.storesClear, hn, hb, ha]

theorem State.Unqueued.tileBusy {s : State} {g : Nat} (h : s.Unqueued g) (runs : List (Nat × Nat)) : s.tileBusy g runs = false := by
  obtain ⟨-, -, he⟩ := h
  have hu : s.rowUnknown g = false := by
    simp only [State.rowUnknown, List.any_eq_false]
    intro e hm
    have : (e.group == g) = false := by
      by_contra hc
      have : e ∈ s.entriesOf g := List.mem_filter.mpr ⟨hm, by simpa using hc⟩
      rw [he] at this
      exact absurd this (by simp)
    simp [this]
  have ht : s.tilesPending g = [] := by
    have : ((s.cell (cellOf g)).mq.filter fun e => e.group == g) = [] := he
    simp [State.tilesPending, this]
  simp [State.tileBusy, hu, ht]

/-- A look keeps a group unqueued: it changes translation alone. -/
theorem State.Unqueued.look {s : State} {g : Nat} (h : s.Unqueued g) (k : Kind) (va n id : Nat) : (s.look g k va n id).1.Unqueued g := by
  rw [State.look_tr]; exact h

theorem State.readRuns_congr (s t : State) (runs : List (Nat × Nat)) (hm : s.mem = t.mem) (hh : s.hostMem = t.hostMem) :
    s.readRuns runs = t.readRuns runs := by
  induction runs with
  | nil => rfl
  | cons r rs ih => simp only [State.readRuns, State.readAt, hm, hh, ih]

/-! ## Reads of a channel (R309, R311) -/

/-- Runs of the own die are reached, and none is another module's. -/
theorem runsLocal_reached (s : State) (g : Nat) (runs : List (Nat × Nat)) (h : runsLocal g runs = true) :
    (runs.any fun q => s.unreachable g q.1) = false ∧ (runs.any fun q => paFar q.1) = false := by
  simp only [runsLocal, List.all_eq_true, decide_eq_true_eq] at h
  simp only [List.any_eq_false, Bool.not_eq_true]
  refine ⟨fun q hq => s.unreachable_local g q.1 (h q hq), fun q hq => ?_⟩
  obtain ⟨-, hm, -⟩ := reachOf_local g q.1 (h q hq)
  simp [paFar, hm]

/-- A channel's read of bytes of the own die, with nothing before it. -/
theorem State.channelRead_here (s : State) (g : Nat) (va : Word) (n : Nat) (far : FarData) (lost : Bool) (runs : List (Nat × Nat)) (leaf : Nat)
    (hq : s.Unqueued g) (hl : (s.look g .load va.toNat n (engineId 2)).2 = .here runs leaf) (hloc : runsLocal g runs = true)
    (hb : s.runsBad runs = false) :
    s.channelRead g va n far lost = ((s.look g .load va.toNat n (engineId 2)).1, .data (s.readRuns runs)) := by
  have hq1 := hq.look .load va.toNat n (engineId 2)
  have hb1 : (s.look g .load va.toNat n (engineId 2)).1.runsBad runs = false := by rw [State.look_tr]; exact hb
  have hr1 : (s.look g .load va.toNat n (engineId 2)).1.readRuns runs = s.readRuns runs := by rw [State.look_tr]; exact State.readRuns_congr _ s runs rfl rfl
  obtain ⟨hu, hf⟩ := runsLocal_reached (s.look g .load va.toNat n (engineId 2)).1 g runs hloc
  unfold State.channelRead
  rcases hlook : s.look g .load va.toNat n (engineId 2) with ⟨s1, o⟩
  rw [hlook] at hl hq1 hb1 hr1 hu
  cases hl
  simp only [State.drainFor_nil s1 g _ _ fun q => Group.slice_nil _ q hq1.1, hq1.storesClear, hq1.tileBusy, hu, hf, hb1, hr1, Bool.not_true, Bool.or_false,
    Bool.false_eq_true, if_false]

/-- As `channelRead_here`, of the one piece that an element or a strip needs. -/
theorem State.channelReads_here (s : State) (g : Nat) (va : Word) (n : Nat) (far : FarData) (lost : Bool) (runs : List (Nat × Nat)) (leaf : Nat)
    (hq : s.Unqueued g) (hl : (s.look g .load va.toNat n (engineId 2)).2 = .here runs leaf) (hloc : runsLocal g runs = true)
    (hb : s.runsBad runs = false) :
    s.channelReads g far lost [(va, n)] [] none [] = ((s.look g .load va.toNat n (engineId 2)).1, .data (s.readRuns runs)) := by
  simp [State.channelReads, s.channelRead_here g va n far lost runs leaf hq hl hloc hb]

/-- The pieces of one element that lies in one line. -/
theorem Channel.pieces_one (c : Channel) (e : Nat) (h : (c.elemAddr e).toNat % 128 + c.esz ≤ 128) : c.pieces e 1 = [(c.elemAddr e, c.esz)] := by
  simp only [Channel.pieces, upFrom, List.map_cons, List.map_nil, List.flatten_cons, List.flatten_nil, List.append_nil, linePieces]
  rw [if_pos (by omega)]

/-- A bound stream's next element, read from where it stands. -/
theorem State.fetchElem_here (s : State) (g n : Nat) (c : Channel) (runs : List (Nat × Nat)) (leaf : Nat) (hq : s.Unqueued g) (hc : c.closing = false)
    (ht : c.nextElem < c.total) (ha : (c.nextElem + 1 - c.taken) * c.esz ≤ 4096) (hline : (c.elemAddr c.nextElem).toNat % 128 + c.esz ≤ 128)
    (hl : (s.look g .load (c.elemAddr c.nextElem).toNat c.esz (engineId 2)).2 = .here runs leaf) (hloc : runsLocal g runs = true)
    (hb : s.runsBad runs = false) :
    ∃ x : Xlate, s.fetchElem g n c = ({ s with tr := x }).putGroup g
      ((s.group g).setChan n { c with buf := c.buf ++ [(c.nextElem, natOfBytes (s.readRuns runs))] }) := by
  refine ⟨(s.look g .load (c.elemAddr c.nextElem).toNat c.esz (engineId 2)).1.tr, ?_⟩
  simp only [State.fetchElem, c.pieces_one _ hline, s.channelReads_here g _ _ _ _ runs leaf hq hl hloc hb]
  rw [if_neg (by simp [hc]; omega), State.look_tr]
  rfl

/-- A copy of whole lines: its next strip, read from where it stands. -/
theorem State.fetchStrip_here (s : State) (g n : Nat) (c : Channel) (far : FarData) (lost : Bool) (runs : List (Nat × Nat)) (leaf : Nat)
    (hq : s.Unqueued g) (hc : c.closing = false) (he : c.esz = 128) (hn : 128 * (c.nextStrip + 1) ≤ c.bytes) (hd : c.depth = 0)
    (ha : (c.elemAddr c.nextStrip).toNat % 128 = 0)
    (hl : (s.look g .load (c.elemAddr c.nextStrip).toNat 128 (engineId 2)).2 = .here runs leaf) (hloc : runsLocal g runs = true)
    (hb : s.runsBad runs = false) (hlen : (s.readRuns runs).length = 128) :
    ∃ x : Xlate, s.fetchStrip g n c far lost = ({ s with tr := x }).putGroup g
      ((s.group g).setChan n { c with arrived := c.arrived ++ [Strip.mk c.nextStrip (s.readRuns runs) 0 0] }) := by
  refine ⟨(s.look g .load (c.elemAddr c.nextStrip).toNat 128 (engineId 2)).1.tr, ?_⟩
  have h1 : 128 * c.nextStrip / 128 = c.nextStrip := by omega
  have h2 : min (128 * c.nextStrip + 128) c.bytes = 128 * c.nextStrip + 128 := by omega
  have h3 : (128 * c.nextStrip + 128 + 128 - 1) / 128 - c.nextStrip = 1 := by omega
  have hp : c.pieces c.nextStrip 1 = [(c.elemAddr c.nextStrip, 128)] := by rw [c.pieces_one _ (by omega), he]
  simp only [State.fetchStrip, he, hd, hc, h1, h2, h3, hp, s.channelReads_here g _ _ far lost runs leaf hq hl hloc hb]
  rw [if_neg (by simp; omega), State.look_tr]
  have h4 : 128 * c.nextStrip + 128 - 128 * c.nextStrip = 128 := by omega
  have h5 : 128 * c.nextStrip - c.nextStrip * 128 = 0 := by omega
  rw [h4, h5, List.drop_zero, List.take_of_length_le (by omega)]
  rfl

end Sys2Proof.Machine
end

section
namespace Sys2Proof.Machine

/-! ## A strip committed (R311, R313, R314) -/

/-- A channel that owes no token pays none. -/
theorem Group.payTokens_none (G : Group) (n : Nat) (c : Channel) (h : c.owed = 0) : G.payTokens n c = (G.setChan n c, c) := by
  have hc : ({ c with owed := c.owed - 0 } : Channel) = c := rfl
  simp only [Group.payTokens, h, Nat.min_zero, Nat.add_zero, Vector.set_getElem_self, Nat.sub_zero]
  rw [← h]

/-- A channel put back as it stands. -/
theorem Group.setChan_self (G : Group) (n : Nat) (h : n < 16) : G.setChan n G.chan[n] = G := by
  have hv : G.chan.setIfInBounds n G.chan[n] = G.chan := by
    refine Vector.ext fun i hi => ?_
    rw [Vector.getElem_setIfInBounds hi]
    split
    · rename_i e; subst e; rfl
    · rfl
  rw [Group.setChan, hv]

theorem Group.setChan_setChan (G : Group) (n : Nat) (c d : Channel) : (G.setChan n c).setChan n d = G.setChan n d := by
  simp [Group.setChan]

theorem takeBytes_all (l : List Byte) : takeBytes l 0 l.length = l := by simp [takeBytes]

/-- One run handed to the asynchronous path. -/
theorem Group.sendAsync_one (G : Group) (pa : Nat) (data : List Byte) (bad strip : Bool) :
    G.sendAsync [(pa, data.length)] data bad strip =
      { G with async := G.async ++ [AsyncWrite.mk (.phys pa) data bad none none G.pc 0 strip none] } := by
  simp [Group.sendAsync, Group.sendWrites, takeBytes_all, Group.asyncWrite]

/-- A cause delivered to a group that holds none. -/
theorem State.deliver_first (s : State) (g code sub : Nat) (addr : Word) (ho : (s.group g).over = false) (hc : (s.group g).causes = []) :
    s.deliver g code sub addr = s.putGroup g { s.group g with causes := [{ code := code, sub := sub, addr := addr, elem := none, inst := 0 }] } := by
  simp [State.deliver, ho, Group.hold1, hc]

/-- The place of a copy's next strip in its destination range. -/
def Channel.nextOff (c : Channel) : Nat := if c.depth = 0 then c.filled else c.filled % (c.depth * 1536)

section StripCommit

variable (b : BitVec 12) (ch : BitVec 4) (s : State) (c : Channel) (x : Strip) (rest : List Strip)
  (hc : c = (s.group b.toNat).chan[ch.toNat]) (hg : (s.groups.find b.toNat).isSome = true) (ho : c.owed = 0)

include hc hg ho

/-- What STRIP_COMMIT does with a channel that owes no token. -/
theorem execStripCommit_settled : execStripCommit b ch s = .next
    (match c.st, c.arrived with
      | .copying, x :: rest =>
        let s1 := s.putGroup b.toNat (s.group b.toNat)
        let runs := (s.window b.toNat (c.dst.toNat / 2 ^ 48) (c.dst.toNat % 2 ^ 48 + c.nextOff) x.data.length).getD []
        if x.why = 0 then
          let filled := c.filled + x.data.length
          s1.putGroup b.toNat (((s.group b.toNat).sendAsync runs x.data false true).payTokens ch.toNat
            { c with filled := filled, arrived := rest, owed := c.tokens c.filled filled, st := if filled = c.bytes then .done else .copying }).1
        else
          let G1 := if x.why = 1 then (s.group b.toNat).sendAsync runs x.data true true else s.group b.toNat
          (s1.putGroup b.toNat (G1.setChan ch.toNat { c with st := .failed, fstrip := x.k, why := x.why, arrived := [] })).deliver b.toNat 0x14 x.why x.line
      | _, _ => s.putGroup b.toNat (s.group b.toNat)) := by
  have hn : (s.groups.find b.toNat).isNone = false := by rw [← Option.not_isSome, hg]; rfl
  have hp : (s.group b.toNat).payTokens ch.toNat (s.group b.toNat).chan[ch.toNat] = (s.group b.toNat, c) := by
    rw [← hc, Group.payTokens_none _ _ _ ho, hc, Group.setChan_self _ _ ch.isLt]
  simp only [execStripCommit, hp, hn, ho, State.group_putGroup, s.window_putGroup _ (s.group b.toNat) _ _ _ _ rfl]
  rfl

/-- A strip that has arrived is handed on as one line. -/
theorem execStripCommit_line (pa : Nat) (hst : c.st = .copying) (ha : c.arrived = x :: rest) (hw : x.why = 0) (ht : c.tke = false)
    (hwin : s.window b.toNat (c.dst.toNat / 2 ^ 48) (c.dst.toNat % 2 ^ 48 + c.nextOff) x.data.length = some [(pa, x.data.length)]) :
    execStripCommit b ch s = .next (s.putGroup b.toNat { ((s.group b.toNat).setChan ch.toNat { c with
      filled := c.filled + x.data.length, arrived := rest, st := if c.filled + x.data.length = c.bytes then .done else .copying }) with
        async := (s.group b.toNat).async ++ [AsyncWrite.mk (.phys pa) x.data false none none (s.group b.toNat).pc 0 true none] }) := by
  rw [execStripCommit_settled b ch s c hc hg ho]
  have hk : c.tokens c.filled (c.filled + x.data.length) = c.owed := by simp [Channel.tokens, ht, ho]
  simp only [hst, ha, hw, if_true, hwin, Option.getD_some, hk, State.putGroup_putGroup, Group.sendAsync_one]
  rw [Group.payTokens_none]
  · rfl
  · exact ho

/-- A strip that has failed ends its copy, and its group holds SQFAULT. -/
theorem execStripCommit_fails (hst : c.st = .copying) (ha : c.arrived = x :: rest) (hw : x.why = 2 ∨ x.why = 3)
    (hover : (s.group b.toNat).over = false) (hcs : (s.group b.toNat).causes = []) :
    execStripCommit b ch s = .next (s.putGroup b.toNat { ((s.group b.toNat).setChan ch.toNat { c with
      st := .failed, fstrip := x.k, why := x.why, arrived := [] }) with causes := [{ code := 0x14, sub := x.why, addr := x.line, elem := none, inst := 0 }] }) := by
  rw [execStripCommit_settled b ch s c hc hg ho]
  have h0 : x.why ≠ 0 := by omega
  have h1 : x.why ≠ 1 := by omega
  simp only [hst, ha, if_neg h0, if_neg h1, State.putGroup_putGroup]
  rw [State.deliver_first _ _ _ _ _ (by rw [State.group_putGroup]; exact hover) (by rw [State.group_putGroup]; exact hcs), State.group_putGroup,
    State.putGroup_putGroup]

/-- With no strip there STRIP_COMMIT changes nothing. -/
theorem execStripCommit_none (ha : c.arrived = []) : execStripCommit b ch s = .next (s.putGroup b.toNat (s.group b.toNat)) := by
  rw [execStripCommit_settled b ch s c hc hg ho, ha]
  cases c.st <;> rfl

end StripCommit

/-! ## A barrier's arrival on another die (R323, R328) -/

/-- A group whose arrival has lost its way takes LINKFAIL. -/
theorem State.linkFail_handled (s : State) (g : Nat) (G : Group) (sub : Nat) (pc addr : Word) (h : s.Handling g) (hl : G.level = (s.group g).level)
    (hp : G.phase = (s.group g).phase) (hv : G.trapvec = (s.group g).trapvec) :
    (s.putGroup g G).linkFail g sub pc addr = s.putGroup g (G.linkFails sub addr pc) :=
  s.trap_putGroup g G _ h hl hp hv

/-- An arrival counts, and the last one of a phase completes it. -/
theorem BarEntry.arrive_eq (e : BarEntry) : e.arrive = (e.phase,
    if e.count ≤ e.arrivals + 1 then { e with phase := e.phase + 1, arrivals := 0 } else { e with arrivals := e.arrivals + 1 }) := rfl

/-- An arrival at an entry of a unit, answered with its phase. -/
theorem State.arrivePending_entry (s : State) (g : Nat) (h : Word) (q : Bool) (key : Nat) (hb : (s.group g).barPending = some (h, q, none))
    (hl : s.liveHandle g h = .ok (.entry key)) :
    s.arrivePending g = ({ s with bars := s.bars.put key (s.barEntry key).arrive.2 }).putGroup g
      { s.group g with barPending := some (h, q, some (.ok (s.barEntry key).phase)) } := by
  simp only [State.arrivePending, hb, hl]
  rfl

section StreamFetch

variable (b : BitVec 12) (ch : BitVec 4) (far : FarData) (lost : Bool) (s : State) (c : Channel) (hc : c = (s.group b.toNat).chan[ch.toNat])

include hc

/-- STREAM_FETCH_ARRIVAL by the state of its channel. -/
theorem execStreamFetchArrival_eq : execStreamFetchArrival b ch far lost s = .next
    (if ((s.group b.toNat).over || decide ((s.slotSet (setOf b.toNat)).st ≠ .active)) && !(decide (c.st = .copying) && decide (c.asked > c.nextStrip)) then s
      else match c.st with
        | .bound => s.fetchElem b.toNat ch.toNat c
        | .copying => s.fetchStrip b.toNat ch.toNat c far lost
        | _ => s) := by
  subst hc; rfl

/-- Neither a bound stream nor a copy fetches nothing. -/
theorem execStreamFetchArrival_idle (h1 : c.st ≠ .bound) (h2 : c.st ≠ .copying) : execStreamFetchArrival b ch far lost s = .next s := by
  rw [execStreamFetchArrival_eq b ch far lost s c hc]
  cases hs : c.st <;> simp_all

/-- A group that is over fetches nothing but the strips of a copy that it has asked for (R141). -/
theorem execStreamFetchArrival_over (ho : (s.group b.toNat).over = true) (h : c.st ≠ .copying ∨ c.asked ≤ c.nextStrip) :
    execStreamFetchArrival b ch far lost s = .next s := by
  have hn : (decide (c.st = .copying) && decide (c.asked > c.nextStrip)) = false := by
    rw [Bool.and_eq_false_iff, decide_eq_false_iff_not, decide_eq_false_iff_not]
    exact h.imp_right (by omega)
  rw [execStreamFetchArrival_eq b ch far lost s c hc, ho, hn]
  rfl

/-- In an Active context a bound stream fetches an element, and a copy a strip. -/
theorem execStreamFetchArrival_active (ho : (s.group b.toNat).over = false) (ha : (s.slotSet (setOf b.toNat)).st = .active) :
    (c.st = .bound → execStreamFetchArrival b ch far lost s = .next (s.fetchElem b.toNat ch.toNat c)) ∧
    (c.st = .copying → execStreamFetchArrival b ch far lost s = .next (s.fetchStrip b.toNat ch.toNat c far lost)) := by
  rw [execStreamFetchArrival_eq b ch far lost s c hc, ho, ha]
  exact ⟨fun h => by rw [h]; rfl, fun h => by rw [h]; rfl⟩

end StreamFetch

/-- Past the end of its pattern a stream fetches nothing. -/
theorem State.fetchElem_end (s : State) (g n : Nat) (c : Channel) (h : c.total ≤ c.nextElem) : s.fetchElem g n c = s := by simp [State.fetchElem, h]

/-- Past the end of its bytes a copy fetches nothing. -/
theorem State.fetchStrip_end (s : State) (g n : Nat) (c : Channel) (far : FarData) (lost : Bool) (h : c.bytes ≤ 128 * c.nextStrip) :
    s.fetchStrip g n c far lost = s := by simp [State.fetchStrip, h]

/-- Settles O44: fetches by `State.fetchElem_here` and `State.fetchStrip_here`, commits by `execStripCommit_settled`, a barrier's arrival by
`State.arrivePending_entry`. -/
theorem streamEventResults : Obligations.StreamEventResults := by
  unfold Obligations.StreamEventResults
  rintro b ch far lost s _ _ c rfl rfl hc
  refine ⟨execStreamFetchArrival_idle b ch far lost s c hc, execStreamFetchArrival_over b ch far lost s c hc, ?_, ?_, ?_, ?_, ?_, ?_, ?_⟩
  · intro ho ha hsl hsent hasync hent hcl
    have hq : s.Unqueued b.toNat := ⟨hsl, hsent, hent⟩
    obtain ⟨hbound, hcopy⟩ := execStreamFetchArrival_active b ch far lost s c hc ho ha
    refine ⟨?_, fun hst hend => ?_, ?_, fun hst hend => ?_⟩
    · intro runs leaf hst ht hahead hline hl hloc hb
      obtain ⟨x, hx⟩ := s.fetchElem_here b.toNat ch.toNat c runs leaf hq hcl ht hahead hline hl hloc hb
      exact ⟨_, (hbound hst).trans (congrArg _ hx), State.onlyGroup_putGroup { s with tr := x } _ _, State.group_putGroup _ _ _⟩
    · exact (hbound hst).trans (congrArg _ (s.fetchElem_end _ _ c hend))
    · intro runs leaf hst he hn hd halign hl hloc hb hlen
      obtain ⟨x, hx⟩ := s.fetchStrip_here b.toNat ch.toNat c far lost runs leaf hq hcl he hn hd halign hl hloc hb hlen
      exact ⟨_, (hcopy hst).trans (congrArg _ hx), State.onlyGroup_putGroup { s with tr := x } _ _, State.group_putGroup _ _ _⟩
    · exact (hcopy hst).trans (congrArg _ (s.fetchStrip_end _ _ c far lost hend))
  · intro hg ho hst x rest pa ha
    exact ⟨fun hw ht hwin => execStripCommit_line b ch s c x rest hc hg ho pa hst ha hw ht hwin,
      fun hw hover hcs => execStripCommit_fails b ch s c x rest hc hg ho hst ha hw hover hcs⟩
  · intro ho ha hg
    exact ⟨_, execStripCommit_none b ch s c hc hg ho ha, s.onlyGroup_putGroup _ _, State.group_putGroup _ _ _⟩
  · intro h
    simp [exec_barrierRequestArrival, execBarrierRequestArrival, h]
  · intro h q hb hl hh
    simp only [exec_barrierRequestArrival, execBarrierRequestArrival, hb, hl, if_true]
    exact congrArg _ (s.linkFail_handled b.toNat _ 2 _ h hh rfl rfl rfl)
  · intro h q hb hl hh
    simp [exec_barrierRequestArrival, execBarrierRequestArrival, hb, hl, hh]
  · rintro h q key e hb hl hh hlive rfl e2 rfl
    simp only [exec_barrierRequestArrival, execBarrierRequestArrival, hb, hl, hh, Bool.false_eq_true, if_false]
    rw [s.arrivePending_entry b.toNat h q key hb hlive, BarEntry.arrive_eq]

end Sys2Proof.Machine
end

section
namespace Sys2Proof.Machine

theorem exec_cellDrainComplete (c : BitVec 9) (s : State) : exec (.cellDrainComplete c) s = execCellDrainComplete c s := rfl
theorem exec_contextLoadComplete (t : BitVec 1) (fd : LoadFinding) (s : State) : exec (.contextLoadComplete t fd) s = execContextLoadComplete t fd s := rfl
theorem exec_contextSaveComplete (t : BitVec 1) (s : State) : exec (.contextSaveComplete t) s = execContextSaveComplete t s := rfl
theorem exec_slotStateUncorr (g : BitVec 12) (s : State) : exec (.slotStateUncorr g) s = execSlotStateUncorr g s := rfl

/-! ## Slot sets read back -/

theorem setOf_lt (g : Nat) : setOf g < 2 := Nat.mod_lt _ (by decide)

@[simp] theorem State.slotSet_putSet (s : State) (t : Nat) (S : SlotSet) : (s.putSet t S).slotSet t = S := by
  unfold State.putSet State.slotSet; split <;> simp_all

theorem State.slotSet_putSet_partner (s : State) (t : Nat) (S : SlotSet) (ht : t < 2) : (s.putSet t S).slotSet (1 - t) = s.slotSet (1 - t) := by
  obtain rfl | rfl : t = 0 ∨ t = 1 := by omega
  · rfl
  · rfl

@[simp] theorem State.slotSet_setCtx (s : State) (t : Nat) (st : CtxState) : (s.setCtx t st).slotSet t = { s.slotSet t with st := st } :=
  s.slotSet_putSet t _

theorem State.slotSet_setCtx_partner (s : State) (t : Nat) (st : CtxState) (ht : t < 2) : (s.setCtx t st).slotSet (1 - t) = s.slotSet (1 - t) :=
  s.slotSet_putSet_partner t _ ht

/-- A change of a context's state changes its slot set and hands the host an event, no more. -/
theorem State.setCtx_only (s : State) (t : Nat) (st : CtxState) :
    s.setCtx t st = { s with set0 := (s.setCtx t st).set0, set1 := (s.setCtx t st).set1, port := { s.port with waiting := (s.setCtx t st).port.waiting } } := by
  by_cases h : t = 0 <;> simp only [State.setCtx, State.putSet, h, if_true, if_false] <;> rfl

theorem State.slotSet_writeAs (s : State) (by_ : Option Nat) (tag : Option Tag) (poison : Option Bool) (pa : Nat) (data : List Byte) (u : Nat) :
    (s.writeAs by_ tag poison pa data).slotSet u = s.slotSet u := by
  unfold State.writeAs
  split
  · rfl
  · split
    · rfl
    · simp only
      rw [State.retile_bdir]; rfl

theorem State.slotSet_unitUpdate (s : State) (t pa : Nat) (f : Word → Word) (u : Nat) : (s.unitUpdate t pa f).slotSet u = s.slotSet u := by
  unfold State.unitUpdate
  split
  · rfl
  · exact s.slotSet_writeAs _ _ _ _ _ _

theorem State.slotSet_placeOn (s : State) (t c : Nat) (k : Kernel) (u : Nat) : (s.placeOn t c k).slotSet u = s.slotSet u := by
  unfold State.placeOn; split <;> rfl

theorem State.slotSet_putWord_partner (s : State) (t : Nat) (k : Kernel) (f : Word → Word) (ht : t < 2) :
    (s.putWord t k f).slotSet (1 - t) = s.slotSet (1 - t) := by
  unfold State.putWord
  cases k.cword with
  | none => exact s.slotSet_putSet_partner t _ ht
  | some pa => exact (State.slotSet_unitUpdate _ _ _ _ _).trans (s.slotSet_putSet_partner t _ ht)

theorem State.st_putWord (s : State) (t : Nat) (k : Kernel) (f : Word → Word) : ((s.putWord t k f).slotSet t).st = (s.slotSet t).st := by
  unfold State.putWord
  cases k.cword with
  | none => simp only [State.slotSet_putSet]; rfl
  | some pa => simp only [State.slotSet_unitUpdate, State.slotSet_putSet]; rfl

/-- The conductor's placement keeps the states of both contexts. -/
theorem State.placeConductor_sets (s : State) (t : Nat) (ht : t < 2) :
    ((s.placeConductor t).slotSet t).st = (s.slotSet t).st ∧ (s.placeConductor t).slotSet (1 - t) = s.slotSet (1 - t) := by
  unfold State.placeConductor
  cases hc : (s.slotSet t).img.bind Image.conductor with
  | none => simp [hc]
  | some c =>
    simp only [hc]
    split
    · exact ⟨rfl, rfl⟩
    · rw [State.st_putWord, State.slotSet_putWord_partner _ _ _ _ ht, State.slotSet_placeOn, State.slotSet_placeOn, State.slotSet_putSet,
        s.slotSet_putSet_partner t _ ht]
      exact ⟨rfl, rfl⟩

/-- A context that becomes Active leaves its partner as it was. -/
theorem State.activate_sets (s : State) (t : Nat) (ht : t < 2) :
    ((s.activate t).slotSet t).st = .active ∧ (s.activate t).slotSet (1 - t) = s.slotSet (1 - t) := by
  obtain ⟨h1, h2⟩ := ((s.setCtx t .active).mapSet t fun _ => resumeGroup).placeConductor_sets t ht
  exact ⟨h1.trans (congrArg SlotSet.st (s.slotSet_setCtx t .active)), h2.trans (s.slotSet_setCtx_partner t .active ht)⟩

/-! ## A context Faulted (R82, R450) -/

/-- A resident context that an event faults. -/
theorem State.faultContext_faults (s : State) (t cause cell slot : Nat) (ht : t < 2) (hst : (s.slotSet t).st ∈ [CtxState.active, .preempting, .standby])
    (hcause : cause < 256) (hcell : cell < 512) (hslot : slot < 4) : s.FaultsSet (s.faultContext t cause cell slot) t cause cell slot := by
  have hw : faultWord cause cell slot = BitVec.ofNat 64 (cause + cell * 2 ^ 8 + slot * 2 ^ 17) := by
    rw [faultWord, Nat.mod_eq_of_lt hcause, Nat.mod_eq_of_lt hcell, Nat.mod_eq_of_lt hslot]
  have hr : (s.slotSet t).st = .active ∨ (s.slotSet t).st = .preempting ∨ (s.slotSet t).st = .standby := by simpa using hst
  obtain ⟨u, hu⟩ : ∃ u, u = ((s.weigh t).putSet t { (s.weigh t).slotSet t with fault := faultWord cause cell slot }).setCtx t .faulted := ⟨_, rfl⟩
  have hx : s.faultContext t cause cell slot = if (s.slotSet t).st = .active then u.activatePartner t else u := by
    rw [hu, State.faultContext, if_pos hr]
  have hself : u.slotSet t = { s.slotSet t with st := .faulted, lastAt := some s.clock, fault := BitVec.ofNat 64 (cause + cell * 2 ^ 8 + slot * 2 ^ 17) } := by
    rw [hu, State.slotSet_setCtx, State.slotSet_putSet, State.weigh, State.slotSet_putSet, hw]
  have hpart : u.slotSet (1 - t) = s.slotSet (1 - t) := by
    rw [hu, State.slotSet_setCtx_partner _ _ _ ht, State.slotSet_putSet_partner _ _ _ ht, State.weigh, State.slotSet_putSet_partner _ _ _ ht]
  have honly : u = { s with set0 := u.set0, set1 := u.set1, port := { s.port with waiting := u.port.waiting } } := by
    rw [hu]; by_cases h : t = 0 <;> simp only [State.weigh, State.setCtx, State.putSet, h, if_true, if_false] <;> rfl
  have hback : 1 - (1 - t) = t := by omega
  by_cases ha : (s.slotSet t).st = .active ∧ (s.slotSet (1 - t)).st = .standby
  · have hact := u.activate_sets (1 - t) (by omega)
    rw [hback] at hact
    have hx' : s.faultContext t cause cell slot = u.activate (1 - t) := by
      rw [hx, if_pos ha.1, State.activatePartner, hpart, if_pos ha.2]
    rw [hx']
    refine ⟨hact.2.trans hself, fun _ _ => hact.1, fun h => ?_⟩
    rcases h with h | h
    · exact absurd ha.1 h
    · exact absurd ha.2 h
  · have hx' : s.faultContext t cause cell slot = u := by
      rw [hx, State.activatePartner, hpart]
      split
      · rename_i h1; exact if_neg fun h2 => ha ⟨h1, h2⟩
      · rfl
    rw [hx']
    exact ⟨hself, fun h1 h2 => absurd ⟨h1, h2⟩ ha, fun _ => ⟨hpart, honly⟩⟩

end Sys2Proof.Machine
end

section
namespace Sys2Proof.Machine

/-! ## The drain of a cell (R84, R86) -/

/-- The group of a slot after every group of a slot set has changed. -/
theorem State.group_mapSet (s : State) (t : Nat) (f : Nat → Group → Group) (h : Nat) (hi : f h Group.idle = Group.idle) :
    (s.mapSet t f).group h = if setOf h = t then f h (s.group h) else s.group h := by
  have hm : (s.mapSet t f).groups = s.groups.map fun e => (e.1, if setOf e.1 = t then f e.1 e.2 else e.2) :=
    List.map_congr_left fun e _ => by split <;> rfl
  unfold State.group Table.findD
  rw [hm, Table.find_map s.groups fun n G => if setOf n = t then f n G else G]
  cases Table.find s.groups h with
  | none => simp [hi]
  | some G => rfl

theorem State.groupsOf_mapSet (s : State) (t : Nat) (f : Nat → Group → Group) (u : Nat) : (s.mapSet t f).groupsOf u = s.groupsOf u := by
  unfold State.groupsOf State.mapSet
  rw [List.map_map]
  refine congrArg _ (List.map_congr_left fun e _ => ?_)
  simp only [Function.comp]
  split <;> rfl

theorem State.drainingSet_lt (s : State) (D : Nat) (h : s.drainingSet = some D) : D < 2 := by
  unfold State.drainingSet at h
  split at h
  · cases h; decide
  · split at h
    · cases h; decide
    · exact absurd h (by simp)

/-- A slot without a group is as it was when its cell has drained. -/
theorem drainedGroup_idle (c g : Nat) : drainedGroup c g Group.idle = Group.idle := by unfold drainedGroup; split <;> rfl

/-- The state with a cell counted as drained. -/
def State.drainCell (s : State) (D c : Nat) : State :=
  (s.putSet D { s.slotSet D with drained := setAdd (s.slotSet D).drained c }).mapSet D (drainedGroup c)

theorem State.drainCell_only (s : State) (D c : Nat) : s.drainCell D c = { s with
    groups := (s.drainCell D c).groups, set0 := (s.drainCell D c).set0, set1 := (s.drainCell D c).set1
    port := { s.port with waiting := (s.drainCell D c).port.waiting } } := by
  by_cases h : D = 0 <;> simp only [State.drainCell, State.putSet, h, if_true, if_false] <;> rfl

theorem State.drainCell_standby_only (s : State) (D c : Nat) : (s.drainCell D c).setCtx D .standby = { s with
    groups := ((s.drainCell D c).setCtx D .standby).groups
    set0 := ((s.drainCell D c).setCtx D .standby).set0, set1 := ((s.drainCell D c).setCtx D .standby).set1
    port := { s.port with waiting := ((s.drainCell D c).setCtx D .standby).port.waiting } } := by
  by_cases h : D = 0 <;> simp only [State.drainCell, State.setCtx, State.putSet, h, if_true, if_false] <;> rfl

theorem State.drainCell_self (s : State) (D c : Nat) : (s.drainCell D c).slotSet D = { s.slotSet D with drained := setAdd (s.slotSet D).drained c } :=
  s.slotSet_putSet D _

theorem State.drainCell_partner (s : State) (D c : Nat) (hD : D < 2) : (s.drainCell D c).slotSet (1 - D) = s.slotSet (1 - D) :=
  s.slotSet_putSet_partner D _ hD

theorem State.groupsOf_drainCell (s : State) (D c : Nat) : (s.drainCell D c).groupsOf D = s.groupsOf D := by
  unfold State.drainCell
  rw [State.groupsOf_mapSet]
  simp [State.groupsOf]

theorem State.group_drainCell (s : State) (D c h : Nat) :
    (s.drainCell D c).group h = if setOf h = D then drainedGroup c h (s.group h) else s.group h := by
  have hg : ∀ S, (s.putSet D S).group h = s.group h := fun S => by simp [State.group]
  unfold State.drainCell
  rw [State.group_mapSet _ _ _ _ (drainedGroup_idle c h), hg]

/-- CELL_DRAIN_COMPLETE of a cell whose groups have stopped, next to an Active partner: the context stands by when it was the last. -/
theorem execCellDrainComplete_drained (b : BitVec 9) (s : State) (D : Nat) (hD : s.drainingSet = some D) (hp : (s.slotSet (1 - D)).st = .active)
    (hd : ∀ h ∈ s.groupsOf D, cellOf h = b.toNat → s.groupDrained h = true) :
    execCellDrainComplete b s = .next (if ∀ h ∈ s.groupsOf D, cellOf h ∈ setAdd (s.slotSet D).drained b.toNat
      then (s.drainCell D b.toNat).setCtx D .standby else s.drainCell D b.toNat) := by
  have hlt := s.drainingSet_lt D hD
  have hall : (((s.groupsOf D).filter fun g => decide (cellOf g = b.toNat)).all s.groupDrained) = true := by
    rw [List.all_eq_true]
    intro h hm
    obtain ⟨h1, h2⟩ := List.mem_filter.mp hm
    exact hd h h1 (of_decide_eq_true h2)
  have hact : (((s.drainCell D b.toNat).setCtx D .standby).slotSet (1 - D)).st = .active := by
    rw [State.slotSet_setCtx_partner _ _ _ hlt, s.drainCell_partner D _ hlt, hp]
  have hlast : ((s.drainCell D b.toNat).groupsOf D).all (fun g => ((s.drainCell D b.toNat).slotSet D).drained.contains (cellOf g)) =
      decide (∀ h ∈ s.groupsOf D, cellOf h ∈ setAdd (s.slotSet D).drained b.toNat) := by
    rw [s.groupsOf_drainCell, s.drainCell_self, Bool.eq_iff_iff, List.all_eq_true, decide_eq_true_iff]
    simp
  unfold execCellDrainComplete
  simp only [hD, hall, if_true]
  change Host.Outcome.next (if (((s.drainCell D b.toNat).groupsOf D).all fun g => ((s.drainCell D b.toNat).slotSet D).drained.contains (cellOf g)) = true
    then (if (((s.drainCell D b.toNat).setCtx D .standby).slotSet (1 - D)).st = .active then (s.drainCell D b.toNat).setCtx D .standby
      else ((s.drainCell D b.toNat).setCtx D .standby).activate D) else s.drainCell D b.toNat) = _
  rw [hlast, if_pos hact]
  simp only [decide_eq_true_eq]

/-! ## Commands end (R449) -/

theorem State.endCmd_hit (s : State) (code t status : Nat) (result : List Host.Cell) (c : Command) (h : s.port.cmd = some c) (hc : c.code = code)
    (ht : c.set = t) : s.endCmd code t status result = s.finishCmd status result := by simp [State.endCmd, h, hc, ht]

theorem State.endCmd_miss (s : State) (code t status : Nat) (result : List Host.Cell) (h : ∀ c, s.port.cmd = some c → c.code ≠ code) :
    s.endCmd code t status result = s := by
  unfold State.endCmd
  cases hc : s.port.cmd with
  | none => rfl
  | some c => simp [h c hc]

/-- The end of a command changes the mailbox alone. -/
theorem State.endCmd_port (s : State) (code t status : Nat) (result : List Host.Cell) :
    s.endCmd code t status result = { s with port := (s.endCmd code t status result).port } := by
  unfold State.endCmd
  cases s.port.cmd with
  | none => rfl
  | some c => simp only; split <;> rfl

theorem State.setCtx_cmd (s : State) (t : Nat) (st : CtxState) : (s.setCtx t st).port.cmd = s.port.cmd := by rw [State.setCtx_only]

/-- A load refused: the set is Empty and the command ends. -/
theorem State.refuseLoad_eq (s : State) (t status : Nat) (c : Command) (h : s.port.cmd = some c) (hc : c.code = 1 ∨ c.code = 2) (ht : c.set = t) :
    s.refuseLoad t status = ((s.setCtx t .empty).putSet t { SlotSet.fresh with lastAt := (s.slotSet t).lastAt }).finishCmd status [] := by
  have hs : ∀ S, ((s.setCtx t .empty).putSet t S).port.cmd = some c := fun S => by rw [State.putSet_port, State.setCtx_cmd, h]
  unfold State.refuseLoad
  simp only [State.slotSet_setCtx]
  rcases hc with hc | hc
  · rw [State.endCmd_hit _ 1 t status [] c (hs _) hc ht, State.endCmd_miss]
    exact fun _ h => absurd h (by simp [State.finishCmd])
  · rw [State.endCmd_miss _ 1 t status [] (fun d hd => by rw [hs] at hd; cases hd; omega), State.endCmd_hit _ 2 t status [] c (hs _) hc ht]

/-- A group of a slot set on the drained cell stops there, and every other one stands as before. -/
theorem drainedGroup_eq (D c h : Nat) (G : Group) : (if setOf h = D then drainedGroup c h G else G) =
    if setOf h = D ∧ cellOf h = c then
      (match G.phase with | .trapped _ => G | .running => { G.markResume with phase := .preempted } | _ => G.markResume)
    else G := by
  by_cases hs : setOf h = D
  · by_cases hc : cellOf h = c
    · exact (if_pos hs).trans ((if_pos hc).trans (if_pos ⟨hs, hc⟩).symm)
    · exact (if_pos hs).trans ((if_neg hc).trans (if_neg fun q => hc q.2).symm)
  · exact (if_neg hs).trans (if_neg fun q => hs q.1).symm

theorem cell_drains (b : BitVec 9) (s : State) (D : Nat) (Sd : SlotSet) (l : List Nat) (hD : s.drainingSet = some D)
    (hp : (s.slotSet (1 - D)).st = .active) (hSd : Sd = s.slotSet D) (hl : l = setAdd Sd.drained b.toNat)
    (hd : ∀ h ∈ s.groupsOf D, cellOf h = b.toNat → s.groupDrained h = true) :
      ∃ t, exec (.cellDrainComplete b) s = .next t ∧ t = { s with groups := t.groups, set0 := t.set0, set1 := t.set1, port := { s.port with waiting := t.port.waiting } } ∧
        ((∃ h ∈ s.groupsOf D, cellOf h ∉ l) → t.slotSet D = { Sd with drained := l }) ∧
        ((∀ h ∈ s.groupsOf D, cellOf h ∈ l) → t.slotSet D = { Sd with drained := l, st := .standby }) ∧
        t.slotSet (1 - D) = s.slotSet (1 - D) ∧ ∀ h, t.group h =
          if setOf h = D ∧ cellOf h = b.toNat then
            (match (s.group h).phase with | .trapped _ => s.group h | .running => { (s.group h).markResume with phase := .preempted } | _ => (s.group h).markResume)
          else s.group h := by
  have hlt := s.drainingSet_lt D hD
  have hx := execCellDrainComplete_drained b s D hD hp hd
  subst hSd hl
  by_cases hlast : ∀ h ∈ s.groupsOf D, cellOf h ∈ setAdd (s.slotSet D).drained b.toNat
  · rw [if_pos hlast] at hx
    refine ⟨_, hx, ?_, fun ⟨h, hm, hn⟩ => absurd (hlast h hm) hn, fun _ => ?_, ?_, fun h => ?_⟩
    · exact s.drainCell_standby_only D _
    · rw [State.slotSet_setCtx, s.drainCell_self]
    · rw [State.slotSet_setCtx_partner _ _ _ hlt, s.drainCell_partner D _ hlt]
    · rw [← drainedGroup_eq, ← s.group_drainCell, State.setCtx_only]; rfl
  · rw [if_neg hlast] at hx
    refine ⟨_, hx, ?_, fun _ => s.drainCell_self D _, fun h => absurd h hlast, s.drainCell_partner D _ hlt, fun h => ?_⟩
    · exact s.drainCell_only D _
    · rw [← drainedGroup_eq, ← s.group_drainCell]

end Sys2Proof.Machine
end

section
namespace Sys2Proof.Machine

/-! ## Parts of memory wiped and filled -/

theorem memByte_filter (m : List Host.Cell) (p : Nat → Bool) (a : Nat) : memByte (m.filter fun c => p c.1) a = if p a = true then memByte m a else 0 := by
  induction m with
  | nil => simp [memByte]
  | cons c m ih =>
    obtain ⟨b, v⟩ := c
    by_cases hb : p b = true
    · rw [List.filter_cons_of_pos (by exact hb)]
      simp only [memByte, ih]
      by_cases ha : a = b
      · subst ha; simp [hb]
      · simp [ha]
    · rw [List.filter_cons_of_neg (by exact hb), ih]
      by_cases ha : a = b
      · subst ha; simp [hb]
      · simp [memByte, ha]

theorem Table.find_filter {α : Type} (t : Table α) (p : Nat → Bool) (n : Nat) :
    Table.find (t.filter fun e => p e.1) n = if p n = true then Table.find t n else none := by
  induction t with
  | nil => simp [Table.find]
  | cons e t ih =>
    obtain ⟨k, v⟩ := e
    by_cases hk : p k = true
    · rw [List.filter_cons_of_pos (by exact hk)]
      simp only [Table.find, ih]
      by_cases hn : n = k
      · subst hn; simp [hk]
      · simp [hn]
    · rw [List.filter_cons_of_neg (by exact hk), ih]
      by_cases hn : n = k
      · subst hn; simp [hk]
      · simp [Table.find, hn]

/-- Memory that a fold of steps leaves canonical and unchanged at an address is so after the fold. -/
theorem foldl_keeps_byte {β : Type} (f : List Host.Cell → β → List Host.Cell) (l : List β) (a : Nat)
    (h : ∀ m, ∀ x ∈ l, Memory.wf m = true → Memory.wf (f m x) = true ∧ memByte (f m x) a = memByte m a) (m : List Host.Cell)
    (hw : Memory.wf m = true) : Memory.wf (l.foldl f m) = true ∧ memByte (l.foldl f m) a = memByte m a := by
  induction l generalizing m with
  | nil => exact ⟨hw, rfl⟩
  | cons x l ih =>
    obtain ⟨h1, h2⟩ := h m x (List.mem_cons_self ..) hw
    obtain ⟨h3, h4⟩ := ih (fun m y hy => h m y (List.mem_cons_of_mem _ hy)) (f m x) h1
    exact ⟨h3, h4.trans h2⟩

theorem putCells_wf (l m : List Host.Cell) (hw : Memory.wf m = true) : Memory.wf (putCells m l) = true := by
  unfold putCells
  induction l generalizing m with
  | nil => exact hw
  | cons c l ih => exact ih _ (memPut_wf m c.1 c.2 hw)

/-- Cells put into memory change no other byte. -/
theorem putCells_other (l m : List Host.Cell) (a : Nat) (hw : Memory.wf m = true) (h : ∀ q ∈ l, q.1 ≠ a) : memByte (putCells m l) a = memByte m a :=
  (foldl_keeps_byte _ l a (fun m q hq hm => ⟨memPut_wf m _ _ hm, by rw [memByte_memPut m _ a _ hm, if_neg fun e => h q hq e.symm]⟩) m hw).2

/-- The leaves of a context's parts change no byte outside their entries. -/
theorem putLeaves_other (im : Image) (t : Nat) (m : List Host.Cell) (p : PartMap → Nat → Bool) (a : Nat) (hw : Memory.wf m = true)
    (h : ∀ q ∈ im.parts, a < partUp im t q.entry ∨ partUp im t q.entry + 8 ≤ a) : memByte (putLeaves im t m p) a = memByte m a := by
  refine (foldl_keeps_byte _ im.parts a (fun m q hq hm => ?_) m hw).2
  simp only
  split
  · refine ⟨memPutBytes_wf _ _ _ hm, ?_⟩
    rw [memByte_memPutBytes _ _ _ _ hm, dif_neg]
    rw [toBytes_length]
    have := h q hq
    omega
  · exact ⟨hm, rfl⟩

theorem memNat_eq (m : List Host.Cell) (a n : Nat) : memNat m a n = natOfBytes (memBytes m a n) := by
  induction n generalizing a with
  | zero => rfl
  | succ n ih => simp [memNat, memBytes, natOfBytes, ih]

theorem natOfBytes_toBytes (n v : Nat) : natOfBytes (toBytes n v) = v % 256 ^ n := by
  induction n generalizing v with
  | zero => simp [toBytes, natOfBytes, Nat.mod_one]
  | succ n ih => rw [toBytes, natOfBytes, ih, BitVec.toNat_ofNat, pow_succ' 256 n, Nat.mod_mul]

/-- A number written at a place and read back. -/
theorem memNat_memPutBytes (m : List Host.Cell) (a n v : Nat) (hw : Memory.wf m = true) : memNat (memPutBytes m a (toBytes n v)) a n = v % 256 ^ n := by
  have h := memBytes_memPutBytes (toBytes n v) m a hw
  rw [toBytes_length] at h
  rw [memNat_eq, h, natOfBytes_toBytes]

/-- The entry of a table that is filled under distinct numbers. -/
theorem find_foldl_put {α β : Type} (l : List α) (k : α → Nat) (v : α → β) (t : Table β) (hn : (l.map k).Nodup) (q : α) (hq : q ∈ l) :
    Table.find (l.foldl (fun acc e => acc.put (k e) (v e)) t) (k q) = some (v q) := by
  have keep : ∀ (l : List α) (t : Table β), k q ∉ l.map k → Table.find (l.foldl (fun acc e => acc.put (k e) (v e)) t) (k q) = Table.find t (k q) := by
    intro l
    induction l with
    | nil => intros; rfl
    | cons e l ih =>
      intro t h
      rw [List.map_cons, List.mem_cons, not_or] at h
      rw [List.foldl_cons, ih _ h.2, Table.find_put_ne _ _ h.1]
  induction l generalizing t with
  | nil => exact absurd hq (by simp)
  | cons e l ih =>
    rw [List.map_cons, List.nodup_cons] at hn
    rcases List.mem_cons.mp hq with rfl | hq
    · rw [List.foldl_cons, keep _ _ hn.1, Table.find_put_self]
    · exact ih _ hn.2 hq

/-! ## A load (R82, R123, R450, R451) -/

theorem execContextLoadComplete_not (T : BitVec 1) (fd : LoadFinding) (s : State) (h : (s.slotSet T.toNat).st ≠ .loading ∨ s.firmware ≠ .running) :
    execContextLoadComplete T fd s = .next s := by
  unfold execContextLoadComplete
  exact congrArg _ (if_pos h)

/-- A load that ends with a status leaves the set Empty, its partner as it was, and the command answered. -/
theorem State.refuseLoad_ends (s : State) (t status : Nat) (ht : t < 2) (c : Command) (h : s.port.cmd = some c) (hc : c.code = 1 ∨ c.code = 2)
    (hs : c.set = t) :
    (s.refuseLoad t status).slotSet t = { SlotSet.fresh with lastAt := (s.slotSet t).lastAt } ∧
    s.refuseLoad t status = { s with set0 := (s.refuseLoad t status).set0, set1 := (s.refuseLoad t status).set1, port := (s.refuseLoad t status).port } ∧
    (s.refuseLoad t status).slotSet (1 - t) = s.slotSet (1 - t) ∧
    (s.refuseLoad t status).port =
      { s.port with waiting := (s.refuseLoad t status).port.waiting, busy := false, done := true, status := status, result := [], cmd := none } := by
  rw [s.refuseLoad_eq t status c h hc hs]
  refine ⟨State.slotSet_putSet _ _ _, ?_, (State.slotSet_putSet_partner _ _ _ ht).trans (State.slotSet_setCtx_partner _ _ _ ht), ?_⟩ <;>
  by_cases h0 : t = 0 <;> simp only [State.finishCmd, State.setCtx, State.putSet, h0, if_true, if_false] <;> rfl

/-- Asking for the ATS translation of a conductor's word changes translation alone. -/
theorem State.wordAts_tr (s : State) (t : Nat) (im : Image) : (s.wordAts t im).1 = { s with tr := (s.wordAts t im).1.tr } := by
  unfold State.wordAts
  split
  · split <;> rfl
  · rfl

theorem State.standBy_partner (s : State) (t : Nat) (ht : t < 2) (hp : (s.slotSet (1 - t)).st = .active) : s.standBy t = s.setCtx t .standby := by
  unfold State.standBy
  simp only [s.slotSet_setCtx_partner t .standby ht, hp, if_true]

/-- An image without ARGS of its LOAD command is loaded as it is. -/
theorem withArgs_none (c : Command) (im : Image) (h : memNat c.args 24 1 = 0) : withArgs (some c) im = im := by simp [withArgs, h]

/-- An image that passes its checks is installed. -/
theorem execContextLoadComplete_image (T : BitVec 1) (s : State) (im : Image) (c : Command) (hl : (s.slotSet T.toNat).st = .loading)
    (hf : s.firmware = .running) (hi : (s.slotSet T.toNat).img = none) (hn : im.num = (s.slotSet T.toNat).loadNum) (hc : s.port.cmd = some c)
    (ha : memNat c.args 24 1 = 0) (hs : s.freshStatus T.toNat im = 0) (hw : (s.wordAts T.toNat im).2 = .ok ()) :
    execContextLoadComplete T (.image im) s = .next ((s.wordAts T.toNat im).1.installImage T.toNat im) := by
  rcases hx : s.wordAts T.toNat im with ⟨s1, o⟩
  rw [hx] at hw
  cases hw
  simp [execContextLoadComplete, hl, hf, hi, hn, hc, withArgs_none c im ha, hs, hx]

/-- The cells without anything of a slot set. -/
def State.clearCells (s : State) (t : Nat) : State := { s with cells := s.cells.map fun (e : Nat × CellState) => (e.1, e.2.without t) }

/-- The state with an image in a slot set, before its context stands by. -/
def State.imaged (s : State) (t : Nat) (im : Image) (w : Option Nat) : State :=
  (((s.clearTickets t).putSet t (freshSet im (s.slotSet t) w)).withImage t im).clearCells t

theorem State.installImage_eq (s : State) (t : Nat) (im : Image) :
    ∃ w, s.installImage t im = ((s.imaged t im w).standBy t).endCmd 1 t 0 (leCells 0 2 im.num) := ⟨_, rfl⟩

theorem State.imaged_set (s : State) (t : Nat) (im : Image) (w : Option Nat) : (s.imaged t im w).slotSet t = freshSet im (s.slotSet t) w :=
  (s.clearTickets t).slotSet_putSet t _

theorem State.imaged_partner (s : State) (t : Nat) (im : Image) (w : Option Nat) (ht : t < 2) : (s.imaged t im w).slotSet (1 - t) = s.slotSet (1 - t) :=
  (s.clearTickets t).slotSet_putSet_partner t _ ht

/-- An image changes the parts of the stores that are its set's, the dispensers and the cells; ports, groups and host memory stay. -/
theorem State.imaged_keeps (s : State) (t : Nat) (im : Image) (w : Option Nat) :
    (s.imaged t im w).port = s.port ∧ (s.imaged t im w).groups = s.groups ∧ (s.imaged t im w).hostMem = s.hostMem ∧
    (s.imaged t im w).mem = putLeaves im t (putCells (s.mem.filter fun c => !inPart im t c.1) im.cells) fun _ _ => true :=
  let F := freshSet im (s.slotSet t) w
  ⟨(s.clearTickets t).putSet_port t F, (s.clearTickets t).putSet_groups t F, (s.clearTickets t).putSet_hostMem t F,
    congrArg (fun m : List Host.Cell => putLeaves im t (putCells (m.filter fun c => !inPart im t c.1) im.cells) fun _ _ => true) ((s.clearTickets t).putSet_mem t F)⟩

/-- A context that stands by next to an Active one, its command ended. -/
theorem State.standBy_ends (u : State) (t status : Nat) (r : List Host.Cell) (ht : t < 2) (hp : (u.slotSet (1 - t)).st = .active) (c : Command)
    (hc : u.port.cmd = some c) (hcode : c.code = 1) (hset : c.set = t) :
    ∃ v, (u.standBy t).endCmd 1 t status r = v ∧ v.slotSet t = { u.slotSet t with st := .standby } ∧ v.slotSet (1 - t) = u.slotSet (1 - t) ∧
      v.groups = u.groups ∧ v.hostMem = u.hostMem ∧ v.mem = u.mem ∧
      v.port = { u.port with waiting := v.port.waiting, busy := false, done := true, status := status, result := r, cmd := none } := by
  refine ⟨_, rfl, ?_⟩
  rw [u.standBy_partner t ht hp, State.endCmd_hit _ 1 t status r c ((u.setCtx_cmd t _).trans hc) hcode hset]
  refine ⟨u.slotSet_setCtx t _, u.slotSet_setCtx_partner t _ ht, ?_, ?_, ?_, ?_⟩ <;> (unfold State.finishCmd; rw [State.setCtx_only])

/-- Memory with an image in its parts is zero there but for the image's cells and leaves, and as before elsewhere. -/
theorem memByte_image (m : List Host.Cell) (im : Image) (t a : Nat) (hw : Memory.wf m = true) (hc : ∀ q ∈ im.cells, q.1 ≠ a)
    (hl : ∀ q ∈ im.parts, a < partUp im t q.entry ∨ partUp im t q.entry + 8 ≤ a) :
    memByte (putLeaves im t (putCells (m.filter fun c => !inPart im t c.1) im.cells) fun _ _ => true) a =
      if inPart im t a then 0 else memByte m a := by
  have hw1 := Memory.wf_filter m (fun c => !inPart im t c.1) hw
  rw [putLeaves_other im t _ _ a (putCells_wf _ _ hw1) hl, putCells_other _ _ a hw1 hc, memByte_filter m fun b => !inPart im t b]
  cases inPart im t a <;> rfl

/-- The leaf of the only part of an image. -/
theorem memNat_image (m : List Host.Cell) (im : Image) (t : Nat) (p : PartMap) (hw : Memory.wf m = true) (hp : im.parts = [p]) :
    memNat (putLeaves im t (putCells (m.filter fun c => !inPart im t c.1) im.cells) fun _ _ => true) (partUp im t p.entry) 8 =
      (partUp im t p.place ||| p.flags) % 2 ^ 64 := by
  rw [putLeaves, hp]
  exact memNat_memPutBytes _ _ 8 _ (putCells_wf _ _ (Memory.wf_filter m _ hw))

/-- The load of an image that passes its checks, next to an Active context. -/
theorem contextLoaded (T : BitVec 1) (s : State) (t0 : Nat) (h0 : t0 = T.toNat) (im : Image) (c : Command) (hl : (s.slotSet t0).st = .loading)
    (hf : s.firmware = .running) (hi : (s.slotSet t0).img = none) (hn : im.num = (s.slotSet t0).loadNum) (hc : s.port.cmd = some c) (hcode : c.code = 1)
    (hset : c.set = t0) (ha : memNat c.args 24 1 = 0) (hw : s.MemCanonical) (hs : s.freshStatus t0 im = 0) (ho : (s.wordAts t0 im).2 = .ok ())
    (hp : (s.slotSet (1 - t0)).st = .active) :
    ∃ t, exec (.contextLoadComplete T (.image im)) s = .next t ∧ (t.slotSet t0).st = .standby ∧ (t.slotSet t0).img = some im ∧ (t.slotSet t0).kernels = [] ∧
      t.groups = s.groups ∧ t.slotSet (1 - t0) = s.slotSet (1 - t0) ∧ t.hostMem = s.hostMem ∧
      (∀ p, im.parts = [p] → memNat t.mem (partUp im t0 p.entry) 8 = (partUp im t0 p.place ||| p.flags) % 2 ^ 64) ∧
      (∀ a, (∀ q ∈ im.cells, q.1 ≠ a) → (∀ p ∈ im.parts, a < partUp im t0 p.entry ∨ partUp im t0 p.entry + 8 ≤ a) → memByte t.mem a = if inPart im t0 a then 0 else memByte s.mem a) ∧
      t.port = { s.port with waiting := t.port.waiting, busy := false, done := true, status := 0, result := leCells 0 2 im.num, cmd := none } := by
  subst h0
  have ht : T.toNat < 2 := T.isLt
  obtain ⟨s1, hs1⟩ : ∃ s1, s1 = (s.wordAts T.toNat im).1 := ⟨_, rfl⟩
  have htr : s1 = { s with tr := s1.tr } := by rw [hs1]; exact s.wordAts_tr _ _
  have hx := execContextLoadComplete_image T s im c hl hf hi hn hc ha hs ho
  rw [← hs1] at hx
  obtain ⟨w, hw1⟩ := s1.installImage_eq T.toNat im
  obtain ⟨hport, hgroups, hhost, hmem⟩ := s1.imaged_keeps T.toNat im w
  have hpart : (s1.imaged T.toNat im w).slotSet (1 - T.toNat) = s.slotSet (1 - T.toNat) := (s1.imaged_partner T.toNat im w ht).trans (by rw [htr]; rfl)
  replace hport : (s1.imaged T.toNat im w).port = s.port := hport.trans (by rw [htr])
  obtain ⟨v, hv, v1, v2, v3, v4, v5, v6⟩ := (s1.imaged T.toNat im w).standBy_ends T.toNat 0 (leCells 0 2 im.num) ht
    (by rw [hpart]; exact hp) c (by rw [hport]; exact hc) hcode hset
  replace v5 := v5.trans hmem
  rw [s1.imaged_set] at v1
  refine ⟨v, (exec_contextLoadComplete T _ s).trans (hx.trans (congrArg _ (hw1.trans hv))), by rw [v1], by rw [v1]; rfl, by rw [v1]; rfl,
    v3.trans (hgroups.trans (by rw [htr])), v2.trans hpart, v4.trans (hhost.trans (by rw [htr])), fun p hp => ?_, fun a hcells hleaves => ?_, hport ▸ v6⟩
  · rw [v5, htr]; exact memNat_image s.mem im _ p hw.1 hp
  · rw [v5, htr]; exact memByte_image s.mem im _ a hw.1 hcells hleaves

/-! ## A saved context comes back (R82, R84, R228) -/

theorem execContextLoadComplete_saved (T : BitVec 1) (s : State) (im : Image) (c : SavedContext) (hl : (s.slotSet T.toNat).st = .loading)
    (hf : s.firmware = .running) (hi : (s.slotSet T.toNat).img = some im) (hc : s.saved.find? (fun c => c.num == im.num) = some c)
    (hs : s.imageStatus T.toNat im = 0) : execContextLoadComplete T .saved s = .next (s.restore T.toNat c im) := by
  simp [execContextLoadComplete, hl, hf, hi, hc, hs]

/-- A saved context put back next to an Active one. -/
theorem State.restore_stands (s : State) (t : Nat) (c : SavedContext) (im : Image) (ht : t < 2) (hp : (s.slotSet (1 - t)).st = .active)
    (hn : (c.groups.map fun q => regroup t q.1).Nodup) :
    ((s.restore t c im).slotSet t).st = .standby ∧ (s.restore t c im).saved = s.saved.filter (fun q => q.num != c.num) ∧
    (s.restore t c im).slotSet (1 - t) = s.slotSet (1 - t) ∧ (s.restore t c im).hostMem = s.hostMem ∧
    ∀ q ∈ c.groups, (s.restore t c im).groups.find (regroup t q.1) = some (q.2.move t (partUp im t) q.1) := by
  obtain ⟨u, F, hx, hup, husaved, huhost, hugroups⟩ : ∃ (u : State) (F : SlotSet), s.restore t c im = ((u.putSet t F).standBy t).endCmd 2 t 0 [] ∧
      u.slotSet (1 - t) = s.slotSet (1 - t) ∧ u.saved = s.saved.filter (fun q => q.num != c.num) ∧ u.hostMem = s.hostMem ∧
      u.groups = c.groups.foldl (fun (acc : Table Group) (e : Nat × Group) => acc.put (regroup t e.1) (e.2.move t (partUp im t) e.1)) s.groups := by
    refine ⟨_, _, rfl, ?_⟩
    exact ⟨rfl, rfl, rfl, rfl⟩
  have hp1 : (u.putSet t F).slotSet (1 - t) = s.slotSet (1 - t) := (u.slotSet_putSet_partner t F ht).trans hup
  rw [hx, State.endCmd_port, State.standBy_partner _ t ht (by rw [hp1]; exact hp)]
  refine ⟨?_, ?_, ?_, ?_, fun q hq => ?_⟩
  · exact congrArg SlotSet.st (State.slotSet_setCtx _ t .standby)
  · rw [State.setCtx_only]; exact (State.putSet_saved _ _ _).trans husaved
  · exact (State.slotSet_setCtx_partner _ t _ ht).trans hp1
  · rw [State.setCtx_only]; exact (State.putSet_hostMem _ _ _).trans huhost
  · have hg : ((u.putSet t F).setCtx t .standby).groups = u.groups := by
      rw [State.setCtx_only]; exact State.putSet_groups _ _ _
    refine (congrArg (fun l => Table.find l (regroup t q.1)) (hg.trans hugroups)).trans ?_
    exact find_foldl_put c.groups (fun e => regroup t e.1) (fun e => e.2.move t (partUp im t) e.1) s.groups hn q hq

end Sys2Proof.Machine
end

section
namespace Sys2Proof.Machine

/-! ## A save (R82, R84, R98) -/

theorem State.dropTranslations_only (s : State) (t : Nat) :
    s.dropTranslations t = { s with tr := (s.dropTranslations t).tr, port := (s.dropTranslations t).port } := by
  unfold State.dropTranslations
  cases (s.slotSet t).img <;> rfl

/-- What a context holds in the units is no slot set, group or byte of memory. -/
theorem State.dropHoldings_keeps (s : State) (t : Nat) :
    (∀ u, (s.dropHoldings t).slotSet u = s.slotSet u) ∧ (s.dropHoldings t).groups = s.groups ∧ (s.dropHoldings t).hostMem = s.hostMem ∧
    (s.dropHoldings t).mem = s.mem ∧ (s.dropHoldings t).saved = s.saved := by
  unfold State.dropHoldings
  rw [State.dropTranslations_only]
  exact ⟨fun _ => rfl, rfl, rfl, rfl, rfl⟩

/-- What a context that has left its set leaves behind. -/
theorem State.vacate_leaves (s : State) (t : Nat) (im : Image) (ht : t < 2) :
    (s.vacate t im).slotSet t = SlotSet.fresh ∧ (s.vacate t im).slotSet (1 - t) = s.slotSet (1 - t) ∧
    (s.vacate t im).groups = (s.groups.filter fun e => setOf e.1 ≠ t) ∧ (s.vacate t im).hostMem = s.hostMem ∧
    (s.vacate t im).mem = (s.mem.filter fun c => !inPart im t c.1) ∧ (s.vacate t im).saved = s.saved := by
  obtain ⟨hset, hgroups, hhost, hmem, hsaved⟩ := s.dropHoldings_keeps t
  refine ⟨State.slotSet_putSet _ _ _, (State.slotSet_putSet_partner _ _ _ ht).trans (hset _), ?_, ?_, ?_, ?_⟩
  · exact (State.putSet_groups _ _ _).trans (congrArg (fun l : Table Group => l.filter fun e => setOf e.1 ≠ t) hgroups)
  · exact (State.putSet_hostMem _ _ _).trans hhost
  · exact (State.putSet_mem _ _ _).trans (congrArg (fun l : List Host.Cell => l.filter fun c : Host.Cell => !inPart im t c.1) hmem)
  · exact (State.putSet_saved _ _ _).trans hsaved

/-- A save that finishes: the copy is kept, the set is left and the command, if one waits, ends. -/
theorem execContextSaveComplete_saves (T : BitVec 1) (s : State) (im : Image) (hi : (s.slotSet T.toNat).img = some im) (hf : s.firmware = .running)
    (hst : (s.slotSet T.toNat).st = .standby) (hm : (s.slotSet T.toNat).saveMark = true ∨ (s.slotSet T.toNat).saveCmd = true)
    (hs : s.savable T.toNat = true) :
    ∃ v, v = ((s.setCtx T.toNat .saved).vacate T.toNat im) ∧ execContextSaveComplete T s =
      .next (({ v with saved := v.saved.filter (fun (c : SavedContext) => c.num != im.num) ++ [s.savedCopy T.toNat im] }).endCmd 3 T.toNat 0 []) := by
  refine ⟨_, rfl, ?_⟩
  have hm' : ((s.slotSet T.toNat).saveMark || (s.slotSet T.toNat).saveCmd) = true := by simpa using hm
  simp only [execContextSaveComplete, hi]
  exact congrArg _ (if_pos ⟨hf, hst, hm', hs⟩)

theorem execContextSaveComplete_not (T : BitVec 1) (s : State) (h : (s.slotSet T.toNat).st ≠ .standby ∨ s.firmware ≠ .running) :
    execContextSaveComplete T s = .next s := by
  unfold execContextSaveComplete
  cases hi : (s.slotSet T.toNat).img with
  | none => simp only [hi]
  | some im =>
    simp only [hi]
    refine congrArg _ (if_neg fun ⟨hf, hst, _⟩ => ?_)
    rcases h with h | h
    · exact h hst
    · exact h hf

/-- The save of a marked context that stands by with nothing on its way. -/
theorem contextSaved (T : BitVec 1) (s : State) (t0 : Nat) (h0 : t0 = T.toNat) (im : Image) (hi : (s.slotSet t0).img = some im)
    (hf : s.firmware = .running) (hst : (s.slotSet t0).st = .standby) (hm : (s.slotSet t0).saveMark = true ∨ (s.slotSet t0).saveCmd = true)
    (hs : s.savable t0 = true) :
    ∃ t, exec (.contextSaveComplete T) s = .next t ∧ t.slotSet t0 = SlotSet.fresh ∧ t.slotSet (1 - t0) = s.slotSet (1 - t0) ∧
      (∀ h, t.groups.find h = if setOf h = t0 then none else s.groups.find h) ∧ t.hostMem = s.hostMem ∧
      (∀ a, memByte t.mem a = if inPart im t0 a then 0 else memByte s.mem a) ∧
      t.saved = s.saved.filter (fun q => q.num != im.num) ++ [s.savedCopy t0 im] := by
  subst h0
  have ht : T.toNat < 2 := T.isLt
  obtain ⟨v, hv, hx⟩ := execContextSaveComplete_saves T s im hi hf hst hm hs
  obtain ⟨hself, hpart, hgroups, hhost, hmem, hsaved⟩ := (s.setCtx T.toNat .saved).vacate_leaves T.toNat im ht
  rw [← hv] at hself hpart hgroups hhost hmem hsaved
  rw [s.setCtx_only] at hgroups hhost hmem hsaved
  refine ⟨_, (exec_contextSaveComplete T s).trans hx, ?_⟩
  rw [State.endCmd_port]
  refine ⟨hself, hpart.trans (s.slotSet_setCtx_partner _ _ ht), fun h => ?_, hhost, fun a => ?_, ?_⟩
  · refine (congrArg (fun l => Table.find l h) hgroups).trans ((Table.find_filter _ (fun h => decide (setOf h ≠ T.toNat)) h).trans ?_)
    by_cases hh : setOf h = T.toNat <;> simp [hh]
  · refine (congrArg (fun m => memByte m a) hmem).trans ((memByte_filter _ (fun b => !inPart im T.toNat b) a).trans ?_)
    cases inPart im T.toNat a <;> rfl
  · exact congrArg (fun l : List SavedContext => l.filter (fun q => q.num != im.num) ++ [s.savedCopy T.toNat im]) hsaved

/-- A slot whose state is lost faults its context. -/
theorem slotState_faults (e : BitVec 12) (s : State) (h : (s.slotSet (setOf e.toNat)).st ∈ [CtxState.active, .preempting, .standby]) :
    ∃ t, exec (.slotStateUncorr e) s = .next t ∧ s.FaultsSet t (setOf e.toNat) 0xF0 (cellOf e.toNat) (slotOf e.toNat) := by
  have hcell : cellOf e.toNat < 512 := by have := e.isLt; unfold cellOf; omega
  have hslot : slotOf e.toNat < 4 := by unfold slotOf; omega
  exact ⟨_, exec_slotStateUncorr e s, s.faultContext_faults _ _ _ _ (setOf_lt _) h (by decide) hcell hslot⟩

/-- A load that firmware refuses. -/
theorem contextLoad_refused (T : BitVec 1) (s : State) (hl : (s.slotSet T.toNat).st = .loading) (hf : s.firmware = .running) :
    ∀ p ∈ [(LoadFinding.badSignature, 4), (.belowRelease, 0xB)], exec (.contextLoadComplete T p.1) s = .next (s.refuseLoad T.toNat p.2) := by
  intro p hp
  have hx : ¬ ((s.slotSet T.toNat).st ≠ .loading ∨ s.firmware ≠ .running) := by simp [hl, hf]
  rw [exec_contextLoadComplete]
  rcases List.mem_cons.mp hp with rfl | hp
  · exact congrArg _ (if_neg hx)
  · rw [List.mem_singleton] at hp
    subst hp
    exact congrArg _ (if_neg hx)

/-- Settles O39: the drain of a cell group by group, the loads as the set that stands by, the save as the set that is left. -/
theorem contextEventResults : Obligations.ContextEventResults := by
  unfold Obligations.ContextEventResults
  intro T b e fd s t0 S h0 hS
  subst hS
  have ht : t0 < 2 := h0 ▸ T.isLt
  refine ⟨?_, slotState_faults e s, fun h => ?_, fun hl hf p hp c hc hcode hset => ?_, fun im c => contextLoaded T s t0 h0 im c,
    fun im c hl hf hi hc hs hp hn => ?_, fun im hi hf hst hm hs _ => contextSaved T s t0 h0 im hi hf hst hm hs, fun h => ?_⟩
  · exact cell_drains b s
  · exact (exec_contextLoadComplete T fd s).trans (execContextLoadComplete_not T fd s (h0 ▸ h))
  · obtain ⟨h1, h2, h3, h4⟩ := s.refuseLoad_ends t0 p.2 ht c hc hcode hset
    exact ⟨_, h0 ▸ contextLoad_refused T s (h0 ▸ hl) hf p hp, h1, h2, h3, h4⟩
  · subst h0
    exact ⟨_, (exec_contextLoadComplete T _ s).trans (execContextLoadComplete_saved T s im c hl hf hi hc hs), s.restore_stands _ c im ht hp hn⟩
  · exact (exec_contextSaveComplete T s).trans (execContextSaveComplete_not T s (h0 ▸ h))

end Sys2Proof.Machine
end

section
namespace Sys2Proof.Machine

theorem exec_messageArrival (ix : Nat) (m : Option RemoteMessage) (s : State) : exec (.messageArrival ix m) s = execMessageArrival ix m s := rfl
theorem exec_messageLandingComplete (e : BitVec 3) (t : BitVec 1) (ix : Nat) (lost : Bool) (s : State) :
    exec (.messageLandingComplete e t ix lost) s = execMessageLandingComplete e t ix lost s := rfl
theorem exec_retryTicketCall (e : BitVec 3) (t : BitVec 1) (s : State) : exec (.retryTicketCall e t) s = execRetryTicketCall e t s := rfl
theorem exec_spillDeadline (id : BitVec 32) (s : State) : exec (.spillDeadline id) s = execSpillDeadline id s := rfl

/-! ## Receive engines -/

theorem recvKey_div (e : BitVec 3) (T : BitVec 1) : recvKey e.toNat T.toNat / 2 = e.toNat := by
  have := T.isLt; unfold recvKey; omega

theorem recvKey_mod (e : BitVec 3) (T : BitVec 1) : recvKey e.toNat T.toNat % 2 = T.toNat := by
  have := T.isLt; unfold recvKey; omega

@[simp] theorem State.receiver_putReceiver (s : State) (k : Nat) (R : Receiver) : (s.putReceiver k R).receiver k = R := by
  simp [State.receiver, State.putReceiver]

@[simp] theorem State.putReceiver_putReceiver (s : State) (k : Nat) (R Q : Receiver) : (s.putReceiver k R).putReceiver k Q = s.putReceiver k Q := by
  simp [State.putReceiver]

/-! ## DRIPFULL -/

theorem Group.hold1_new (G : Group) (c : HeldCause) (h : ∀ q ∈ G.causes, q.code ≠ c.code) : G.hold1 c = { G with causes := G.causes ++ [c] } := by
  refine if_neg fun hx => ?_
  obtain ⟨q, hq, hc⟩ := List.any_eq_true.mp hx
  rw [Bool.and_eq_true, beq_iff_eq] at hc
  exact h q hq hc.1

/-- A conductor that is found has not ended. -/
theorem State.conductorOf_over (s : State) (t g : Nat) (h : s.conductorOf t = some g) : (s.group g).over = false := by
  have hg := List.find?_some h
  unfold State.group Table.findD
  cases hf : s.groups.find g with
  | none => simp [hf] at hg
  | some G =>
    simp only [hf, Bool.and_eq_true, decide_eq_true_eq] at hg
    simp [Group.over, hg]

theorem State.dripFull_none (s : State) (t sub : Nat) (addr : Word) (h : s.conductorOf t = none) : s.dripFull t sub addr = s := by
  simp [State.dripFull, h]

/-- DRIPFULL at a conductor that holds none yet. -/
theorem State.dripFull_some (s : State) (t sub : Nat) (addr : Word) (g : Nat) (h : s.conductorOf t = some g) (hc : ∀ c ∈ (s.group g).causes, c.code ≠ 0xE) :
    s.dripFull t sub addr = s.putGroup g { s.group g with
      causes := (s.group g).causes ++ [{ code := 0xE, sub := sub, addr := addr, elem := none, inst := 0 }] } := by
  simp only [State.dripFull, h, State.deliver, s.conductorOf_over t g h, Bool.false_eq_true, if_false]
  rw [Group.hold1_new _ _ hc]

/-! ## Messages on their way (R430) -/

theorem firstOfSource_iff (l : List FlyMsg) (ix : Nat) (f : FlyMsg) : firstOfSource l ix f = true ↔
    ∀ j q, j < ix → l[j]? = some q → ¬ (q.msg.src = f.msg.src ∧ q.die = f.die ∧ q.set = f.set) := by
  have hsame : ∀ q : FlyMsg, (q.msg.src == f.msg.src && q.die == f.die && q.set == f.set) = true ↔
      q.msg.src = f.msg.src ∧ q.die = f.die ∧ q.set = f.set := fun q => by simp [and_assoc]
  unfold firstOfSource
  rw [Bool.not_eq_true', List.any_eq_false]
  constructor
  · intro h j q hj hq hs
    refine h q ?_ ((hsame q).mpr hs)
    obtain ⟨hlt, rfl⟩ := List.getElem?_eq_some_iff.mp hq
    exact List.mem_take_iff_getElem.mpr ⟨j, by omega, rfl⟩
  · intro h q hq hs
    obtain ⟨j, hj, rfl⟩ := List.mem_take_iff_getElem.mp hq
    exact h j _ (by omega) (List.getElem?_eq_getElem (by omega)) ((hsame _).mp hs)

section Arrive

variable (s : State) (ix : Nat) (f : FlyMsg) (hf : s.flying[ix]? = some f)

theorem State.arriveMessage_none (hn : s.flying[ix]? = none) : s.arriveMessage ix = s := by simp [State.arriveMessage, hn]

include hf

/-- A message that has lost its way without a sender on the module. -/
theorem State.arriveMessage_lost (hl : s.messageLost f.msg f.die = true) (hs : f.msg.sender = none) :
    s.arriveMessage ix = { s with flying := s.flying.eraseIdx ix } := by
  simp [State.arriveMessage, hf, hl, hs]

theorem State.arriveMessage_linkFail (g : Nat) (hl : s.messageLost f.msg f.die = true) (hs : f.msg.sender = some g) :
    s.arriveMessage ix = ({ s with flying := s.flying.eraseIdx ix } : State).deliver g 0xF 2 f.msg.addr := by
  simp [State.arriveMessage, hf, hl, hs]

theorem State.arriveMessage_stays (hl : s.messageLost f.msg f.die = false) (h : s.messageHeld f.msg f.die = true ∨ firstOfSource s.flying ix f = false) :
    s.arriveMessage ix = s := by
  simp only [State.arriveMessage, hf, hl, Bool.false_eq_true, if_false]
  split
  · rfl
  · rename_i hh
    rcases h with h | h
    · exact absurd h hh
    · simp [h]

/-- The message that no earlier one precedes enters its engine and is on its way no longer. -/
theorem State.arriveMessage_enters (hl : s.messageLost f.msg f.die = false) (hh : s.messageHeld f.msg f.die = false)
    (ho : firstOfSource s.flying ix f = true) (v : State) (hv : s.enter (recvKey f.die f.set) f.msg = (v, true)) :
    s.arriveMessage ix = { v with flying := v.flying.eraseIdx ix } := by
  simp [State.arriveMessage, hf, hl, hh, ho, hv]

end Arrive

/-! ## The engine and its tray (R428, R434, R435) -/

/-- A message that a receive takes while the engine stands as `Q`. -/
theorem State.takeMessage_put (s : State) (k : Nat) (r : Recv) (m : Msg) (Q : Receiver) : (s.putReceiver k Q).takeMessage k r m =
    (match r.group with | some g => s.putGroup g ((s.group g).recvIs r.slot .landing) | none => s).putReceiver k { Q with landing := Q.landing ++ [(r, m)] } := by
  unfold State.takeMessage
  cases r.group with
  | none => simp
  | some g =>
    have hg : (s.putReceiver k Q).putGroup g (((s.putReceiver k Q).group g).recvIs r.slot .landing) =
        (s.putGroup g ((s.group g).recvIs r.slot .landing)).putReceiver k Q := rfl
    simp [hg]

section Tray

variable (s : State) (k : Nat) (m : Msg) (im : Image) (hi : (s.slotSet (k % 2)).img = some im)
include hi

theorem State.storeMessage_share (hp : (s.receiver k).paused = false) (hq : (s.receiver k).shareUsed + m.size ≤ im.dquotaOn (k / 2)) :
    s.storeMessage k m = .stored (s.putReceiver k { s.receiver k with tray := (s.receiver k).tray ++ [m] }) := by
  simp [State.storeMessage, hi, hp, hq]

theorem State.storeMessage_full
    (h : (s.receiver k).paused = true ∨ im.dquotaOn (k / 2) < (s.receiver k).shareUsed + m.size ∧ im.spillOn (k / 2) = 0) :
    s.storeMessage k m = .full s := by
  rcases h with h | ⟨h1, h2⟩
  · simp [State.storeMessage, hi, h]
  · simp [State.storeMessage, hi, h2, Nat.not_le.mpr h1]

end Tray

section Enter

variable (s : State) (k : Nat) (m : Msg) (R : Receiver) (hR : R = s.receiver k)

theorem State.enter_drops (ha : s.acceptsCtx (k % 2) m.ctx = false) : s.enter k m = (s, true) := by simp [State.enter, ha]

include hR

theorem State.enter_behind (ha : s.acceptsCtx (k % 2) m.ctx = true) (hb : ∃ q ∈ R.refused, q.src = m.src) :
    s.enter k m = (s.putReceiver k { R with refused := R.refused ++ [m] }, true) := by
  subst hR
  simp [State.enter, ha, hb]

variable (ha : s.acceptsCtx (k % 2) m.ctx = true) (hb : ∀ q ∈ R.refused, q.src ≠ m.src)
include ha hb

theorem State.enter_takes (r : Recv) (hr : (R.posts.find? fun p => p.takes m) = some r) :
    s.enter k m = ((s.putReceiver k { R with posts := R.posts.erase r }).takeMessage k r m, true) := by
  subst hR
  have hb' : ((s.receiver k).refused.any fun q => q.src == m.src) = false := by simpa using hb
  simp only [State.enter, ha, hb', hr]
  rfl

theorem State.enter_unmatched (hr : ∀ r ∈ R.posts, r.takes m = false) (im : Image) (hi : (s.slotSet (k % 2)).img = some im) :
    (R.paused = false → R.shareUsed + m.size ≤ im.dquotaOn (k / 2) →
      s.enter k m = (s.putReceiver k { R with tray := R.tray ++ [m], refusing := false }, true)) ∧
    (R.paused = true ∨ im.dquotaOn (k / 2) < R.shareUsed + m.size ∧ im.spillOn (k / 2) = 0 → s.enter k m = (s.refuse k m, true)) := by
  subst hR
  have hb' : ((s.receiver k).refused.any fun q => q.src == m.src) = false := by simpa using hb
  have hr' : ((s.receiver k).posts.find? fun p => p.takes m) = none := by simpa using hr
  constructor
  · intro hp hq
    simp [State.enter, ha, hb', hr', s.storeMessage_share k m im hi hp hq]
  · intro h
    simp [State.enter, ha, hb', hr', s.storeMessage_full k m im hi h]

end Enter

section Refuse

variable (s : State) (k : Nat) (m : Msg) (R : Receiver) (hR : R = s.receiver k) (w : State)
  (hw : w = s.putReceiver k { R with refused := R.refused ++ [m], refusals := R.refusals + 1, refusing := true })
include hR hw

theorem State.refuse_eq : s.refuse k m = if R.refusing then w else w.dripFull (k % 2) 1 (BitVec.ofNat 64 (8 * ownModule + k / 2)) := by
  subst hw hR; rfl

/-- A refusal that nobody is told of: the engine refused before, or the context has no conductor. -/
theorem State.refuse_quiet (h : R.refusing = true ∨ s.conductorOf (k % 2) = none) : s.refuse k m = w := by
  rw [s.refuse_eq k m R hR w hw]
  rcases h with h | h
  · rw [if_pos h]
  · rw [State.dripFull_none w _ _ _ (by rw [hw]; exact h), ite_self]

/-- The first refusal raises DRIPFULL at the conductor. -/
theorem State.refuse_drips (g : Nat) (hn : R.refusing = false) (hg : s.conductorOf (k % 2) = some g) (hc : ∀ c ∈ (s.group g).causes, c.code ≠ 0xE) :
    s.refuse k m = w.putGroup g { s.group g with
      causes := (s.group g).causes ++ [{ code := 0xE, sub := 1, addr := BitVec.ofNat 64 (8 * ownModule + k / 2), elem := none, inst := 0 }] } := by
  rw [s.refuse_eq k m R hR w hw, if_neg (by simp [hn]), hw]
  exact State.dripFull_some _ _ _ _ g hg hc

end Refuse

/-- A refused message that the tray takes at last, or not. -/
theorem execRetryTicketCall_unmatched (e : BitVec 3) (T : BitVec 1) (s : State) (k : Nat) (R : Receiver) (hk : k = recvKey e.toNat T.toNat)
    (hR : R = s.receiver k) (m : Msg) (rest : List Msg) (hm : R.refused = m :: rest) (ha : s.acceptsCtx T.toNat m.ctx = true)
    (hh : s.messageHeld m e.toNat = false) (im : Image) (hr : ∀ r ∈ R.posts, r.takes m = false) (hi : (s.slotSet T.toNat).img = some im) :
    (R.paused = false → R.shareUsed + m.size ≤ im.dquotaOn e.toNat → execRetryTicketCall e T s =
      .next (s.putReceiver k { R with refused := rest, tray := R.tray ++ [m], refusing := !rest.isEmpty })) ∧
    (R.paused = true ∨ im.dquotaOn e.toNat < R.shareUsed + m.size ∧ im.spillOn e.toNat = 0 → execRetryTicketCall e T s = .next s) := by
  have hdie : k / 2 = e.toNat := hk ▸ recvKey_div e T
  have hset : k % 2 = T.toNat := hk ▸ recvKey_mod e T
  have hr' : (R.posts.find? fun p => p.takes m) = none := by simpa using hr
  obtain ⟨u, hu⟩ : ∃ u, u = s.putReceiver k { R with refused := rest } := ⟨_, rfl⟩
  have hQ : u.receiver k = { R with refused := rest } := by rw [hu, State.receiver_putReceiver]
  have hi' : (u.slotSet (k % 2)).img = some im := by rw [hu, hset]; exact hi
  have hx : ∀ o, u.storeMessage k m = o → execRetryTicketCall e T s = .next (match o with
      | .stored s2 => s2.putReceiver k { s2.receiver k with refusing := !rest.isEmpty }
      | .full _ => s
      | .broken s2 addr =>
        (s2.putReceiver k { s2.receiver k with refused := m :: (s2.receiver k).refused, paused := true }).dripFull T.toNat 2 addr
      | .later s2 => s2.putReceiver k { s2.receiver k with refused := R.refused }) := by
    rintro o rfl
    subst hk hR hu
    simp only [execRetryTicketCall, hm, ha, hh, hr']
    rfl
  constructor
  · intro hp hq
    rw [hx _ (u.storeMessage_share k m im hi' (by rw [hQ]; exact hp) (by rw [hQ, hdie]; exact hq)), hu]
    simp
  · intro h
    rw [hx _ (u.storeMessage_full k m im hi' (by rw [hQ, hdie]; exact h))]

theorem execRetryTicketCall_takes (e : BitVec 3) (T : BitVec 1) (s : State) (k : Nat) (R : Receiver) (hk : k = recvKey e.toNat T.toNat)
    (hR : R = s.receiver k) (m : Msg) (rest : List Msg) (hm : R.refused = m :: rest) (ha : s.acceptsCtx T.toNat m.ctx = true)
    (hh : s.messageHeld m e.toNat = false) (r : Recv) (hr : (R.posts.find? fun p => p.takes m) = some r) :
    execRetryTicketCall e T s = .next ((s.putReceiver k { R with refused := rest, posts := R.posts.erase r }).takeMessage k r m) := by
  subst hk hR
  simp [execRetryTicketCall, hm, ha, hh, hr]

/-- The host has not answered for a message of the tray: spilling pauses and the message stays unasked. -/
theorem State.spillAnswer_refused (s : State) (id : Nat) (e : BitVec 3) (T : BitVec 1) (k : Nat) (R : Receiver) (hk : k = recvKey e.toNat T.toNat)
    (hR : R = s.receiver k) (w : Msg × Nat) (hq : s.port.requests.find id = some (.spill e.toNat T.toNat))
    (hw : R.waitingHost.find? (fun q => q.2 == id) = some w) :
    s.spillAnswer id true = ((({ s with port := { s.port with requests := s.port.requests.drop id } } : State).putReceiver k { R with
      paused := true, waitingHost := R.waitingHost.map fun (q : Msg × Nat) => if q.2 = id then (q.1, 0) else q }).dripFull T.toNat 2 0, true) := by
  subst hk hR
  simp [State.spillAnswer, hq, hw]

end Sys2Proof.Machine
end

section
namespace Sys2Proof.Machine

/-! ## A landing (R431, R432) -/

/-- Finding where an engine writes changes translation alone. -/
theorem State.landingAt_tr (s : State) (die t : Nat) (va : Word) : (s.landingAt die t va).1 = { s with tr := (s.landingAt die t va).1.tr } := by
  unfold State.landingAt
  split
  · rfl
  · simp only
    split
    · rfl
    · rfl
    · rfl
    · split <;> rfl

theorem State.landingRuns_tr (s : State) (die t : Nat) (r : Recv) (n e left : Nat) (acc : List (Nat × Nat)) :
    (s.landingRuns die t r n e left acc).1 = { s with tr := (s.landingRuns die t r n e left acc).1.tr } := by
  induction n generalizing s e left acc with
  | zero => rfl
  | succ n ih =>
    obtain ⟨x, h⟩ : ∃ x, (s.landingAt die t (r.pattern.elemAddr e)).1 = { s with tr := x } := ⟨_, s.landingAt_tr die t _⟩
    unfold State.landingRuns
    simp only
    generalize s.landingAt die t (r.pattern.elemAddr e) = q at h ⊢
    obtain ⟨s1, o⟩ := q
    obtain rfl : s1 = { s with tr := x } := h
    rcases o with (_ | sub) | pa
    · rfl
    · rfl
    · exact ih _ _ _ _

/-- A write keeps device and host memory canonical. -/
theorem State.writeAs_canonical (s : State) (by_ : Option Nat) (tag : Option Tag) (poison : Option Bool) (pa : Nat) (data : List Byte)
    (hm : s.MemCanonical) : (s.writeAs by_ tag poison pa data).MemCanonical := by
  unfold State.writeAs
  split
  · exact hm
  · split
    · exact ⟨hm.1, memPutBytes_wf _ _ _ hm.2⟩
    · simp only
      rw [State.retile_bdir]
      exact ⟨memPutBytes_wf _ _ _ hm.1, hm.2⟩

/-- A write on the line of a waiting group is told to it whatever its receive handles show. -/
theorem touchGroup_recvIs (by_ : Option Nat) (lo n g : Nat) (G : Group) (slot : Nat) (st : RecvState) :
    touchGroup by_ lo n g (G.recvIs slot st) = (touchGroup by_ lo n g G).recvIs slot st := by
  have hphase : (G.recvIs slot st).phase = G.phase := rfl
  unfold touchGroup
  rw [hphase]
  cases hp : G.phase with
  | waiting w =>
    cases w with
    | event line touched =>
      cases touched with
      | false => simp only; split <;> rfl
      | true => rfl
    | _ => rfl
  | _ => rfl

/-- The record of a receive written and its handle told. -/
theorem State.completeRecv_tells (s u : State) (die t : Nat) (r : Recv) (first flag : Word) (fa g : Nat) (h : s.landingAt die t r.flaga = (u, .ok fa))
    (hg : r.group = some g) (w : State) (hw : w = u.write none fa (toBytes 8 first.toNat ++ toBytes 8 flag.toNat)) :
    s.completeRecv die t r first flag = (w.putGroup g ((w.group g).recvIs r.slot (.complete flag)), true) := by
  subst hw
  simp [State.completeRecv, h, hg]

/-- A store followed by news for a receive handle and its engine is a store after that news. -/
theorem State.StoresAt.tells {s u : State} {pa : Nat} {data : List Byte} (h : s.StoresAt u none pa data) (g slot : Nat) (st : RecvState)
    (rs : Table Receiver) (n : Nat) :
    (({ s with receivers := rs, fresh := n } : State).putGroup g ((s.group g).recvIs slot st)).StoresAt
      { u.putGroup g ((u.group g).recvIs slot st) with receivers := rs, fresh := n } none pa data := by
  obtain ⟨honly, hread, hmem, hhost, hgroup⟩ := h
  refine ⟨by rw [honly]; rfl, hread, hmem, hhost, fun k => ?_⟩
  by_cases hk : k = g
  · subst hk
    have h1 : State.group { u.putGroup k ((u.group k).recvIs slot st) with receivers := rs, fresh := n } k = (u.group k).recvIs slot st :=
      State.group_putGroup _ _ _
    rw [h1, State.group_putGroup, touchGroup_recvIs, hgroup]
  · exact (State.group_putGroup_ne _ _ hk).trans ((hgroup k).trans (congrArg _ (State.group_putGroup_ne _ _ hk).symm))

/-- A landing on good places of a message that the engine keeps, with its link there. -/
theorem State.land_done (s : State) (k : Nat) (r : Recv) (m : Msg) (n pa : Nat) (s1 s2 s4 : State) (flag : Word) (hm : m.spilled = false)
    (hn : n = min m.payload.length r.count) (hr : s.landingRuns (k / 2) (k % 2) r ((n + r.esz - 1) / r.esz) 0 n [] = (s1, some ([(pa, n)], none)))
    (h2 : s2 = s1.write none pa (m.payload.take n)) (hf : flag = flagWord (if m.payload.length > r.count then 1 else 0) m.payload.length n)
    (h4 : s2.completeRecv (k / 2) (k % 2) r m.firstWord flag = (s4, true)) :
    s.land k r m false =
      { s4.putReceiver k { s4.receiver k with landing := (s4.receiver k).landing.erase (r, m) } with fresh := s4.fresh + 1 } := by
  have hlen : (m.payload.take n).length = n := by rw [List.length_take, hn]; omega
  have hp : ∀ j, s.payloadOf k m j = (s, some (m.payload.take j, none)) := fun j => by simp [State.payloadOf, hm]
  have hw : s1.writeRuns none none none [(pa, n)] (m.payload.take n) = s2 := by rw [h2, State.writeRuns_one _ _ _ _ _ _ _ hlen]; rfl
  have hww : (m.payload.take n).take n = m.payload.take n := by simp
  subst hf
  simp only [State.land, Bool.false_and, Bool.false_eq_true, if_false, hp, ← hn, hlen, hr, List.map_cons, List.map_nil, List.sum_singleton, hww, hw,
    Option.or_none, Option.isSome_none, h4]

theorem Msg.firstWord_toNat (m : Msg) : m.firstWord.toNat = m.src.toNat + m.tag.toNat * 2 ^ 32 := by
  have h1 := m.src.isLt
  have h2 := m.tag.isLt
  rw [Msg.firstWord, BitVec.toNat_ofNat]
  exact Nat.mod_eq_of_lt (by omega)

theorem execMessageLandingComplete_eq (e : BitVec 3) (T : BitVec 1) (ix : Nat) (lost : Bool) (s : State) (k : Nat) (hk : k = recvKey e.toNat T.toNat) :
    (∀ r m, (s.receiver k).landing[ix]? = some (r, m) → execMessageLandingComplete e T ix lost s = .next (s.land k r m lost)) ∧
    ((s.receiver k).landing[ix]? = none → execMessageLandingComplete e T ix lost s = .next s) := by
  subst hk
  exact ⟨fun r m h => by simp [execMessageLandingComplete, h], fun h => by simp [execMessageLandingComplete, h]⟩

/-- A landing on one run of good places: the bytes, then the record, then the handle. -/
theorem messageLanded (e : BitVec 3) (T : BitVec 1) (s : State) (k : Nat) (R : Receiver) (hk : k = recvKey e.toNat T.toNat) (hR : R = s.receiver k)
    (ix n pa fa g : Nat) (r : Recv) (m : Msg) (s1 s2 s3 : State) (flag : Word) (hix : R.landing[ix]? = some (r, m)) (hm : m.spilled = false)
    (hn : n = min m.payload.length r.count)
    (hruns : s.landingRuns e.toNat T.toNat r ((n + r.esz - 1) / r.esz) 0 n [] = (s1, some ([(pa, n)], none))) (h0 : 0 < n) (hw : s.MemCanonical)
    (h2 : s2 = s1.write none pa (m.payload.take n)) (h3 : s2.landingAt e.toNat T.toNat r.flaga = (s3, .ok fa)) (hg : r.group = some g)
    (hf : flag = flagWord (if m.payload.length > r.count then 1 else 0) m.payload.length n) :
    ({ s with tr := s1.tr } : State).StoresAt s2 none pa (m.payload.take n) ∧
    ∃ t, exec (.messageLandingComplete e T ix false) s = .next t ∧
      (({ s2 with tr := s3.tr, receivers := s.receivers.put k { R with landing := R.landing.erase (r, m) }, fresh := s.fresh + 1 } : State).putGroup g
        ((s2.group g).recvIs r.slot (.complete flag))).StoresAt t none fa (toBytes 8 (m.src.toNat + m.tag.toNat * 2 ^ 32) ++ toBytes 8 flag.toNat) := by
  obtain ⟨x, rfl⟩ : ∃ x, s1 = { s with tr := x } := ⟨_, by
    have h := s.landingRuns_tr e.toNat T.toNat r ((n + r.esz - 1) / r.esz) 0 n []
    rwa [hruns] at h⟩
  obtain ⟨y, rfl⟩ : ∃ y, s3 = { s2 with tr := y } := ⟨_, by
    have h := s2.landingAt_tr e.toNat T.toNat r.flaga
    rwa [h3] at h⟩
  have hdata : m.payload.take n ≠ [] := List.ne_nil_of_length_pos (by rw [List.length_take]; omega)
  have hst : ({ s with tr := x } : State).StoresAt s2 none pa (m.payload.take n) := h2 ▸ State.writeAs_stores _ _ _ _ _ _ hw hdata
  have hcan : s2.MemCanonical := h2 ▸ State.writeAs_canonical _ _ _ _ _ _ hw
  have hrs : s2.receivers = s.receivers := by rw [hst.1]
  have hfresh : s2.fresh = s.fresh := by rw [hst.1]
  obtain ⟨w, hwr⟩ : ∃ w, w = ({ s2 with tr := y } : State).write none fa (toBytes 8 m.firstWord.toNat ++ toBytes 8 flag.toNat) := ⟨_, rfl⟩
  have hrec : ({ s2 with tr := y } : State).StoresAt w none fa (toBytes 8 m.firstWord.toNat ++ toBytes 8 flag.toNat) :=
    hwr ▸ State.writeAs_stores _ _ _ _ _ _ hcan (by simp [toBytes])
  have hwrs : w.receivers = s.receivers := by rw [hrec.1]; exact hrs
  have hwfresh : w.fresh = s.fresh := by rw [hrec.1]; exact hfresh
  have hdie : k / 2 = e.toNat := hk ▸ recvKey_div e T
  have hset : k % 2 = T.toNat := hk ▸ recvKey_mod e T
  refine ⟨hst, _, (exec_messageLandingComplete e T ix false s).trans ((execMessageLandingComplete_eq e T ix false s k hk).1 r m (hR ▸ hix)), ?_⟩
  rw [s.land_done k r m n pa _ s2 (w.putGroup g ((w.group g).recvIs r.slot (.complete flag))) flag hm hn (by rw [hdie, hset]; exact hruns) h2 hf
    (State.completeRecv_tells _ _ _ _ _ _ _ fa g (by rw [hdie, hset]; exact h3) hg w hwr)]
  have hreceiver : (w.putGroup g ((w.group g).recvIs r.slot (.complete flag))).receiver k = R := by
    rw [hR]; exact congrArg (fun l : Table Receiver => l.findD k Receiver.fresh) hwrs
  have ht : ({ (w.putGroup g ((w.group g).recvIs r.slot (.complete flag))).putReceiver k { R with landing := R.landing.erase (r, m) } with
      fresh := w.fresh + 1 } : State) = { w.putGroup g ((w.group g).recvIs r.slot (.complete flag)) with
      receivers := s.receivers.put k { R with landing := R.landing.erase (r, m) }, fresh := s.fresh + 1 } := by
    rw [← hwrs, ← hwfresh]; rfl
  rw [hreceiver, ← m.firstWord_toNat]
  exact ht ▸ hrec.tells g r.slot (.complete flag) (s.receivers.put k { R with landing := R.landing.erase (r, m) }) (s.fresh + 1)

end Sys2Proof.Machine
end

section
namespace Sys2Proof.Machine

/-! ## The events of a message (R428 to R438) -/

/-- A message that no earlier one precedes and no link holds: dropped, behind its source, taken, kept or refused. -/
theorem messageEnters (e : BitVec 3) (T : BitVec 1) (s : State) (k : Nat) (R : Receiver) (hk : k = recvKey e.toNat T.toNat) (hR : R = s.receiver k)
    (ix : Nat) (f : FlyMsg) (u : State) (hf : s.flying[ix]? = some f) (hd : f.die = e.toNat) (hs : f.set = T.toNat)
    (hl : s.messageLost f.msg f.die = false) (hh : s.messageHeld f.msg f.die = false)
    (ho : ∀ j q, j < ix → s.flying[j]? = some q → ¬ (q.msg.src = f.msg.src ∧ q.die = f.die ∧ q.set = f.set))
    (hu : u = { s with flying := s.flying.eraseIdx ix }) :
    (s.acceptsCtx T.toNat f.msg.ctx = false → exec (.messageArrival ix none) s = .next u) ∧
    (s.acceptsCtx T.toNat f.msg.ctx = true →
      ((∃ q ∈ R.refused, q.src = f.msg.src) → exec (.messageArrival ix none) s = .next (u.putReceiver k { R with refused := R.refused ++ [f.msg] })) ∧
      ((∀ q ∈ R.refused, q.src ≠ f.msg.src) →
        (∀ r, (R.posts.find? fun p => p.takes f.msg) = some r → exec (.messageArrival ix none) s =
          .next ((match r.group with | some g => u.putGroup g ((s.group g).recvIs r.slot .landing) | none => u).putReceiver k { R with posts := R.posts.erase r, landing := R.landing ++ [(r, f.msg)] })) ∧
        (∀ im, (∀ r ∈ R.posts, r.takes f.msg = false) → (s.slotSet T.toNat).img = some im →
          (R.paused = false → R.shareUsed + f.msg.size ≤ im.dquotaOn e.toNat → exec (.messageArrival ix none) s =
            .next (u.putReceiver k { R with tray := R.tray ++ [f.msg], refusing := false })) ∧
          (R.paused = true ∨ im.dquotaOn e.toNat < R.shareUsed + f.msg.size ∧ im.spillOn e.toNat = 0 → ∀ w, w = u.putReceiver k { R with
              refused := R.refused ++ [f.msg], refusals := R.refusals + 1, refusing := true } →
            (R.refusing = true ∨ s.conductorOf T.toNat = none → exec (.messageArrival ix none) s = .next w) ∧
            ∀ g, R.refusing = false → s.conductorOf T.toNat = some g → (∀ c ∈ (s.group g).causes, c.code ≠ 0xE) →
              exec (.messageArrival ix none) s = .next (w.putGroup g { (s.group g) with
                causes := (s.group g).causes ++ [{ code := 0xE, sub := 1, addr := BitVec.ofNat 64 (8 * ownModule + e.toNat), elem := none, inst := 0 }] }))))) := by
  have hdie : k / 2 = e.toNat := hk ▸ recvKey_div e T
  have hset : k % 2 = T.toNat := hk ▸ recvKey_mod e T
  have enters : ∀ v, s.enter k f.msg = (v, true) → exec (.messageArrival ix none) s = .next { v with flying := v.flying.eraseIdx ix } := fun v hv =>
    congrArg Host.Outcome.next (s.arriveMessage_enters ix f hf hl hh ((firstOfSource_iff _ _ _).mpr ho) v (by rw [hd, hs, ← hk]; exact hv))
  subst hu
  rw [← hset, ← hdie]
  refine ⟨fun ha => enters _ (s.enter_drops k f.msg ha), fun ha => ⟨fun hb => enters _ (s.enter_behind k f.msg R hR ha hb), fun hb =>
    ⟨fun r hr => ?_, fun im hr hi => ?_⟩⟩⟩
  · refine (enters _ (s.enter_takes k f.msg R hR ha hb r hr)).trans ?_
    rw [State.takeMessage_put]
    cases r.group <;> rfl
  · obtain ⟨hkept, hfull⟩ := s.enter_unmatched k f.msg R hR ha hb hr im hi
    refine ⟨fun hp hq => enters _ (hkept hp hq), fun h w hw => ?_⟩
    subst hw
    exact ⟨fun hn => enters _ ((hfull h).trans (congrArg (·, true) (s.refuse_quiet k f.msg R hR _ rfl hn))),
      fun g hn hg hc => enters _ ((hfull h).trans (congrArg (·, true) (s.refuse_drips k f.msg R hR _ rfl g hn hg hc)))⟩

/-- Settles O46: an arrival by what holds or takes it, a landing as two stores and news, the retry and the deadline. -/
theorem messageEventResults : Obligations.MessageEventResults := by
  unfold Obligations.MessageEventResults
  intro e T s k R hk hR
  have hset : k % 2 = T.toNat := hk ▸ recvKey_mod e T
  have arrives : ∀ ix v, s.arriveMessage ix = v → exec (.messageArrival ix none) s = .next v := fun ix v h => congrArg Host.Outcome.next h
  refine ⟨fun ix hn => arrives ix s (s.arriveMessage_none ix hn), fun ix m => rfl, fun ix f hf hl hh => arrives ix s (s.arriveMessage_stays ix f hf hl (.inl hh)),
    ?_, ?_, fun ix f u => messageEnters e T s k R hk hR ix f u, ?_, ?_, fun hn => ?_, fun m rest hm => ⟨fun ha => ?_, fun ha hh => ?_, fun ha hh => ⟨fun r hr => ?_, fun im hr hi => ?_⟩⟩, ?_⟩
  · intro ix f u hf hl hu
    subst hu
    refine ⟨fun hs => arrives ix _ (s.arriveMessage_lost ix f hf hl hs), fun g hs hover hc => arrives ix _ ?_⟩
    exact (s.arriveMessage_linkFail ix f hf g hl hs).trans (State.deliver_first _ _ _ _ _ hover hc)
  · rintro ix f hf hl ⟨j, q, hj, hq, hsame⟩
    refine arrives ix s (s.arriveMessage_stays ix f hf hl (.inr ?_))
    rw [← Bool.not_eq_true, firstOfSource_iff]
    exact fun h => h j q hj hq hsame
  · exact fun ix lost hn => (execMessageLandingComplete_eq e T ix lost s k hk).2 (hR ▸ hn)
  · intro ix n pa fa g r m s1 s2 s3 flag hix hm hn hruns h0 _ hw h2 h3 hg hf
    exact messageLanded e T s k R hk hR ix n pa fa g r m s1 s2 s3 flag hix hm hn hruns h0 hw h2 h3 hg hf
  · subst hk hR
    simp [exec_retryTicketCall, execRetryTicketCall, hn]
  · subst hk hR
    simp [exec_retryTicketCall, execRetryTicketCall, hm, ha]
  · subst hk hR
    simp [exec_retryTicketCall, execRetryTicketCall, hm, ha, hh]
  · exact (execRetryTicketCall_takes e T s k R hk hR m rest hm ha hh r hr).trans (congrArg Host.Outcome.next (s.takeMessage_put k r m _))
  · exact execRetryTicketCall_unmatched e T s k R hk hR m rest hm ha hh im hr hi
  · intro id
    refine ⟨fun hn => ?_, fun u w hq hw hu => ?_⟩
    · simp [exec_spillDeadline, execSpillDeadline, State.spillAnswer, hn]
    · have hx : exec (.spillDeadline id) s = .next (u.dripFull T.toNat 2 0) := by
        rw [exec_spillDeadline, execSpillDeadline, s.spillAnswer_refused id.toNat e T k R hk hR w hq hw, hu]
      subst hu
      exact ⟨fun hn => hx.trans (congrArg _ (State.dripFull_none _ _ _ _ hn)), fun g hg hc => hx.trans (congrArg _ (State.dripFull_some _ _ _ _ g hg hc))⟩

end Sys2Proof.Machine
end

section
/-!
SUPPORT. Words laid out in slots (R29 to R31, R147, R199, R216, R237, R271, R294, R317, R329, R340, R390, R410, R439): what a
word that the encoder puts together holds in the bit ranges that the decoder reads.
-/

namespace Sys2Proof.Layout

/-! ## Bit fields of a number -/

/-- The `n` bits of a number from bit `lo` up, as a number. -/
def slice (w lo n : Nat) : Nat := w / 2 ^ lo % 2 ^ n

/-- What is added at bits above a slice leaves the slice. -/
theorem slice_add_above (w v lo n k : Nat) (h : lo + n ≤ k) : slice (w + v * 2 ^ k) lo n = slice w lo n := by
  obtain ⟨j, rfl⟩ := Nat.exists_eq_add_of_le h
  have hv : v * 2 ^ (lo + n + j) = 2 ^ lo * (2 ^ n * (2 ^ j * v)) := by ring
  rw [slice, hv, Nat.add_mul_div_left _ _ (Nat.two_pow_pos lo), Nat.add_mul_mod_self_left, slice]

/-- What is added at clear bits is read back there. -/
theorem slice_add_same (w v lo n : Nat) (h : slice w lo n = 0) (hv : v < 2 ^ n) : slice (w + v * 2 ^ lo) lo n = v := by
  rw [slice, Nat.mul_comm, Nat.add_mul_div_left _ _ (Nat.two_pow_pos lo), Nat.add_mod, ← slice, h, Nat.zero_add, Nat.mod_mod, Nat.mod_eq_of_lt hv]

/-- What is added at clear bits below a slice carries nothing into it. -/
theorem slice_add_below (w v lo n k m : Nat) (h : k + m ≤ lo) (hw : slice w k m = 0) (hv : v < 2 ^ m) :
    slice (w + v * 2 ^ k) lo n = slice w lo n := by
  have hdiv : (w + v * 2 ^ k) / 2 ^ (k + m) = w / 2 ^ (k + m) := by
    have hq : (w / 2 ^ k + v) / 2 ^ m = w / 2 ^ k / 2 ^ m := by
      have hw' : w / 2 ^ k % 2 ^ m = 0 := hw
      rw [Nat.add_div_of_dvd_right (Nat.dvd_of_mod_eq_zero hw'), Nat.div_eq_of_lt hv, Nat.add_zero]
    rw [pow_add, ← Nat.div_div_eq_div_mul, Nat.mul_comm v, Nat.add_mul_div_left _ _ (Nat.two_pow_pos k), hq, Nat.div_div_eq_div_mul]
  obtain ⟨j, rfl⟩ := Nat.exists_eq_add_of_le h
  rw [slice, pow_add, ← Nat.div_div_eq_div_mul, hdiv, Nat.div_div_eq_div_mul, ← pow_add, slice]

/-! ## Words laid out in slots -/

/-- A field of a word: the bits of `v` at `lo` and up. -/
structure Slot where
  lo : Nat
  n : Nat
  v : BitVec n

/-- A word: its constant bits and its slots, the last one first. -/
def word (c : Nat) : List Slot → Nat
  | [] => c
  | p :: ps => word c ps + p.v.toNat * 2 ^ p.lo

/-- A slot and a range of bits have none in common. -/
def Slot.apart : Slot → Nat → Nat → Bool
  | ⟨k, m, _⟩, lo, n => lo + n ≤ k || k + m ≤ lo

/-- No slot covers a constant bit that is 1, and no two slots overlap. -/
def fits (c : Nat) : List Slot → Bool
  | [] => true
  | ⟨lo, n, _⟩ :: ps => slice c lo n == 0 && ps.all (fun q => q.apart lo n) && fits c ps

/-- What a word holds from bit `lo` up, modulo `m`, where that is one of its slots or apart from all of them. -/
def pick (c lo m : Nat) : List Slot → Nat
  | [] => c / 2 ^ lo % m
  | ⟨k, _, v⟩ :: ps => if k = lo then v.toNat else pick c lo m ps

/-- The range is one of the slots of a word or apart from all of them. -/
def legible (c lo n : Nat) (ps : List Slot) : Bool :=
  fits c ps && ps.all fun | p@⟨k, m, _⟩ => if k = lo then m == n else p.apart lo n

theorem slice_word_apart (c lo n : Nat) (ps : List Slot) (hf : fits c ps = true) (ha : ∀ p ∈ ps, p.apart lo n = true) :
    slice (word c ps) lo n = slice c lo n := by
  induction ps generalizing lo n with
  | nil => rfl
  | cons p ps ih =>
    simp only [fits, Bool.and_eq_true, beq_iff_eq, List.all_eq_true] at hf
    obtain ⟨⟨hc, hp⟩, hps⟩ := hf
    have hclear : slice (word c ps) p.lo p.n = 0 := (ih _ _ hps hp).trans hc
    have hpn : p.apart lo n = true := ha p List.mem_cons_self
    rw [Slot.apart, Bool.or_eq_true, decide_eq_true_eq, decide_eq_true_eq] at hpn
    rw [← ih lo n hps fun q hq => ha q (List.mem_cons_of_mem _ hq), word]
    rcases hpn with h | h
    · exact slice_add_above _ _ _ _ _ h
    · exact slice_add_below _ _ _ _ _ _ h hclear p.v.isLt

/-- A slot of a word is read back, and other bits are those of the constant. -/
theorem slice_word (c lo n : Nat) (ps : List Slot) (h : legible c lo n ps = true) : slice (word c ps) lo n = pick c lo (2 ^ n) ps := by
  induction ps with
  | nil => rfl
  | cons p ps ih =>
    obtain ⟨k, m, v⟩ := p
    simp only [legible, fits, Bool.and_eq_true, beq_iff_eq, List.all_eq_true, List.forall_mem_cons] at h ih
    obtain ⟨⟨⟨hc, hp⟩, hps⟩, hpn, hpsn⟩ := h
    have hclear : slice (word c ps) k m = 0 := (slice_word_apart c _ _ ps hps hp).trans hc
    rw [pick]
    split at hpn
    next heq =>
      obtain rfl := heq
      obtain rfl := beq_iff_eq.mp hpn
      rw [if_pos rfl]
      exact slice_add_same _ _ _ _ hclear v.isLt
    next hne =>
      rw [if_neg hne, ← ih ⟨hps, hpsn⟩]
      rw [Slot.apart, Bool.or_eq_true, decide_eq_true_eq, decide_eq_true_eq] at hpn
      rcases hpn with h | h
      · exact slice_add_above _ _ _ _ _ h
      · exact slice_add_below _ _ _ _ _ _ h hclear v.isLt

/-! ## Put operations as slots -/

/-- MB and M as the four bits they take. -/
def maskBits (k : Option (BitVec 3)) : BitVec 4 := BitVec.ofNat 4 (encMask k / 2 ^ 26)

/-- POPF, POPE, PUSHF and PUSHE as the ten bits they take. -/
def tokenBits (t : TokenReq) : BitVec 10 := BitVec.ofNat 10 (encTokens t / 2 ^ 5)

/-- TE and TAG as the five bits they take. -/
def teBits (t : Option Tag) : BitVec 5 := BitVec.ofNat 5 (encTe t)

/-- SE and SCT as the four bits they take. -/
def scaleBits (t : Option (BitVec 3)) : BitVec 4 := BitVec.ofNat 4 (encScale t / 2 ^ 20)

theorem encMask_eq (k : Option (BitVec 3)) : encMask k = (maskBits k).toNat * 2 ^ 26 := by
  rcases k with _ | k
  · rfl
  · have := k.isLt
    simp only [maskBits, encMask, BitVec.toNat_ofNat]
    omega

theorem encScale_eq (k : Option (BitVec 3)) : encScale k = (scaleBits k).toNat * 2 ^ 20 := by
  rcases k with _ | k
  · rfl
  · have := k.isLt
    simp only [scaleBits, encScale, BitVec.toNat_ofNat]
    omega

theorem encTe_eq (t : Option Tag) : encTe t = (teBits t).toNat * 2 ^ 0 := by
  rcases t with _ | t
  · rfl
  · cases t <;> rfl

theorem encTokens_eq (t : TokenReq) : encTokens t = (tokenBits t).toNat * 2 ^ 5 := by
  obtain ⟨_ | p, _ | q⟩ := t
  · rfl
  · have := q.isLt
    simp only [tokenBits, encTokens, BitVec.toNat_ofNat]
    omega
  · have := p.isLt
    simp only [tokenBits, encTokens, BitVec.toNat_ofNat]
    omega
  · have := p.isLt
    have := q.isLt
    simp only [tokenBits, encTokens, BitVec.toNat_ofNat]
    omega

theorem putAt_word {n : Nat} (x : BitVec n) (lo w : Nat) : putAt x lo w = word w [⟨lo, n, x⟩] := rfl
theorem putBit_word (b : Bool) (lo w : Nat) : putBit b lo w = word w [⟨lo, 1, BitVec.ofBool b⟩] := by cases b <;> rfl
theorem putTag_word (t : Tag) (lo w : Nat) : putTag t lo w = word w [⟨lo, 4, BitVec.ofNat 4 t.code⟩] := by cases t <;> rfl
theorem putMask_word (k : Option (BitVec 3)) (w : Nat) : putMask k w = word w [⟨26, 4, maskBits k⟩] := by rw [putMask, encMask_eq]; rfl
theorem putTokens_word (t : TokenReq) (w : Nat) : putTokens t w = word w [⟨5, 10, tokenBits t⟩] := by rw [putTokens, encTokens_eq]; rfl
theorem putTe_word (t : Option Tag) (w : Nat) : putTe t w = word w [⟨0, 5, teBits t⟩] := by rw [putTe, encTe_eq]; rfl
theorem putScale_word (k : Option (BitVec 3)) (w : Nat) : putScale k w = word w [⟨20, 4, scaleBits k⟩] := by rw [putScale, encScale_eq]; rfl

theorem putFld_word (n : BitVec 11) (w : Nat) : putFld n w = word w [⟨26, 6, n.extractLsb' 5 6⟩, ⟨18, 5, n.extractLsb' 0 5⟩] := by
  have := n.isLt
  simp only [putFld, encFld, word, BitVec.extractLsb'_toNat, Nat.shiftRight_eq_div_pow]
  omega

theorem putAmount_word (n : BitVec 6) (w : Nat) : putAmount n w = word w [⟨31, 1, n.extractLsb' 5 1⟩, ⟨18, 5, n.extractLsb' 0 5⟩] := by
  have := n.isLt
  simp only [putAmount, encAmount, word, BitVec.extractLsb'_toNat, Nat.shiftRight_eq_div_pow]
  omega

theorem word_nil (c : Nat) : word c [] = c := rfl

theorem word_word (c : Nat) (ps qs : List Slot) : word (word c ps) qs = word c (qs ++ ps) := by
  induction qs with
  | nil => rfl
  | cons q qs ih => simp only [List.cons_append, word, ih]

/-! ## Reads -/

theorem word_div_mod (c lo m : Nat) (ps : List Slot) (hm : 2 ^ m.log2 = m) (h : legible c lo m.log2 ps = true) :
    word c ps / 2 ^ lo % m = pick c lo m ps := by
  have h := slice_word c lo m.log2 ps h
  rwa [slice, hm] at h

theorem word_half (c m : Nat) (ps : List Slot) (hm : 2 ^ m.log2 = m) (h : legible c 1 m.log2 ps = true) :
    word c ps / 2 % m = pick c 1 m ps := word_div_mod c 1 m ps hm h

theorem word_mod (c m : Nat) (ps : List Slot) (hm : 2 ^ m.log2 = m) (h : legible c 0 m.log2 ps = true) :
    word c ps % m = pick c 0 m ps := by
  rw [← word_div_mod c 0 m ps hm h, pow_zero, Nat.div_one]

theorem field_word (c lo n : Nat) (ps : List Slot) (h : legible c lo n ps = true) : field (word c ps) lo n = BitVec.ofNat n (pick c lo (2 ^ n) ps) := by
  rw [← slice_word _ _ _ _ h, slice, field, ← BitVec.toNat_inj]
  simp

theorem bitAt_word (c lo : Nat) (ps : List Slot) (h : legible c lo 1 ps = true) : bitAt (word c ps) lo = decide (pick c lo (2 ^ 1) ps = 1) := by
  rw [← slice_word _ _ _ _ h]; rfl

/-- A range inside a slice reads the same in the slice at its place alone. -/
theorem slice_of_slice (w lo m k n : Nat) (h1 : lo ≤ k) (h2 : k + n ≤ lo + m) : slice (slice w lo m * 2 ^ lo) k n = slice w k n := by
  obtain ⟨j, rfl⟩ := Nat.exists_eq_add_of_le h1
  obtain ⟨i, rfl⟩ : ∃ i, m = j + (n + i) := ⟨m - (j + n), by omega⟩
  have hpow : (2 : Nat) ^ (j + (n + i)) = 2 ^ j * 2 ^ (n + i) := pow_add 2 j (n + i)
  simp only [slice, pow_add 2 lo j, ← Nat.div_div_eq_div_mul, Nat.mul_div_cancel _ (Nat.two_pow_pos lo), hpow, Nat.mod_mul_right_div_self]
  exact Nat.mod_mod_of_dvd _ (pow_dvd_pow 2 (Nat.le_add_right n i))

theorem field_of_slice (w lo m k n : Nat) (h1 : lo ≤ k) (h2 : k + n ≤ lo + m) : field (slice w lo m * 2 ^ lo) k n = field w k n := by
  have h := slice_of_slice w lo m k n h1 h2
  apply BitVec.eq_of_toNat_eq
  simpa only [field, slice, BitVec.toNat_ofNat] using h

theorem bit_of_slice (w lo m k : Nat) (h1 : lo ≤ k) (h2 : k + 1 ≤ lo + m) : slice w lo m * 2 ^ lo / 2 ^ k % 2 = w / 2 ^ k % 2 :=
  slice_of_slice w lo m k 1 h1 h2

/-- The reads of MB and M see the four bits of their slot alone. -/
theorem decMask_word (c : Nat) (ps : List Slot) (h : legible c 26 4 ps = true) : decMask (word c ps) = decMask (pick c 26 (2 ^ 4) ps * 2 ^ 26) := by
  rw [← slice_word _ _ _ _ h]
  simp only [decMask, bit_of_slice, field_of_slice, Nat.reduceLeDiff, Nat.reduceAdd]

theorem maskOk_word (c : Nat) (ps : List Slot) (h : legible c 26 4 ps = true) : maskOk (word c ps) ↔ maskOk (pick c 26 (2 ^ 4) ps * 2 ^ 26) := by
  rw [← slice_word _ _ _ _ h, maskOk, maskOk, slice]
  omega

theorem decScale_word (c : Nat) (ps : List Slot) (h : legible c 20 4 ps = true) : decScale (word c ps) = decScale (pick c 20 (2 ^ 4) ps * 2 ^ 20) := by
  rw [← slice_word _ _ _ _ h]
  simp only [decScale, bit_of_slice, field_of_slice, Nat.reduceLeDiff, Nat.reduceAdd]

theorem scaleOk_word (c : Nat) (ps : List Slot) (h : legible c 20 4 ps = true) : scaleOk (word c ps) ↔ scaleOk (pick c 20 (2 ^ 4) ps * 2 ^ 20) := by
  rw [← slice_word _ _ _ _ h, scaleOk, scaleOk, slice]
  omega

theorem decTokens_word (c : Nat) (ps : List Slot) (h : legible c 5 10 ps = true) : decTokens (word c ps) = decTokens (pick c 5 (2 ^ 10) ps * 2 ^ 5) := by
  rw [← slice_word _ _ _ _ h]
  simp only [decTokens, bit_of_slice, field_of_slice, Nat.reduceLeDiff, Nat.reduceAdd]

theorem tokensOk_word (c : Nat) (ps : List Slot) (h : legible c 5 10 ps = true) : tokensOk (word c ps) ↔ tokensOk (pick c 5 (2 ^ 10) ps * 2 ^ 5) := by
  rw [← slice_word _ _ _ _ h, tokensOk, tokensOk, slice]
  omega

theorem decTe_word (c : Nat) (ps : List Slot) (h : legible c 0 5 ps = true) : decTe (word c ps) = decTe (pick c 0 (2 ^ 5) ps) := by
  have ha : slice (word c ps) 0 5 / 2 ^ 4 % 2 = word c ps / 2 ^ 4 % 2 := by rw [slice]; omega
  have hb : slice (word c ps) 0 5 % 16 = word c ps % 16 := by rw [slice]; omega
  rw [← slice_word _ _ _ _ h]
  simp only [decTe, ha, hb]

theorem teOk_word (c : Nat) (ps : List Slot) (h : legible c 0 5 ps = true) : teOk (word c ps) ↔ teOk (pick c 0 (2 ^ 5) ps) := by
  rw [← slice_word _ _ _ _ h, teOk, teOk, slice]
  omega

theorem decFld_word (c : Nat) (ps : List Slot) (h : legible c 26 6 ps = true) (h' : legible c 18 5 ps = true) :
    decFld (word c ps) = BitVec.ofNat 11 (pick c 26 (2 ^ 6) ps * 32 + pick c 18 (2 ^ 5) ps) := by
  rw [← slice_word _ _ _ _ h, ← slice_word _ _ _ _ h']; rfl

theorem decAmount_word (c : Nat) (ps : List Slot) (h : legible c 31 1 ps = true) (h' : legible c 18 5 ps = true) :
    decAmount (word c ps) = BitVec.ofNat 6 (pick c 31 (2 ^ 1) ps * 32 + pick c 18 (2 ^ 5) ps) := by
  rw [← slice_word _ _ _ _ h, ← slice_word _ _ _ _ h']; rfl

/-! ## What is put is read back

The products are by 2 ^ 26, 2 ^ 20 and 2 ^ 5, evaluated as `simp` evaluates them. -/

theorem decMask_maskBits (k : Option (BitVec 3)) : decMask ((maskBits k).toNat * 67108864) = k := by
  cases k with
  | none => decide
  | some k => revert k; decide

theorem maskOk_maskBits (k : Option (BitVec 3)) : maskOk ((maskBits k).toNat * 67108864) ↔ True := by
  cases k with
  | none => decide
  | some k => revert k; decide

theorem decScale_scaleBits (k : Option (BitVec 3)) : decScale ((scaleBits k).toNat * 1048576) = k := by
  cases k with
  | none => decide
  | some k => revert k; decide

theorem scaleOk_scaleBits (k : Option (BitVec 3)) : scaleOk ((scaleBits k).toNat * 1048576) ↔ True := by
  cases k with
  | none => decide
  | some k => revert k; decide

theorem decTe_teBits (t : Option Tag) : decTe (teBits t).toNat = t := by
  rcases t with _ | t
  · decide
  · cases t <;> decide

theorem teOk_teBits (t : Option Tag) : teOk (teBits t).toNat ↔ True := by
  rcases t with _ | t
  · decide
  · cases t <;> decide

theorem decTokens_tokenBits (t : TokenReq) : decTokens ((tokenBits t).toNat * 32) = t := by
  obtain ⟨_ | p, _ | q⟩ := t
  · decide
  · revert q; decide
  · revert p; decide
  · revert p q; decide

theorem tokensOk_tokenBits (t : TokenReq) : tokensOk ((tokenBits t).toNat * 32) ↔ True := by
  obtain ⟨_ | p, _ | q⟩ := t
  · decide
  · revert q; decide
  · revert p; decide
  · revert p q; decide

theorem ofCode_code (t : Tag) : Tag.ofCode (BitVec.ofNat 4 t.code).toNat = t := by cases t <;> rfl

theorem fld_reads (n : BitVec 11) : BitVec.ofNat 11 ((n.extractLsb' 5 6).toNat * 32 + (n.extractLsb' 0 5).toNat) = n := by
  apply BitVec.eq_of_toNat_eq
  simp only [BitVec.extractLsb'_toNat, Nat.shiftRight_eq_div_pow, BitVec.toNat_ofNat]
  omega

theorem amount_reads (n : BitVec 6) : BitVec.ofNat 6 ((n.extractLsb' 5 1).toNat * 32 + (n.extractLsb' 0 5).toNat) = n := by
  apply BitVec.eq_of_toNat_eq
  simp only [BitVec.extractLsb'_toNat, Nat.shiftRight_eq_div_pow, BitVec.toNat_ofNat]
  omega

theorem bit_reads (b : Bool) : decide ((BitVec.ofBool b).toNat = 1) = b := by cases b <;> rfl

/-- The constant, the slots and the width of a word of 32 bits. -/
def fits32 (c : Nat) (ps : List Slot) : Bool := fits c ps && decide (c < 2 ^ 32) && ps.all fun | ⟨k, m, _⟩ => decide (k + m ≤ 32)

theorem word_lt (c : Nat) (ps : List Slot) (h : fits32 c ps = true) : word c ps < 2 ^ 32 := by
  simp only [fits32, Bool.and_eq_true, decide_eq_true_eq, List.all_eq_true] at h
  obtain ⟨⟨hf, hc⟩, hps⟩ := h
  have hs := slice_word_apart c 32 (word c ps) ps hf fun p hp => by
    have := hps p hp
    simp only [Slot.apart, Bool.or_eq_true, decide_eq_true_eq]
    exact .inr this
  rw [slice, slice, Nat.div_eq_of_lt hc, Nat.zero_mod] at hs
  rw [Nat.mod_eq_of_lt (lt_of_le_of_lt (Nat.div_le_self _ _) Nat.lt_two_pow_self)] at hs
  exact Nat.lt_of_div_eq_zero (Nat.two_pow_pos 32) hs

end Sys2Proof.Layout
end

section
/-!
SUPPORT. The rows of the encoding tables (R33), major opcode by major opcode: each one's words decode to it. Elab.async is off
here as in the tests: many theorems in progress at once take more stacks than the memory limit allows.
-/

namespace Sys2Proof.Layout

set_option Elab.async false

/-! ## An instruction whose words are laid out in slots -/

/-- For a well-formed instruction: its words decode to it, are below 2 ^ 32, and the second of a short one is 0. -/
def RoundTrips (i : Instr) : Prop :=
  i.wf = true → decodeWords (encFirst i) (encSecond i) = .ok i ∧ encFirst i < 2 ^ 32 ∧ encSecond i < 2 ^ 32 ∧ (encFirst i % 2 = 0 → encSecond i = 0)

/-- FCMP's row of major 0x1A. -/
def decFcmp (w1 _w2 : Nat) : Except Reject Instr :=
  if w1 % 2 = 0 then
    accept (decide (w1 / 2 ^ 26 % 32 = 0)) true (.fcmp (bitAt w1 31) (field w1 23 2) (field w1 8 5) (field w1 13 5) (field w1 18 5))
  else .error .lengthRefused

/-- FCMP's minor opcodes, up to 3, are those whose bit 25 is 0: the two bits below are its selector. -/
theorem decMajor1A_of_bit25 (w1 w2 : Nat) (h : w1 / 2 ^ 25 % 2 = 0) : decMajor1A w1 w2 = decFcmp w1 w2 := by
  have hle : w1 / 2 ^ 23 % 8 ≤ 3 := by omega
  rw [decMajor1A, if_pos hle, decFcmp]

/-- An instruction goes round when the decoder of its major opcode accepts its words with the selector check of `wf`. The
layouts are read off the encoder, and the fields off the layouts; a side condition says that a layout is free of overlaps and a
range one of its slots, which evaluates whatever the slots hold. -/
theorem RoundTrips.of_words {i : Instr} {c c2 m : Nat} {ps ps2 : List Slot} {r : Except Reject Instr}
    (hdec : word c ps / 2 % 128 = m → decodeWords (word c ps) (word c2 ps2) = r)
    (h1 : encFirst i = word c ps := by
      delta encFirst
      refine (word_nil _).symm.trans ?_
      simp only [putAt_word, putBit_word, putTag_word, putMask_word, putFld_word, putAmount_word, putTokens_word, putTe_word,
         putScale_word, word_word, List.cons_append, List.nil_append]
      exact rfl)
    (h2 : encSecond i = word c2 ps2 := by
      delta encSecond
      refine (word_nil _).symm.trans ?_
      simp only [putAt_word, putBit_word, putTag_word, putMask_word, putFld_word, putAmount_word, putTokens_word, putTe_word,
         putScale_word, word_word, List.cons_append, List.nil_append]
      exact rfl)
    (hm : legible c 1 7 ps = true ∧ pick c 1 128 ps = m := by exact ⟨rfl, rfl⟩) (b1 : fits32 c ps = true := by exact rfl)
    (b2 : fits32 c2 ps2 = true := by exact rfl) (hl : legible c 0 1 ps = true ∧ (pick c 0 2 ps == 1 || word c2 ps2 == 0) = true := by exact ⟨rfl, rfl⟩)
    (hd : r = accept true i.wf i := by
      simp (disch := with_unfolding_all exact id rfl) only [↓word_div_mod, ↓word_half, ↓word_mod, field_word, bitAt_word,
        decMask_word, maskOk_word, decScale_word, scaleOk_word,
        decTokens_word, tokensOk_word, decTe_word, teOk_word, decFld_word, decAmount_word, pick,
        decMask_maskBits, maskOk_maskBits, decScale_scaleBits, scaleOk_scaleBits,
        decTokens_tokenBits, tokensOk_tokenBits, decTe_teBits, teOk_teBits, ofCode_code, fld_reads, amount_reads, bit_reads, BitVec.ofNat_toNat, BitVec.setWidth_eq,
        ↓reduceIte, Nat.reduceEqDiff, Nat.reduceMod, Nat.reduceDiv, Nat.reducePow, zero_ne_one, one_ne_zero, and_self, decide_true, *]
      exact rfl) : RoundTrips i := by
  intro hw
  have hmajor : word c ps / 2 % 128 = m := (word_half c 128 ps rfl hm.1).trans hm.2
  have hlen : word c ps % 2 = pick c 0 2 ps := word_mod c 2 ps rfl hl.1
  rw [hw] at hd
  rw [h1, h2]
  refine ⟨(hdec hmajor).trans hd, word_lt c ps b1, word_lt c2 ps2 b2, fun h0 => ?_⟩
  rw [← hlen, h0] at hl
  simpa using hl.2

/-- What well-formedness says of the operands may be used. -/
theorem RoundTrips.of_wf {i : Instr} {P : Prop} (h : i.wf = true → P) (hp : P → RoundTrips i) : RoundTrips i := fun hw => hp (h hw) hw

/-! ## The rows of each major opcode (R33) -/

theorem roundTrips_major01 (d a b : Reg) : RoundTrips (.add d a b) ∧ RoundTrips (.sub d a b) ∧ RoundTrips (.and d a b) ∧
    RoundTrips (.or d a b) ∧ RoundTrips (.xor d a b) ∧ RoundTrips (.shl d a b) ∧ RoundTrips (.shr d a b) ∧ RoundTrips (.shra d a b) := by
  have major : ∀ w1 w2, w1 / 2 % 128 = 0x01 → decodeWords w1 w2 = decMajor01 w1 w2 := fun w1 w2 h => by rw [decodeWords, h]; rfl
  delta decMajor01 at major
  and_intros <;> exact .of_words (major _ _)

theorem roundTrips_major02 (d a b : Reg) : RoundTrips (.mul d a b) ∧ RoundTrips (.mulh d a b) ∧ RoundTrips (.mulhn d a b) ∧
    RoundTrips (.div d a b) ∧ RoundTrips (.divn d a b) ∧ RoundTrips (.rem d a b) ∧ RoundTrips (.remn d a b) := by
  have major : ∀ w1 w2, w1 / 2 % 128 = 0x02 → decodeWords w1 w2 = decMajor02 w1 w2 := fun w1 w2 h => by rw [decodeWords, h]; rfl
  delta decMajor02 at major
  and_intros <;> exact .of_words (major _ _)

theorem roundTrips_major03 (d a b : Reg) : RoundTrips (.rol d a b) ∧ RoundTrips (.clz d a) ∧ RoundTrips (.ctz d a) ∧ RoundTrips (.popc d a)
    ∧ RoundTrips (.min d a b) ∧ RoundTrips (.max d a b) ∧ RoundTrips (.minn d a b) ∧ RoundTrips (.maxn d a b) := by
  have major : ∀ w1 w2, w1 / 2 % 128 = 0x03 → decodeWords w1 w2 = decMajor03 w1 w2 := fun w1 w2 h => by rw [decodeWords, h]; rfl
  delta decMajor03 at major
  and_intros <;> exact .of_words (major _ _)

theorem roundTrips_major04 (d a b : Reg) : RoundTrips (.slt d a b) ∧ RoundTrips (.sltn d a b) ∧ RoundTrips (.sel d a b) := by
  have major : ∀ w1 w2, w1 / 2 % 128 = 0x04 → decodeWords w1 w2 = decMajor04 w1 w2 := fun w1 w2 h => by rw [decodeWords, h]; rfl
  delta decMajor04 at major
  and_intros <;> exact .of_words (major _ _)

theorem roundTrips_major05 (d a : Reg) (i : BitVec 14) (v : BitVec 32) : RoundTrips (.addi d a i) ∧ RoundTrips (.addiLong d a v) := by
  have major : ∀ w1 w2, w1 / 2 % 128 = 0x05 → decodeWords w1 w2 = decMajor05 w1 w2 := fun w1 w2 h => by rw [decodeWords, h]; rfl
  delta decMajor05 at major
  and_intros <;> exact .of_words (major _ _)

theorem roundTrips_major06 (d a : Reg) (i : BitVec 14) (v : BitVec 32) : RoundTrips (.andi d a i) ∧ RoundTrips (.andiLong d a v) := by
  have major : ∀ w1 w2, w1 / 2 % 128 = 0x06 → decodeWords w1 w2 = decMajor06 w1 w2 := fun w1 w2 h => by rw [decodeWords, h]; rfl
  delta decMajor06 at major
  and_intros <;> exact .of_words (major _ _)

theorem roundTrips_major07 (d a : Reg) (i : BitVec 14) (v : BitVec 32) : RoundTrips (.ori d a i) ∧ RoundTrips (.oriLong d a v) := by
  have major : ∀ w1 w2, w1 / 2 % 128 = 0x07 → decodeWords w1 w2 = decMajor07 w1 w2 := fun w1 w2 h => by rw [decodeWords, h]; rfl
  delta decMajor07 at major
  and_intros <;> exact .of_words (major _ _)

theorem roundTrips_major08 (d a : Reg) (i : BitVec 14) (v : BitVec 32) : RoundTrips (.xori d a i) ∧ RoundTrips (.xoriLong d a v) := by
  have major : ∀ w1 w2, w1 / 2 % 128 = 0x08 → decodeWords w1 w2 = decMajor08 w1 w2 := fun w1 w2 h => by rw [decodeWords, h]; rfl
  delta decMajor08 at major
  and_intros <;> exact .of_words (major _ _)

theorem roundTrips_major09 (d a : Reg) (i : BitVec 14) (v : BitVec 32) : RoundTrips (.slti d a i) ∧ RoundTrips (.sltiLong d a v) := by
  have major : ∀ w1 w2, w1 / 2 % 128 = 0x09 → decodeWords w1 w2 = decMajor09 w1 w2 := fun w1 w2 h => by rw [decodeWords, h]; rfl
  delta decMajor09 at major
  and_intros <;> exact .of_words (major _ _)

theorem roundTrips_major0A (d a : Reg) (n : BitVec 6) : RoundTrips (.shli d a n) ∧ RoundTrips (.shri d a n) ∧ RoundTrips (.shrai d a n) :=
    by
  have major : ∀ w1 w2, w1 / 2 % 128 = 0x0A → decodeWords w1 w2 = decMajor0A w1 w2 := fun w1 w2 h => by rw [decodeWords, h]; rfl
  delta decMajor0A at major
  and_intros <;> exact .of_words (major _ _)

theorem roundTrips_major0B (d : Reg) (i : BitVec 14) (v : BitVec 32) : RoundTrips (.ldi d i) ∧ RoundTrips (.ldiLong d v) := by
  have major : ∀ w1 w2, w1 / 2 % 128 = 0x0B → decodeWords w1 w2 = decMajor0B w1 w2 := fun w1 w2 h => by rw [decodeWords, h]; rfl
  delta decMajor0B at major
  and_intros <;> exact .of_words (major _ _)

theorem roundTrips_major0C (d : Reg) (v : BitVec 32) : RoundTrips (.ldih d v) := by
  have major : ∀ w1 w2, w1 / 2 % 128 = 0x0C → decodeWords w1 w2 = decMajor0C w1 w2 := fun w1 w2 h => by rw [decodeWords, h]; rfl
  delta decMajor0C at major
  exact .of_words (major _ _)

theorem roundTrips_major0D (d : Reg) (i : BitVec 14) (v : BitVec 32) : RoundTrips (.addpc d i) ∧ RoundTrips (.addpcLong d v) := by
  have major : ∀ w1 w2, w1 / 2 % 128 = 0x0D → decodeWords w1 w2 = decMajor0D w1 w2 := fun w1 w2 h => by rw [decodeWords, h]; rfl
  delta decMajor0D at major
  and_intros <;> exact .of_words (major _ _)

theorem roundTrips_major0E (w : BitVec 3) (d a : Reg) (n : BitVec 11) (v : BitVec 32) : RoundTrips (.ld w d a n) ∧ RoundTrips (.ldLong w d a v) := by
  have major : ∀ w1 w2, w1 / 2 % 128 = 0x0E → decodeWords w1 w2 = decMajor0E w1 w2 := fun w1 w2 h => by rw [decodeWords, h]; rfl
  delta decMajor0E at major
  have hw7 : decide (w.toNat ≠ 7) = true → w.toNat ≠ 7 := of_decide_eq_true
  exact ⟨.of_wf hw7 fun _ => .of_words (major _ _), .of_wf hw7 fun _ => .of_words (major _ _)⟩

theorem roundTrips_major0F (w : BitVec 2) (d a : Reg) (n : BitVec 11) (v : BitVec 32) : RoundTrips (.st w d a n) ∧
    RoundTrips (.stLong w d a v) := by
  have major : ∀ w1 w2, w1 / 2 % 128 = 0x0F → decodeWords w1 w2 = decMajor0F w1 w2 := fun w1 w2 h => by rw [decodeWords, h]; rfl
  delta decMajor0F at major
  and_intros <;> exact .of_words (major _ _)

theorem roundTrips_major10 (d a : Reg) (o : BitVec 14) (v : BitVec 32) : RoundTrips (.beq d a o) ∧ RoundTrips (.beqLong d a v) := by
  have major : ∀ w1 w2, w1 / 2 % 128 = 0x10 → decodeWords w1 w2 = decMajor10 w1 w2 := fun w1 w2 h => by rw [decodeWords, h]; rfl
  delta decMajor10 at major
  and_intros <;> exact .of_words (major _ _)

theorem roundTrips_major11 (d a : Reg) (o : BitVec 14) (v : BitVec 32) : RoundTrips (.bne d a o) ∧ RoundTrips (.bneLong d a v) := by
  have major : ∀ w1 w2, w1 / 2 % 128 = 0x11 → decodeWords w1 w2 = decMajor11 w1 w2 := fun w1 w2 h => by rw [decodeWords, h]; rfl
  delta decMajor11 at major
  and_intros <;> exact .of_words (major _ _)

theorem roundTrips_major12 (d a : Reg) (o : BitVec 14) (v : BitVec 32) : RoundTrips (.blt d a o) ∧ RoundTrips (.bltLong d a v) := by
  have major : ∀ w1 w2, w1 / 2 % 128 = 0x12 → decodeWords w1 w2 = decMajor12 w1 w2 := fun w1 w2 h => by rw [decodeWords, h]; rfl
  delta decMajor12 at major
  and_intros <;> exact .of_words (major _ _)

theorem roundTrips_major13 (d a : Reg) (o : BitVec 14) (v : BitVec 32) : RoundTrips (.bge d a o) ∧ RoundTrips (.bgeLong d a v) := by
  have major : ∀ w1 w2, w1 / 2 % 128 = 0x13 → decodeWords w1 w2 = decMajor13 w1 w2 := fun w1 w2 h => by rw [decodeWords, h]; rfl
  delta decMajor13 at major
  and_intros <;> exact .of_words (major _ _)

theorem roundTrips_major14 (d a : Reg) (o : BitVec 14) (v : BitVec 32) : RoundTrips (.bltn d a o) ∧ RoundTrips (.bltnLong d a v) := by
  have major : ∀ w1 w2, w1 / 2 % 128 = 0x14 → decodeWords w1 w2 = decMajor14 w1 w2 := fun w1 w2 h => by rw [decodeWords, h]; rfl
  delta decMajor14 at major
  and_intros <;> exact .of_words (major _ _)

theorem roundTrips_major15 (d a : Reg) (o : BitVec 14) (v : BitVec 32) : RoundTrips (.bgen d a o) ∧ RoundTrips (.bgenLong d a v) := by
  have major : ∀ w1 w2, w1 / 2 % 128 = 0x15 → decodeWords w1 w2 = decMajor15 w1 w2 := fun w1 w2 h => by rw [decodeWords, h]; rfl
  delta decMajor15 at major
  and_intros <;> exact .of_words (major _ _)

theorem roundTrips_major16 (d : Reg) (i : BitVec 14) (v : BitVec 32) : RoundTrips (.jal d i) ∧ RoundTrips (.jalLong d v) := by
  have major : ∀ w1 w2, w1 / 2 % 128 = 0x16 → decodeWords w1 w2 = decMajor16 w1 w2 := fun w1 w2 h => by rw [decodeWords, h]; rfl
  delta decMajor16 at major
  and_intros <;> exact .of_words (major _ _)

theorem roundTrips_major17 (d a : Reg) (i : BitVec 14) (v : BitVec 32) : RoundTrips (.jalr d a i) ∧ RoundTrips (.jalrLong d a v) := by
  have major : ∀ w1 w2, w1 / 2 % 128 = 0x17 → decodeWords w1 w2 = decMajor17 w1 w2 := fun w1 w2 h => by rw [decodeWords, h]; rfl
  delta decMajor17 at major
  and_intros <;> exact .of_words (major _ _)

theorem roundTrips_major18 (d : Reg) (o : BitVec 14) (v : BitVec 32) : RoundTrips (.loop d o) ∧ RoundTrips (.loopLong d v) := by
  have major : ∀ w1 w2, w1 / 2 % 128 = 0x18 → decodeWords w1 w2 = decMajor18 w1 w2 := fun w1 w2 h => by rw [decodeWords, h]; rfl
  delta decMajor18 at major
  and_intros <;> exact .of_words (major _ _)

theorem roundTrips_major19 (p : Bool) (d a b : Reg) : RoundTrips (.fadd p d a b) ∧ RoundTrips (.fsub p d a b) ∧ RoundTrips (.fmul p d a b) ∧
    RoundTrips (.fdiv p d a b) ∧ RoundTrips (.fsqrt p d a) ∧ RoundTrips (.fmin p d a b) ∧ RoundTrips (.fmax p d a b) ∧
    RoundTrips (.ffma p d a b) := by
  have major : ∀ w1 w2, w1 / 2 % 128 = 0x19 → decodeWords w1 w2 = decMajor19 w1 w2 := fun w1 w2 h => by rw [decodeWords, h]; rfl
  delta decMajor19 at major
  and_intros <;> exact .of_words (major _ _)

theorem roundTrips_major1A (p : Bool) (c : BitVec 2) (d a b cvs : Reg) : RoundTrips (.fcmp p c d a b) ∧ RoundTrips (.fcvt d a cvs) := by
  have major : ∀ w1 w2, w1 / 2 % 128 = 0x1A → decodeWords w1 w2 = decMajor1A w1 w2 := fun w1 w2 h => by rw [decodeWords, h]; rfl
  have fcmp : ∀ w1 w2, w1 / 2 ^ 25 % 2 = 0 → w1 / 2 % 128 = 0x1A → decodeWords w1 w2 = decFcmp w1 w2 := fun w1 w2 hbit h =>
    (major w1 w2 h).trans (decMajor1A_of_bit25 w1 w2 hbit)
  delta decMajor1A at major
  delta decFcmp at fcmp
  exact ⟨.of_words (fcmp _ _ (word_div_mod _ _ _ _ rfl rfl)), .of_words (major _ _)⟩

theorem roundTrips_major1B (d a : Reg) (n : BitVec 11) : RoundTrips (.csrr d n) ∧ RoundTrips (.csrw d a n) ∧ RoundTrips (.csrs d a n) ∧
    RoundTrips (.csrc d a n) := by
  have major : ∀ w1 w2, w1 / 2 % 128 = 0x1B → decodeWords w1 w2 = decMajor1B w1 w2 := fun w1 w2 h => by rw [decodeWords, h]; rfl
  delta decMajor1B at major
  and_intros <;> exact .of_words (major _ _)

theorem roundTrips_major1C (d a b : Reg) (u : Bool) : RoundTrips (.amoadd d a b) ∧ RoundTrips (.amomin u d a b) ∧
    RoundTrips (.amomax u d a b) ∧ RoundTrips (.amoand d a b) ∧ RoundTrips (.amoor d a b) ∧ RoundTrips (.amoxor d a b) ∧
    RoundTrips (.amoswap d a b) ∧ RoundTrips (.amocas d a b) := by
  have major : ∀ w1 w2, w1 / 2 % 128 = 0x1C → decodeWords w1 w2 = decMajor1C w1 w2 := fun w1 w2 h => by rw [decodeWords, h]; rfl
  delta decMajor1C at major
  and_intros <;> exact .of_words (major _ _)

theorem roundTrips_major20 (d a b : Reg) (t : Tag) : RoundTrips (.vsetl d a t) ∧ RoundTrips (.vcfg d a b) := by
  have major : ∀ w1 w2, w1 / 2 % 128 = 0x20 → decodeWords w1 w2 = decMajor20 w1 w2 := fun w1 w2 h => by rw [decodeWords, h]; rfl
  delta decMajor20 at major
  and_intros <;> exact .of_words (major _ _)

theorem roundTrips_major21 (p ce : Bool) (k : Option (BitVec 3)) (d a b : Reg) (tk : TokenReq) (t : Tag) (mk : BitVec 3) :
    RoundTrips (.vmv p ce k d a) ∧ RoundTrips (.vmvLong p ce k d a tk) ∧ RoundTrips (.vmvx p ce k d a) ∧
    RoundTrips (.vmvxLong p ce k d a tk) ∧ RoundTrips (.vxmv p ce d a b) ∧ RoundTrips (.vxmvLong p ce d a b tk) ∧ RoundTrips (.vid p ce k d)
    ∧ RoundTrips (.vidLong p ce k d tk) ∧ RoundTrips (.vtag p ce d t) ∧ RoundTrips (.vtagLong p ce d t tk) ∧
    RoundTrips (.vmerge p ce mk d a b) ∧ RoundTrips (.vmergeLong p ce mk d a b tk) := by
  have major : ∀ w1 w2, w1 / 2 % 128 = 0x21 → decodeWords w1 w2 = decMajor21 w1 w2 := fun w1 w2 h => by rw [decodeWords, h]; rfl
  delta decMajor21 at major
  and_intros <;> exact .of_words (major _ _)

theorem roundTrips_major22 (p ce : Bool) (k : Option (BitVec 3)) (d a b : Reg) (tk : TokenReq) : RoundTrips (.vadd p ce k d a b) ∧
    RoundTrips (.vaddLong p ce k d a b tk) ∧ RoundTrips (.vsub p ce k d a b) ∧ RoundTrips (.vsubLong p ce k d a b tk) ∧
    RoundTrips (.vmul p ce k d a b) ∧ RoundTrips (.vmulLong p ce k d a b tk) ∧ RoundTrips (.vmulh p ce k d a b) ∧
    RoundTrips (.vmulhLong p ce k d a b tk) ∧ RoundTrips (.vmin p ce k d a b) ∧ RoundTrips (.vminLong p ce k d a b tk) ∧
    RoundTrips (.vmax p ce k d a b) ∧ RoundTrips (.vmaxLong p ce k d a b tk) ∧ RoundTrips (.vabs p ce k d a) ∧
    RoundTrips (.vabsLong p ce k d a tk) ∧ RoundTrips (.vneg p ce k d a) ∧ RoundTrips (.vnegLong p ce k d a tk) := by
  have major : ∀ w1 w2, w1 / 2 % 128 = 0x22 → decodeWords w1 w2 = decMajor22 w1 w2 := fun w1 w2 h => by rw [decodeWords, h]; rfl
  delta decMajor22 at major
  and_intros <;> exact .of_words (major _ _)

theorem roundTrips_major23 (p ce : Bool) (k : Option (BitVec 3)) (d a b : Reg) (tk : TokenReq) : RoundTrips (.vfma p ce k d a b) ∧
    RoundTrips (.vfmaLong p ce k d a b tk) ∧ RoundTrips (.vfms p ce k d a b) ∧ RoundTrips (.vfmsLong p ce k d a b tk) ∧
    RoundTrips (.vnfma p ce k d a b) ∧ RoundTrips (.vnfmaLong p ce k d a b tk) ∧ RoundTrips (.vdiv p ce k d a b) ∧
    RoundTrips (.vdivLong p ce k d a b tk) ∧ RoundTrips (.vrem p ce k d a b) ∧ RoundTrips (.vremLong p ce k d a b tk) ∧
    RoundTrips (.vsqrt p ce k d a) ∧ RoundTrips (.vsqrtLong p ce k d a tk) ∧ RoundTrips (.vscale p ce k d a b) ∧
    RoundTrips (.vscaleLong p ce k d a b tk) := by
  have major : ∀ w1 w2, w1 / 2 % 128 = 0x23 → decodeWords w1 w2 = decMajor23 w1 w2 := fun w1 w2 h => by rw [decodeWords, h]; rfl
  delta decMajor23 at major
  and_intros <;> exact .of_words (major _ _)

theorem roundTrips_major24 (p ce : Bool) (k : Option (BitVec 3)) (d a b : Reg) (tk : TokenReq) (mk : BitVec 3) :
    RoundTrips (.vand p ce k d a b) ∧ RoundTrips (.vandLong p ce k d a b tk) ∧ RoundTrips (.vor p ce k d a b) ∧
    RoundTrips (.vorLong p ce k d a b tk) ∧ RoundTrips (.vxor p ce k d a b) ∧ RoundTrips (.vxorLong p ce k d a b tk) ∧
    RoundTrips (.vnot p ce k d a) ∧ RoundTrips (.vnotLong p ce k d a tk) ∧ RoundTrips (.vclz p ce k d a) ∧
    RoundTrips (.vclzLong p ce k d a tk) ∧ RoundTrips (.vpopc p ce k d a) ∧ RoundTrips (.vpopcLong p ce k d a tk) ∧
    RoundTrips (.vadc p ce mk d a b) ∧ RoundTrips (.vadcLong p ce mk d a b tk) ∧ RoundTrips (.vsbc p ce mk d a b) ∧
    RoundTrips (.vsbcLong p ce mk d a b tk) := by
  have major : ∀ w1 w2, w1 / 2 % 128 = 0x24 → decodeWords w1 w2 = decMajor24 w1 w2 := fun w1 w2 h => by rw [decodeWords, h]; rfl
  delta decMajor24 at major
  and_intros <;> exact .of_words (major _ _)

theorem roundTrips_major25 (p ce : Bool) (k : Option (BitVec 3)) (d a b : Reg) (tk : TokenReq) : RoundTrips (.vshl p ce k d a b) ∧
    RoundTrips (.vshlLong p ce k d a b tk) ∧ RoundTrips (.vshr p ce k d a b) ∧ RoundTrips (.vshrLong p ce k d a b tk) ∧
    RoundTrips (.vshra p ce k d a b) ∧ RoundTrips (.vshraLong p ce k d a b tk) ∧ RoundTrips (.vrol p ce k d a b) ∧
    RoundTrips (.vrolLong p ce k d a b tk) ∧ RoundTrips (.vfshl p ce k d a b) ∧ RoundTrips (.vfshlLong p ce k d a b tk) ∧
    RoundTrips (.vfshr p ce k d a b) ∧ RoundTrips (.vfshrLong p ce k d a b tk) := by
  have major : ∀ w1 w2, w1 / 2 % 128 = 0x25 → decodeWords w1 w2 = decMajor25 w1 w2 := fun w1 w2 h => by rw [decodeWords, h]; rfl
  delta decMajor25 at major
  and_intros <;> exact .of_words (major _ _)

theorem roundTrips_major26 (p ce : Bool) (k : Option (BitVec 3)) (c d : BitVec 3) (a b : Reg) (tk : TokenReq) :
    RoundTrips (.vcmp p ce k c d a b) ∧ RoundTrips (.vcmpLong p ce k c d a b tk) := by
  have major : ∀ w1 w2, w1 / 2 % 128 = 0x26 → decodeWords w1 w2 = decMajor26 w1 w2 := fun w1 w2 h => by rw [decodeWords, h]; rfl
  delta decMajor26 at major
  have hc7 : decide (c.toNat ≠ 7) = true → c.toNat ≠ 7 := of_decide_eq_true
  exact ⟨.of_wf hc7 fun _ => .of_words (major _ _), .of_wf hc7 fun _ => .of_words (major _ _)⟩

theorem roundTrips_major27 (p ce : Bool) (k : Option (BitVec 3)) (d a : Reg) (t : Tag) (tk : TokenReq) : RoundTrips (.vcvt p ce k d a t) ∧
    RoundTrips (.vcvtLong p ce k d a t tk) := by
  have major : ∀ w1 w2, w1 / 2 % 128 = 0x27 → decodeWords w1 w2 = decMajor27 w1 w2 := fun w1 w2 h => by rw [decodeWords, h]; rfl
  delta decMajor27 at major
  and_intros <;> exact .of_words (major _ _)

theorem roundTrips_major28 (p ce : Bool) (k : Option (BitVec 3)) (d a : Reg) (tk : TokenReq) : RoundTrips (.vrcp p ce k d a) ∧
    RoundTrips (.vrcpLong p ce k d a tk) ∧ RoundTrips (.vrsqrt p ce k d a) ∧ RoundTrips (.vrsqrtLong p ce k d a tk) ∧
    RoundTrips (.vexp2 p ce k d a) ∧ RoundTrips (.vexp2Long p ce k d a tk) ∧ RoundTrips (.vlog2 p ce k d a) ∧
    RoundTrips (.vlog2Long p ce k d a tk) ∧ RoundTrips (.vexp p ce k d a) ∧ RoundTrips (.vexpLong p ce k d a tk) ∧
    RoundTrips (.vlog p ce k d a) ∧ RoundTrips (.vlogLong p ce k d a tk) ∧ RoundTrips (.vtanh p ce k d a) ∧
    RoundTrips (.vtanhLong p ce k d a tk) := by
  have major : ∀ w1 w2, w1 / 2 % 128 = 0x28 → decodeWords w1 w2 = decMajor28 w1 w2 := fun w1 w2 h => by rw [decodeWords, h]; rfl
  delta decMajor28 at major
  and_intros <;> exact .of_words (major _ _)

theorem roundTrips_major29 (p ce : Bool) (d3 a b3 : BitVec 3) (tk : TokenReq) (d b : Reg) : RoundTrips (.mand p ce d3 a b3) ∧
    RoundTrips (.mandLong p ce d3 a b3 tk) ∧ RoundTrips (.mor p ce d3 a b3) ∧ RoundTrips (.morLong p ce d3 a b3 tk) ∧
    RoundTrips (.mxor p ce d3 a b3) ∧ RoundTrips (.mxorLong p ce d3 a b3 tk) ∧ RoundTrips (.mnot p ce d3 a) ∧
    RoundTrips (.mnotLong p ce d3 a tk) ∧ RoundTrips (.mcnt p ce d a) ∧ RoundTrips (.mcntLong p ce d a tk) ∧ RoundTrips (.mfirst p ce d a) ∧
    RoundTrips (.mfirstLong p ce d a tk) ∧ RoundTrips (.mshl p ce d3 a b) ∧ RoundTrips (.mshlLong p ce d3 a b tk) := by
  have major : ∀ w1 w2, w1 / 2 % 128 = 0x29 → decodeWords w1 w2 = decMajor29 w1 w2 := fun w1 w2 h => by rw [decodeWords, h]; rfl
  delta decMajor29 at major
  and_intros <;> exact .of_words (major _ _)

theorem roundTrips_major2A (ce : Bool) (k : Option (BitVec 3)) (d a o : Reg) (tk : TokenReq) (mk a3 : BitVec 3) :
    RoundTrips (.vred ce k d a o) ∧ RoundTrips (.vredLong ce k d a o tk) ∧ RoundTrips (.vscan ce k d a o) ∧
    RoundTrips (.vscanLong ce k d a o tk) ∧ RoundTrips (.vscanSeg ce mk d a o) ∧ RoundTrips (.vscanSegLong ce mk d a o tk) ∧
    RoundTrips (.vprefixpop ce k d a3) ∧ RoundTrips (.vprefixpopLong ce k d a3 tk) ∧ RoundTrips (.vconflict ce k d a) ∧
    RoundTrips (.vconflictLong ce k d a tk) ∧ RoundTrips (.vcompress ce k d a) ∧ RoundTrips (.vcompressLong ce k d a tk) ∧
    RoundTrips (.vexpand ce k d a) ∧ RoundTrips (.vexpandLong ce k d a tk) := by
  have major : ∀ w1 w2, w1 / 2 % 128 = 0x2A → decodeWords w1 w2 = decMajor2A w1 w2 := fun w1 w2 h => by rw [decodeWords, h]; rfl
  delta decMajor2A at major
  and_intros <;> exact .of_words (major _ _)

theorem roundTrips_major2B (ce : Bool) (k : Option (BitVec 3)) (d a b : Reg) (tk : TokenReq) : RoundTrips (.vperm ce k d a b) ∧
    RoundTrips (.vpermLong ce k d a b tk) ∧ RoundTrips (.vslideup ce k d a b) ∧ RoundTrips (.vslideupLong ce k d a b tk) ∧
    RoundTrips (.vslidedn ce k d a b) ∧ RoundTrips (.vslidednLong ce k d a b tk) ∧ RoundTrips (.vzip ce k d a b) ∧
    RoundTrips (.vzipLong ce k d a b tk) ∧ RoundTrips (.vunzip ce k d a b) ∧ RoundTrips (.vunzipLong ce k d a b tk) := by
  have major : ∀ w1 w2, w1 / 2 % 128 = 0x2B → decodeWords w1 w2 = decMajor2B w1 w2 := fun w1 w2 h => by rw [decodeWords, h]; rfl
  delta decMajor2B at major
  and_intros <;> exact .of_words (major _ _)

theorem roundTrips_major2C (ce : Bool) (k : Option (BitVec 3)) (d a b : Reg) (tk : TokenReq) : RoundTrips (.vtopk ce k d a b) ∧
    RoundTrips (.vtopkLong ce k d a b tk) ∧ RoundTrips (.visect ce d a b) ∧ RoundTrips (.visectLong ce d a b tk) ∧
    RoundTrips (.vunion ce d a b) ∧ RoundTrips (.vunionLong ce d a b tk) ∧ RoundTrips (.vmrg ce d a b) ∧ RoundTrips (.vmrgLong ce d a b tk)
    := by
  have major : ∀ w1 w2, w1 / 2 % 128 = 0x2C → decodeWords w1 w2 = decMajor2C w1 w2 := fun w1 w2 h => by rw [decodeWords, h]; rfl
  delta decMajor2C at major
  and_intros <;> exact .of_words (major _ _)

theorem roundTrips_major30 (ce cv : Bool) (k : Option (BitVec 3)) (d a b : Reg) (tk : TokenReq) (mtag : BitVec 4) (te : Option Tag) :
    RoundTrips (.vld ce k d a) ∧ RoundTrips (.vldLong ce k d a tk mtag cv te) ∧ RoundTrips (.vlds ce k d a b) ∧
    RoundTrips (.vldsLong ce k d a b tk mtag cv te) ∧ RoundTrips (.vldx ce k d a b) ∧ RoundTrips (.vldxLong ce k d a b tk mtag cv te) ∧
    RoundTrips (.pfetch ce a b) ∧ RoundTrips (.pfetchLong ce a b tk) := by
  have major : ∀ w1 w2, w1 / 2 % 128 = 0x30 → decodeWords w1 w2 = decMajor30 w1 w2 := fun w1 w2 h => by rw [decodeWords, h]; rfl
  delta decMajor30 at major
  and_intros <;> exact .of_words (major _ _)

theorem roundTrips_major31 (ce : Bool) (k : Option (BitVec 3)) (d a b : Reg) (tk : TokenReq) (mk : BitVec 3) : RoundTrips (.vst ce k d a) ∧
    RoundTrips (.vstLong ce k d a tk) ∧ RoundTrips (.vsts ce k d a b) ∧ RoundTrips (.vstsLong ce k d a b tk) ∧ RoundTrips (.vstx ce k d a b)
    ∧ RoundTrips (.vstxLong ce k d a b tk) ∧ RoundTrips (.vstxaAdd ce k d a b) ∧ RoundTrips (.vstxaAddLong ce k d a b tk) ∧
    RoundTrips (.vstb ce mk d a) ∧ RoundTrips (.vstbLong ce mk d a tk) ∧ RoundTrips (.vstxaMin ce k d a b) ∧
    RoundTrips (.vstxaMinLong ce k d a b tk) ∧ RoundTrips (.vstxaMax ce k d a b) ∧ RoundTrips (.vstxaMaxLong ce k d a b tk) := by
  have major : ∀ w1 w2, w1 / 2 % 128 = 0x31 → decodeWords w1 w2 = decMajor31 w1 w2 := fun w1 w2 h => by rw [decodeWords, h]; rfl
  delta decMajor31 at major
  and_intros <;> exact .of_words (major _ _)

theorem roundTrips_major50 (d3 a3 : BitVec 3) (a b d : Reg) (tk : TokenReq) (ot : Tag) (d2 : BitVec 2) : RoundTrips (.tld d3 a b) ∧
    RoundTrips (.tldLong d3 a b tk ot) ∧ RoundTrips (.bld d a) ∧ RoundTrips (.bldLong d a tk ot) ∧ RoundTrips (.bst d a3) ∧
    RoundTrips (.bstLong d a3 tk) ∧ RoundTrips (.accst d2 a b) ∧ RoundTrips (.accstLong d2 a b tk) := by
  have major : ∀ w1 w2, w1 / 2 % 128 = 0x50 → decodeWords w1 w2 = decMajor50 w1 w2 := fun w1 w2 h => by rw [decodeWords, h]; rfl
  delta decMajor50 at major
  and_intros <;> exact .of_words (major _ _)

theorem roundTrips_major51 (d3 : BitVec 3) (a d : Reg) (tk : TokenReq) (a2 d2 : BitVec 2) (t : Tag) : RoundTrips (.tmv d3 a) ∧
    RoundTrips (.tmvLong d3 a tk) ∧ RoundTrips (.accmv d a2 t) ∧ RoundTrips (.accmvLong d a2 t tk) ∧ RoundTrips (.azero d2 t) ∧
    RoundTrips (.azeroLong d2 t tk) ∧ RoundTrips (.tclass d a) ∧ RoundTrips (.msync) := by
  have major : ∀ w1 w2, w1 / 2 % 128 = 0x51 → decodeWords w1 w2 = decMajor51 w1 w2 := fun w1 w2 h => by rw [decodeWords, h]; rfl
  delta decMajor51 at major
  and_intros <;> exact .of_words (major _ _)

theorem roundTrips_major52 (d : BitVec 2) (a : BitVec 3) (b : Reg) (tk : TokenReq) (atg btg : Tag) (sct : Option (BitVec 3)) :
    RoundTrips (.mma d a b tk atg btg sct) ∧ RoundTrips (.mmaz d a b tk atg btg sct) ∧ RoundTrips (.mmai d a b tk atg btg sct) ∧
    RoundTrips (.mmas d a b tk atg btg sct) := by
  have major : ∀ w1 w2, w1 / 2 % 128 = 0x52 → decodeWords w1 w2 = decMajor52 w1 w2 := fun w1 w2 h => by rw [decodeWords, h]; rfl
  delta decMajor52 at major
  and_intros <;> exact .of_words (major _ _)

theorem roundTrips_major5C (d a b : Reg) (tk : TokenReq) (sp rs : BitVec 5) (quad dit tm str conj bc : Bool) (rc dir : BitVec 2) :
    RoundTrips (.xcfg d a b) ∧ RoundTrips (.xtwid d a b tk) ∧ RoundTrips (.xstage d a b tk sp quad dit tm rc) ∧
    RoundTrips (.xperm d a tk rs str) ∧ RoundTrips (.xpoint d a b tk conj bc) ∧ RoundTrips (.xnorm d a tk dir) ∧ RoundTrips (.xmodchk d a) ∧
    RoundTrips (.xsync) := by
  have major : ∀ w1 w2, w1 / 2 % 128 = 0x5C → decodeWords w1 w2 = decMajor5C w1 w2 := fun w1 w2 h => by rw [decodeWords, h]; rfl
  delta decMajor5C at major
  and_intros <;> exact .of_words (major _ _)

theorem roundTrips_major64 (d a b : Reg) (ch h tkf f : BitVec 4) (t : Tag) (esz : BitVec 3) (dep : BitVec 8) (tke : Bool) :
    RoundTrips (.sbind d a b ch t) ∧ RoundTrips (.sunbind h) ∧ RoundTrips (.scopy d a b ch esz dep tke tkf) ∧ RoundTrips (.swmark d a h) ∧
    RoundTrips (.swait d a h) ∧ RoundTrips (.tkpush f) ∧ RoundTrips (.tkpop f) := by
  have major : ∀ w1 w2, w1 / 2 % 128 = 0x64 → decodeWords w1 w2 = decMajor64 w1 w2 := fun w1 w2 h => by rw [decodeWords, h]; rfl
  delta decMajor64 at major
  and_intros <;> exact .of_words (major _ _)

theorem roundTrips_major68 (d a b : Reg) : RoundTrips (.barinit d a b) ∧ RoundTrips (.bararr d a) ∧ RoundTrips (.barwait d a b) ∧
    RoundTrips (.bar d a) ∧ RoundTrips (.barfree a) := by
  have major : ∀ w1 w2, w1 / 2 % 128 = 0x68 → decodeWords w1 w2 = decMajor68 w1 w2 := fun w1 w2 h => by rw [decodeWords, h]; rfl
  delta decMajor68 at major
  and_intros <;> exact .of_words (major _ _)

theorem roundTrips_major69 (kd : BitVec 2) (sc : BitVec 3) (d a : Reg) : RoundTrips (.fence kd sc) ∧ RoundTrips (.cpfence) ∧
    RoundTrips (.vsync) ∧ RoundTrips (.lda d a sc) ∧ RoundTrips (.strl d a sc) := by
  have major : ∀ w1 w2, w1 / 2 % 128 = 0x69 → decodeWords w1 w2 = decMajor69 w1 w2 := fun w1 w2 h => by rw [decodeWords, h]; rfl
  delta decMajor69 at major
  and_intros <;> exact .of_words (major _ _)

theorem roundTrips_major6C (d a b : Reg) (rm : BitVec 4) : RoundTrips (.mcst d a b rm) ∧ RoundTrips (.tickget d a b) ∧
    RoundTrips (.tickwait a) ∧ RoundTrips (.tickdone a) := by
  have major : ∀ w1 w2, w1 / 2 % 128 = 0x6C → decodeWords w1 w2 = decMajor6C w1 w2 := fun w1 w2 h => by rw [decodeWords, h]; rfl
  delta decMajor6C at major
  and_intros <;> exact .of_words (major _ _)

theorem roundTrips_major6D (d a b tr : Reg) (esz : BitVec 3) : RoundTrips (.mpost d a esz) ∧ RoundTrips (.msend d a b tr) ∧
    RoundTrips (.mwait d a) ∧ RoundTrips (.mprobe d a) ∧ RoundTrips (.mcancel d a) ∧ RoundTrips (.mdrip d a) := by
  have major : ∀ w1 w2, w1 / 2 % 128 = 0x6D → decodeWords w1 w2 = decMajor6D w1 w2 := fun w1 w2 h => by rw [decodeWords, h]; rfl
  delta decMajor6D at major
  and_intros <;> exact .of_words (major _ _)

theorem roundTrips_major70 (d a b lr : Reg) (dep rb : BitVec 3) : RoundTrips (.kvsub d a dep rb) ∧ RoundTrips (.kvunsub d a) ∧
    RoundTrips (.kvpass d a b) ∧ RoundTrips (.kvrecv d) ∧ RoundTrips (.kvpart d a b lr) ∧ RoundTrips (.kvdone d a) ∧
    RoundTrips (.kvstat d a) := by
  have major : ∀ w1 w2, w1 / 2 % 128 = 0x70 → decodeWords w1 w2 = decMajor70 w1 w2 := fun w1 w2 h => by rw [decodeWords, h]; rfl
  delta decMajor70 at major
  and_intros <;> exact .of_words (major _ _)

theorem roundTrips_major74 (a b d : Reg) : RoundTrips (.trap a) ∧ RoundTrips (.rte) ∧ RoundTrips (.halt) ∧ RoundTrips (.wfe a b) ∧
    RoundTrips (.ctxyield d) ∧ RoundTrips (.ctxsave d) ∧ RoundTrips (.ctxload d a) := by
  have major : ∀ w1 w2, w1 / 2 % 128 = 0x74 → decodeWords w1 w2 = decMajor74 w1 w2 := fun w1 w2 h => by rw [decodeWords, h]; rfl
  delta decMajor74 at major
  and_intros <;> exact .of_words (major _ _)

theorem roundTrips_major75 (d a b : Reg) : RoundTrips (.qwait d a) ∧ RoundTrips (.qprio d a b) ∧ RoundTrips (.htokwait d a) ∧
    RoundTrips (.htokraise a b) := by
  have major : ∀ w1 w2, w1 / 2 % 128 = 0x75 → decodeWords w1 w2 = decMajor75 w1 w2 := fun w1 w2 h => by rw [decodeWords, h]; rfl
  delta decMajor75 at major
  and_intros <;> exact .of_words (major _ _)

theorem roundTrips_major76 (d a : Reg) : RoundTrips (.klaunch d a) ∧ RoundTrips (.kend) ∧ RoundTrips (.kstat d a) := by
  have major : ∀ w1 w2, w1 / 2 % 128 = 0x76 → decodeWords w1 w2 = decMajor76 w1 w2 := fun w1 w2 h => by rw [decodeWords, h]; rfl
  delta decMajor76 at major
  and_intros <;> exact .of_words (major _ _)

theorem roundTrips_major77 : RoundTrips (.gterm) ∧ RoundTrips (.gyield) := by
  have major : ∀ w1 w2, w1 / 2 % 128 = 0x77 → decodeWords w1 w2 = decMajor77 w1 w2 := fun w1 w2 h => by rw [decodeWords, h]; rfl
  delta decMajor77 at major
  and_intros <;> exact .of_words (major _ _)

theorem roundTrips_major78 (d a b : Reg) : RoundTrips (.sdrain) ∧ RoundTrips (.sfrpop d) ∧ RoundTrips (.tlbinv a b) ∧
    RoundTrips (.pgprobe d a b) := by
  have major : ∀ w1 w2, w1 / 2 % 128 = 0x78 → decodeWords w1 w2 = decMajor78 w1 w2 := fun w1 w2 h => by rw [decodeWords, h]; rfl
  delta decMajor78 at major
  and_intros <;> exact .of_words (major _ _)

/-- Every instruction with words goes round: each one is a row of its major opcode's decoder. -/
theorem roundTrips (i : Instr) (he : i.encoded = true) : RoundTrips i := by
  cases i with
  | add d a b | sub d a b | and d a b | or d a b | xor d a b | shl d a b | shr d a b | shra d a b =>
    simp only [roundTrips_major01 d a b]
  | mul d a b | mulh d a b | mulhn d a b | div d a b | divn d a b | rem d a b | remn d a b =>
    simp only [roundTrips_major02 d a b]
  | rol d a b | min d a b | max d a b | minn d a b | maxn d a b =>
    simp only [roundTrips_major03 d a b]
  | clz d a | ctz d a | popc d a =>
    simp only [roundTrips_major03 d a 0]
  | slt d a b | sltn d a b | sel d a b =>
    simp only [roundTrips_major04 d a b]
  | addi d a i =>
    simp only [roundTrips_major05 d a i 0]
  | addiLong d a v =>
    simp only [roundTrips_major05 d a 0 v]
  | andi d a i =>
    simp only [roundTrips_major06 d a i 0]
  | andiLong d a v =>
    simp only [roundTrips_major06 d a 0 v]
  | ori d a i =>
    simp only [roundTrips_major07 d a i 0]
  | oriLong d a v =>
    simp only [roundTrips_major07 d a 0 v]
  | xori d a i =>
    simp only [roundTrips_major08 d a i 0]
  | xoriLong d a v =>
    simp only [roundTrips_major08 d a 0 v]
  | slti d a i =>
    simp only [roundTrips_major09 d a i 0]
  | sltiLong d a v =>
    simp only [roundTrips_major09 d a 0 v]
  | shli d a n | shri d a n | shrai d a n =>
    simp only [roundTrips_major0A d a n]
  | ldi d i =>
    simp only [roundTrips_major0B d i 0]
  | ldiLong d v =>
    simp only [roundTrips_major0B d 0 v]
  | ldih d v =>
    simp only [roundTrips_major0C d v]
  | addpc d i =>
    simp only [roundTrips_major0D d i 0]
  | addpcLong d v =>
    simp only [roundTrips_major0D d 0 v]
  | ld w d a n =>
    simp only [roundTrips_major0E w d a n 0]
  | ldLong w d a v =>
    simp only [roundTrips_major0E w d a 0 v]
  | st w d a n =>
    simp only [roundTrips_major0F w d a n 0]
  | stLong w d a v =>
    simp only [roundTrips_major0F w d a 0 v]
  | beq d a o =>
    simp only [roundTrips_major10 d a o 0]
  | beqLong d a v =>
    simp only [roundTrips_major10 d a 0 v]
  | bne d a o =>
    simp only [roundTrips_major11 d a o 0]
  | bneLong d a v =>
    simp only [roundTrips_major11 d a 0 v]
  | blt d a o =>
    simp only [roundTrips_major12 d a o 0]
  | bltLong d a v =>
    simp only [roundTrips_major12 d a 0 v]
  | bge d a o =>
    simp only [roundTrips_major13 d a o 0]
  | bgeLong d a v =>
    simp only [roundTrips_major13 d a 0 v]
  | bltn d a o =>
    simp only [roundTrips_major14 d a o 0]
  | bltnLong d a v =>
    simp only [roundTrips_major14 d a 0 v]
  | bgen d a o =>
    simp only [roundTrips_major15 d a o 0]
  | bgenLong d a v =>
    simp only [roundTrips_major15 d a 0 v]
  | jal d i =>
    simp only [roundTrips_major16 d i 0]
  | jalLong d v =>
    simp only [roundTrips_major16 d 0 v]
  | jalr d a i =>
    simp only [roundTrips_major17 d a i 0]
  | jalrLong d a v =>
    simp only [roundTrips_major17 d a 0 v]
  | loop d o =>
    simp only [roundTrips_major18 d o 0]
  | loopLong d v =>
    simp only [roundTrips_major18 d 0 v]
  | fadd p d a b | fsub p d a b | fmul p d a b | fdiv p d a b | fmin p d a b | fmax p d a b | ffma p d a b =>
    simp only [roundTrips_major19 p d a b]
  | fsqrt p d a =>
    simp only [roundTrips_major19 p d a 0]
  | fcmp p c d a b =>
    simp only [roundTrips_major1A p c d a b 0]
  | fcvt d a cvs =>
    simp only [roundTrips_major1A false 0 d a 0 cvs]
  | csrr d n =>
    simp only [roundTrips_major1B d 0 n]
  | csrw d a n | csrs d a n | csrc d a n =>
    simp only [roundTrips_major1B d a n]
  | amoadd d a b | amoand d a b | amoor d a b | amoxor d a b | amoswap d a b | amocas d a b =>
    simp only [roundTrips_major1C d a b false]
  | amomin u d a b | amomax u d a b =>
    simp only [roundTrips_major1C d a b u]
  | vsetl d a t =>
    simp only [roundTrips_major20 d a 0 t]
  | vcfg d a b =>
    simp only [roundTrips_major20 d a b .s8]
  | vmv p ce k d a | vmvx p ce k d a =>
    simp only [roundTrips_major21 p ce k d a 0 .idle .s8 0]
  | vmvLong p ce k d a tk | vmvxLong p ce k d a tk =>
    simp only [roundTrips_major21 p ce k d a 0 tk .s8 0]
  | vxmv p ce d a b =>
    simp only [roundTrips_major21 p ce none d a b .idle .s8 0]
  | vxmvLong p ce d a b tk =>
    simp only [roundTrips_major21 p ce none d a b tk .s8 0]
  | vid p ce k d =>
    simp only [roundTrips_major21 p ce k d 0 0 .idle .s8 0]
  | vidLong p ce k d tk =>
    simp only [roundTrips_major21 p ce k d 0 0 tk .s8 0]
  | vtag p ce d t =>
    simp only [roundTrips_major21 p ce none d 0 0 .idle t 0]
  | vtagLong p ce d t tk =>
    simp only [roundTrips_major21 p ce none d 0 0 tk t 0]
  | vmerge p ce mk d a b =>
    simp only [roundTrips_major21 p ce none d a b .idle .s8 mk]
  | vmergeLong p ce mk d a b tk =>
    simp only [roundTrips_major21 p ce none d a b tk .s8 mk]
  | vadd p ce k d a b | vsub p ce k d a b | vmul p ce k d a b | vmulh p ce k d a b | vmin p ce k d a b | vmax p ce k d a b =>
    simp only [roundTrips_major22 p ce k d a b .idle]
  | vaddLong p ce k d a b tk | vsubLong p ce k d a b tk | vmulLong p ce k d a b tk | vmulhLong p ce k d a b tk | vminLong p ce k d a b tk
    | vmaxLong p ce k d a b tk =>
    simp only [roundTrips_major22 p ce k d a b tk]
  | vabs p ce k d a | vneg p ce k d a =>
    simp only [roundTrips_major22 p ce k d a 0 .idle]
  | vabsLong p ce k d a tk | vnegLong p ce k d a tk =>
    simp only [roundTrips_major22 p ce k d a 0 tk]
  | vfma p ce k d a b | vfms p ce k d a b | vnfma p ce k d a b | vdiv p ce k d a b | vrem p ce k d a b | vscale p ce k d a b =>
    simp only [roundTrips_major23 p ce k d a b .idle]
  | vfmaLong p ce k d a b tk | vfmsLong p ce k d a b tk | vnfmaLong p ce k d a b tk | vdivLong p ce k d a b tk | vremLong p ce k d a b tk
    | vscaleLong p ce k d a b tk =>
    simp only [roundTrips_major23 p ce k d a b tk]
  | vsqrt p ce k d a =>
    simp only [roundTrips_major23 p ce k d a 0 .idle]
  | vsqrtLong p ce k d a tk =>
    simp only [roundTrips_major23 p ce k d a 0 tk]
  | vand p ce k d a b | vor p ce k d a b | vxor p ce k d a b =>
    simp only [roundTrips_major24 p ce k d a b .idle 0]
  | vandLong p ce k d a b tk | vorLong p ce k d a b tk | vxorLong p ce k d a b tk =>
    simp only [roundTrips_major24 p ce k d a b tk 0]
  | vnot p ce k d a | vclz p ce k d a | vpopc p ce k d a =>
    simp only [roundTrips_major24 p ce k d a 0 .idle 0]
  | vnotLong p ce k d a tk | vclzLong p ce k d a tk | vpopcLong p ce k d a tk =>
    simp only [roundTrips_major24 p ce k d a 0 tk 0]
  | vadc p ce mk d a b | vsbc p ce mk d a b =>
    simp only [roundTrips_major24 p ce none d a b .idle mk]
  | vadcLong p ce mk d a b tk | vsbcLong p ce mk d a b tk =>
    simp only [roundTrips_major24 p ce none d a b tk mk]
  | vshl p ce k d a b | vshr p ce k d a b | vshra p ce k d a b | vrol p ce k d a b | vfshl p ce k d a b | vfshr p ce k d a b =>
    simp only [roundTrips_major25 p ce k d a b .idle]
  | vshlLong p ce k d a b tk | vshrLong p ce k d a b tk | vshraLong p ce k d a b tk | vrolLong p ce k d a b tk | vfshlLong p ce k d a b tk
    | vfshrLong p ce k d a b tk =>
    simp only [roundTrips_major25 p ce k d a b tk]
  | vcmp p ce k c d a b =>
    simp only [roundTrips_major26 p ce k c d a b .idle]
  | vcmpLong p ce k c d a b tk =>
    simp only [roundTrips_major26 p ce k c d a b tk]
  | vcvt p ce k d a t =>
    simp only [roundTrips_major27 p ce k d a t .idle]
  | vcvtLong p ce k d a t tk =>
    simp only [roundTrips_major27 p ce k d a t tk]
  | vrcp p ce k d a | vrsqrt p ce k d a | vexp2 p ce k d a | vlog2 p ce k d a | vexp p ce k d a | vlog p ce k d a | vtanh p ce k d a =>
    simp only [roundTrips_major28 p ce k d a .idle]
  | vrcpLong p ce k d a tk | vrsqrtLong p ce k d a tk | vexp2Long p ce k d a tk | vlog2Long p ce k d a tk | vexpLong p ce k d a tk
    | vlogLong p ce k d a tk | vtanhLong p ce k d a tk =>
    simp only [roundTrips_major28 p ce k d a tk]
  | mand p ce d3 a b3 | mor p ce d3 a b3 | mxor p ce d3 a b3 =>
    simp only [roundTrips_major29 p ce d3 a b3 .idle 0 0]
  | mandLong p ce d3 a b3 tk | morLong p ce d3 a b3 tk | mxorLong p ce d3 a b3 tk =>
    simp only [roundTrips_major29 p ce d3 a b3 tk 0 0]
  | mnot p ce d3 a =>
    simp only [roundTrips_major29 p ce d3 a 0 .idle 0 0]
  | mnotLong p ce d3 a tk =>
    simp only [roundTrips_major29 p ce d3 a 0 tk 0 0]
  | mcnt p ce d a | mfirst p ce d a =>
    simp only [roundTrips_major29 p ce 0 a 0 .idle d 0]
  | mcntLong p ce d a tk | mfirstLong p ce d a tk =>
    simp only [roundTrips_major29 p ce 0 a 0 tk d 0]
  | mshl p ce d3 a b =>
    simp only [roundTrips_major29 p ce d3 a 0 .idle 0 b]
  | mshlLong p ce d3 a b tk =>
    simp only [roundTrips_major29 p ce d3 a 0 tk 0 b]
  | vred ce k d a o | vscan ce k d a o =>
    simp only [roundTrips_major2A ce k d a o .idle 0 0]
  | vredLong ce k d a o tk | vscanLong ce k d a o tk =>
    simp only [roundTrips_major2A ce k d a o tk 0 0]
  | vscanSeg ce mk d a o =>
    simp only [roundTrips_major2A ce none d a o .idle mk 0]
  | vscanSegLong ce mk d a o tk =>
    simp only [roundTrips_major2A ce none d a o tk mk 0]
  | vprefixpop ce k d a3 =>
    simp only [roundTrips_major2A ce k d 0 0 .idle 0 a3]
  | vprefixpopLong ce k d a3 tk =>
    simp only [roundTrips_major2A ce k d 0 0 tk 0 a3]
  | vconflict ce k d a | vcompress ce k d a | vexpand ce k d a =>
    simp only [roundTrips_major2A ce k d a 0 .idle 0 0]
  | vconflictLong ce k d a tk | vcompressLong ce k d a tk | vexpandLong ce k d a tk =>
    simp only [roundTrips_major2A ce k d a 0 tk 0 0]
  | vperm ce k d a b | vslideup ce k d a b | vslidedn ce k d a b | vzip ce k d a b | vunzip ce k d a b =>
    simp only [roundTrips_major2B ce k d a b .idle]
  | vpermLong ce k d a b tk | vslideupLong ce k d a b tk | vslidednLong ce k d a b tk | vzipLong ce k d a b tk | vunzipLong ce k d a b tk =>
    simp only [roundTrips_major2B ce k d a b tk]
  | vtopk ce k d a b =>
    simp only [roundTrips_major2C ce k d a b .idle]
  | vtopkLong ce k d a b tk =>
    simp only [roundTrips_major2C ce k d a b tk]
  | visect ce d a b | vunion ce d a b | vmrg ce d a b =>
    simp only [roundTrips_major2C ce none d a b .idle]
  | visectLong ce d a b tk | vunionLong ce d a b tk | vmrgLong ce d a b tk =>
    simp only [roundTrips_major2C ce none d a b tk]
  | vld ce k d a =>
    simp only [roundTrips_major30 ce false k d a 0 .idle 0 none]
  | vldLong ce k d a tk mtag cv te =>
    simp only [roundTrips_major30 ce cv k d a 0 tk mtag te]
  | vlds ce k d a b | vldx ce k d a b =>
    simp only [roundTrips_major30 ce false k d a b .idle 0 none]
  | vldsLong ce k d a b tk mtag cv te | vldxLong ce k d a b tk mtag cv te =>
    simp only [roundTrips_major30 ce cv k d a b tk mtag te]
  | pfetch ce a b =>
    simp only [roundTrips_major30 ce false none 0 a b .idle 0 none]
  | pfetchLong ce a b tk =>
    simp only [roundTrips_major30 ce false none 0 a b tk 0 none]
  | vst ce k d a =>
    simp only [roundTrips_major31 ce k d a 0 .idle 0]
  | vstLong ce k d a tk =>
    simp only [roundTrips_major31 ce k d a 0 tk 0]
  | vsts ce k d a b | vstx ce k d a b | vstxaAdd ce k d a b | vstxaMin ce k d a b | vstxaMax ce k d a b =>
    simp only [roundTrips_major31 ce k d a b .idle 0]
  | vstsLong ce k d a b tk | vstxLong ce k d a b tk | vstxaAddLong ce k d a b tk | vstxaMinLong ce k d a b tk | vstxaMaxLong ce k d a b tk =>
    simp only [roundTrips_major31 ce k d a b tk 0]
  | vstb ce mk d a =>
    simp only [roundTrips_major31 ce none d a 0 .idle mk]
  | vstbLong ce mk d a tk =>
    simp only [roundTrips_major31 ce none d a 0 tk mk]
  | tld d3 a b =>
    simp only [roundTrips_major50 d3 0 a b 0 .idle .s8 0]
  | tldLong d3 a b tk ot =>
    simp only [roundTrips_major50 d3 0 a b 0 tk ot 0]
  | bld d a =>
    simp only [roundTrips_major50 0 0 a 0 d .idle .s8 0]
  | bldLong d a tk ot =>
    simp only [roundTrips_major50 0 0 a 0 d tk ot 0]
  | bst d a3 =>
    simp only [roundTrips_major50 0 a3 0 0 d .idle .s8 0]
  | bstLong d a3 tk =>
    simp only [roundTrips_major50 0 a3 0 0 d tk .s8 0]
  | accst d2 a b =>
    simp only [roundTrips_major50 0 0 a b 0 .idle .s8 d2]
  | accstLong d2 a b tk =>
    simp only [roundTrips_major50 0 0 a b 0 tk .s8 d2]
  | tmv d3 a =>
    simp only [roundTrips_major51 d3 a 0 .idle 0 0 .s8]
  | tmvLong d3 a tk =>
    simp only [roundTrips_major51 d3 a 0 tk 0 0 .s8]
  | accmv d a2 t =>
    simp only [roundTrips_major51 0 0 d .idle a2 0 t]
  | accmvLong d a2 t tk =>
    simp only [roundTrips_major51 0 0 d tk a2 0 t]
  | azero d2 t =>
    simp only [roundTrips_major51 0 0 0 .idle 0 d2 t]
  | azeroLong d2 t tk =>
    simp only [roundTrips_major51 0 0 0 tk 0 d2 t]
  | tclass d a =>
    simp only [roundTrips_major51 0 a d .idle 0 0 .s8]
  | msync =>
    simp only [roundTrips_major51 0 0 0 .idle 0 0 .s8]
  | mma d a b tk atg btg sct | mmaz d a b tk atg btg sct | mmai d a b tk atg btg sct | mmas d a b tk atg btg sct =>
    simp only [roundTrips_major52 d a b tk atg btg sct]
  | xcfg d a b =>
    simp only [roundTrips_major5C d a b .idle 0 0 false false false false false false 0 0]
  | xtwid d a b tk =>
    simp only [roundTrips_major5C d a b tk 0 0 false false false false false false 0 0]
  | xstage d a b tk sp quad dit tm rc =>
    simp only [roundTrips_major5C d a b tk sp 0 quad dit tm false false false rc 0]
  | xperm d a tk rs str =>
    simp only [roundTrips_major5C d a 0 tk 0 rs false false false str false false 0 0]
  | xpoint d a b tk conj bc =>
    simp only [roundTrips_major5C d a b tk 0 0 false false false false conj bc 0 0]
  | xnorm d a tk dir =>
    simp only [roundTrips_major5C d a 0 tk 0 0 false false false false false false 0 dir]
  | xmodchk d a =>
    simp only [roundTrips_major5C d a 0 .idle 0 0 false false false false false false 0 0]
  | xsync =>
    simp only [roundTrips_major5C 0 0 0 .idle 0 0 false false false false false false 0 0]
  | sbind d a b ch t =>
    simp only [roundTrips_major64 d a b ch 0 0 0 t 0 0 false]
  | sunbind h =>
    simp only [roundTrips_major64 0 0 0 0 h 0 0 .s8 0 0 false]
  | scopy d a b ch esz dep tke tkf =>
    simp only [roundTrips_major64 d a b ch 0 tkf 0 .s8 esz dep tke]
  | swmark d a h | swait d a h =>
    simp only [roundTrips_major64 d a 0 0 h 0 0 .s8 0 0 false]
  | tkpush f | tkpop f =>
    simp only [roundTrips_major64 0 0 0 0 0 0 f .s8 0 0 false]
  | barinit d a b | barwait d a b =>
    simp only [roundTrips_major68 d a b]
  | bararr d a | bar d a =>
    simp only [roundTrips_major68 d a 0]
  | barfree a =>
    simp only [roundTrips_major68 0 a 0]
  | fence kd sc =>
    simp only [roundTrips_major69 kd sc 0 0]
  | cpfence | vsync =>
    simp only [roundTrips_major69 0 0 0 0]
  | lda d a sc | strl d a sc =>
    simp only [roundTrips_major69 0 sc d a]
  | mcst d a b rm =>
    simp only [roundTrips_major6C d a b rm]
  | tickget d a b =>
    simp only [roundTrips_major6C d a b 0]
  | tickwait a | tickdone a =>
    simp only [roundTrips_major6C 0 a 0 0]
  | mpost d a esz =>
    simp only [roundTrips_major6D d a 0 0 esz]
  | msend d a b tr =>
    simp only [roundTrips_major6D d a b tr 0]
  | mwait d a | mprobe d a | mcancel d a | mdrip d a =>
    simp only [roundTrips_major6D d a 0 0 0]
  | kvsub d a dep rb =>
    simp only [roundTrips_major70 d a 0 0 dep rb]
  | kvunsub d a | kvdone d a | kvstat d a =>
    simp only [roundTrips_major70 d a 0 0 0 0]
  | kvpass d a b =>
    simp only [roundTrips_major70 d a b 0 0 0]
  | kvrecv d =>
    simp only [roundTrips_major70 d 0 0 0 0 0]
  | kvpart d a b lr =>
    simp only [roundTrips_major70 d a b lr 0 0]
  | trap a =>
    simp only [roundTrips_major74 a 0 0]
  | rte | halt =>
    simp only [roundTrips_major74 0 0 0]
  | wfe a b =>
    simp only [roundTrips_major74 a b 0]
  | ctxyield d | ctxsave d =>
    simp only [roundTrips_major74 0 0 d]
  | ctxload d a =>
    simp only [roundTrips_major74 a 0 d]
  | qwait d a | htokwait d a =>
    simp only [roundTrips_major75 d a 0]
  | qprio d a b =>
    simp only [roundTrips_major75 d a b]
  | htokraise a b =>
    simp only [roundTrips_major75 0 a b]
  | klaunch d a | kstat d a =>
    simp only [roundTrips_major76 d a]
  | kend =>
    simp only [roundTrips_major76 0 0]
  | gterm | gyield =>
    simp only [roundTrips_major77]
  | sdrain =>
    simp only [roundTrips_major78 0 0 0]
  | sfrpop d =>
    simp only [roundTrips_major78 d 0 0]
  | tlbinv a b =>
    simp only [roundTrips_major78 0 a b]
  | pgprobe d a b =>
    simp only [roundTrips_major78 d a b]
  | _ => exact absurd he Bool.false_ne_true

end Sys2Proof.Layout
end

section
namespace Sys2Proof

theorem decode_encode_eq (i : Instr) (h1 : encFirst i < 2 ^ 32) (h2 : encSecond i < 2 ^ 32) :
    decode (encode i) = decodeWords (encFirst i) (encSecond i) := by
  have hfirst : encode i % 2 ^ 32 = encFirst i := by rw [encode, Nat.add_mul_mod_self_right, Nat.mod_eq_of_lt h1]
  have hsecond : encode i / 2 ^ 32 % 2 ^ 32 = encSecond i := by
    rw [encode, Nat.add_mul_div_right _ _ (Nat.two_pow_pos 32), Nat.div_eq_of_lt h1, Nat.zero_add, Nat.mod_eq_of_lt h2]
  rw [decode, hfirst, hsecond]

theorem decode_encode (i : Instr) (he : i.encoded = true) (hw : i.wf = true) :
    decode (encode i) = .ok i ∧ encFirst i < 2 ^ 32 ∧ encSecond i < 2 ^ 32 ∧ (encFirst i % 2 = 0 → encSecond i = 0) := by
  obtain ⟨hdec, h1, h2, hshort⟩ := Layout.roundTrips i he hw
  exact ⟨(decode_encode_eq i h1 h2).trans hdec, h1, h2, hshort⟩

/-- Settles O53: every row of the control thread's majors goes round. -/
theorem scalarRoundTrip : Obligations.ScalarRoundTrip := by
  unfold Obligations.ScalarRoundTrip
  exact fun i he hw _ => decode_encode i he hw

/-- Settles O54: every row of the units' majors goes round. -/
theorem unitRoundTrip : Obligations.UnitRoundTrip := by
  unfold Obligations.UnitRoundTrip
  exact fun i he hw _ => decode_encode i he hw

/-- Settles O58, by evaluation of the decoder on the seven words. -/
theorem decodeSanity : Obligations.DecodeSanity := by
  unfold Obligations.DecodeSanity
  exact ⟨rfl, rfl, rfl, rfl, rfl, rfl, rfl⟩

end Sys2Proof
end

section
namespace Sys2Proof.Machine

/-! ## Turns in a clock in which nothing has happened (notes/assumptions/17) -/

theorem State.overtaken_punctual (s t : State) (h : s.Punctual) : s.overtaken t = false := by
  obtain ⟨hkey, h0, h1⟩ := h
  simp [State.overtaken, hkey, h0, h1, orderKey]

theorem State.tooLate_issue (s : State) (g : Nat) (late : Bool) (h : s.Punctual) (hi : cellOf g ∉ s.issued) : s.tooLate (.issue g late) = false := by
  simp [State.tooLate, h.1, hi]

theorem State.tooLate_event (s : State) (i : Instr) (h : s.Punctual) : s.tooLate (.event i) = false := by
  simp [State.tooLate, h.1]

/-- An actor that comes in time acts in this clock. -/
theorem State.place_punctual (s : State) (a : Actor) (h : s.Punctual) (ht : s.tooLate a = false) :
    s.place a = onNext (s.reach a) (onNext State.settleTurn (s.act a)) := by
  have hmove : s.move a = onNext State.settleTurn (s.act a) := rfl
  rw [State.place, if_neg (by simp [ht]), hmove]
  cases onNext State.settleTurn (s.act a) with
  | next t => simp [State.overtaken_punctual s t h, onNext]
  | _ => rfl

theorem step_cons (s : State) (t : Turn) (rest : List Turn) (h : s.agenda = t :: rest) : step s = ({ s with agenda := rest } : State).turn t := by
  rw [step, h]

/-- The first turn of the agenda, in a clock that has seen nothing of it: its actor acts, and what follows a turn. -/
theorem step_punctual (s u : State) (n : Nat) (a : Actor) (rest : List Turn) (h : s.agenda = Turn.mk n a :: rest)
    (hu : u = ({ s with agenda := rest } : State).tick n) (hp : u.Punctual) (hc : u.chosen a = a) (ht : u.tooLate a = false) :
    step s = onNext (u.reach a) (onNext State.settleTurn (u.act a)) := by
  subst hu
  rw [step_cons s _ rest h, State.turn, hc]
  exact State.place_punctual _ a hp ht

/-! ## An issue turn (R26, R27, R36) -/

theorem State.losesTie_of_mayAct (s : State) (g : Nat) (h : s.mayAct g = true) : s.losesTie g = false := by
  by_cases hp : (s.group g).phase = .preempted
  · simp [State.mayAct, hp] at h
  · simp [State.losesTie, hp]

theorem State.readWord_local (s : State) (g : Nat) (va : Word) (runs : List (Nat × Nat)) (hl : runsLocal g runs = true) (hb : s.runsBad runs = false) :
    s.readWord g va runs = (s, .ok (natOfBytes (s.readRuns runs))) := by
  simp [State.readWord, State.readFor, hl, hb]

theorem State.lookWord_here (s t : State) (g : Nat) (va : Word) (runs : List (Nat × Nat)) (leaf : Nat) (h : s.look g .fetch va.toNat 4 = (t, .here runs leaf)) :
    s.lookWord g va = (t, .ok runs) := by
  rw [State.lookWord, h]

/-- A short instruction's words: the first, which translates and holds good data on the die, and 0. -/
theorem State.fetchWords_short (s s1 : State) (g : Nat) (runs : List (Nat × Nat)) (leaf : Nat)
    (h1 : s.look g .fetch (s.group g).pc.toNat 4 = (s1, .here runs leaf)) (hl : runsLocal g runs = true) (hb : s1.runsBad runs = false)
    (hs : natOfBytes (s1.readRuns runs) % 2 = 0) : s.fetchWords g = (s1, .words (natOfBytes (s1.readRuns runs)) 0) := by
  simp only [State.fetchWords, State.lookWord_here _ _ _ _ _ _ h1, State.readWord_local _ _ _ _ hl hb, hs, if_true]

/-- A long instruction's words: both translate and hold good data on the die. -/
theorem State.fetchWords_long (s s1 s2 : State) (g : Nat) (r1 r2 : List (Nat × Nat)) (l1 l2 : Nat)
    (h1 : s.look g .fetch (s.group g).pc.toNat 4 = (s1, .here r1 l1)) (hl1 : runsLocal g r1 = true) (hb1 : s1.runsBad r1 = false)
    (hs : natOfBytes (s1.readRuns r1) % 2 = 1) (h2 : s1.look g .fetch ((s.group g).pc + 4).toNat 4 = (s2, .here r2 l2))
    (hl2 : runsLocal g r2 = true) (hb2 : s2.runsBad r2 = false) :
    s.fetchWords g = (s2, .words (natOfBytes (s1.readRuns r1)) (natOfBytes (s2.readRuns r2))) := by
  simp only [State.fetchWords, State.lookWord_here _ _ _ _ _ _ h1, State.readWord_local _ _ _ _ hl1 hb1, hs, one_ne_zero, if_false,
    State.lookWord_here _ _ _ _ _ _ h2, State.readWord_local _ _ _ _ hl2 hb2]

/-- A group that may act and has fetched its words executes them. -/
theorem State.issueTurn_words (s s2 : State) (g w1 w2 : Nat) (late : Bool) (hg : (s.groups.find g).isSome = true) (hm : s.mayAct g = true)
    (hb : s.boundaryTrap g = none) (hf : ({ s with cur := g, lateLoads := late } : State).fetchWords g = (s2, .words w1 w2)) :
    s.issueTurn g late = onNext (fun t => s2.afterIssue t g) (s2.afterMembers g (s2.executeWords w1 w2)) := by
  have hsome : (s.groups.find g).isNone = false := by simpa using hg
  simp only [State.issueTurn, hsome, s.losesTie_of_mayAct g hm, hm, hb, hf, Bool.false_eq_true, if_false, Bool.not_true]

theorem State.executeWords_ok (s v : State) (w1 w2 : Nat) (i : Instr) (hv : v = { s with ir := BitVec.ofNat 64 (w1 + 2 ^ 32 * w2) })
    (hd : decodeWords w1 w2 = .ok i) (hfree : v.free i = true) : s.executeWords w1 w2 = exec i v := by
  subst hv
  simp only [State.executeWords, hd, State.gated, hfree, if_true]

theorem State.executeWords_error (s v : State) (w1 w2 : Nat) (e : Reject) (hv : v = { s with ir := BitVec.ofNat 64 (w1 + 2 ^ 32 * w2) })
    (hd : decodeWords w1 w2 = .error e) (hlate : v.own.late = none) : s.executeWords w1 w2 = .next v.illegal := by
  subst hv
  simp only [State.executeWords, hd, hlate, Option.isSome_none, Bool.false_eq_true, if_false]

/-- Settles O57: a turn that comes in time is its actor's act; an issue turn's act is the words fetched, executed. -/
theorem stepRunsDecoded : Obligations.StepRunsDecoded := by
  unfold Obligations.StepRunsDecoded
  intro s u s0 s1 s2 v n g w1 w2 late rest r1 r2 l1 l2
  refine ⟨fun hag hu hp hi hserved hg hm hb hs0 h1 hl1 hb1 hw1 hw2 hv => ?_, fun i hag hu hp => ?_⟩
  · subst hs0
    have hfetch : ({ u with cur := g, lateLoads := late } : State).fetchWords g = (s2, .words w1 w2) := by
      rcases hw2 with ⟨heven, rfl, rfl⟩ | ⟨hodd, h2, hl2, hb2, rfl⟩
      · subst hw1
        exact State.fetchWords_short _ _ g r1 l1 h1 hl1 hb1 heven
      · subst hw1
        exact State.fetchWords_long _ s1 s2 g r1 r2 l1 l2 h1 hl1 hb1 hodd h2 hl2 hb2
    have hstep : step s = onNext (u.reach (.issue g late)) (onNext State.settleTurn (u.issueTurn g late)) :=
      step_punctual s u n _ rest hag hu hp (by rw [State.chosen, hserved]) (u.tooLate_issue g late hp hi)
    rw [State.issueTurn_words u s2 g w1 w2 late hg hm hb hfetch] at hstep
    refine ⟨fun i hd hfree => ?_, fun e hd hlate => ?_⟩
    · rw [hstep, State.executeWords_ok s2 v w1 w2 i hv hd hfree]
    · rw [hstep, State.executeWords_error s2 v w1 w2 e hv hd hlate]
  · have hstep : step s = onNext (u.reach (.event i)) (onNext State.settleTurn (u.act (.event i))) :=
      step_punctual s u n _ rest hag hu hp rfl (u.tooLate_event i hp)
    refine ⟨fun he ha => ?_, fun hn => ?_⟩
    · rw [hstep, State.act, if_pos (by rw [he, ha]; rfl)]
    · rw [hstep, State.act, if_neg (by rcases hn with h | h <;> simp [h])]
      rfl

end Sys2Proof.Machine
end

section
namespace Sys2Proof.Machine

/-! ## The rows of the vector statements are element by element instructions (R188) -/

/-- Both forms of a row are the element loop under the row's head, legality, destination and tag. -/
def VRow.Elementwise (r : VRow) (s : State) (tk : TokenReq) : Prop :=
  ∃ f, exec r.short s = .next (s.elementwise { r.head with len := 4, tk := TokenReq.idle } r.legal r.d r.tag r.lw f) ∧
    exec (r.long tk) s = .next (s.elementwise { r.head with len := 8, tk := tk } r.legal r.d r.tag r.lw f)

/-- The model may spell the legality of the instruction in another way. -/
theorem VRow.Elementwise.of_legal {r : VRow} {s : State} {tk : TokenReq} {legal : Bool} {f : List Source → Nat → Nat × BitVec 6} (hl : legal = r.legal)
    (hshort : exec r.short s = .next (s.elementwise { r.head with len := 4, tk := TokenReq.idle } legal r.d r.tag r.lw f))
    (hlong : exec (r.long tk) s = .next (s.elementwise { r.head with len := 8, tk := tk } legal r.d r.tag r.lw f)) : r.Elementwise s tk := by
  subst hl
  exact ⟨f, hshort, hlong⟩

theorem arithRows_elementwise (p ce : Bool) (k : Option (BitVec 3)) (d a b : Reg) (tk : TokenReq) (s : State) :
    ∀ r ∈ arithRows p ce k d a b s.own, r.Elementwise s tk := by
  simp only [arithRows, List.forall_mem_cons]
  refine ⟨?_, ?_, ?_, ?_, ?_, ?_, ?_, ?_, ?_, ?_, ?_, by simp⟩ <;> exact ⟨_, rfl, rfl⟩

theorem moveRows_elementwise (p ce : Bool) (k : Option (BitVec 3)) (mk : BitVec 3) (d a b : Reg) (tk : TokenReq) (s : State) :
    ∀ r ∈ moveRows p ce k mk d a b s, r.Elementwise s tk := by
  simp only [moveRows, List.forall_mem_cons]
  refine ⟨?_, ?_, ?_, ?_, ?_, ?_, by simp⟩ <;> exact ⟨_, rfl, rfl⟩

theorem floatRows_elementwise (p ce : Bool) (k : Option (BitVec 3)) (d a b : Reg) (tg : Tag) (tk : TokenReq) (s : State) :
    ∀ r ∈ floatRows p ce k d a b tg s.own, r.Elementwise s tk := by
  simp only [floatRows, List.forall_mem_cons]
  refine ⟨?_, ?_, ?_, ?_, ?_, ?_, ?_, ?_, ?_, ?_, by simp⟩ <;> exact ⟨_, rfl, rfl⟩

theorem crossRows_elementwise (ce : Bool) (k : Option (BitVec 3)) (mk : BitVec 3) (d a b : Reg) (tk : TokenReq) (s : State) :
    ∀ r ∈ crossRows ce k mk d a b s, r.Elementwise s tk := by
  simp only [crossRows, List.forall_mem_cons]
  refine ⟨?_, ?_, ?_, ?_, ?_, ?_, ?_, by simp⟩ <;> exact ⟨_, rfl, rfl⟩

/-- VAND, VOR and VXOR check their tags one by one. -/
theorem VRow.logic_legal (ta tb : Tag) (rest : Bool) :
    (decide (ta ≠ .q32) && decide (tb ≠ .q32) && decide (tagWidth ta = tagWidth tb) && rest) =
      (decide (ta ≠ .q32 ∧ tb ≠ .q32 ∧ tagWidth ta = tagWidth tb) && rest) := by
  simp only [Bool.decide_and, Bool.and_assoc]

/-- The shifts check the tag of every operand; the value's own width is its own. -/
theorem Group.shift_legal (G : Group) (a b : Reg) (rest : Bool) :
    ([a, b].all (fun r => tagIsInt (G.tag r) && decide (tagWidth (G.tag r) = tagWidth (G.tag a))) && rest) =
      (tagIsInt (G.tag a) && tagIsInt (G.tag b) && decide (tagWidth (G.tag b) = tagWidth (G.tag a)) && rest) := by
  simp [Bool.and_assoc]

theorem Group.funnel_legal (G : Group) (a b d : Reg) (rest : Bool) :
    ([a, b, d].all (fun r => tagIsInt (G.tag r) && decide (tagWidth (G.tag r) = tagWidth (G.tag a))) && rest) =
      (tagIsInt (G.tag a) && tagIsInt (G.tag b) && tagIsInt (G.tag d) &&
        decide (tagWidth (G.tag b) = tagWidth (G.tag a) ∧ tagWidth (G.tag d) = tagWidth (G.tag a)) && rest) := by
  simp [Bool.decide_and, Bool.and_assoc, Bool.and_left_comm]

theorem logicRows_elementwise (p ce : Bool) (k : Option (BitVec 3)) (d a b : Reg) (tk : TokenReq) (s : State) :
    ∀ r ∈ logicRows p ce k d a b s.own, r.Elementwise s tk := by
  simp only [logicRows, List.forall_mem_cons]
  have logic := VRow.logic_legal (s.own.tag a) (s.own.tag b) (s.own.lengthsOk d (s.own.tag a) [a, b])
  have shift := s.own.shift_legal a b (s.own.lengthsOk d (s.own.tag a) [a, b])
  have funnel := s.own.funnel_legal a b d (s.own.lengthsOk d (s.own.tag a) [a, b, d])
  exact ⟨.of_legal logic rfl rfl, .of_legal logic rfl rfl, .of_legal logic rfl rfl, ⟨_, rfl, rfl⟩, ⟨_, rfl, rfl⟩, ⟨_, rfl, rfl⟩,
    .of_legal shift rfl rfl, .of_legal shift rfl rfl, .of_legal shift rfl rfl, .of_legal shift rfl rfl,
    .of_legal funnel rfl rfl, .of_legal funnel rfl rfl, by simp⟩

/-! ## Checks of the issue, in their order (R36, R187, R189) -/

section
variable {α : Type} (s : State) (h : VHead) (legal : Bool) (ready : State → List Source → Nat → State × Option α) (body : State → α → State)

theorem State.vectorWith_misaligned (ha : ∃ q ∈ h.reads ++ h.writes.toList, q.toNat % s.own.lmul ≠ 0) :
    s.vectorWith h legal ready body = s.illegal := by
  have hall : (h.reads ++ h.writes.toList).all s.own.aligned = false := by
    obtain ⟨q, hq, hm⟩ := ha
    exact List.all_eq_false.mpr ⟨q, hq, by simpa [Group.aligned] using hm⟩
  rw [State.vectorWith, hall]
  rfl

theorem Group.all_aligned (G : Group) (l : List Reg) (ha : ∀ q ∈ l, q.toNat % G.lmul = 0) : l.all G.aligned = true := by
  simpa [Group.aligned] using ha

theorem State.vectorWith_pipeHeld (ha : ∀ q ∈ h.reads ++ h.writes.toList, q.toNat % s.own.lmul = 0) (hp : h.pipe ∈ s.own.openPipes) :
    s.vectorWith h legal ready body = s.convoyTrap := by
  have hpipe : s.own.openPipes.contains h.pipe = true := by simpa using hp
  rw [State.vectorWith, s.own.all_aligned _ ha, hpipe]
  rfl

theorem State.vectorWith_ruleBroken (ha : ∀ q ∈ h.reads ++ h.writes.toList, q.toNat % s.own.lmul = 0) (hp : h.pipe ∉ s.own.openPipes)
    (hl : legal = false ∨ ((h.mask.isSome || h.usesMask) = true ∧ 8192 < s.own.vl)) :
    s.vectorWith h legal ready body = s.illegal := by
  have hpipe : s.own.openPipes.contains h.pipe = false := by simpa using hp
  have hrule : (!legal || ((h.mask.isSome || h.usesMask) && decide (s.own.vl > 8192)) || !s.own.boundOk h.reads h.writes) = true := by
    rcases hl with rfl | ⟨hm, hvl⟩
    · rfl
    · simp [hm, hvl]
  rw [State.vectorWith, s.own.all_aligned _ ha, hpipe]
  simp only [hrule, Bool.not_true, Bool.false_eq_true, if_false, if_true]

/-- An instruction that only its token holds up waits for it, and no strip of a stream has been taken. -/
theorem State.vectorWith_noToken (f : BitVec 4) (hf : h.tk.pop = some f) (h0 : s.own.fifos[f.toNat] = 0) (hl : legal = true)
    (hr : s.VReady { h with tk := { h.tk with pop := none } }) : s.vectorWith h legal ready body = s.wait (.vecToken f) := by
  obtain ⟨ha, hp, hq, hm, hc, -, -⟩ := hr
  have hpipe : s.own.openPipes.contains h.pipe = false := by simpa using hp
  have hbound := s.own.boundOk_apart h.reads h.writes fun c hcc => (hc c hcc).1
  have hmask : ((h.mask.isSome || h.usesMask) && decide (s.own.vl > 8192)) = false := by
    simp only [Bool.and_eq_false_imp, decide_eq_false_iff_not, not_lt]
    exact hm
  have htok : (h.tk.pop.filter fun f => decide (s.own.fifos[f.toNat] = 0)) = some f := by simp [hf, h0]
  rw [State.vectorWith, s.own.all_aligned _ ha, hpipe, hl, hmask, hbound, hq, htok]
  rfl

end

/-- What an element by element instruction answers before it takes its sources. -/
theorem State.elementwise_stopped (s : State) (h : VHead) (legal : Bool) (d : Reg) (tg : Tag) (lw : Nat) (f : List Source → Nat → Nat × BitVec 6)
    (H : s.Handles) :
    ((∃ q ∈ h.reads ++ h.writes.toList, q.toNat % s.own.lmul ≠ 0) → s.TakesTrap (s.elementwise h legal d tg lw f) 1 0 s.ir s.own.pc) ∧
    ((∀ q ∈ h.reads ++ h.writes.toList, q.toNat % s.own.lmul = 0) →
      (h.pipe ∈ s.own.openPipes → s.TakesTrap (s.elementwise h legal d tg lw f) 17 0 s.ir s.own.pc) ∧
      (h.pipe ∉ s.own.openPipes → legal = false ∨ ((h.mask.isSome || h.usesMask) = true ∧ 8192 < s.own.vl) →
        s.TakesTrap (s.elementwise h legal d tg lw f) 1 0 s.ir s.own.pc)) := by
  have illegal : s.TakesTrap s.illegal 1 0 s.ir s.own.pc := s.raise_takes 1 0 s.ir H
  have convoy : s.TakesTrap s.convoyTrap 17 0 s.ir s.own.pc := s.raise_takes 17 0 s.ir H
  refine ⟨fun ha => ?_, fun ha => ⟨fun hp => ?_, fun hp hl => ?_⟩⟩
  · rwa [State.elementwise, State.vector, State.vectorWith_misaligned (ha := ha)]
  · rwa [State.elementwise, State.vector, State.vectorWith_pipeHeld (ha := ha) (hp := hp)]
  · rwa [State.elementwise, State.vector, State.vectorWith_ruleBroken (ha := ha) (hp := hp) (hl := hl)]

/-- One that only its token holds up enters Waiting. -/
theorem State.elementwise_waits (s : State) (h : VHead) (legal : Bool) (d : Reg) (tg : Tag) (lw : Nat) (f : List Source → Nat → Nat × BitVec 6)
    (n : BitVec 4) (hn : h.tk.pop = some n) (h0 : s.own.fifos[n.toNat] = 0) (hl : legal = true)
    (hr : s.VReady { h with tk := { h.tk with pop := none } }) :
    s.OnlyGroup (s.elementwise h legal d tg lw f) s.cur ∧
      (s.elementwise h legal d tg lw f).own = { s.own with phase := .waiting (.vecToken n), wdog := 0 } := by
  rw [State.elementwise, State.vector, State.vectorWith_noToken (hf := hn) (h0 := h0) (hl := hl) (hr := hr)]
  exact ⟨s.onlyGroup_putOwn _, s.own_putOwn _⟩

/-! ## A strip whose elements are all there (R309, R310) -/

/-- Element `i` of the strip of a channel that begins at element `first` of its pattern: 0 past the end of the pattern. -/
def Channel.given (c : Channel) (first i : Nat) : Nat :=
  if c.total ≤ first + i then 0 else ((c.buf.find? fun q => q.1 == first + i).map Prod.snd).getD 0

/-- A strip whose elements the buffer holds, or which lie past the pattern, is taken without a load. -/
theorem State.strip_fetched (s : State) (g : Nat) (c : Channel) (act : Nat → Bool) (first k i b : Nat)
    (hact : ∀ j, i ≤ j → j < i + k → act j = true)
    (hbuf : ∀ j, i ≤ j → j < i + k → first + j < c.total → (c.buf.find? fun q => q.1 == first + j).isSome = true) :
    ∃ b', s.strip g c act first k i b = (s, some (b', none)) ∧
      ∀ j, elemOf b' (8 * c.esz) j = if i ≤ j ∧ j < i + k then c.given first j % 2 ^ (8 * c.esz) else elemOf b (8 * c.esz) j := by
  induction k generalizing i b with
  | zero => exact ⟨b, rfl, fun j => by rw [if_neg (by omega)]⟩
  | succ k ih =>
    obtain ⟨b', hstrip, helem⟩ := ih (i + 1) (elemPut b (8 * c.esz) i (c.given first i)) (fun j h1 h2 => hact j (by omega) (by omega))
      (fun j h1 h2 => hbuf j (by omega) (by omega))
    refine ⟨b', ?_, fun j => ?_⟩
    · rw [← hstrip, State.strip]
      by_cases hpast : c.total ≤ first + i
      · simp [Channel.given, hpast]
      · obtain ⟨⟨e, v⟩, hv⟩ := Option.isSome_iff_exists.mp (hbuf i (by omega) (by omega) (by omega))
        simp [Channel.given, hpast, hact i (by omega) (by omega), hv]
    · rw [helem, elemOf_elemPut]
      by_cases hj : j = i
      · subst hj
        rw [if_neg (by omega), if_pos rfl, if_pos (by omega)]
      · rw [if_neg hj]
        congr 1
        exact propext (by omega)

/-- A channel whose next strip the instruction at a PC holds. -/
def Channel.popped (c : Channel) (pc : Word) (vl : Nat) : Channel :=
  { c with held := [{ pc := pc, first := c.taken }], taken := c.taken + vl }

/-- A channel that has given its next `vl` elements, with no strip held. -/
def Channel.gave (c : Channel) (vl : Nat) : Channel :=
  { c with taken := c.taken + vl, buf := c.buf.filter fun q => decide (c.taken + vl ≤ q.1) }

@[simp] theorem Group.setChan_vl (G : Group) (n : Nat) (c : Channel) : (G.setChan n c).vl = G.vl := rfl
@[simp] theorem Group.setChan_lmul (G : Group) (n : Nat) (c : Channel) : (G.setChan n c).lmul = G.lmul := rfl
@[simp] theorem Group.setChan_vbits (G : Group) (n : Nat) (c : Channel) (r : Reg) : (G.setChan n c).vbits r = G.vbits r := rfl

theorem Group.popStrip_next (G : Group) (n : Nat) (c : Channel) (hc : G.chan[n]? = some c) (hheld : c.held = []) :
    G.popStrip n = (G.setChan n (c.popped G.pc G.vl), c.popped G.pc G.vl, c.taken) := by
  simp [Group.popStrip, Channel.popped, hc, hheld]

theorem Channel.dropHeld_popped (c : Channel) (pc : Word) (vl : Nat) (hheld : c.held = []) :
    (c.popped pc vl).dropHeld (fun q => q.pc == pc) = c.gave vl := by
  simp [Channel.dropHeld, Channel.popped, Channel.gave, hheld]

/-- The strip that the instruction at a group's PC has popped, given up, where no other channel holds one for it. -/
theorem Group.dropStrips_popped (G : Group) (chan : Vector Channel 16) (n : Nat) (c : Channel) (vl : Nat)
    (hG : G.chan = chan.setIfInBounds n (c.popped G.pc vl)) (hheld : c.held = [])
    (hother : ∀ m < 16, m ≠ n → ∀ q ∈ (chan[m]?.map Channel.held).getD [], q.pc ≠ G.pc) :
    G.dropStrips = { G with chan := chan.setIfInBounds n (c.gave vl) } := by
  have hchan : G.dropStrips.chan = chan.setIfInBounds n (c.gave vl) := by
    apply Vector.ext
    intro m hm
    rw [Group.dropStrips, Vector.getElem_map]
    simp only [hG, Vector.getElem_setIfInBounds]
    split
    · exact c.dropHeld_popped G.pc vl hheld
    · next hmn =>
      refine Channel.dropHeld_none _ _ fun q hq => ?_
      have := hother m hm (Ne.symm hmn) q (by simpa [Vector.getElem?_eq_getElem hm] using hq)
      simpa using this
  rw [← hchan]
  rfl

/-- The one source of an instruction, fed by a stream that has all it is to give. -/
theorem State.takeSources_stream (s : State) (act : Nat → Bool) (a : Reg) (n : Nat) (c : Channel) (hb : s.own.boundTo a = some n)
    (hc : s.own.chan[n]? = some c) (hheld : c.held = []) (hact : ∀ i < s.own.vl, act i = true)
    (hbuf : ∀ i < s.own.vl, c.taken + i < c.total → (c.buf.find? fun q => q.1 == c.taken + i).isSome = true) :
    ∃ bits, s.takeSources act [a] [] =
        (s.putOwn (s.own.setChan n (c.popped s.own.pc s.own.vl)), some [{ reg := a, bits := bits, stop := none }]) ∧
      ∀ i < s.own.vl, elemOf bits (8 * c.esz) i = c.given c.taken i % 2 ^ (8 * c.esz) := by
  obtain ⟨b, hstrip, helem⟩ := (s.putOwn (s.own.setChan n (c.popped s.own.pc s.own.vl))).strip_fetched s.cur (c.popped s.own.pc s.own.vl) act c.taken
    s.own.vl 0 (s.own.vbits a) (fun j _ hj => hact j (by omega)) (fun j _ hj => hbuf j (by omega))
  refine ⟨b, ?_, fun i hi => ?_⟩
  · rw [State.takeSources]
    simp only [List.any_nil, Bool.false_eq_true, if_false, hb, s.own.popStrip_next n c hc hheld, State.own_putOwn, Group.setChan_vl, hstrip]
    rfl
  · rw [show 8 * c.esz = 8 * (c.popped s.own.pc s.own.vl).esz from rfl, helem, if_pos (by omega)]
    rfl

/-! ## Issue with sources that streams feed -/

/-- The issue of a vector instruction that takes no token and reads no source beyond its active elements, once its
sources are taken. -/
theorem State.vector_taken (s s1 : State) (h : VHead) (legal : Bool) (body : State → List Source → Nat → State) (srcs : List Source)
    (ha : ∀ q ∈ h.reads ++ h.writes.toList, q.toNat % s.own.lmul = 0) (hp : h.pipe ∉ s.own.openPipes) (hl : legal = true)
    (hm : (h.mask.isSome || h.usesMask) = false) (hb : s.own.boundOk h.reads h.writes = true) (hq : s.own.vqFull = false)
    (htok : h.tk.pop = none) (hw : h.whole = false) (ht : s.takeSources (s.own.used h) h.reads [] = (s1, some srcs)) :
    s.vector h legal body = body (s1.putOwn s1.own.begin) srcs s1.own.startElem := by
  have hpipe : s.own.openPipes.contains h.pipe = false := by simpa using hp
  rw [State.vector, State.vectorWith, s.own.all_aligned _ ha, hpipe, hl, hm, hb, hq, htok, ht, hw]
  rfl

theorem Group.foldl_accrueLane_zero (l : List Nat) (lw : Nat) (G : Group) : l.foldl (fun H j => H.accrueLane (laneOf lw j) 0) G = G := by
  induction l with
  | nil => rfl
  | cons j l ih => rw [List.foldl_cons, Group.accrueLane_zero, ih]

/-- An element by element instruction without flags, from element 0, once it has issued. -/
theorem State.elementwise_taken (s s1 : State) (h : VHead) (legal : Bool) (d : Reg) (t : Tag) (lw : Nat) (val : List Source → Nat → Nat) (srcs : List Source)
    (hv : ∀ body, s.vector h legal body = body (s1.putOwn s1.own.begin) srcs s1.own.startElem) (he : s1.own.startElem = 0) (hm : h.mask = none)
    (hs : srcStop srcs = none) (hfit : s1.own.fits t = true) :
    ∃ b, s.elementwise h legal d t lw (fun src i => (val src i, 0)) = (s1.putOwn ((s1.own.begin.setBits d b).setTag d t)).vdone h ∧
      b < 2 ^ (8192 * s1.own.lmul) ∧
      ∀ i, elemOf b (tagWidth t) i = if i < s1.own.vl then val srcs i % 2 ^ tagWidth t else elemOf (s1.own.vbits d) (tagWidth t) i := by
  have hall : (upFrom 0 s1.own.vl).filter (s1.own.active none) = upFrom 0 s1.own.vl :=
    List.filter_eq_self.mpr fun i hi => decide_eq_true (by have := (upFrom_mem 0 _ i).mp hi; omega)
  obtain ⟨b, hloop, helem, hlt⟩ := elemLoop_done (s1.own.active none) s1.own.xen (tagWidth t) lw (fun i => (val srcs i, 0)) s1.own.vl 0
    (s1.own.vbits d) s1.own.begin fun _ _ => BitVec.zero_and
  rw [Group.foldl_accrueLane_zero] at hloop
  rw [hall] at helem hlt
  have hroom : ∀ j ∈ upFrom 0 s1.own.vl, tagWidth t * j + tagWidth t ≤ 8192 * s1.own.lmul := fun j hj =>
    s1.own.fits_room t hfit j (by have := (upFrom_mem 0 _ j).mp hj; omega)
  refine ⟨b, ?_, hlt _ (groupBits_lt _ _ _) hroom, fun i => ?_⟩
  · rw [State.elementwise, hv, he, hm, hs]
    simp only [State.own_putOwn, State.putOwn_putOwn, Nat.sub_zero]
    rw [show elemLoop (s1.own.begin.active none) none s1.own.begin.xen (tagWidth t) lw (fun i => (val srcs i, 0)) s1.own.begin.vl 0
      (s1.own.begin.vbits d) s1.own.begin = _ from hloop]
  · rw [helem]
    simp only [upFrom_mem, Nat.zero_le, true_and, Nat.zero_add]

/-! ## VMV of a group to which a stream is bound (R309, R310) -/

/-- A group after one channel, its start element, and one register group were written. -/
theorem Group.setTag_setBits_begin_setChan (G : Group) (n : Nat) (c : Channel) (d : Reg) (b : Nat) (t : Tag) :
    ((G.setChan n c).begin.setBits d b).setTag d t = { G.begin with
      v := putGroupBits G.v d.toNat b G.lmul, vtag := putTags G.vtag d.toNat t G.lmul, chan := G.chan.setIfInBounds n c } := rfl

/-- The completion of an instruction that popped one strip: its channel has given the strip's elements. -/
theorem State.vdone_gave (s u : State) (h : VHead) (n : Nat) (c : Channel) (v : Vector (BitVec 8192) 32) (w : Vector Tag 32) (htok : h.tk.pop = none)
    (hheld : c.held = []) (hother : ∀ m < 16, m ≠ n → ∀ q ∈ (s.own.chan[m]?.map Channel.held).getD [], q.pc ≠ s.own.pc)
    (hu : u = (s.putOwn { s.own.begin with v := v, vtag := w, chan := s.own.chan.setIfInBounds n (c.popped s.own.pc s.own.vl) }).vdone h) :
    s.VRetires u h { s.own with v := u.own.v, vtag := u.own.vtag, chan := s.own.chan.setIfInBounds n (c.gave s.own.vl) } ∧
      u.own.v = v ∧ u.own.vtag = w ∧ u.own.vcfg = s.own.vcfg := by
  have hdrop := Group.dropStrips_popped { s.own.begin with v := v, vtag := w, chan := s.own.chan.setIfInBounds n (c.popped s.own.pc s.own.vl) }
    s.own.chan n c s.own.vl rfl hheld hother
  rw [State.vdone, State.own_putOwn, hdrop, htok, State.putOwn_putOwn, State.retire_putOwn] at hu
  have hown := congrArg State.own hu
  rw [State.own_putOwn] at hown
  have hv : u.own.v = v := congrArg Group.v hown
  have hw : u.own.vtag = w := congrArg Group.vtag hown
  have hcfg : u.own.vcfg = s.own.vcfg := by rw [hown]; rfl
  refine ⟨⟨hu ▸ s.onlyGroup_putOwn _, ?_⟩, hv, hw, hcfg⟩
  rw [hv, hw, htok]
  exact hown

theorem State.vmv_stream (s : State) (p ce : Bool) (d a : Reg) (n : Nat) (c : Channel) (hbind : s.own.boundTo a = some n)
    (hc : s.own.chan[n]? = some c) (hheld : c.held = []) (hesz : 8 * c.esz = tagWidth (s.own.tag a)) (hbound : s.own.boundOk [a] (some d) = true)
    (hlen : s.own.lengthsOk d (s.own.tag a) [a] = true) (hres : s.own.resume = false) (ha : a.toNat % s.own.lmul = 0) (hd : d.toNat % s.own.lmul = 0)
    (hpipe : aluPipe p ∉ s.own.openPipes) (hroom : s.own.vqFull = false)
    (hbuf : ∀ i < s.own.vl, c.taken + i < c.total → (c.buf.find? fun q => q.1 == c.taken + i).isSome = true)
    (hother : ∀ m < 16, m ≠ n → ∀ q ∈ (s.own.chan[m]?.map Channel.held).getD [], q.pc ≠ s.own.pc) :
    ∃ t, exec (.vmv p ce none d a) s = .next t ∧
      s.VRetires t (aluHead p ce none .idle 4 [a] (some d) Timing.move)
        { s.own with v := t.own.v, vtag := t.own.vtag, chan := s.own.chan.setIfInBounds n (c.gave s.own.vl) } ∧
      s.own.OnlyVector t.own d (s.own.tag a) ∧
      s.own.HasElems t.own d (tagWidth (s.own.tag a)) (fun i => if i < s.own.vl then some (c.given c.taken i) else none) := by
  have hstart : s.own.startElem = 0 := by simp [Group.startElem, hres]
  obtain ⟨bits, htake, hgiven⟩ := s.takeSources_stream (s.own.used (aluHead p ce none .idle 4 [a] (some d) Timing.move)) a n c hbind hc hheld
    (fun i hi => by simp [Group.used, aluHead, Group.active, hstart, hi]) hbuf
  have halign : ∀ q ∈ [a] ++ (some d).toList, q.toNat % s.own.lmul = 0 := by simp [ha, hd]
  have hfit : s.own.fits (s.own.tag a) = true := by
    simp only [Group.lengthsOk, Bool.and_eq_true] at hlen
    exact hlen.1.1
  obtain ⟨b, hdone, hlt, helem⟩ := s.elementwise_taken _ (aluHead p ce none .idle 4 [a] (some d) Timing.move) (s.own.lengthsOk d (s.own.tag a) [a]) d
    (s.own.tag a) (tagWidth (s.own.tag a)) (fun src i => s.own.elem src a i) _
    (fun body => s.vector_taken _ _ _ body _ halign hpipe hlen rfl hbound hroom rfl rfl htake) (by rw [State.own_putOwn]; exact hstart) rfl rfl
    (by rw [State.own_putOwn]; exact hfit)
  simp only [State.own_putOwn, State.putOwn_putOwn, Group.setChan_vl, Group.setChan_lmul, Group.setChan_vbits,
    Group.setTag_setBits_begin_setChan] at hdone hlt helem
  have hexec : exec (.vmv p ce none d a) s = .next (s.vmove p ce none d a TokenReq.idle 4) := rfl
  obtain ⟨t, ht⟩ : ∃ t, t = s.vmove p ce none d a TokenReq.idle 4 := ⟨_, rfl⟩
  obtain ⟨hret, hv, hw, hcfg⟩ := s.vdone_gave t _ n c _ _ rfl hheld hother (ht.trans hdone)
  refine ⟨t, ht ▸ hexec, hret, ⟨fun r hr => ⟨?_, ?_⟩, fun r h1 h2 => ?_⟩, fun i => ?_⟩
  · exact (congrArg (·[r]) hv).trans (putGroupBits_out _ _ _ _ _ r.isLt hr)
  · exact (congrArg (·[r]) hw).trans (putTags_out _ _ _ _ _ r.isLt hr)
  · exact (congrArg (·[r]) hw).trans (putTags_in _ _ _ _ _ r.isLt h1 h2)
  · rw [Group.vbits_of _ d (Group.lmul_congr _ s.own hcfg) hv, groupBits_putGroupBits _ _ _ _ (s.own.aligned_room d hd), Nat.mod_eq_of_lt hlt, helem]
    by_cases hi : i < s.own.vl
    · have hsrc : s.own.elem [{ reg := a, bits := bits, stop := none }] a i = elemOf bits (tagWidth (s.own.tag a)) i := by simp [Group.elem, srcBits]
      rw [if_pos hi, hsrc, ← hesz, hgiven i hi, Nat.mod_mod]
      simp [hi]
    · simp [hi]

/-! ## The obligation -/

theorem VRow.Elementwise.forms {r : VRow} {s : State} {tk : TokenReq} (hr : r.Elementwise s tk) :
    ∀ e ∈ r.forms tk, ∃ f, exec e.1 s = .next (s.elementwise e.2 r.legal r.d r.tag r.lw f) := by
  obtain ⟨f, hshort, hlong⟩ := hr
  simp only [VRow.forms, List.forall_mem_cons]
  exact ⟨⟨f, hshort⟩, ⟨f, hlong⟩, by simp⟩

theorem rows_elementwise (p ce : Bool) (k : Option (BitVec 3)) (mk : BitVec 3) (d a b : Reg) (tg : Tag) (tk : TokenReq) (s : State) :
    ∀ r ∈ arithRows p ce k d a b s.own ++ moveRows p ce k mk d a b s ++ floatRows p ce k d a b tg s.own ++ logicRows p ce k d a b s.own ++
      crossRows ce k mk d a b s, r.Elementwise s tk := by
  simp only [List.forall_mem_append]
  exact ⟨⟨⟨⟨arithRows_elementwise p ce k d a b tk s, moveRows_elementwise p ce k mk d a b tk s⟩, floatRows_elementwise p ce k d a b tg tk s⟩,
    logicRows_elementwise p ce k d a b tk s⟩, crossRows_elementwise ce k mk d a b tk s⟩

/-- Settles O18: every row is an element loop, whose checks stand before its sources; VMV's bound source is the strip that
its channel gives. -/
theorem vectorIssueResults : Obligations.VectorIssueResults := by
  unfold Obligations.VectorIssueResults
  refine ⟨fun p ce k mk d a b tg tk s H r hr e he => ?_, fun p ce d a s n c hn hbind hc hheld hesz hbound hlen hres ha hd hpipe hroom hbuf hother => ?_⟩
  · obtain ⟨f, hexec⟩ := (rows_elementwise p ce k mk d a b tg tk s r hr).forms e he
    obtain ⟨hmis, hok⟩ := s.elementwise_stopped e.2 r.legal r.d r.tag r.lw f H
    refine ⟨fun h => ⟨_, hexec, hmis h⟩, fun h => ⟨fun hp => ⟨_, hexec, (hok h).1 hp⟩, fun hp hl => ⟨_, hexec, (hok h).2 hp hl⟩⟩, ?_⟩
    intro n hpop h0 hl hready
    exact ⟨_, hexec, s.elementwise_waits e.2 r.legal r.d r.tag r.lw f n hpop h0 hl hready⟩
  · exact s.vmv_stream p ce d a n c hbind hc hheld hesz hbound hlen hres ha hd hpipe hroom hbuf hother

end Sys2Proof.Machine
end

section
namespace Sys2Proof.Machine

/-! ## Rows computed from the sources as the registers hold them (R188, R203) -/

/-- Both forms of a row are one element loop, whose function gives the row's values once the sources are what the registers hold. -/
def VRow.Computes (r : VRow) (s : State) (tk : TokenReq) : Prop :=
  ∃ f, exec r.short s = .next (s.elementwise { r.head with len := 4, tk := TokenReq.idle } r.legal r.d r.tag r.lw f) ∧
    exec (r.long tk) s = .next (s.elementwise { r.head with len := 8, tk := tk } r.legal r.d r.tag r.lw f) ∧
    ∀ srcs, (∀ q ∈ r.head.reads, srcBits srcs q = s.own.vbits q) → ∀ i, f srcs i = r.val i

/-- A row that names its destination, and whose legality covers the length of its result, gives its values. -/
theorem VRow.Computes.gives {r : VRow} {s : State} {tk : TokenReq} (hc : r.Computes s tk) (hd : r.head.writes = some r.d)
    (hfit : r.legal = true → s.own.fits r.tag = true) : r.Gives s tk := by
  obtain ⟨f, hshort, hlong, hval⟩ := hc
  intro hl hf e he hr
  simp only [VRow.forms, List.mem_cons, List.not_mem_nil, or_false] at he
  rcases he with rfl | rfl
  · obtain ⟨u, hu, h⟩ := s.elementwise_gives _ r.legal r.d r.tag r.lw f r.val hr hl hd (hfit hl) hval hf
    exact ⟨u, hu ▸ hshort, h⟩
  · obtain ⟨u, hu, h⟩ := s.elementwise_gives _ r.legal r.d r.tag r.lw f r.val hr hl hd (hfit hl) hval hf
    exact ⟨u, hu ▸ hlong, h⟩

/-- An element of a source that holds its register is the register's element. -/
theorem Group.elem_el (G : Group) (srcs : List Source) (r : Reg) (i : Nat) (h : srcBits srcs r = G.vbits r) : G.elem srcs r i = G.el r i := by
  rw [Group.elem, h, Group.el]

theorem Group.lengthsOk_fits {G : Group} {d : Reg} {t : Tag} {l : List Reg} (h : G.lengthsOk d t l = true) : G.fits t = true := by
  simp only [Group.lengthsOk, Bool.and_eq_true] at h
  exact h.1.1

/-- A legality that ends in the length checks covers the length of the result. -/
theorem Group.fits_of_legal (G : Group) (d : Reg) (x : Bool) (t : Tag) (l : List Reg) (h : (x && G.lengthsOk d t l) = true) : G.fits t = true :=
  Group.lengthsOk_fits (Bool.and_eq_true _ _ ▸ h).2

theorem arithRows_gives (p ce : Bool) (k : Option (BitVec 3)) (d a b : Reg) (tk : TokenReq) (s : State) :
    ∀ r ∈ arithRows p ce k d a b s.own, r.Gives s tk := by
  have two : ∀ (op : ArithOp) (srcs : List Source), (∀ q ∈ [a, b], srcBits srcs q = s.own.vbits q) → ∀ (t : Tag) (i : Nat),
      op.elem s.own t (s.own.tag a) (s.own.tag b) (s.own.tag d) (s.own.elem srcs a i) (s.own.elem srcs b i) 0 =
        op.elem s.own t (s.own.tag a) (s.own.tag b) (s.own.tag d) (s.own.el a i) (s.own.el b i) 0 := by
    intro op srcs h t i
    rw [s.own.elem_el srcs a i (h a (by simp)), s.own.elem_el srcs b i (h b (by simp))]
  have three : ∀ (op : ArithOp) (srcs : List Source), (∀ q ∈ [a, b, d], srcBits srcs q = s.own.vbits q) → ∀ (t : Tag) (i : Nat),
      op.elem s.own t (s.own.tag a) (s.own.tag b) (s.own.tag d) (s.own.elem srcs a i) (s.own.elem srcs b i) (s.own.elem srcs d i) =
        op.elem s.own t (s.own.tag a) (s.own.tag b) (s.own.tag d) (s.own.el a i) (s.own.el b i) (s.own.el d i) := by
    intro op srcs h t i
    rw [s.own.elem_el srcs a i (h a (by simp)), s.own.elem_el srcs b i (h b (by simp)), s.own.elem_el srcs d i (h d (by simp))]
  simp only [arithRows, List.forall_mem_cons]
  refine ⟨?_, ?_, ?_, ?_, ?_, ?_, ?_, ?_, ?_, ?_, ?_, by simp⟩
  iterate 8 · exact VRow.Computes.gives ⟨_, rfl, rfl, fun srcs h i => two _ srcs h _ i⟩ rfl (s.own.fits_of_legal d _ _ _)
  iterate 3 · exact VRow.Computes.gives ⟨_, rfl, rfl, fun srcs h i => three _ srcs h _ i⟩ rfl (s.own.fits_of_legal d _ _ _)

theorem floatRows_gives (p ce : Bool) (k : Option (BitVec 3)) (d a b : Reg) (tg : Tag) (tk : TokenReq) (s : State) :
    ∀ r ∈ floatRows p ce k d a b tg s.own, r.Gives s tk := by
  have one : ∀ (f : Nat → Nat × BitVec 6) (srcs : List Source), (∀ q ∈ [a], srcBits srcs q = s.own.vbits q) → ∀ i,
      f (s.own.elem srcs a i) = f (s.own.el a i) :=
    fun f srcs h i => by rw [s.own.elem_el srcs a i (h a (by simp))]
  have two : ∀ (f : Nat → Nat → Nat × BitVec 6) (srcs : List Source), (∀ q ∈ [a, b], srcBits srcs q = s.own.vbits q) → ∀ i,
      f (s.own.elem srcs a i) (s.own.elem srcs b i) = f (s.own.el a i) (s.own.el b i) :=
    fun f srcs h i => by rw [s.own.elem_el srcs a i (h a (by simp)), s.own.elem_el srcs b i (h b (by simp))]
  have fn : ∀ (f : Fn) (srcs : List Source), (∀ q ∈ [a], srcBits srcs q = s.own.vbits q) → ∀ i,
      fnElem f (s.own.tag a) s.own.rm (s.own.elem srcs a i) = fnElem f (s.own.tag a) s.own.rm (s.own.el a i) :=
    fun f => one (fnElem f (s.own.tag a) s.own.rm)
  simp only [floatRows, List.forall_mem_cons]
  refine ⟨?_, ?_, ?_, ?_, ?_, ?_, ?_, ?_, ?_, ?_, by simp⟩
  · exact VRow.Computes.gives ⟨_, rfl, rfl, one fun x =>
      ((roundOp (s.own.tag a) s.own.rm (sqrtNum (unpack (s.own.tag a) x)).1).1,
        (roundOp (s.own.tag a) s.own.rm (sqrtNum (unpack (s.own.tag a) x)).1).2 ||| (sqrtNum (unpack (s.own.tag a) x)).2)⟩ rfl
      (s.own.fits_of_legal d _ _ _)
  · exact VRow.Computes.gives ⟨_, rfl, rfl, two fun x y =>
      let r := roundOp (s.own.tag a) s.own.rm (scaleNum (unpack (s.own.tag a) x) (clampExp (intOf (s.own.tag b) y)))
      (r.1, r.2 ||| sigFlag [unpack (s.own.tag a) x])⟩ rfl (s.own.fits_of_legal d _ _ _)
  · exact VRow.Computes.gives ⟨_, rfl, rfl, one (convert (s.own.tag a) tg s.own.rm s.own.sat s.own.modulus)⟩ rfl (s.own.fits_of_legal d _ _ _)
  iterate 7 · exact VRow.Computes.gives ⟨_, rfl, rfl, fn _⟩ rfl (s.own.fits_of_legal d _ _ _)

/-- Settles O12: every row is an element loop over the registers as they stand. -/
theorem vectorComputeResults : Obligations.VectorComputeResults := by
  unfold Obligations.VectorComputeResults
  exact ⟨fun p ce k d a b tk s => arithRows_gives p ce k d a b tk s, fun p ce k d a b t tk s => floatRows_gives p ce k d a b t tk s⟩

end Sys2Proof.Machine
end

section
namespace Sys2Proof.Machine

/-! ## One register group written, with lane flags, and the instruction complete (R188, R189) -/

theorem Group.lmul_pos (G : Group) : 1 ≤ G.lmul := by
  rcases G.lmul_cases with e | e | e | e <;> omega

theorem tagWidth_le (t : Tag) : tagWidth t ≤ 64 := by cases t <;> decide

/-- The completion of an instruction that nothing held up, which wrote the bits and the tag of one group and some lane flags. -/
theorem State.vdone_group (s : State) (h : VHead) (d : Reg) (t : Tag) (b : Nat) (H : Group) (l : Vector (BitVec 6) 16)
    (hH : H = { s.own.begin with laneFlags := l }) (hr : s.VReady h) (hd : h.writes = some d) (hb : b < 2 ^ (8192 * s.own.lmul)) :
    ∃ u, (s.putOwn ((H.setBits d b).setTag d t)).vdone h = u ∧
      s.VRetires u h { s.own with v := u.own.v, vtag := u.own.vtag, laneFlags := l } ∧ s.own.OnlyVector u.own d t ∧ u.own.vbits d = b := by
  obtain ⟨halign, -, -, -, hchan, -, -⟩ := hr
  obtain ⟨hret, hv, hw, hl, hcfg⟩ := s.vdone_keeps _ h (putGroupBits s.own.v d.toNat b s.own.lmul) (putTags s.own.vtag d.toNat t s.own.lmul) l
    (fun c hc q hq => (hchan c hc).2 q hq) rfl
  rw [hl] at hret
  refine ⟨_, by rw [hH]; rfl, hret, ⟨fun r hr => ⟨?_, ?_⟩, fun r h1 h2 => ?_⟩, ?_⟩
  · exact (congrArg (·[r]) hv).trans (putGroupBits_out _ _ _ _ _ r.isLt hr)
  · exact (congrArg (·[r]) hw).trans (putTags_out _ _ _ _ _ r.isLt hr)
  · exact (congrArg (·[r]) hw).trans (putTags_in _ _ _ _ _ r.isLt h1 h2)
  · exact (Group.vbits_of _ d (Group.lmul_congr _ s.own hcfg) hv).trans
      ((groupBits_putGroupBits _ _ _ _ (s.own.aligned_room d (halign d (by simp [hd])))).trans (Nat.mod_eq_of_lt hb))

/-- The issue of a vector instruction that nothing holds up: its body, with its sources as the registers hold them. -/
theorem State.vector_ready (s : State) (h : VHead) (legal : Bool) (body : State → List Source → Nat → State) (P : State → Prop)
    (hr : s.VReady h) (hl : legal = true) (hP : ∀ srcs, srcStop srcs = none → (∀ r ∈ h.reads, srcBits srcs r = s.own.vbits r) →
      P (body (s.putOwn s.own.begin) srcs s.own.startElem)) : P (s.vector h legal body) := by
  obtain ⟨srcs, hstop, hbits, hrun⟩ := s.vectorWith_ready h legal (fun s1 srcs e => (s1, some (srcs, e))) (fun s1 p => body s1 p.1 p.2) hr hl
  exact (show s.vector h legal body = _ from hrun) ▸ hP srcs hstop hbits

/-! ## VRED (R218) -/

/-- The element that a reduction writes: none with VL = 0. -/
def Group.redBits (G : Group) (d : Reg) (t : Tag) (x : Nat) : Nat := if G.vl = 0 then G.vbits d else elemPut (G.vbits d) (tagWidth t) 0 x

theorem Group.redBits_lt (G : Group) (d : Reg) (t : Tag) (x : Nat) : G.redBits d t x < 2 ^ (8192 * G.lmul) := by
  unfold Group.redBits
  split
  · exact groupBits_lt _ _ _
  · have := G.lmul_pos
    have := tagWidth_le t
    exact elemPut_lt _ _ _ _ _ (groupBits_lt _ _ _) (by omega)

theorem Group.elemOf_redBits (G : Group) (d : Reg) (t : Tag) (x i : Nat) :
    elemOf (G.redBits d t x) (tagWidth t) i =
      match (if i = 0 ∧ G.vl ≠ 0 then some x else none) with
      | some v => v % 2 ^ tagWidth t
      | none => elemOf (G.vbits d) (tagWidth t) i := by
  unfold Group.redBits
  by_cases hvl : G.vl = 0
  · simp [hvl]
  · simp only [hvl, if_false, elemOf_elemPut, ne_eq, not_false_eq_true, and_true]
    split <;> rfl

/-- VRED whose operations raise no enabled flag writes the value of its tree. -/
theorem State.vred_gives (s : State) (ce : Bool) (k : Option (BitVec 3)) (d a : Reg) (op : Nat) (tk : TokenReq) (len : Nat)
    (hl : (foldAccepts op (s.own.tag a) && s.own.fits (s.own.tag a) && s.own.overlapOk d (foldTag op (s.own.tag a)) [a]) = true)
    (lifted : List (Option (Nat × BitVec 6))) (v : Option Nat × BitVec 6)
    (hlift : lifted = (upFrom 0 s.own.vl).map (fun i => if s.own.active k i then
      some (foldLift (s.own.tag a) (foldTag op (s.own.tag a)) s.own.rm s.own.modulus (s.own.el a i)) else none))
    (hv : v = treeFold (foldStep op (foldTag op (s.own.tag a)) s.own.rm s.own.sat s.own.modulus) 15 (lifted.map fun x => x.map Prod.fst)
      (lifted.foldl (fun f x => match x with | some q => f ||| q.2 | none => f) 0))
    (hx : v.2 &&& s.own.xen = 0) (hr : s.VReady (vredHead s.own ce k d a tk len)) :
    s.vred ce k d a op tk len = (s.putOwn (((s.own.begin.accrueLane 0 v.2).setBits d
      (s.own.redBits d (foldTag op (s.own.tag a)) (v.1.getD (foldUnit op (foldTag op (s.own.tag a)))))).setTag d (foldTag op (s.own.tag a)))).vdone
        (vredHead s.own ce k d a tk len) := by
  unfold State.vred
  refine s.vector_ready _ _ _ (fun u => u = _) hr hl fun srcs hstop hbits => ?_
  have helem : ∀ i, s.own.begin.elem srcs a i = s.own.el a i := fun i => s.own.elem_el srcs a i (hbits a (by simp [vredHead, xlHead]))
  have hG : (if v.2 = 0 then s.own.begin else s.own.begin.accrueLane 0 v.2) = s.own.begin.accrueLane 0 v.2 := by
    split
    · next h => rw [h, Group.accrueLane_zero]
    · rfl
  have hxen : ¬ (v.2 &&& s.own.begin.xen ≠ 0) := fun h => h hx
  have hlist : ((upFrom 0 s.own.begin.vl).map fun i => if s.own.begin.active k i = true then
      some (foldLift (s.own.tag a) (foldTag op (s.own.tag a)) s.own.begin.rm s.own.begin.modulus (s.own.begin.elem srcs a i)) else none) = lifted := by
    simp only [helem]
    exact hlift.symm
  simp only [State.own_putOwn, hstop, hlist]
  generalize hw : treeFold _ 15 _ _ = w
  obtain rfl : v = w := hv.trans hw
  simp only [hG, hxen, if_false, State.putOwn_putOwn]
  rfl

/-! ## VSCAN (R219) -/

/-- The index bits of a mask, read as a number's. -/
theorem bitAtNat_toNat {n : Nat} (m : BitVec n) (i : Nat) : bitAtNat m.toNat i = m.getLsbD i := by
  rw [bitAtNat, BitVec.getLsbD, Nat.testBit_eq_decide_div_mod_eq]

section
variable (op : Nat) (ta t : Tag) (srcs : List Source) (a : Reg) (act seg : Nat → Bool) (G : Group)

/-- The value that an active element of a scan becomes. -/
theorem scanAt_active {i : Nat} (ha : act i = true) : scanAt op ta t G act seg a (i + 1) =
    some (scanStep op ta t G (if seg i then none else scanAt op ta t G act seg a i) (G.el a i)).1 := by
  rw [scanAt, if_pos ha]

theorem scanLoop_active (helem : ∀ i, G.elem srcs a i = G.el a i) {n i b v : Nat} {l : Vector (BitVec 6) 16} (ha : act i = true)
    (hv : scanAt op ta t G act seg a (i + 1) = some v) (hf : scanFlags op ta t G act seg a i &&& G.xen = 0) :
    scanLoop op ta t srcs a act seg none (n + 1) i (scanAt op ta t G act seg a i) b { G with laneFlags := l } =
      scanLoop op ta t srcs a act seg none n (i + 1) (scanAt op ta t G act seg a (i + 1)) (elemPut b (tagWidth t) i v)
        (({ G with laneFlags := l } : Group).accrueLane (laneOf (tagWidth t) i) (scanFlags op ta t G act seg a i)) := by
  obtain rfl : _ = v := Option.some.inj ((scanAt_active op ta t a act seg G ha).symm.trans hv)
  have hstep : scanStep op ta t { G with laneFlags := l } (if seg i then none else scanAt op ta t G act seg a i) (({ G with laneFlags := l } : Group).elem srcs a i) =
      scanStep op ta t G (if seg i then none else scanAt op ta t G act seg a i) (G.el a i) := by
    rw [← helem i]
    rfl
  have hlanes : ∀ (H : Group) (x : BitVec 6), (if x = 0 then H else H.accrueLane (laneOf (tagWidth t) i) x) = H.accrueLane (laneOf (tagWidth t) i) x := by
    intro H x
    split
    · next h => rw [h, Group.accrueLane_zero]
    · rfl
  rw [hv, scanLoop]
  simp only [ha, Bool.not_true, Bool.false_eq_true, if_false, Option.filter_none, hstep, hlanes]
  exact if_neg fun h => h hf

theorem scanLoop_idle {n i b : Nat} {H : Group} (ha : act i = false) :
    scanLoop op ta t srcs a act seg none (n + 1) i (scanAt op ta t G act seg a i) b H =
      scanLoop op ta t srcs a act seg none n (i + 1) (scanAt op ta t G act seg a (i + 1)) b H := by
  rw [scanLoop, scanAt]
  simp only [ha, Bool.not_false, if_true, Bool.false_eq_true, if_false]

/-- The loop of a scan none of whose active elements raises an enabled flag: each becomes the fold up to it. -/
theorem scanLoop_done (helem : ∀ i, G.elem srcs a i = G.el a i) (n i b : Nat) (l : Vector (BitVec 6) 16)
    (hf : ∀ j ∈ (upFrom i n).filter act, scanFlags op ta t G act seg a j &&& G.xen = 0) :
    ∃ b', scanLoop op ta t srcs a act seg none n i (scanAt op ta t G act seg a i) b { G with laneFlags := l } = (b',
        ((upFrom i n).filter act).foldl (fun H j => H.accrueLane (laneOf (tagWidth t) j) (scanFlags op ta t G act seg a j)) { G with laneFlags := l }, none) ∧
      (∀ j, elemOf b' (tagWidth t) j = match (if j ∈ (upFrom i n).filter act then scanAt op ta t G act seg a (j + 1) else none) with
        | some v => v % 2 ^ tagWidth t
        | none => elemOf b (tagWidth t) j) ∧
      ∀ top, b < 2 ^ top → (∀ j ∈ (upFrom i n).filter act, tagWidth t * j + tagWidth t ≤ top) → b' < 2 ^ top := by
  induction n generalizing i b l with
  | zero => exact ⟨b, rfl, by simp [upFrom], fun _ h _ => h⟩
  | succ n ih =>
    by_cases ha : act i = true
    · have hcons : (upFrom i (n + 1)).filter act = i :: (upFrom (i + 1) n).filter act := by rw [upFrom, List.filter_cons, if_pos ha]
      rw [hcons] at hf ⊢
      obtain ⟨v, hv⟩ : ∃ v, scanAt op ta t G act seg a (i + 1) = some v := ⟨_, scanAt_active op ta t a act seg G ha⟩
      obtain ⟨b', hloop, helems, hlt⟩ := ih (i + 1) (elemPut b (tagWidth t) i v)
        (({ G with laneFlags := l } : Group).accrueLane (laneOf (tagWidth t) i) (scanFlags op ta t G act seg a i)).laneFlags
        (fun j hj => hf j (List.mem_cons_of_mem i hj))
      refine ⟨b', ?_, fun j => ?_, fun top hb ht => ?_⟩
      · rw [scanLoop_active op ta t srcs a act seg G helem ha hv (hf i List.mem_cons_self)]
        exact hloop
      · rw [helems, elemOf_elemPut]
        by_cases hj : j = i
        · subst hj
          have hnot : j ∉ (upFrom (j + 1) n).filter act := by rw [List.mem_filter, upFrom_mem]; omega
          simp [hnot, hv]
        · simp [hj]
      · exact hlt top (elemPut_lt _ _ _ _ _ hb (ht i List.mem_cons_self)) fun j hj => ht j (List.mem_cons_of_mem i hj)
    · have ha' : act i = false := by simpa using ha
      have hskip : (upFrom i (n + 1)).filter act = (upFrom (i + 1) n).filter act := by rw [upFrom, List.filter_cons, if_neg ha]
      rw [hskip] at hf ⊢
      rw [scanLoop_idle op ta t srcs a act seg G ha']
      exact ih (i + 1) b l hf

end

/-- A group that does not resume consumes no start element. -/
theorem Group.begin_eq (G : Group) (h : G.resume = false) : G.begin = G := by
  unfold Group.begin
  rw [h, if_neg Bool.false_ne_true, ← h]

/-- Whether a segment starts at an index: a set bit of the segment mask (R219). -/
def Group.segStart (G : Group) (sm : Option (BitVec 3)) (i : Nat) : Bool :=
  match sm with
  | some m => bitAtNat (G.mask m) i
  | none => false

/-- What a scan under head `h` leaves: each active element the fold up to it, the flags in the lanes. -/
def State.Scanned (s u : State) (h : VHead) (d a : Reg) (op : Nat) (t : Tag) (seg : Nat → Bool) : Prop :=
  s.VRetires u h { s.own with
    v := u.own.v, vtag := u.own.vtag
    laneFlags := s.own.flagsAfter (tagWidth t) (scanFlags op (s.own.tag a) t s.own (s.own.active h.mask) seg a) (s.own.steps h.mask) } ∧
  s.own.OnlyVector u.own d t ∧
  s.own.HasElems u.own d (tagWidth t) (fun i =>
    if i ∈ s.own.steps h.mask then scanAt op (s.own.tag a) t s.own (s.own.active h.mask) seg a (i + 1) else none)

/-- VSCAN from the first element, none of whose active elements raises an enabled flag. -/
theorem State.vscan_scanned (s : State) (ce : Bool) (k sm : Option (BitVec 3)) (d a : Reg) (op : Nat) (tk : TokenReq) (len : Nat) (t : Tag)
    (ht : t = foldTag op (s.own.tag a)) (hl : (foldAccepts op (s.own.tag a) && s.own.lengthsOk d t [a]) = true) (h0 : s.own.resume = false)
    (hf : ∀ i ∈ s.own.steps k, scanFlags op (s.own.tag a) t s.own (s.own.active k) (s.own.segStart sm) a i &&& s.own.xen = 0)
    (hr : s.VReady (vscanHead ce k sm d a (decide (op = 0) && tagIsFloat t) tk len)) :
    s.Scanned (s.vscan ce k sm d a op tk len) (vscanHead ce k sm d a (decide (op = 0) && tagIsFloat t) tk len) d a op t (s.own.segStart sm) := by
  have hstart : s.own.startElem = 0 := by simp [Group.startElem, h0]
  have hsteps : (upFrom 0 s.own.vl).filter (s.own.active k) = s.own.steps k := by rw [Group.steps, hstart, Nat.sub_zero]
  have hroom : ∀ j ∈ s.own.steps k, tagWidth t * j + tagWidth t ≤ 8192 * s.own.lmul := fun j hj =>
    s.own.fits_room t (s.own.fits_of_legal d _ _ _ hl) j (by rw [← hsteps, List.mem_filter, upFrom_mem] at hj; omega)
  subst ht
  unfold State.vscan
  refine s.vector_ready _ _ _ (fun u => s.Scanned u _ d a op _ (s.own.segStart sm)) hr hl fun srcs hstop hbits => ?_
  obtain ⟨b, hloop, helem, hlt⟩ := scanLoop_done op (s.own.tag a) (foldTag op (s.own.tag a)) srcs a (s.own.active k)
    (s.own.segStart sm) s.own (fun i => s.own.elem_el srcs a i (hbits a (by simp [vscanHead, xlHead]))) s.own.vl 0 (s.own.vbits d) s.own.laneFlags (by rw [hsteps]; exact hf)
  rw [hsteps] at hloop helem hlt
  rw [accrue_foldl] at hloop
  obtain ⟨u, hu, hret, honly, hvb⟩ := s.vdone_group _ d (foldTag op (s.own.tag a)) b _ _ (by rw [s.own.begin_eq h0]) hr rfl
    (hlt _ (groupBits_lt _ _ _) hroom)
  simp only [State.own_putOwn, State.putOwn_putOwn, hstop, hstart, s.own.begin_eq h0, Nat.sub_zero]
  generalize hw : scanLoop _ _ _ _ _ _ _ _ _ _ _ _ _ = w
  obtain rfl : w = _ := hw.symm.trans hloop
  exact (congrArg (fun u => s.Scanned u _ d a op (foldTag op (s.own.tag a)) (s.own.segStart sm)) hu).mpr ⟨hret, honly, fun i => hvb ▸ helem i⟩

/-- What a reduction leaves under its head. -/
theorem State.vred_reduces (s : State) (ce : Bool) (k : Option (BitVec 3)) (d a : Reg) (op : Nat) (tk : TokenReq) (len : Nat) (x : Nat) (fl : BitVec 6) (t : Tag)
    (hr : s.VReady (vredHead s.own ce k d a tk len))
    (hrun : s.vred ce k d a op tk len =
      (s.putOwn (((s.own.begin.accrueLane 0 fl).setBits d (s.own.redBits d t x)).setTag d t)).vdone (vredHead s.own ce k d a tk len)) :
    ∃ u, s.vred ce k d a op tk len = u ∧
      s.VRetires u (vredHead s.own ce k d a tk len) { (s.own.accrueLane 0 fl) with v := u.own.v, vtag := u.own.vtag } ∧ s.own.OnlyVector u.own d t ∧
      s.own.HasElems u.own d (tagWidth t) (fun i => if i = 0 ∧ s.own.vl ≠ 0 then some x else none) := by
  obtain ⟨u, hu, hret, honly, hvb⟩ := s.vdone_group _ d t _ _ (s.own.accrueLane 0 fl).laneFlags rfl hr rfl (s.own.redBits_lt d t x)
  exact ⟨u, hrun.trans hu, hret, honly, fun i => hvb ▸ s.own.elemOf_redBits d t x i⟩

/-- Settles O16: a reduction is its tree's value in element 0, a scan its loop from the first element. -/
theorem foldResults : Obligations.FoldResults := by
  unfold Obligations.FoldResults
  refine ⟨?_, ?_⟩
  · intro ce k d a o tk s tg lifted v htg hacc hfit hover hlift hv hx e he hr
    subst htg
    have hl : (foldAccepts o.toNat (s.own.tag a) && s.own.fits (s.own.tag a) && s.own.overlapOk d (foldTag o.toNat (s.own.tag a)) [a]) = true := by
      rw [hacc, hfit, hover]
      rfl
    have gives := fun tk len (hr : s.VReady (vredHead s.own ce k d a tk len)) =>
      s.vred_reduces ce k d a o.toNat tk len _ _ _ hr (s.vred_gives ce k d a o.toNat tk len hl lifted v hlift hv hx hr)
    simp only [List.mem_cons, List.not_mem_nil, or_false] at he
    rcases he with rfl | rfl
    · obtain ⟨u, hu, h⟩ := gives _ _ hr
      exact ⟨u, congrArg Host.Outcome.next hu, h⟩
    · obtain ⟨u, hu, h⟩ := gives _ _ hr
      exact ⟨u, congrArg Host.Outcome.next hu, h⟩
  · intro ce k mk d a o tk s tg htg hacc hlen h0 q hq seg hseg y fl hy hfl hf e he hr
    subst hy hfl
    have hl : (foldAccepts o.toNat (s.own.tag a) && s.own.lengthsOk d tg [a]) = true := by
      rw [hacc, hlen]
      rfl
    have hstart : seg = s.own.segStart (if q.2.2.2 then some mk else none) := by
      funext i
      rw [hseg]
      cases q.2.2.2
      · rfl
      · exact (bitAtNat_toNat _ _).symm
    subst hstart
    have scanned := fun tk len => s.vscan_scanned ce q.2.2.1 (if q.2.2.2 then some mk else none) d a o.toNat tk len tg htg hl h0 hf
    simp only [List.mem_cons, List.not_mem_nil, or_false] at hq he
    rcases hq with rfl | rfl <;> rcases he with rfl | rfl <;> exact ⟨_, rfl, scanned _ _ hr⟩

end Sys2Proof.Machine
end

section
namespace Sys2Proof.Machine

theorem exec_matrixEntryIssue (b : BitVec 9) (s : State) : exec (.matrixEntryIssue b) s = execMatrixEntryIssue b s := rfl
theorem exec_tldRowblockLand (b : BitVec 9) (far : FarData) (lost : Bool) (s : State) :
    exec (.tldRowblockLand b far lost) s = execTldRowblockLand b far lost s := rfl
theorem exec_matrixEntryRetire (b : BitVec 9) (far : FarData) (lost : Bool) (s : State) :
    exec (.matrixEntryRetire b far lost) s = execMatrixEntryRetire b far lost s := rfl
theorem exec_matrixWindow (b : BitVec 9) (s : State) : exec (.matrixWindow b) s = execMatrixWindow b s := rfl

/-! ## Cells and groups apart -/

theorem State.cell_putGroup (s : State) (g : Nat) (G : Group) (c : Nat) : (s.putGroup g G).cell c = s.cell c := rfl

theorem State.putCell_putGroup (s : State) (c : Nat) (C : CellState) (g : Nat) (G : Group) :
    (s.putCell c C).putGroup g G = (s.putGroup g G).putCell c C := rfl

theorem State.putCell_putCell (s : State) (c : Nat) (C D : CellState) : (s.putCell c C).putCell c D = s.putCell c D := by
  simp [State.putCell]

/-- The head of a list replaced wherever it stands. -/
theorem map_replace_head {α : Type} [DecidableEq α] (e x : α) (rest : List α) (h : e ∉ rest) :
    (e :: rest).map (fun q => if q = e then x else q) = x :: rest := by
  have hrest : rest.map (fun q => if q = e then x else q) = rest :=
    (List.map_congr_left fun q hq => if_neg fun hqe : q = e => h (hqe ▸ hq)).trans (List.map_id' rest)
  rw [List.map_cons, if_pos rfl, hrest]

/-! ## Tokens of an engine entry (R316) -/

/-- A pop that finds its token leaves one fewer. -/
theorem Group.popToken_of (G H : Group) (p : Option (BitVec 4))
    (h : match p with | some f => G.fifos[f.toNat] ≠ 0 ∧ H = { G with fifos := G.fifos.set f.toNat (G.fifos[f.toNat] - 1) } | none => H = G) :
    (∀ f ∈ p, G.fifos[f.toNat] ≠ 0) ∧ H = G.popToken p := by
  cases p with
  | none => exact ⟨fun f hf => (Option.not_mem_none f hf).elim, h⟩
  | some f => exact ⟨fun g hg => Option.mem_some_iff.mp hg ▸ h.1, h.2⟩

/-- A push that finds room: the FIFOs of the group after it, whatever else its entry changes. -/
theorem Group.pushOpt_of (G H : Group) (p : Option (BitVec 4))
    (h : match p with | some f => G.fifos[f.toNat] < 255 ∧ H = { G with fifos := G.fifos.set f.toNat (G.fifos[f.toNat] + 1) } | none => H = G) :
    ∃ x, H = { G with fifos := x } ∧ ∀ K : Group, K.fifos = G.fifos → K.pushRoom p = true ∧ K.pushOpt p = { K with fifos := x } := by
  cases p with
  | none => exact ⟨G.fifos, h, fun K hK => ⟨rfl, by rw [← hK]; rfl⟩⟩
  | some f =>
    refine ⟨_, h.2, fun K hK => ⟨?_, ?_⟩⟩
    · rw [Group.pushRoom, hK]
      exact decide_eq_true h.1
    · rw [Group.pushOpt, Group.pushToken, hK]

/-! ## Issue of the entry at the head (R261, R263, R265) -/

theorem State.flush_nil (s : State) (g : Nat) (h : (s.group g).async = []) : s.flush g = s := by rw [State.flush, h]; rfl

/-- With no access queued and none held on its way, no store stands before an entry. -/
theorem State.storesBefore_nil (s : State) (e : MatrixEntry) (hs : ∀ l ∈ (s.group e.group).slices.toList, l = [])
    (hw : ∀ w ∈ (s.group e.group).sent, w.held = none) : s.storesBefore e = false := by
  have older : ∀ q, ((s.group e.group).slice q).any (fun a => precedes e.tok e.seq a.seq) = false ∧
      ((s.group e.group).sent.any fun w => w.held.isSome && precedes e.tok e.seq w.seq && sliceOf w.va.toNat == q) = false := by
    refine fun q => ⟨by rw [Group.slice_nil _ q hs]; rfl, List.any_eq_false.mpr fun w hm => ?_⟩
    simp [hw w hm]
  have all : ∀ l : List Nat, (l.any fun q => ((s.group e.group).slice q).any (fun a => precedes e.tok e.seq a.seq) ||
      (s.group e.group).sent.any fun w => w.held.isSome && precedes e.tok e.seq w.seq && sliceOf w.va.toNat == q) = false := by
    refine fun l => List.any_eq_false.mpr fun q _ => ?_
    rw [(older q).1, (older q).2]
    exact Bool.false_ne_true
  unfold State.storesBefore
  simp only [all]
  cases e.op <;> exact ite_self false

/-- Runs none of which lies on another module are asked of none. -/
theorem State.emitReads_near (s : State) (g : Nat) (runs : List (Nat × Nat)) (h : ∀ r ∈ runs, paModule r.1 = false) : s.emitReads g runs = s := by
  have hn : (runs.filter fun r => paFar r.1) = [] := List.filter_eq_nil_iff.mpr fun r hr => by simp [paFar, h r hr]
  rw [State.emitReads, hn]
  rfl

/-- An entry as it is issued unchained by a state, its group's token taken. -/
def MatrixEntry.issuedBy (e : MatrixEntry) (s : State) (H : Group) : MatrixEntry :=
  match e.op with
  | .mul kind ad td n ta tb sct =>
    { e with issued := true, chained := false, snap := some (s.snapshot e.group n)
             owed := mulClocks kind e.vcfg (mulPath H kind ad td ta tb sct (s.snapshot e.group n).2 false) false }
  | _ => { e with issued := true }

/-- An entry at the head of a queue leaves it when its push finds room. -/
theorem State.leaveQueue_head (s : State) (c : Nat) (e : MatrixEntry) (rest : List MatrixEntry) (hq : (s.cell c).mq = e :: rest)
    (hroom : (s.group e.group).pushRoom e.tok.push = true) :
    s.leaveQueue c [] e = some ((s.putGroup e.group (((s.group e.group).countPath e.elided).pushOpt e.tok.push)).putCell c
      { s.cell c with mq := rest }) := by
  rw [State.leaveQueue, hroom]
  simp only [hq, List.erase_cons_head]
  rfl

section Head

variable (b : BitVec 9) (s : State) (e : MatrixEntry) (rest : List MatrixEntry) (hq : (s.cell b.toNat).mq = e :: rest) (hnot : e ∉ rest)
include hq hnot

/-- The entry at the head issues when nothing stands before it. -/
theorem execMatrixEntryIssue_head (hi : e.issued = false) (hm : s.mayIssue e.group = true)
    (hs : ∀ l ∈ (s.group e.group).slices.toList, l = []) (hw : ∀ w ∈ (s.group e.group).sent, w.held = none) (ha : (s.group e.group).async = [])
    (hb : s.behind e.group (s.entryRuns e) = false) (hr : ∀ r ∈ e.rows, ∀ p ∈ r.2, paModule p.1 = false)
    (hp : ∀ f ∈ e.tok.pop, (s.group e.group).fifos[f.toNat] ≠ 0) :
    execMatrixEntryIssue b s = .next ((s.putGroup e.group ((s.group e.group).popToken e.tok.pop)).putCell b.toNat
      { s.cell b.toNat with mq := e.issuedBy s ((s.group e.group).popToken e.tok.pop) :: rest }) := by
  have hnear : ∀ r ∈ (e.rows.map Prod.snd).flatten, paModule r.1 = false := by
    intro r h
    obtain ⟨l, hl, hrl⟩ := List.mem_flatten.mp h
    obtain ⟨q, hqm, rfl⟩ := List.mem_map.mp hl
    exact hr q hqm r hrl
  have htry : s.tryIssue b.toNat [] e = some ((s.putGroup e.group ((s.group e.group).popToken e.tok.pop)).putCell b.toNat
      { s.cell b.toNat with mq := e.issuedBy s ((s.group e.group).popToken e.tok.pop) :: rest }) := by
    rw [State.tryIssue, s.flush_nil e.group ha, s.drainThose_nil e.group _ fun q => Group.slice_nil _ q hs]
    simp only [hi, hm, ha, hb, hq, s.storesBefore_nil e hs hw, map_replace_head e _ rest hnot, List.filter_nil, List.any_nil, List.all_nil]
    refine (if_neg Bool.false_ne_true).trans ((if_neg fun h => ?_).trans (congrArg some (State.emitReads_near _ _ _ hnear)))
    cases hpop : e.tok.pop with
    | none => simp [hpop] at h
    | some f => simp [hpop, hp f hpop] at h
  rw [execMatrixEntryIssue, hq, State.issueFrom, htry]

/-! ## A row-block of the TLD at the head (R265, R273) -/

/-- A row-block of the TLD at the head lands. -/
theorem execTldRowblockLand_head (far : FarData) (lost : Bool) (td : BitVec 3) (base stride : Word) (tg : Tag) (data : List Byte)
    (bad : Option (Nat × Word)) (r : MatrixEntry) (hop : e.op = .tld td base stride tg) (hi : e.issued = true) (he : e.effected = false)
    (hread : s.readRows e far lost ((e.rows.drop (4 * e.landed)).take 4) = some (r, data, bad)) (hgood : e.landed ≠ 3 ∨ e.bad.or bad = none) :
    execTldRowblockLand b far lost s = .next ((s.putGroup e.group
      (if e.landed = 3 then ((s.group e.group).landRows td.toNat e.landed data).classTile td.toNat tg false
        else (s.group e.group).landRows td.toNat e.landed data)).putCell b.toNat { s.cell b.toNat with
          mq := { r with landed := e.landed + 1, bad := e.bad.or bad, effected := decide (e.landed = 3) } :: rest }) := by
  have hland : s.landBlock b.toNat far lost e = some ((s.putGroup e.group
      (if e.landed = 3 then ((s.group e.group).landRows td.toNat e.landed data).classTile td.toNat tg false
        else (s.group e.group).landRows td.toNat e.landed data)).putCell b.toNat { s.cell b.toNat with
          mq := { r with landed := e.landed + 1, bad := e.bad.or bad, effected := decide (e.landed = 3) } :: rest }) := by
    simp only [State.landBlock, hop, hi, he, hread, State.putEntry, State.cell_putGroup, hq, map_replace_head e _ rest hnot, Option.map_some]
    by_cases h3 : e.landed = 3
    · have hb := hgood.resolve_left (fun h => h h3)
      simp [h3, hb, State.mqFault]
    · simp [h3]
  rw [execTldRowblockLand, hq, List.findSome?_cons, hland]
  rfl

/-! ## Retirement of the entry at the head (R263, R266, R268) -/

omit hnot in
/-- The entry at the head that has taken its effect retires. -/
theorem execMatrixEntryRetire_effected (far : FarData) (lost : Bool) (hi : e.issued = true) (he : e.effected = true)
    (hroom : (s.group e.group).pushRoom e.tok.push = true) :
    execMatrixEntryRetire b far lost s = .next ((s.putGroup e.group (((s.group e.group).countPath e.elided).pushOpt e.tok.push)).putCell b.toNat
      { s.cell b.toNat with mq := rest }) := by
  have htry : s.tryRetire b.toNat [] e far lost = some ((s.putGroup e.group (((s.group e.group).countPath e.elided).pushOpt e.tok.push)).putCell b.toNat
      { s.cell b.toNat with mq := rest }) := by
    rw [State.tryRetire, hi, he]
    exact s.leaveQueue_head b.toNat e rest hq hroom
  rw [execMatrixEntryRetire, hq, State.retireFrom, htry]

/-- The entry at the head takes its effect on its group and retires. -/
theorem execMatrixEntryRetire_effect (far : FarData) (lost : Bool) (hi : e.issued = true) (he : e.effected = false) (h0 : e.owed = 0) (K : Group)
    (hK : s.matrixEffect e far lost = some (s.putGroup e.group K)) (hroom : K.pushRoom e.tok.push = true) :
    execMatrixEntryRetire b far lost s = .next ((s.putGroup e.group ((K.countPath (e.pathTaken (s.group e.group))).pushOpt e.tok.push)).putCell b.toNat
      { s.cell b.toNat with mq := rest }) := by
  have hput : ∀ e1, (s.putGroup e.group K).putEntry b.toNat e e1 = (s.putGroup e.group K).putCell b.toNat { s.cell b.toNat with mq := e1 :: rest } := by
    intro e1
    rw [State.putEntry, State.cell_putGroup, hq, map_replace_head e e1 rest hnot]
  have htry : s.tryRetire b.toNat [] e far lost = some ((s.putGroup e.group ((K.countPath (e.pathTaken (s.group e.group))).pushOpt e.tok.push)).putCell
      b.toNat { s.cell b.toNat with mq := rest }) := by
    simp only [State.tryRetire, hi, he, h0, hK, hput, List.filter_nil, List.any_nil, Bool.not_true, Bool.false_eq_true, if_false, Option.map_some, gt_iff_lt, lt_irrefl]
    rw [State.leaveQueue_head _ b.toNat _ rest (by rw [State.cell_putCell]) (by rw [State.group_putCell, State.group_putGroup]; exact hroom)]
    simp only [State.group_putCell, State.group_putGroup, State.cell_putCell, State.putCell_putGroup, State.putCell_putCell, State.putGroup_putGroup,
      Option.getD_some]
  rw [execMatrixEntryRetire, hq, State.retireFrom, htry]

end Head

section Spend

variable (b : BitVec 9) (s : State) (e : MatrixEntry) (hq : (s.cell b.toNat).mq = [e]) (lim used k : Nat)
  (hlim : lim = ((if setOf e.group = 0 then (s.cell b.toNat).limNow0 else (s.cell b.toNat).limNow1).getD
    (((s.slotSet (setOf e.group)).img.bind Image.lim).getD 256)))
  (hused : used = (if setOf e.group = 0 then (s.cell b.toNat).spent0 else (s.cell b.toNat).spent1))
  (hk : k = min e.owed (min ((s.cell b.toNat).capNow - (s.cell b.toNat).spent) (lim - used)))
include hlim hused hk

/-- The clocks that the window allows an entry (R266). -/
theorem State.spend_eq : s.spend b.toNat (setOf e.group) e.owed = (s.putCell b.toNat { s.cell b.toNat with
    spent := (s.cell b.toNat).spent + k, spent0 := if setOf e.group = 0 then used + k else (s.cell b.toNat).spent0
    spent1 := if setOf e.group = 0 then (s.cell b.toNat).spent1 else used + k }, k) := by
  subst hlim hused hk
  by_cases h : setOf e.group = 0 <;> simp [State.spend, h]

include hq

/-- An entry alone in its queue, with clocks still owed, spends what the window allows. -/
theorem execMatrixEntryRetire_spends (far : FarData) (lost : Bool) (hi : e.issued = true) (he : e.effected = false) (h0 : 0 < e.owed) :
    execMatrixEntryRetire b far lost s = .next (if k = 0 then s else s.putCell b.toNat { s.cell b.toNat with
      mq := [{ e with owed := e.owed - k }], spent := (s.cell b.toNat).spent + k
      spent0 := if setOf e.group = 0 then used + k else (s.cell b.toNat).spent0
      spent1 := if setOf e.group = 0 then (s.cell b.toNat).spent1 else used + k }) := by
  rw [execMatrixEntryRetire, hq, State.retireFrom, State.tryRetire, s.spend_eq b e lim used k hlim hused hk]
  by_cases hk0 : k = 0
  · simp [hi, he, h0, hk0, State.retireFrom]
  · simp [hi, he, h0, hk0, State.putEntry, hq, State.putCell_putCell]

end Spend

end Sys2Proof.Machine
end

section
namespace Sys2Proof.Machine

/-! ## Elements replaced one by one, with their flags (R281) -/

/-- A fold that replaces the elements of a bit string from index `i` on and ORs their flags. -/
theorem foldl_elemPut (w : Nat) (f : Nat → Nat × BitVec 6) (n i b : Nat) (fl : BitVec 6) :
    ∃ x, (upFrom i n).foldl (fun (p : Nat × BitVec 6) j => (elemPut p.1 w j (f j).1, p.2 ||| (f j).2)) (b, fl) =
        (x, (upFrom i n).foldl (fun fl j => fl ||| (f j).2) fl) ∧
      (∀ j, elemOf x w j = if i ≤ j ∧ j < i + n then (f j).1 % 2 ^ w else elemOf b w j) ∧
      ∀ top, b < 2 ^ top → w * (i + n) ≤ top → x < 2 ^ top := by
  induction n generalizing i b fl with
  | zero => exact ⟨b, rfl, fun j => (if_neg (by omega)).symm, fun _ h _ => h⟩
  | succ n ih =>
    obtain ⟨x, hx, helem, hlt⟩ := ih (i + 1) (elemPut b w i (f i).1) (fl ||| (f i).2)
    refine ⟨x, hx, fun j => ?_, fun top hb ht => ?_⟩
    · rw [helem, elemOf_elemPut]
      by_cases hj : j = i
      · subst hj
        rw [if_neg (by omega), if_pos rfl, if_pos (by omega)]
      · rw [if_neg hj]
        congr 1
        exact propext (by omega)
    · have hw : w * i + w ≤ w * (i + (n + 1)) := by rw [← Nat.mul_succ]; exact Nat.mul_le_mul_left w (by omega)
      exact hlt top (elemPut_lt _ _ _ _ _ hb (by omega)) (by rw [Nat.add_assoc, Nat.add_comm 1 n]; exact ht)

/-- The elements below `n` replaced, with their flags. -/
theorem foldUp_elemPut (w n b : Nat) (f : Nat → Nat × BitVec 6) :
    (∀ j, elemOf (foldUp n (fun j (p : Nat × BitVec 6) => (elemPut p.1 w j (f j).1, p.2 ||| (f j).2)) (b, 0)).1 w j =
      if j < n then (f j).1 % 2 ^ w else elemOf b w j) ∧
    (foldUp n (fun j (p : Nat × BitVec 6) => (elemPut p.1 w j (f j).1, p.2 ||| (f j).2)) (b, 0)).2 =
      (upFrom 0 n).foldl (fun fl j => fl ||| (f j).2) 0 ∧
    ∀ top, b < 2 ^ top → w * n ≤ top →
      (foldUp n (fun j (p : Nat × BitVec 6) => (elemPut p.1 w j (f j).1, p.2 ||| (f j).2)) (b, 0)).1 < 2 ^ top := by
  obtain ⟨x, hx, helem, hlt⟩ := foldl_elemPut w f n 0 b 0
  rw [foldUp, hx]
  refine ⟨fun j => ?_, rfl, fun top hb ht => hlt top hb (by rw [Nat.zero_add]; exact ht)⟩
  rw [helem, Nat.zero_add]
  simp only [Nat.zero_le, true_and]

/-- The flags of a fold whose elements raise none. -/
theorem foldl_or_zero (l : List Nat) (fl : BitVec 6) : l.foldl (fun fl _ => fl ||| (0 : BitVec 6)) fl = fl :=
  List.foldl_fixed' (fun _ => BitVec.or_zero) l

section Acc

variable (f : Nat → Nat → Nat → Nat × BitVec 6) (acc : Nat) (hb : acc < 2 ^ 16384)
include hb

theorem mapAcc32_spec : (∀ p, p < 512 → elemOf (mapAcc32 f acc).1 32 p = (f (p / 32) (p % 32) (elemOf acc 32 p)).1 % 2 ^ 32) ∧
    (mapAcc32 f acc).2 = (upFrom 0 512).foldl (fun fl p => fl ||| (f (p / 32) (p % 32) (elemOf acc 32 p)).2) 0 ∧ (mapAcc32 f acc).1 < 2 ^ 16384 := by
  obtain ⟨helem, hfl, hlt⟩ := foldUp_elemPut 32 512 acc fun p => f (p / 32) (p % 32) (elemOf acc 32 p)
  exact ⟨fun p hp => (helem p).trans (if_pos hp), hfl, hlt 16384 hb (by omega)⟩

theorem mapAcc64_spec (half : Nat) :
    (∀ p, p < 256 → elemOf (mapAcc64 f half acc).1 64 p = (f (p / 16) (16 * half + p % 16) (elemOf acc 64 p)).1 % 2 ^ 64) ∧
    (mapAcc64 f half acc).2 = (upFrom 0 256).foldl (fun fl p => fl ||| (f (p / 16) (16 * half + p % 16) (elemOf acc 64 p)).2) 0 ∧
    (mapAcc64 f half acc).1 < 2 ^ 16384 := by
  obtain ⟨helem, hfl, hlt⟩ := foldUp_elemPut 64 256 acc fun p => f (p / 16) (16 * half + p % 16) (elemOf acc 64 p)
  exact ⟨fun p hp => (helem p).trans (if_pos hp), hfl, hlt 16384 hb (by omega)⟩

end Acc

/-! ## Tile registers and accumulators of a group (R255, R260) -/

theorem setIfInBounds_of_lt {α : Type} {n : Nat} (v : Vector α n) (i : Nat) (x : α) (h : i < n) : v.setIfInBounds i x = v.set i x := by
  ext j hj
  rw [Vector.getElem_setIfInBounds, Vector.getElem_set]

section Tiles

variable (G : Group) (n : Nat)

theorem Group.tileBits_of (h : n < 8) : G.tileBits n = (G.t[n]).toNat := by simp [Group.tileBits, h]
theorem Group.tileEntry_of (h : n < 8) : G.tileEntry n = G.tdir[n] := by simp [Group.tileEntry, h]
theorem Group.accBits_of (h : n < 4) : G.accBits n = (G.a[n]).toNat := by simp [Group.accBits, h]
theorem Group.accEntry_of (h : n < 4) : G.accEntry n = G.adir[n] := by simp [Group.accEntry, h]

theorem Group.setTile_of (b : Nat) (h : n < 8) : G.setTile n b = { G with t := G.t.set n (BitVec.ofNat 6144 b) } := by
  rw [Group.setTile, setIfInBounds_of_lt _ _ _ h]

theorem Group.classTile_of (t : Tag) (p : Bool) (h : n < 8) : G.classTile n t p = { G with tdir := G.tdir.set n (classify .reg t p (G.t[n]).toNat) } := by
  rw [Group.classTile, setIfInBounds_of_lt _ _ _ h, G.tileBits_of n h]

theorem Group.setAcc_of (t : Tag) (b : Nat) (h : n < 4) :
    G.setAcc n t b = { G with a := G.a.set n (BitVec.ofNat 16384 b), adir := G.adir.set n (classify .acc t false b) } := by
  rw [Group.setAcc, setIfInBounds_of_lt _ _ _ h, setIfInBounds_of_lt _ _ _ h]

/-- An accumulator's mark alone changes where its POISON is set. -/
theorem Group.poisonAcc_adir (q : Fin 4) : (G.poisonAcc n).adir[q] = if q.val = n then { G.adir[q] with poison := true } else G.adir[q] := by
  rw [Group.poisonAcc, Fin.getElem_fin, Vector.getElem_setIfInBounds]
  by_cases h : q.val = n
  · subst h
    rw [if_pos rfl, if_pos rfl, G.accEntry_of _ q.isLt, Fin.getElem_fin]
  · rw [if_neg h, if_neg (Ne.symm h), Fin.getElem_fin]

/-- An accumulator written whole: its bits, its directory entry, and the other accumulators (R260). -/
theorem Group.setAcc_spec (h : n < 4) (t : Tag) (x : Nat) (hx : x < 2 ^ 16384) :
    ∃ (a' : Vector (BitVec 16384) 4) (d' : Vector TileEntry 4), G.setAcc n t x = { G with a := a', adir := d' } ∧
      (a'[n]).toNat = x ∧ d'[n] = classify .acc t false x ∧ ∀ q : Fin 4, q.val ≠ n → a'[q] = G.a[q] ∧ d'[q] = G.adir[q] := by
  refine ⟨_, _, G.setAcc_of n t x h, ?_, Vector.getElem_set_self _, fun q hq => ?_⟩
  · rw [Vector.getElem_set_self]
    exact Nat.mod_eq_of_lt hx
  · exact ⟨Vector.getElem_set_ne _ _ (Ne.symm hq), Vector.getElem_set_ne _ _ (Ne.symm hq)⟩

theorem Group.accBits_lt (h : n < 4) : G.accBits n < 2 ^ 16384 := by
  rw [G.accBits_of n h]
  exact (G.a[n]).isLt

end Tiles

/-- A row-block of a TLD in its tile register: the other tiles and rows as they were (R255). -/
theorem Group.landRows_rows (G : Group) (td : BitVec 3) (r : Nat) (data : List Byte) (hr : r < 4) :
    ∃ t' : Vector (BitVec 6144) 8, G.landRows td.toNat r data = { G with t := t' } ∧ (∀ k : Fin 8, k.val ≠ td.toNat → t'[k] = G.t[k]) ∧
      ∀ i, elemOf (t'[td.toNat]).toNat 1536 i = if i = r then natOfBytes data % 2 ^ 1536 else elemOf (G.t[td.toNat]).toNat 1536 i := by
  refine ⟨_, G.setTile_of td.toNat _ td.isLt, fun k hk => Vector.getElem_set_ne _ _ (Ne.symm hk), fun i => ?_⟩
  have hlt : elemPut (G.tileBits td.toNat) 1536 r (natOfBytes data) < 2 ^ 6144 :=
    elemPut_lt _ _ _ _ _ (by rw [G.tileBits_of _ td.isLt]; exact (G.t[td.toNat]).isLt) (by omega)
  rw [Vector.getElem_set_self, BitVec.toNat_ofNat, Nat.mod_eq_of_lt hlt, elemOf_elemPut, G.tileBits_of _ td.isLt]

/-! ## A multiply's effect (R66 to R69, R269) -/

section Multiply

variable (G : Group) (e : MatrixEntry) (k ad : BitVec 2) (td : BitVec 3) (ta tb : Tag) (sct : Option (BitVec 3)) (sn : BitVec 12288 × TileEntry)

/-- Whether an operand, the scale tile or an accumulator of a multiply is poisoned (R269). -/
def Group.mulPoisoned : Prop :=
  (G.tdir[td.toNat]).poison = true ∨ sn.2.poison = true ∨ (∃ q, sct = some q ∧ (G.tdir[q.toNat]).poison = true) ∨
    k ≠ 1 ∧ (G.adir[ad.toNat]).poison = true ∨ k = 3 ∧ ∃ q : Fin 4, q.val = ad.toNat + 1 ∧ (G.adir[q]).poison = true

theorem Group.accEntry_succ (h : (G.accEntry (ad.toNat + 1)).poison = true) : ∃ q : Fin 4, q.val = ad.toNat + 1 ∧ (G.adir[q]).poison = true := by
  by_cases hn : ad.toNat + 1 < 4
  · exact ⟨⟨_, hn⟩, rfl, by rw [G.accEntry_of _ hn] at h; exact h⟩
  · simp [Group.accEntry, hn, TileEntry.zero] at h

/-- The test of the multiply is that of its rule. -/
theorem Group.multiply_poison : ((G.tileEntry td.toNat).poison || sn.2.poison ||
      (match sct with | some t => (G.tileEntry t.toNat).poison | none => false) ||
      (decide (k ≠ 1) && ((G.accEntry ad.toNat).poison || (decide (k = 3) && (G.accEntry (ad.toNat + 1)).poison)))) = true ↔
    G.mulPoisoned k ad td sct sn := by
  have hnext : (G.accEntry (ad.toNat + 1)).poison = true ↔ ∃ q : Fin 4, q.val = ad.toNat + 1 ∧ (G.adir[q]).poison = true := by
    refine ⟨G.accEntry_succ ad, ?_⟩
    rintro ⟨q, hq, h⟩
    rw [← hq, G.accEntry_of _ q.isLt]
    exact h
  have hk : k = 3 → k ≠ 1 := by rintro rfl; decide
  cases sct with
  | none =>
    simp only [Group.mulPoisoned, Bool.or_eq_true, Bool.and_eq_true, decide_eq_true_eq, hnext, G.tileEntry_of _ td.isLt, G.accEntry_of _ ad.isLt]
    simp only [reduceCtorEq, false_and, exists_false]
    tauto
  | some q =>
    simp only [Group.mulPoisoned, Bool.or_eq_true, Bool.and_eq_true, decide_eq_true_eq, hnext, G.tileEntry_of _ td.isLt, G.tileEntry_of _ q.isLt,
      G.accEntry_of _ ad.isLt, Option.some.injEq, exists_eq_left']
    tauto

/-- A multiply of MMA, MMAZ or MMAI without poison: each element its value, the accumulator classified (R66, R68, R281). -/
theorem Group.multiply_words (hp : ¬ G.mulPoisoned k ad td sct sn) (hk : k ≠ 3) (val : Nat → Nat × BitVec 6)
    (hv : val = (fun p => if k = 2 then (mmaiAt ta tb (G.t[td.toNat]).toNat sn.1.toNat (elemOf (G.a[ad.toNat]).toNat 32 p) (p / 32) (p % 32), 0)
      else mmaAt ta tb (bits e.vcfg 2 3) (G.t[td.toNat]).toNat sn.1.toNat (sct.map fun q => (G.t[q.toNat]).toNat)
        (if k = 1 then 0 else elemOf (G.a[ad.toNat]).toNat 32 p) (p / 32) (p % 32))) :
    ∃ (a' : Vector (BitVec 16384) 4) (d' : Vector TileEntry 4), G.multiply e k ad td ta tb sct sn = { G with
        a := a', adir := d', mfl := G.mfl ||| ((upFrom 0 512).foldl (fun f p => f ||| (val p).2) 0) } ∧
      (∀ p, p < 512 → elemOf (a'[ad.toNat]).toNat 32 p = (val p).1 % 2 ^ 32) ∧
      d'[ad.toNat] = classify .acc (if k = 2 then .s32 else .f32) false (a'[ad.toNat]).toNat ∧
      ∀ q : Fin 4, q.val ≠ ad.toNat → a'[q] = G.a[q] ∧ d'[q] = G.adir[q] := by
  have hscale : sct.map (fun q => G.tileBits q.toNat) = sct.map fun q => (G.t[q.toNat]).toNat := by
    congr 1
    exact funext fun q => G.tileBits_of _ q.isLt
  rw [← G.multiply_poison k ad td sct sn] at hp
  have hclean : G.multiply e k ad td ta tb sct sn = _ := if_neg hp
  rw [hclean, if_neg hk, hscale, G.tileBits_of _ td.isLt, G.accBits_of _ ad.isLt]
  by_cases h2 : k = 2
  · obtain ⟨helem, -, hlt⟩ := mapAcc32_spec (fun i j c => (mmaiAt ta tb (G.t[td.toNat]).toNat sn.1.toNat c i j, 0)) (G.a[ad.toNat]).toNat (G.a[ad.toNat]).isLt
    simp only [h2, if_true] at hv ⊢
    subst hv
    obtain ⟨a', d', hset, ha, hd, hother⟩ := G.setAcc_spec _ ad.isLt .s32 _ hlt
    refine ⟨a', d', ?_, by rw [ha]; exact helem, by rw [ha]; exact hd, hother⟩
    rw [hset, foldl_or_zero, show G.mfl ||| 0 = G.mfl from BitVec.or_zero]
  · obtain ⟨helem, hfl, hlt⟩ := mapAcc32_spec (fun i j c => mmaAt ta tb (bits e.vcfg 2 3) (G.t[td.toNat]).toNat sn.1.toNat
      (sct.map fun q => (G.t[q.toNat]).toNat) (if k = 1 then 0 else c) i j) (G.a[ad.toNat]).toNat (G.a[ad.toNat]).isLt
    simp only [h2, if_false] at hv ⊢
    subst hv
    obtain ⟨a', d', hset, ha, hd, hother⟩ := G.setAcc_spec _ ad.isLt .f32 _ hlt
    refine ⟨a', d', ?_, by rw [ha]; exact helem, by rw [ha]; exact hd, hother⟩
    rw [hset, Group.accrueMatrix, hfl]

/-- MMAS without poison: each element of both accumulators of the pair (R69, R281). -/
theorem Group.multiply_pair (hp : ¬ G.mulPoisoned k ad td sct sn) (lo hi : Fin 4) (hk : k = 3) (hlo : lo.val = ad.toNat) (hhi : hi.val = lo.val + 1)
    (val : Fin 4 → Nat → Nat → Nat × BitVec 6)
    (hv : val = (fun q half p => mmasAt (bits e.vcfg 2 3) (bits e.vcfg 5 4) (G.t[td.toNat]).toNat sn.1.toNat (elemOf (G.a[q]).toNat 64 p)
      (p / 16) (16 * half + p % 16))) :
    ∃ (a' : Vector (BitVec 16384) 4) (d' : Vector TileEntry 4), G.multiply e k ad td ta tb sct sn = { G with
        a := a', adir := d'
        mfl := G.mfl ||| ((upFrom 0 256).foldl (fun f p => f ||| (val lo 0 p).2) 0 ||| (upFrom 0 256).foldl (fun f p => f ||| (val hi 1 p).2) 0) } ∧
      (∀ p, p < 256 → elemOf (a'[lo]).toNat 64 p = (val lo 0 p).1 % 2 ^ 64 ∧ elemOf (a'[hi]).toNat 64 p = (val hi 1 p).1 % 2 ^ 64) ∧
      (∀ q ∈ [lo, hi], d'[q] = classify .acc .f64 false (a'[q]).toNat) ∧
      ∀ q : Fin 4, q ≠ lo → q ≠ hi → a'[q] = G.a[q] ∧ d'[q] = G.adir[q] := by
  rw [← G.multiply_poison k ad td sct sn] at hp
  have spec := mapAcc64_spec fun i j c => mmasAt (bits e.vcfg 2 3) (bits e.vcfg 5 4) (G.t[td.toNat]).toNat sn.1.toNat c i j
  obtain ⟨⟨helo, hflo, hltlo⟩, hehi, hfhi, hlthi⟩ := And.intro (spec _ (G.a[lo]).isLt 0) (spec _ (G.a[hi]).isLt 1)
  subst hv
  have hclean : G.multiply e k ad td ta tb sct sn = _ := if_neg hp
  rw [hclean, if_pos hk, ← hlo, ← hhi, G.tileBits_of _ td.isLt, G.accBits_of _ lo.isLt, G.accBits_of _ hi.isLt]
  obtain ⟨a1, d1, hset1, ha1, hd1, hother1⟩ := G.setAcc_spec _ lo.isLt .f64 _ hltlo
  obtain ⟨a2, d2, hset2, ha2, hd2, hother2⟩ := Group.setAcc_spec { G with a := a1, adir := d1 } _ hi.isLt .f64 _ hlthi
  obtain ⟨hlo1, hlo2⟩ := hother2 lo (by omega)
  simp only [Fin.getElem_fin] at hlo1 hlo2 helo hehi hflo hfhi hset1 hset2 ha2 hd2 ⊢
  refine ⟨a2, d2, ?_, fun p hp => ⟨?_, ?_⟩, ?_, fun q hqlo hqhi => ?_⟩
  · rw [hset1, hset2, ← hflo, ← hfhi]
    rfl
  · rw [hlo1, ha1]
    exact helo p hp
  · rw [ha2]
    exact hehi p hp
  · rw [List.forall_mem_cons, List.forall_mem_singleton]
    simp only [hlo1, hlo2, ha1, ha2, hd1, hd2, and_self]
  · have h1 := hother1 q fun h => hqlo (Fin.ext h)
    have h2 := hother2 q fun h => hqhi (Fin.ext h)
    exact ⟨h2.1.trans h1.1, h2.2.trans h1.2⟩

/-- A poisoned multiply marks its accumulators and changes no bit of them (R269). -/
theorem Group.multiply_poisoned (hp : G.mulPoisoned k ad td sct sn) : ∃ d : Vector TileEntry 4, G.multiply e k ad td ta tb sct sn = { G with adir := d } ∧
    ∀ q : Fin 4, d[q] = if q.val = ad.toNat ∨ k = 3 ∧ q.val = ad.toNat + 1 then { G.adir[q] with poison := true } else G.adir[q] := by
  rw [← G.multiply_poison k ad td sct sn] at hp
  have hmarks : G.multiply e k ad td ta tb sct sn = _ := if_pos hp
  rw [hmarks]
  by_cases h3 : k = 3
  · rw [if_pos h3]
    refine ⟨((G.poisonAcc ad.toNat).poisonAcc (ad.toNat + 1)).adir, rfl, fun q => ?_⟩
    rw [Group.poisonAcc_adir, Group.poisonAcc_adir]
    simp only [h3, true_and]
    by_cases hq : q.val = ad.toNat + 1
    · rw [if_pos hq, if_neg (show q.val ≠ ad.toNat by omega), if_pos (Or.inr hq)]
    · simp only [hq, if_false, or_false]
  · rw [if_neg h3]
    refine ⟨(G.poisonAcc ad.toNat).adir, rfl, fun q => ?_⟩
    rw [Group.poisonAcc_adir]
    simp only [h3, false_and, or_false]

/-- A poisoned multiply is not elided (R267). -/
theorem Group.mulPath_poisoned (chained : Bool) (hp : G.mulPoisoned k ad td sct sn) : mulPath G k ad td ta tb sct sn.2 chained = none := by
  refine if_pos (congrArg not (?_ : _ = false))
  rcases hp with h | h | ⟨q, rfl, h⟩ | ⟨hk, h⟩ | ⟨rfl, q, hq, h⟩
  · simp [G.tileEntry_of _ td.isLt, h]
  · simp [h]
  · simp [G.tileEntry_of _ q.isLt, h]
  · have hk1 : k ≠ 1#2 := hk
    simp [G.accEntry_of _ ad.isLt, h, hk1]
  · rw [Fin.getElem_fin] at h
    simp [← hq, G.accEntry_of _ q.isLt, h]

end Multiply

end Sys2Proof.Machine
end

section
namespace Sys2Proof.Machine

/-! ## Effects of the entry at the head (R263, R266, R268) -/

/-- ACCMV without poison: each element of the accumulator converted into the group at `vd`, the other registers as they were (R278). -/
theorem Group.accMove_spec (G : Group) (e : MatrixEntry) (vd : Reg) (aa : BitVec 2) (tg : Tag) (lm n : Nat) (hlm : lm = 2 ^ bits e.vcfg 0 2)
    (hfit : vd.toNat + lm ≤ 32) (hn : n = (if (G.adir[aa.toNat]).tag = .f64 then 256 else 512)) (hw : n * tagWidth tg ≤ 8192 * lm)
    (hp : (G.adir[aa.toNat]).poison = false) (val : Nat → Nat × BitVec 6)
    (hv : val = (fun i => convert (G.adir[aa.toNat]).tag tg (bits e.vcfg 2 3) (bitOf e.vcfg 9) e.xmod.toNat
      (elemOf (G.a[aa.toNat]).toNat (tagWidth (G.adir[aa.toNat]).tag) i))) :
    ∃ v', G.accMove e vd aa.toNat tg = { G with v := v', mfl := G.mfl ||| (upFrom 0 n).foldl (fun f i => f ||| (val i).2) 0 } ∧
      (∀ i, elemOf (groupBits v' vd.toNat lm) (tagWidth tg) i =
        if i < n then (val i).1 % 2 ^ tagWidth tg else elemOf (groupBits G.v vd.toNat lm) (tagWidth tg) i) ∧
      ∀ q : Fin 32, q.val < vd.toNat ∨ vd.toNat + lm ≤ q.val → v'[q] = G.v[q] := by
  subst hlm hv
  obtain ⟨helem, hfl, hlt⟩ := foldUp_elemPut (tagWidth tg) n (groupBits G.v vd.toNat (2 ^ bits e.vcfg 0 2)) fun i =>
    convert (G.adir[aa.toNat]).tag tg (bits e.vcfg 2 3) (bitOf e.vcfg 9) e.xmod.toNat
      (elemOf (G.a[aa.toNat]).toNat (tagWidth (G.adir[aa.toNat]).tag) i)
  have hmoved : G.accMove e vd aa.toNat tg = _ := if_neg (by rw [G.accEntry_of _ aa.isLt, hp]; exact Bool.false_ne_true)
  rw [hmoved, G.accEntry_of _ aa.isLt, G.accBits_of _ aa.isLt, accElems, ← hn]
  apply Exists.intro
  refine ⟨by rw [← hfl], fun i => ?_, fun q hq => putGroupBits_out _ _ _ _ _ q.isLt hq⟩
  rw [groupBits_putGroupBits _ _ _ _ hfit, Nat.mod_eq_of_lt (hlt _ (groupBits_lt _ _ _) (by rw [Nat.mul_comm]; exact hw))]
  exact helem i

theorem Group.countPath_fifos (K : Group) (p : Option Bool) : (K.countPath p).fifos = K.fifos := by
  rcases p with _ | _ | _ <;> rfl

/-- A multiply counts once, by its path. -/
theorem Group.countPath_some (K : Group) (p : Bool) : ∃ m n, K.countPath (some p) = { K with melided := m, missued := n } ∧
    m + n = K.melided + K.missued + 1 := by
  cases p
  · exact ⟨_, _, rfl, (add_assoc _ _ _).symm⟩
  · exact ⟨_, _, rfl, add_right_comm _ _ _⟩

/-- How an entry's push ends: the FIFOs of its group with its token in them. -/
def Group.PushesTo (G : Group) (p : Option (BitVec 4)) (x : Vector Nat 16) : Prop :=
  ∀ K : Group, K.fifos = G.fifos → K.pushRoom p = true ∧ K.pushOpt p = { K with fifos := x }

section Effects

variable (b : BitVec 9) (far : FarData) (lost : Bool) (s : State) (e : MatrixEntry) (rest : List MatrixEntry) (x : Vector Nat 16)

/-- A group left by the head of the queue. -/
def State.leftBy (s : State) (b : BitVec 9) (e : MatrixEntry) (rest : List MatrixEntry) (K : Group) : State :=
  (s.putGroup e.group K).putCell b.toNat { s.cell b.toNat with mq := rest }

theorem State.group_leftBy (K : Group) : (s.leftBy b e rest K).group e.group = K := by
  rw [State.leftBy, State.group_putCell, State.group_putGroup]

/-- The write of a whole B-store tile whose bytes are one run of memory (R261, R331). -/
theorem State.tileWrite_one (n : Nat) (tg : Tag) (poison : Bool) (pa : Nat) (data : List Byte) (hruns : s.tileRuns e.group n = some [(pa, 1536)])
    (hlen : data.length = 1536) : s.tileWrite e n tg poison data = s.putGroup e.group { s.group e.group with
      async := (s.group e.group).async ++ [AsyncWrite.mk (.phys pa) data false (some tg) (some poison) e.pc 0 false none] } := by
  rw [State.tileWrite, hruns, ← hlen]
  simp [Group.sendWrites, takeBytes_all, Group.asyncWrite]

variable (hq : (s.cell b.toNat).mq = e :: rest) (hnot : e ∉ rest) (hi : e.issued = true) (he : e.effected = false) (h0 : e.owed = 0)
  (hx : (s.group e.group).PushesTo e.tok.push x)

/-- A state whose group the effect of the head makes `K`, and which counts it by `path`. -/
structure State.Effect (s : State) (e : MatrixEntry) (far : FarData) (lost : Bool) (path : Option Bool) (K : Group) : Prop where
  effect : s.matrixEffect e far lost = some (s.putGroup e.group K)
  fifos : K.fifos = (s.group e.group).fifos
  path : e.pathTaken (s.group e.group) = path

include hq hnot hi he h0 hx

/-- The head takes its effect, is counted, pushes its token and leaves. -/
theorem State.Effect.retires {path : Option Bool} {K : Group} (h : s.Effect e far lost path K) :
    exec (.matrixEntryRetire b far lost) s = .next (s.leftBy b e rest { K.countPath path with fifos := x }) := by
  rw [exec_matrixEntryRetire, execMatrixEntryRetire_effect b s e rest hq hnot far lost hi he h0 K h.effect (hx K h.fifos).1, h.path,
    (hx _ ((K.countPath_fifos path).trans h.fifos)).2]
  rfl

/-- BLD with its data (R274, R269). -/
theorem exec_retire_bld (n : Nat) (base : Word) (tg : Tag) (pa : Nat) (r : MatrixEntry) (data : List Byte) (bad : Option (Nat × Word))
    (hop : e.op = .bld n base tg) (hruns : s.tileRuns e.group n = some [(pa, 1536)]) (hread : s.readRows e far lost e.rows = some (r, data, bad))
    (hlen : data.length = 1536) (L : Group) (hL : L = { s.group e.group with
      async := (s.group e.group).async ++ [AsyncWrite.mk (.phys pa) data false (some tg) (some bad.isSome) e.pc 0 false none] }) :
    (bad = none → exec (.matrixEntryRetire b far lost) s = .next (s.leftBy b e rest { L with fifos := x })) ∧
    ∀ sub line, bad = some (sub, line) → L.over = false → L.causes = [] → exec (.matrixEntryRetire b far lost) s = .next (s.leftBy b e rest
      { L with fifos := x, causes := [{ code := 0x12, sub := sub, addr := line, elem := none, inst := 0 }] }) := by
  have heff : s.matrixEffect e far lost = some ((s.putGroup e.group L).mqFault e.group bad) := by
    rw [State.matrixEffect, hop, hL, ← s.tileWrite_one e n tg bad.isSome pa data hruns hlen, hread]
    rfl
  have hpath : e.pathTaken (s.group e.group) = none := by rw [MatrixEntry.pathTaken, hop]
  refine ⟨?_, ?_⟩
  · rintro rfl
    exact State.Effect.retires b far lost s e rest x hq hnot hi he h0 hx ⟨heff, by rw [hL], hpath⟩
  · rintro sub line rfl ho hc
    rw [State.mqFault, State.deliver_first _ _ _ _ _ (by rw [State.group_putGroup]; exact ho) (by rw [State.group_putGroup]; exact hc),
      State.putGroup_putGroup, State.group_putGroup] at heff
    exact State.Effect.retires b far lost s e rest x hq hnot hi he h0 hx ⟨heff, by rw [hL], hpath⟩

/-- BST (R275). -/
theorem exec_retire_bst (n : Nat) (ta : BitVec 3) (pa : Nat) (lo hi' : Fin 8) (hop : e.op = .bst n ta) (hlo : lo.val = ta.toNat)
    (hhi : hi'.val = lo.val + 1) (hruns : s.tileRuns e.group n = some [(pa, 1536)])
    (L : Group) (hL : L = { s.group e.group with
      async := (s.group e.group).async ++ [AsyncWrite.mk (.phys pa)
        (toBytes 768 ((s.group e.group).t[lo]).toNat ++ toBytes 768 ((s.group e.group).t[hi']).toNat) false (some ((s.group e.group).tdir[lo]).tag)
        (some (((s.group e.group).tdir[lo]).poison || ((s.group e.group).tdir[hi']).poison)) e.pc 0 false none] }) :
    exec (.matrixEntryRetire b far lost) s = .next (s.leftBy b e rest { L with fifos := x }) := by
  subst hL
  refine State.Effect.retires b far lost s e rest x hq hnot hi he h0 hx (path := none) ⟨?_, rfl, by rw [MatrixEntry.pathTaken, hop]⟩
  rw [← s.tileWrite_one e n _ _ pa _ hruns (by rw [List.length_append, toBytes_length, toBytes_length])]
  simp only [State.matrixEffect, hop, ← hlo, ← hhi, Group.tileBits_of _ _ lo.isLt, Group.tileBits_of _ _ hi'.isLt, Group.tileEntry_of _ _ lo.isLt,
    Group.tileEntry_of _ _ hi'.isLt, Fin.getElem_fin]

/-- ACCST (R276). -/
theorem exec_retire_accst (ad : BitVec 2) (base stride : Word) (hop : e.op = .accst ad base stride) (L : Group) (hL : L = { s.group e.group with
      async := (s.group e.group).async ++ (upFrom 0 16).map fun i => AsyncWrite.mk (.virt (base + BitVec.ofNat 64 i * stride))
        (toBytes 128 (elemOf ((s.group e.group).a[ad.toNat]).toNat 1024 i)) ((s.group e.group).adir[ad.toNat]).poison
        (some ((s.group e.group).adir[ad.toNat]).tag) none e.pc i false none }) :
    exec (.matrixEntryRetire b far lost) s = .next (s.leftBy b e rest { L with fifos := x }) := by
  subst hL
  refine State.Effect.retires b far lost s e rest x hq hnot hi he h0 hx (path := none) ⟨?_, rfl, by rw [MatrixEntry.pathTaken, hop]⟩
  simp only [State.matrixEffect, hop, Group.accRows, Group.accBits_of _ _ ad.isLt, Group.accEntry_of _ _ ad.isLt]

/-- TMV (R277). -/
theorem exec_retire_tmv (td : BitVec 3) (v : BitVec 6144) (tg : Tag) (hop : e.op = .tmv td v tg) (L : Group) (hL : L = { s.group e.group with
      t := (s.group e.group).t.set td.toNat v, tdir := (s.group e.group).tdir.set td.toNat (classify .reg tg false v.toNat) }) :
    exec (.matrixEntryRetire b far lost) s = .next (s.leftBy b e rest { L with fifos := x }) := by
  subst hL
  refine State.Effect.retires b far lost s e rest x hq hnot hi he h0 hx (path := none) ⟨?_, rfl, by rw [MatrixEntry.pathTaken, hop]⟩
  simp only [State.matrixEffect, hop, Group.setTile_of _ _ _ td.isLt, Group.classTile_of _ _ _ _ td.isLt, BitVec.ofNat_toNat, BitVec.setWidth_eq, Vector.getElem_set_self]

/-- AZERO of one accumulator (R279). -/
theorem exec_retire_azero (ad : BitVec 2) (tg : Tag) (hop : e.op = .azero ad tg) (ht : tg ≠ .f64) (L : Group) (hL : L = { s.group e.group with
      a := (s.group e.group).a.set ad.toNat 0, adir := (s.group e.group).adir.set ad.toNat (classify .acc tg false 0) }) :
    exec (.matrixEntryRetire b far lost) s = .next (s.leftBy b e rest { L with fifos := x }) := by
  subst hL
  refine State.Effect.retires b far lost s e rest x hq hnot hi he h0 hx (path := none) ⟨?_, rfl, by rw [MatrixEntry.pathTaken, hop]⟩
  simp only [State.matrixEffect, hop, if_neg ht, Group.setAcc_of _ _ _ _ ad.isLt, BitVec.ofNat_eq_ofNat]

/-- AZERO of a pair (R279). -/
theorem exec_retire_azero_pair (ad : BitVec 2) (lo hi' : Fin 4) (hop : e.op = .azero ad .f64) (hlo : lo.val = ad.toNat) (hhi : hi'.val = lo.val + 1)
    (L : Group) (hL : L = { s.group e.group with
      a := ((s.group e.group).a.set lo.val 0).set hi'.val 0
      adir := ((s.group e.group).adir.set lo.val (classify .acc .f64 false 0)).set hi'.val (classify .acc .f64 false 0) }) :
    exec (.matrixEntryRetire b far lost) s = .next (s.leftBy b e rest { L with fifos := x }) := by
  subst hL
  refine State.Effect.retires b far lost s e rest x hq hnot hi he h0 hx (path := none) ⟨?_, rfl, by rw [MatrixEntry.pathTaken, hop]⟩
  simp only [State.matrixEffect, hop, if_true, ← hlo, ← hhi, Group.setAcc_of _ _ _ _ lo.isLt, Group.setAcc_of _ _ _ _ hi'.isLt, BitVec.ofNat_eq_ofNat]

/-- ACCMV of a poisoned accumulator (R269). -/
theorem exec_retire_accmv_poisoned (vd : Reg) (aa : BitVec 2) (tg : Tag) (hop : e.op = .accmv vd aa tg)
    (hp : ((s.group e.group).adir[aa.toNat]).poison = true) :
    exec (.matrixEntryRetire b far lost) s = .next (s.leftBy b e rest { s.group e.group with fifos := x }) := by
  refine State.Effect.retires b far lost s e rest x hq hnot hi he h0 hx (path := none) (K := s.group e.group) ⟨?_, rfl, by rw [MatrixEntry.pathTaken, hop]⟩
  have hstays : (s.group e.group).accMove e vd aa.toNat tg = _ := if_pos (by rw [Group.accEntry_of _ _ aa.isLt, hp])
  simp only [State.matrixEffect, hop, hstays]

/-- ACCMV (R278). -/
theorem exec_retire_accmv (vd : Reg) (aa : BitVec 2) (tg : Tag) (K : Group) (hop : e.op = .accmv vd aa tg)
    (hK : (s.group e.group).accMove e vd aa.toNat tg = K) (hf : K.fifos = (s.group e.group).fifos) :
    exec (.matrixEntryRetire b far lost) s = .next (s.leftBy b e rest { K with fifos := x }) :=
  State.Effect.retires b far lost s e rest x hq hnot hi he h0 hx (path := none)
    ⟨by simp only [State.matrixEffect, hop, hK], hf, by rw [MatrixEntry.pathTaken, hop]⟩

/-- A multiply (R263, R268). -/
theorem exec_retire_mul (k ad : BitVec 2) (td : BitVec 3) (n : Nat) (ta tb : Tag) (sct : Option (BitVec 3)) (sn : BitVec 12288 × TileEntry) (K : Group)
    (hop : e.op = .mul k ad td n ta tb sct) (hsn : e.snap = some sn) (hK : (s.group e.group).multiply e k ad td ta tb sct sn = K)
    (hf : K.fifos = (s.group e.group).fifos) :
    exec (.matrixEntryRetire b far lost) s = .next (s.leftBy b e rest
      { K.countPath (some (mulPath (s.group e.group) k ad td ta tb sct sn.2 e.chained).isSome) with fifos := x }) :=
  State.Effect.retires b far lost s e rest x hq hnot hi he h0 hx
    ⟨by simp only [State.matrixEffect, hop, hsn, hK, Option.map_some], hf, by simp only [MatrixEntry.pathTaken, hop, hsn]⟩

end Effects
end Sys2Proof.Machine
end

section
namespace Sys2Proof.Machine

/-! ## The clauses about the entry at the head of a matrix queue, put together -/

theorem execMatrixWindow_passed (b : BitVec 9) (s : State) (h : (s.cell b.toNat).window < cellCycle b.toNat s.clock / 256) :
    execMatrixWindow b s = .next (s.putCell b.toNat { s.cell b.toNat with
      window := cellCycle b.toNat s.clock / 256, spent := 0, spent0 := 0, spent1 := 0
      capNow := (s.cell b.toNat).cap, limNow0 := (s.cell b.toNat).lim0, limNow1 := (s.cell b.toNat).lim1 }) :=
  congrArg Host.Outcome.next (if_neg (Nat.not_le.mpr h))

theorem execMatrixWindow_open (b : BitVec 9) (s : State) (h : cellCycle b.toNat s.clock / 256 ≤ (s.cell b.toNat).window) :
    execMatrixWindow b s = .next s :=
  congrArg Host.Outcome.next (if_pos h)

/-- With its queue empty a cell's matrix events do nothing. -/
theorem exec_matrix_empty (b : BitVec 9) (far : FarData) (lost : Bool) (s : State) (h : (s.cell b.toNat).mq = []) :
    ∀ i ∈ [Instr.matrixEntryIssue b, .tldRowblockLand b far lost, .matrixEntryRetire b far lost], exec i s = .next s := by
  simp only [List.forall_mem_cons, exec_matrixEntryIssue, exec_tldRowblockLand, exec_matrixEntryRetire, execMatrixEntryIssue, execTldRowblockLand,
    execMatrixEntryRetire, h]
  exact ⟨rfl, rfl, rfl, List.forall_mem_nil _⟩

theorem MatrixEntry.issuedBy_other (e : MatrixEntry) (s : State) (H : Group) (h : ∀ k ad td n ta tb sct, e.op ≠ .mul k ad td n ta tb sct) :
    e.issuedBy s H = { e with issued := true } := by
  unfold MatrixEntry.issuedBy
  split
  next hop => exact absurd hop (h _ _ _ _ _ _ _)
  next => rfl

theorem MatrixEntry.issuedBy_mul (e : MatrixEntry) (s : State) (H : Group) (k ad : BitVec 2) (td : BitVec 3) (n : Nat) (ta tb : Tag)
    (sct : Option (BitVec 3)) (h : e.op = .mul k ad td n ta tb sct) :
    e.issuedBy s H = { e with
      issued := true, chained := false, snap := some (s.snapshot e.group n)
      owed := mulClocks k e.vcfg (mulPath H k ad td ta tb sct (s.snapshot e.group n).2 false) false } := by
  simp only [MatrixEntry.issuedBy, h]

section Head

variable (b : BitVec 9) (far : FarData) (lost : Bool) (s : State) (e : MatrixEntry) (rest : List MatrixEntry)
  (hq : (s.cell b.toNat).mq = e :: rest) (hnot : e ∉ rest)
include hq hnot

/-- A row-block in its place: the tile's other rows, the other tiles and, but for the last row-block, the directory as they were. -/
theorem exec_tldRowblockLand_rows (td : BitVec 3) (base stride : Word) (tg : Tag) (data : List Byte) (bad : Option (Nat × Word)) (r : MatrixEntry)
    (hop : e.op = .tld td base stride tg) (hi : e.issued = true) (he : e.effected = false) (hl : e.landed < 4)
    (hread : s.readRows e far lost ((e.rows.drop (4 * e.landed)).take 4) = some (r, data, bad)) (hgood : e.landed < 3 ∨ e.bad.or bad = none) :
    ∃ t', exec (.tldRowblockLand b far lost) s = .next ((s.putGroup e.group { s.group e.group with
        t := t'
        tdir := if e.landed = 3 then (s.group e.group).tdir.set td.toNat (classify .reg tg false (t'[td.toNat]).toNat)
          else (s.group e.group).tdir }).putCell b.toNat { s.cell b.toNat with
        mq := { r with landed := e.landed + 1, bad := e.bad.or bad, effected := decide (e.landed = 3) } :: rest }) ∧
      (∀ k : Fin 8, k.val ≠ td.toNat → t'[k] = (s.group e.group).t[k]) ∧
      ∀ i, elemOf (t'[td.toNat]).toNat 1536 i =
        if i = e.landed then natOfBytes data % 2 ^ 1536 else elemOf ((s.group e.group).t[td.toNat]).toNat 1536 i := by
  obtain ⟨t', hland, hother, hrows⟩ := (s.group e.group).landRows_rows td e.landed data hl
  refine ⟨t', ?_, hother, hrows⟩
  rw [exec_tldRowblockLand, execTldRowblockLand_head b s e rest hq hnot far lost td base stride tg data bad r hop hi he hread
    (hgood.imp_left Nat.ne_of_lt), hland]
  by_cases h3 : e.landed = 3
  · simp only [h3, if_true, Group.classTile_of _ _ _ _ td.isLt]
  · simp only [h3, if_false]

variable (x : Vector Nat 16) (hi : e.issued = true) (he : e.effected = false) (h0 : e.owed = 0) (hx : (s.group e.group).PushesTo e.tok.push x)
  (k ad : BitVec 2) (td : BitVec 3) (n : Nat) (ta tb : Tag) (sct : Option (BitVec 3)) (sn : BitVec 12288 × TileEntry)
  (hop : e.op = .mul k ad td n ta tb sct) (hsn : e.snap = some sn)
include hi he h0 hx hop hsn

/-- A multiply of MMA, MMAZ or MMAI (R66, R68, R281). -/
theorem exec_retire_words (hp : ¬ (s.group e.group).mulPoisoned k ad td sct sn) (hk : k ≠ 3) (val : Nat → Nat × BitVec 6)
    (hv : val = (fun p => if k = 2 then (mmaiAt ta tb ((s.group e.group).t[td.toNat]).toNat sn.1.toNat
          (elemOf ((s.group e.group).a[ad.toNat]).toNat 32 p) (p / 32) (p % 32), 0)
      else mmaAt ta tb (bits e.vcfg 2 3) ((s.group e.group).t[td.toNat]).toNat sn.1.toNat (sct.map fun q => ((s.group e.group).t[q.toNat]).toNat)
        (if k = 1 then 0 else elemOf ((s.group e.group).a[ad.toNat]).toNat 32 p) (p / 32) (p % 32))) :
    ∃ K : Group, exec (.matrixEntryRetire b far lost) s = .next (s.leftBy b e rest { s.group e.group with
        a := K.a, adir := K.adir, mfl := (s.group e.group).mfl ||| ((upFrom 0 512).foldl (fun f p => f ||| (val p).2) 0)
        melided := K.melided, missued := K.missued, fifos := x }) ∧
      K.melided + K.missued = (s.group e.group).melided + (s.group e.group).missued + 1 ∧
      (∀ p, p < 512 → elemOf (K.a[ad.toNat]).toNat 32 p = (val p).1 % 2 ^ 32) ∧
      K.adir[ad.toNat] = classify .acc (if k = 2 then .s32 else .f32) false (K.a[ad.toNat]).toNat ∧
      ∀ q : Fin 4, q.val ≠ ad.toNat → K.a[q] = (s.group e.group).a[q] ∧ K.adir[q] = (s.group e.group).adir[q] := by
  obtain ⟨a', d', hK, helem⟩ := (s.group e.group).multiply_words e k ad td ta tb sct sn hp hk val hv
  obtain ⟨m, i, hcount, hsum⟩ := Group.countPath_some ((s.group e.group).multiply e k ad td ta tb sct sn)
    (mulPath (s.group e.group) k ad td ta tb sct sn.2 e.chained).isSome
  have hret := exec_retire_mul b far lost s e rest x hq hnot hi he h0 hx k ad td n ta tb sct sn _ hop hsn hK rfl
  rw [hK] at hcount hsum
  rw [hcount] at hret
  exact ⟨{ s.group e.group with a := a', adir := d', melided := m, missued := i }, hret, hsum, helem⟩

/-- MMAS (R69, R281). -/
theorem exec_retire_pair (hp : ¬ (s.group e.group).mulPoisoned k ad td sct sn) (lo hi' : Fin 4) (hk : k = 3) (hlo : lo.val = ad.toNat)
    (hhi : hi'.val = lo.val + 1) (val : Fin 4 → Nat → Nat → Nat × BitVec 6)
    (hv : val = (fun q half p => mmasAt (bits e.vcfg 2 3) (bits e.vcfg 5 4) ((s.group e.group).t[td.toNat]).toNat sn.1.toNat
      (elemOf ((s.group e.group).a[q]).toNat 64 p) (p / 16) (16 * half + p % 16))) :
    ∃ K : Group, exec (.matrixEntryRetire b far lost) s = .next (s.leftBy b e rest { s.group e.group with
        a := K.a, adir := K.adir
        mfl := (s.group e.group).mfl |||
          ((upFrom 0 256).foldl (fun f p => f ||| (val lo 0 p).2) 0 ||| (upFrom 0 256).foldl (fun f p => f ||| (val hi' 1 p).2) 0)
        melided := K.melided, missued := K.missued, fifos := x }) ∧
      K.melided + K.missued = (s.group e.group).melided + (s.group e.group).missued + 1 ∧
      (∀ p, p < 256 → elemOf (K.a[lo]).toNat 64 p = (val lo 0 p).1 % 2 ^ 64 ∧ elemOf (K.a[hi']).toNat 64 p = (val hi' 1 p).1 % 2 ^ 64) ∧
      (∀ q ∈ [lo, hi'], K.adir[q] = classify .acc .f64 false (K.a[q]).toNat) ∧
      ∀ q : Fin 4, q ≠ lo → q ≠ hi' → K.a[q] = (s.group e.group).a[q] ∧ K.adir[q] = (s.group e.group).adir[q] := by
  obtain ⟨a', d', hK, helem⟩ := (s.group e.group).multiply_pair e k ad td ta tb sct sn hp lo hi' hk hlo hhi val hv
  obtain ⟨m, i, hcount, hsum⟩ := Group.countPath_some ((s.group e.group).multiply e k ad td ta tb sct sn)
    (mulPath (s.group e.group) k ad td ta tb sct sn.2 e.chained).isSome
  have hret := exec_retire_mul b far lost s e rest x hq hnot hi he h0 hx k ad td n ta tb sct sn _ hop hsn hK rfl
  rw [hK] at hcount hsum
  rw [hcount] at hret
  exact ⟨{ s.group e.group with a := a', adir := d', melided := m, missued := i }, hret, hsum, helem⟩

/-- A poisoned multiply (R269). -/
theorem exec_retire_poisoned (hp : (s.group e.group).mulPoisoned k ad td sct sn) :
    ∃ d : Vector TileEntry 4, exec (.matrixEntryRetire b far lost) s = .next (s.leftBy b e rest { s.group e.group with
        adir := d, missued := (s.group e.group).missued + 1, fifos := x }) ∧
      ∀ q : Fin 4, d[q] = if q.val = ad.toNat ∨ k = 3 ∧ q.val = ad.toNat + 1 then { (s.group e.group).adir[q] with poison := true }
        else (s.group e.group).adir[q] := by
  obtain ⟨d, hK, hd⟩ := (s.group e.group).multiply_poisoned e k ad td ta tb sct sn hp
  have hret := exec_retire_mul b far lost s e rest x hq hnot hi he h0 hx k ad td n ta tb sct sn _ hop hsn hK rfl
  rw [(s.group e.group).mulPath_poisoned k ad td ta tb sct sn e.chained hp] at hret
  exact ⟨d, hret, hd⟩

end Head

/-- Settles O42, clause by clause: the first half about an entry at the head of a queue from its issue on, the second about the retirement of each
other operation. -/
theorem matrixEventResults : Obligations.MatrixEventResults := by
  unfold Obligations.MatrixEventResults
  refine ⟨?_, ?_⟩
  · rintro b far lost s C rfl
    refine ⟨exec_matrix_empty b far lost s, ?_, ?_⟩
    · rintro n rfl
      exact ⟨execMatrixWindow_passed b s, execMatrixWindow_open b s⟩
    · rintro e rest g G H hq hnot rfl rfl
      refine ⟨?_, ?_, ?_, ?_⟩
      · intro hi hm hs hw ha hb hr hpop
        obtain ⟨hp, rfl⟩ := Group.popToken_of _ _ _ hpop
        have hissue := execMatrixEntryIssue_head b s e rest hq hnot hi hm hs hw ha hb hr hp
        refine ⟨fun hop => ?_, fun k ad td n ta tb sct hop => ?_⟩
        · rw [exec_matrixEntryIssue, hissue, e.issuedBy_other _ _ hop]
        · rw [exec_matrixEntryIssue, hissue, e.issuedBy_mul _ _ k ad td n ta tb sct hop]
      · intro td base stride tg data bad r hop hi he hl hread hgood
        obtain ⟨t', hland, hother, hrows⟩ := exec_tldRowblockLand_rows b far lost s e rest hq hnot td base stride tg data bad r hop hi he hl hread hgood
        refine ⟨_, hland, ?_⟩
        simp only [State.group_putCell, State.group_putGroup]
        exact ⟨trivial, trivial, hother, fun i _ => hrows i⟩
      · intro hi hdone hpush
        obtain ⟨x, rfl, hx⟩ := Group.pushOpt_of _ _ _ hpush
        refine ⟨fun he => ?_, fun he => ?_⟩
        · have hK := hx ((s.group e.group).countPath e.elided) (Group.countPath_fifos _ _)
          have hroom := (hx (s.group e.group) rfl).1
          rw [exec_matrixEntryRetire, execMatrixEntryRetire_effected b s e rest hq far lost hi he hroom, hK.2]
          rcases e.elided with _ | _ | _ <;> rfl
        have h0 : e.owed = 0 := hdone.resolve_left (by rw [he]; exact Bool.false_ne_true)
        refine ⟨fun td v tg hop => ?_, fun ad tg hop ht => ?_, fun ad base stride hop => ?_, ?_⟩
        · exact exec_retire_tmv b far lost s e rest x hq hnot hi he h0 hx td v tg hop _ rfl
        · exact exec_retire_azero b far lost s e rest x hq hnot hi he h0 hx ad tg hop ht _ rfl
        · refine ⟨_, exec_retire_accst b far lost s e rest x hq hnot hi he h0 hx ad base stride hop _ rfl, ?_⟩
          rw [State.group_leftBy]
          exact ⟨rfl, rfl⟩
        · intro k ad td n ta tb sct sn hop hk hsn htd hb hsct had val hv
          have hp : ¬ (s.group e.group).mulPoisoned k ad td sct sn := by
            simp only [Group.mulPoisoned, htd, hb, hk, false_and, or_false, Bool.false_eq_true, false_or, not_or, not_exists, not_and]
            exact ⟨fun q hq => by rw [hsct q hq]; exact Bool.false_ne_true, fun hk1 => by rw [had.resolve_left hk1]; exact Bool.false_ne_true⟩
          obtain ⟨K, hret, hK⟩ := exec_retire_words b far lost s e rest hq hnot x hi he h0 hx k ad td n ta tb sct sn hop hsn hp hk val hv
          refine ⟨_, hret, ?_⟩
          rw [State.group_leftBy]
          exact ⟨rfl, hK⟩
      · rintro hi he h0 rfl lim used k hlim hused hk
        have hret := execMatrixEntryRetire_spends b s e hq lim used k hlim hused hk far lost hi he h0
        refine ⟨fun hk0 => ?_, fun hk0 => ⟨_, hret.trans (congrArg _ (if_neg hk0.ne')), rfl⟩⟩
        exact hret.trans (congrArg _ (if_pos hk0))
  · rintro b far lost s C e rest g G H rfl hq hnot rfl rfl hi he h0 hpush left rfl
    obtain ⟨x, rfl, hx⟩ := Group.pushOpt_of _ _ _ hpush
    refine ⟨?_, ?_, ?_, ?_, ?_⟩
    · rintro n base tg pa r data bad hop hruns hread hlen A rfl
      exact exec_retire_bld b far lost s e rest x hq hnot hi he h0 hx n base tg pa r data bad hop hruns hread hlen _ rfl
    · intro n ta pa lo hi' hop hlo hhi hruns
      exact exec_retire_bst b far lost s e rest x hq hnot hi he h0 hx n ta pa lo hi' hop hlo hhi hruns _ rfl
    · intro vd aa tg lm n hop hlm hfit hn hw
      refine ⟨exec_retire_accmv_poisoned b far lost s e rest x hq hnot hi he h0 hx vd aa tg hop, fun hp val hv => ?_⟩
      obtain ⟨v', hK, hv'⟩ := (s.group e.group).accMove_spec e vd aa tg lm n hlm hfit hn hw hp val hv
      refine ⟨_, exec_retire_accmv b far lost s e rest x hq hnot hi he h0 hx vd aa tg _ hop hK rfl, ?_⟩
      rw [State.group_leftBy]
      exact ⟨rfl, hv'⟩
    · intro ad lo hi' hop hlo hhi
      exact exec_retire_azero_pair b far lost s e rest x hq hnot hi he h0 hx ad lo hi' hop hlo hhi _ rfl
    · intro k ad td n ta tb sct sn hop hsn
      refine ⟨fun lo hi' hk hlo hhi htd hb hsct hplo hphi val hv => ?_, fun hp => ?_⟩
      · have hp : ¬ (s.group e.group).mulPoisoned k ad td sct sn := by
          rintro (h | h | ⟨q, hq, h⟩ | ⟨-, h⟩ | ⟨-, q, hq, h⟩)
          · exact Bool.false_ne_true (htd.symm.trans h)
          · exact Bool.false_ne_true (hb.symm.trans h)
          · exact Bool.false_ne_true ((hsct q hq).symm.trans h)
          · simp only [← hlo] at h
            exact Bool.false_ne_true (hplo.symm.trans h)
          · obtain rfl : q = hi' := Fin.ext (by omega)
            exact Bool.false_ne_true (hphi.symm.trans h)
        obtain ⟨K, hret, hK⟩ := exec_retire_pair b far lost s e rest hq hnot x hi he h0 hx k ad td n ta tb sct sn hop hsn hp lo hi' hk hlo hhi val hv
        refine ⟨_, hret, ?_⟩
        rw [State.group_leftBy]
        exact ⟨rfl, hK⟩
      · obtain ⟨d, hret, hd⟩ := exec_retire_poisoned b far lost s e rest hq hnot x hi he h0 hx k ad td n ta tb sct sn hop hsn hp
        refine ⟨_, hret, ?_⟩
        rw [State.group_leftBy]
        exact ⟨rfl, hd⟩

end Sys2Proof.Machine
end

section
namespace Sys2Proof.Machine

/-! ## The transform queue and its engine (R289, R290, R292) -/

theorem exec_transformEntryStart (b : BitVec 9) (s : State) : exec (.transformEntryStart b) s = execTransformEntryStart b s := rfl
theorem exec_transformEntryRetire (b : BitVec 9) (s : State) : exec (.transformEntryRetire b) s = execTransformEntryRetire b s := rfl

/-- With its queues empty a cell's transform events do nothing. -/
theorem exec_transform_empty (b : BitVec 9) (s : State) (h0 : (s.cell b.toNat).tq0 = []) (h1 : (s.cell b.toNat).tq1 = []) :
    ∀ i ∈ [Instr.transformEntryStart b, .transformEntryRetire b], exec i s = .next s := by
  have hnone : (s.cell b.toNat).tq (if s.serves 0 b.toNat then 0 else 1) = [] := by
    by_cases h : s.serves 0 b.toNat <;> simp [h, CellState.tq, h0, h1]
  rw [List.forall_mem_cons, List.forall_mem_singleton, exec_transformEntryStart, exec_transformEntryRetire, execTransformEntryStart, execTransformEntryRetire]
  simp [h0, h1, hnone, State.startFrom]

/-- While its engine works on an entry a cell starts none. -/
theorem execTransformEntryStart_busy (b : BitVec 9) (s : State) (h : ∃ e ∈ (s.cell b.toNat).tq0 ++ (s.cell b.toNat).tq1, e.started = true) :
    execTransformEntryStart b s = .next s :=
  congrArg Host.Outcome.next (if_pos (List.any_eq_true.mpr h))

/-- With no copy under way a group has none to wait for. -/
theorem State.behind_none (s : State) (g : Nat) (runs : List (Nat × Nat)) (h : ∀ c ∈ (s.group g).chan.toList, c.st ≠ .copying) :
    s.behind g runs = false :=
  List.any_eq_false.mpr fun c hc => by simp [h c hc]

/-- With no access queued and no store on its way a group has no older store. -/
theorem Group.storesOlder_nil (G : Group) (tok : TokenReq) (seq : Nat) (hs : ∀ l ∈ G.slices.toList, l = []) (hw : ∀ w ∈ G.sent, w.msg = true) :
    G.storesOlder tok seq = false := by
  have hslices : (G.slices.toList.any fun l => l.any fun a => precedes tok seq a.seq) = false :=
    List.any_eq_false.mpr fun l hl => by simp [hs l hl]
  have hsent : (G.sent.any fun w => !w.msg && !w.path && precedes tok seq w.seq && (w.held.isSome || decide (8 ≤ w.die))) = false :=
    List.any_eq_false.mpr fun w h => by simp [hw w h]
  rw [Group.storesOlder, hslices, hsent]
  rfl

/-- The oldest entry of the context that a cell serves starts when nothing stands before it. -/
theorem execTransformEntryStart_head (b : BitVec 9) (s : State) (t : Nat) (ht : t = (if s.serves 0 b.toNat then 0 else 1)) (e : TransformEntry)
    (rest : List TransformEntry) (hserves : s.serves t b.toNat = true) (hq : (s.cell b.toNat).tq t = e :: rest) (hnot : e ∉ rest)
    (hidle : ∀ q ∈ (s.cell b.toNat).tq0 ++ (s.cell b.toNat).tq1, q.started = false) (hs : ∀ l ∈ (s.group e.group).slices.toList, l = [])
    (hw : ∀ w ∈ (s.group e.group).sent, w.msg = true) (ha : (s.group e.group).async = []) (hc : ∀ c ∈ (s.group e.group).chan.toList, c.st ≠ .copying)
    (hp : ∀ f ∈ e.tok.pop, (s.group e.group).fifos[f.toNat] ≠ 0) :
    execTransformEntryStart b s = .next ((s.putGroup e.group ((s.group e.group).popToken e.tok.pop)).putCell b.toNat
      ((s.cell b.toNat).putTq t ({ e with started := true } :: rest))) := by
  have hfree : ((s.cell b.toNat).tq0 ++ (s.cell b.toNat).tq1).any TransformEntry.started = false :=
    List.any_eq_false.mpr fun q h => by simp [hidle q h]
  have htry : s.tryStart b.toNat t [] e = some ((s.putGroup e.group ((s.group e.group).popToken e.tok.pop)).putCell b.toNat
      ((s.cell b.toNat).putTq t ({ e with started := true } :: rest))) := by
    rw [State.tryStart, s.flush_nil e.group ha, s.drainThose_nil e.group _ fun q => Group.slice_nil _ q hs]
    simp only [ha, hq, (s.group e.group).storesOlder_nil _ _ hs hw, s.behind_none _ _ hc, map_replace_head e _ rest hnot]
    refine (if_neg Bool.false_ne_true).trans (if_neg fun h => ?_)
    cases hpop : e.tok.pop with
    | none => simp [hpop] at h
    | some f => simp [hpop, hp f hpop] at h
  simp only [execTransformEntryStart, hfree, ← ht, hserves, hq, State.startFrom, htry, Bool.false_eq_true, if_false, if_true]

/-- The entry that a cell's engine works on. -/
theorem CellState.find_started (C : CellState) (e : TransformEntry) (rest : List TransformEntry) (hq : C.tq (setOf e.group) = e :: rest)
    (he : e.started = true) (h0 : setOf e.group = 1 → ∀ q ∈ C.tq0, q.started = false) : (C.tq0 ++ C.tq1).find? TransformEntry.started = some e := by
  rw [CellState.tq] at hq
  rw [List.find?_append]
  by_cases h : setOf e.group = 0
  · rw [if_pos h] at hq
    rw [hq, List.find?_cons_of_pos he]
    rfl
  · rw [if_neg h] at hq
    have h1 : setOf e.group = 1 := by unfold setOf at h ⊢; omega
    have hnone : C.tq0.find? TransformEntry.started = none := List.find?_eq_none.mpr fun q hm => by simp [h0 h1 q hm]
    rw [hq, hnone, List.find?_cons_of_pos he]
    rfl

/-- The started entry retires: its outputs, its flags, its record and its token (R289, R298). -/
theorem execTransformEntryRetire_started (b : BitVec 9) (s : State) (e : TransformEntry) (rest : List TransformEntry) (x : Vector Nat 16) (rec : Nat)
    (hq : (s.cell b.toNat).tq (setOf e.group) = e :: rest) (he : e.started = true) (hb : cellOf e.group = b.toNat)
    (h0 : setOf e.group = 1 → ∀ q ∈ (s.cell b.toNat).tq0, q.started = false) (ho : (s.group e.group).over = false)
    (hf : (s.transformOut e).failed = none) (hrec : rec = (match e.op with | .stage _ _ _ _ _ _ _ _ r => r | _ => 0))
    (hx : (s.group e.group).PushesTo e.tok.push x) (G : Group) (hG : G = s.group e.group) (o : XOut) (hout : o = s.transformOut e) :
    execTransformEntryRetire b s = .next (({ s with fresh := s.fresh + 1 }.putGroup e.group { G with
      async := G.async ++ o.writes, xfl := G.xfl ||| o.flags
      maxa := if rec = 1 ∧ G.maxa < BitVec.ofNat 30 o.top then BitVec.ofNat 30 o.top else G.maxa
      maxb := if rec = 2 ∧ G.maxb < BitVec.ofNat 30 o.top then BitVec.ofNat 30 o.top else G.maxb
      fifos := x }).putCell b.toNat ((s.cell b.toNat).putTq (setOf e.group) rest)) := by
  subst hrec hG hout
  have hpush : ∀ K : Group, K.fifos = (s.group e.group).fifos → K.pushOpt e.tok.push = { K with fifos := x } := fun K hK => (hx K hK).2
  simp only [execTransformEntryRetire, CellState.find_started _ e rest hq he h0, (hx _ rfl).1, Bool.or_true, if_true]
  rw [State.finishTransform]
  simp only [hf, ho, hb, hq, Option.isSome_none, Bool.and_false, Bool.or_false, Bool.false_eq_true, if_false, List.erase_cons_head]
  rw [hpush]
  · rfl
  · rfl

end Sys2Proof.Machine
end

section
namespace Sys2Proof.Machine

/-! ## Lists of points and blocks -/

theorem upFrom_eq_range' (lo n : Nat) : upFrom lo n = List.range' lo n := by
  induction n generalizing lo with
  | zero => rfl
  | succ n ih => rw [upFrom, ih]; rfl

/-- A row of numbers read as integers. -/
theorem upFrom_cast (lo n : Nat) : (do let k ← upFrom lo n; pure (k : Int)) = (upFrom lo n).map Nat.cast := by
  rw [List.bind_eq_flatMap, show (fun k : Nat => (pure (k : Int) : List Int)) = pure ∘ Nat.cast from rfl, List.flatMap_pure_eq_map]

section Lists

variable {α : Type} (f : Nat → α) (lo n i : Nat)

theorem upFrom_map_length : ((upFrom lo n).map f).length = n := by rw [upFrom_eq_range', List.length_map, List.length_range']

theorem upFrom_map_getElem? (h : i < n) : ((upFrom lo n).map f)[i]? = some (f (lo + i)) := by
  rw [upFrom_eq_range', List.getElem?_map, List.getElem?_range' h, Nat.one_mul]
  rfl

theorem upFrom_map_getD (d : α) (h : i < n) : ((upFrom lo n).map f).getD i d = f (lo + i) := by
  rw [List.getD_eq_getElem?_getD, upFrom_map_getElem? f lo n i h]
  rfl

/-- An element of an array made by a rule of its index. -/
theorem upFrom_toArray_getD (d : α) (h : i < n) : ((upFrom 0 n).map f).toArray.getD i d = f i := by
  have hi : i < ((upFrom 0 n).map f).toArray.size := by rw [List.size_toArray, upFrom_map_length]; exact h
  rw [Array.getD_eq_getD_getElem?, List.getElem?_toArray, upFrom_map_getElem? f 0 n i h, Nat.zero_add]
  rfl

end Lists

/-- An element of a row of blocks of one length. -/
theorem flatten_getElem? {α : Type} (c : Nat) (L : List (List α)) (h : ∀ l ∈ L, l.length = c) (k i : Nat) (hi : i < c) :
    L.flatten[c * k + i]? = L[k]?.bind (·[i]?) := by
  induction L generalizing k with
  | nil => rfl
  | cons l L ih =>
    obtain ⟨hl, hL⟩ := List.forall_mem_cons.mp h
    cases k with
    | zero => rw [List.flatten_cons, Nat.mul_zero, Nat.zero_add, List.getElem?_append_left (by omega)]; rfl
    | succ k =>
      have hpast : l.length ≤ c * (k + 1) + i := by rw [hl, Nat.mul_succ]; omega
      rw [List.flatten_cons, List.getElem?_append_right hpast, hl, show c * (k + 1) + i - c = c * k + i by rw [Nat.mul_succ]; omega, ih hL]
      rfl

theorem flatten_length {α : Type} (c : Nat) (L : List (List α)) (h : ∀ l ∈ L, l.length = c) : L.flatten.length = c * L.length := by
  rw [List.length_flatten, List.map_eq_replicate_iff.mpr h, List.sum_replicate, smul_eq_mul, Nat.mul_comm]

section PairUp

variable (bad : Bool)

theorem pairUp_length (n : Nat) (l : List Int) (h : l.length = 2 * n) : (pairUp bad l).length = n := by
  induction n generalizing l with
  | zero => rw [List.eq_nil_of_length_eq_zero h]; rfl
  | succ n ih =>
    obtain ⟨r, i, t, rfl⟩ : ∃ r i t, l = r :: i :: t := by
      match l, h with
      | r :: i :: t, _ => exact ⟨r, i, t, rfl⟩
    rw [pairUp, List.length_cons, ih t (by simp only [List.length_cons] at h; omega)]

/-- A point made of the components of a row. -/
theorem pairUp_getElem? (l : List Int) (i : Nat) (h : 2 * i + 1 < l.length) :
    (pairUp bad l)[i]? = some { re := wrapTo 16 (l.getD (2 * i) 0), im := wrapTo 16 (l.getD (2 * i + 1) 0), bad := bad } := by
  induction i generalizing l with
  | zero =>
    match l, h with
    | r :: m :: t, _ => rfl
  | succ i ih =>
    match l, h with
    | r :: m :: t, h => exact ih t (by simp only [List.length_cons] at h; omega)

end PairUp

/-! ## Outputs of an entry (R290, R293) -/

/-- An output whose data are good. -/
theorem XOut.writes_of (o : XOut) (e : TransformEntry) (k va va' : Nat) (b b' : List Byte) (bad : Bool) (hw : o.writes[k]? = some (outWrite e va b bad))
    (hva : va = va') (hb : b = b') (hbad : bad = false) : o.Writes k va' b' := by
  subst hva hb hbad
  exact ⟨_, hw, rfl, rfl, rfl⟩

/-- The writes of a whole region: its points, then what comes after them. -/
theorem pointWrites_getElem? (e : TransformEntry) (base : Nat) (X : Array Point) (l : List AsyncWrite) (p : Nat) (hp : p < X.size) :
    (pointWrites e base (fun _ => true) X ++ l)[p]? = some (outWrite e (base + p * pointBytes e.mode) ((X.getD p Point.zero).bytes e.mode)
      (X.getD p Point.zero).bad) := by
  rw [pointWrites, List.filter_eq_self.mpr fun _ _ => rfl, List.getElem?_append_left (by rw [upFrom_map_length]; exact hp),
    upFrom_map_getElem? _ _ _ _ hp, Nat.zero_add]

/-- The writes of a BFP region's exponents, after those of its points. -/
theorem exponentWrites_getElem? (e : TransformEntry) (base : Nat) (X : Array Point) (E : Array Int) (k : Nat) (hk : k < E.size) :
    (pointWrites e base (fun _ => true) X ++ exponentWrites e base X E)[X.size + k]? =
      some (outWrite e (base + 4 * X.size + k) (toBytes 1 (wrapTo 8 (E.getD k 0))) (blockBad X k)) := by
  rw [pointWrites, List.filter_eq_self.mpr fun _ _ => rfl, List.getElem?_append_right (by rw [upFrom_map_length]; omega), upFrom_map_length,
    Nat.add_sub_cancel_left, exponentWrites, upFrom_map_getElem? _ _ _ _ hk, Nat.zero_add]

/-- The write of a chosen point. -/
theorem mem_pointWrites (e : TransformEntry) (base : Nat) (sel : Nat → Bool) (X : Array Point) (w : AsyncWrite) :
    w ∈ pointWrites e base sel X ↔ ∃ p, (p < X.size ∧ sel p = true) ∧
      outWrite e (base + p * pointBytes e.mode) ((X.getD p Point.zero).bytes e.mode) (X.getD p Point.zero).bad = w := by
  simp only [pointWrites, List.mem_map, List.mem_filter, upFrom_mem, Nat.zero_le, true_and, Nat.zero_add]

/-! ## Regions read (R285, R293) -/

theorem State.points_size (s : State) (g mode base n : Nat) : (s.points g mode base n).size = n := by
  rw [State.points, List.size_toArray, upFrom_map_length]

theorem State.points_getD (s : State) (g mode base n p : Nat) (hp : p < n) :
    (s.points g mode base n).getD p Point.zero = s.pointAt g mode (base + p * pointBytes mode) :=
  upFrom_toArray_getD _ n p _ hp

theorem State.exponents_size (s : State) (g base n : Nat) : (s.exponents g base n).size = n / 32 := by
  rw [State.exponents, List.size_toArray, upFrom_map_length]

theorem State.exponents_getD (s : State) (g base n k : Nat) (hk : k < n / 32) :
    (s.exponents g base n).getD k (0, false) = (signedOf 8 (s.engineRead g (base + 4 * n + k) 1).1, (s.engineRead g (base + 4 * n + k) 1).2) :=
  upFrom_toArray_getD _ _ k _ hk

/-- With no failed place every place read is good. -/
theorem State.firstFailed_none (s : State) (g : Nat) (l : List (Nat × Nat)) : s.firstFailed g l = none ↔ ∀ p ∈ l, (s.engineRead g p.1 p.2).2 = false := by
  simp only [State.firstFailed, Option.map_eq_none_iff, List.find?_eq_none, Bool.not_eq_true]

/-- The points and exponents of a region in which nothing has failed. -/
theorem State.regionPlaces_good (s : State) (g mode base n : Nat) (h : s.firstFailed g (regionPlaces mode base n) = none) :
    (∀ p, p < n → (s.pointAt g mode (base + p * pointBytes mode)).bad = false) ∧
    (mode = 1 → ∀ k, k < n / 32 → (s.engineRead g (base + 4 * n + k) 1).2 = false) := by
  rw [State.firstFailed_none, regionPlaces] at h
  obtain ⟨hpoints, hexp⟩ := List.forall_mem_append.mp h
  refine ⟨fun p hp => hpoints _ (List.mem_map_of_mem ((upFrom_mem _ _ _).mpr ⟨Nat.zero_le p, by omega⟩)), ?_⟩
  rintro rfl k hk
  exact hexp (base + 4 * n + k, 1) (List.mem_map_of_mem (f := fun k => (base + 4 * n + k, 1)) ((upFrom_mem _ _ _).mpr ⟨Nat.zero_le k, by omega⟩))

end Sys2Proof.Machine
end

section
namespace Sys2Proof.Machine

/-! ## XTWID (R300) -/

/-- The powers of a residue. -/
theorem powersFrom_getElem? (q x n w k : Nat) (hw : w < q) (hk : k < n) : (powersFrom q x n w)[k]? = some (w * x ^ k % q) := by
  induction n generalizing w k with
  | zero => exact absurd hk (Nat.not_lt_zero k)
  | succ n ih =>
    cases k with
    | zero => rw [pow_zero, Nat.mul_one, Nat.mod_eq_of_lt hw]; rfl
    | succ k =>
      refine (ih (w * x % q) k (Nat.mod_lt _ (by omega)) (by omega)).trans ?_
      rw [Nat.mod_mul_mod, Nat.mul_assoc, Nat.pow_succ']

theorem powersFrom_length (q x n w : Nat) : (powersFrom q x n w).length = n := by
  induction n generalizing w with
  | zero => rfl
  | succ n ih => rw [powersFrom, List.length_cons, ih]

/-- A point of a whole region that an entry writes. -/
theorem XOut.writes_point (o : XOut) (e : TransformEntry) (base : Nat) (X : Array Point) (l : List AsyncWrite) (p : Nat) (x : Point)
    (ho : o.writes = pointWrites e base (fun _ => true) X ++ l) (hp : p < X.size) (hx : X.getD p Point.zero = x) (hbad : x.bad = false) :
    o.Writes p (base + pointBytes e.mode * p) (x.bytes e.mode) := by
  subst hx
  exact XOut.writes_of o e p _ _ _ _ _ (by rw [ho]; exact pointWrites_getElem? e base X l p hp) (by rw [Nat.mul_comm]) rfl hbad

/-- The points that XTWID writes. -/
def twiddleEntries (e : TransformEntry) (root : Word) (count : Nat) : List Point :=
  if e.mode = 2 then (powersFrom e.q (root.toNat % e.q) count 1).map fun w => { re := w, im := 0, bad := false }
  else (upFrom 0 count).map fun k =>
    let t := turnNum (((k : Int) * root.toInt) % ((2 ^ e.logn : Nat) : Int)).toNat (2 ^ e.logn)
    if e.mode = 0 then { re := twiddle32 t.2, im := twiddle32 t.1.negate, bad := false }
    else { re := twiddle16 t.2, im := twiddle16 t.1.negate, bad := false }

/-- The points of a whole region that an entry writes without exponents. -/
theorem pointWrites_all (e : TransformEntry) (base : Nat) (X : Array Point) (p : Nat) (hp : p < X.size) :
    (pointWrites e base (fun _ => true) X)[p]? = some (outWrite e (base + p * pointBytes e.mode) ((X.getD p Point.zero).bytes e.mode)
      (X.getD p Point.zero).bad) := by
  rw [← List.append_nil (pointWrites e base (fun _ => true) X)]
  exact pointWrites_getElem? e base X [] p hp

section Twid

variable (e : TransformEntry) (base root : Word) (count p : Nat)

theorem twiddleOut_writes (x : Point) (hx : (twiddleEntries e root count)[p]? = some x) (hbad : x.bad = false) :
    (twiddleOut e base root count).Writes p (base.toNat + pointBytes e.mode * p) (x.bytes e.mode) := by
  refine XOut.writes_point _ e base.toNat (twiddleEntries e root count).toArray [] p x (List.append_nil _).symm ?_ ?_ hbad
  · rw [List.size_toArray]
    exact (List.getElem?_eq_some_iff.mp hx).1
  · rw [Array.getD_eq_getD_getElem?, List.getElem?_toArray, hx]
    rfl

variable (hp : p < count)
include hp

/-- XTWID in mode Q32: the powers of the root. -/
theorem twiddleOut_powers (hm : e.mode = 2) (hq : 1 < e.q) :
    (twiddleOut e base root count).Writes p (base.toNat + 4 * p) (toBytes 4 (root.toNat ^ p % e.q)) := by
  have h := twiddleOut_writes e base root count p { re := root.toNat ^ p % e.q, im := 0, bad := false } (by
    rw [twiddleEntries, if_pos hm, List.getElem?_map, powersFrom_getElem? _ _ _ _ _ hq hp, Nat.one_mul, ← Nat.pow_mod]
    rfl) rfl
  rw [hm, Point.bytes, Nat.zero_mul, Nat.add_zero] at h
  exact h

/-- XTWID in modes CF32 and BFP: the cosine and the negated sine of a multiple of the angle. -/
theorem twiddleOut_turn (t : Num × Num) (ht : t = turnNum (((p : Int) * root.toInt) % ((2 ^ e.logn : Nat) : Int)).toNat (2 ^ e.logn)) :
    (e.mode = 0 → (twiddleOut e base root count).Writes p (base.toNat + 8 * p) (toBytes 8 (twiddle32 t.2 + twiddle32 t.1.negate * 2 ^ 32))) ∧
    (e.mode = 1 → (twiddleOut e base root count).Writes p (base.toNat + 4 * p) (toBytes 4 (twiddle16 t.2 + twiddle16 t.1.negate * 2 ^ 16))) := by
  have hturns : (do let k ← upFrom 0 count; pure (k : Int))[p]? = some (p : Int) := by
    rw [upFrom_cast, upFrom_map_getElem? _ _ _ _ hp, Nat.zero_add]
  have hentry : e.mode ≠ 2 → (twiddleEntries e root count)[p]? = some (if e.mode = 0 then { re := twiddle32 t.2, im := twiddle32 t.1.negate, bad := false }
      else { re := twiddle16 t.2, im := twiddle16 t.1.negate, bad := false }) := by
    intro hm
    rw [twiddleEntries, if_neg hm, List.getElem?_map, hturns, ht]
    rfl
  refine ⟨fun hm => ?_, fun hm => ?_⟩
  · have h := twiddleOut_writes e base root count p _ ((hentry (by rw [hm]; decide)).trans (congrArg some (if_pos hm))) rfl
    rwa [hm] at h
  · have h := twiddleOut_writes e base root count p _ ((hentry (by rw [hm]; decide)).trans (congrArg some (if_neg (by rw [hm]; decide)))) rfl
    rwa [hm] at h

end Twid

/-! ## XPERM (R301) -/

theorem revBits_lt (n p : Nat) : revBits n p < 2 ^ n := by
  induction n generalizing p with
  | zero => exact Nat.one_pos
  | succ n ih =>
    have hbit : p % 2 * 2 ^ n ≤ 2 ^ n := Nat.mul_le_of_le_div _ _ _ (by rw [Nat.div_self (by positivity)]; omega)
    have h := ih (p / 2)
    rw [revBits, Nat.pow_succ]
    omega

/-- A source point lies in the region. -/
theorem permSource_lt (logn rs : Nat) (stride : Bool) (p : Nat) (hp : p < 2 ^ logn) (hrs : stride = true → rs ≤ logn) :
    permSource logn rs stride p < 2 ^ logn := by
  cases stride with
  | false => exact revBits_lt logn p
  | true =>
    have hrs := hrs rfl
    have hsplit : 2 ^ logn = 2 ^ rs * 2 ^ (logn - rs) := by rw [← Nat.pow_add, Nat.add_sub_cancel' hrs]
    have hlow : p / 2 ^ rs < 2 ^ (logn - rs) := Nat.div_lt_of_lt_mul (by rw [← hsplit]; exact hp)
    calc p % 2 ^ rs * 2 ^ (logn - rs) + p / 2 ^ rs
      _ < (p % 2 ^ rs + 1) * 2 ^ (logn - rs) := by rw [Nat.succ_mul]; omega
      _ ≤ 2 ^ rs * 2 ^ (logn - rs) := Nat.mul_le_mul_right _ (Nat.mod_lt _ (by positivity))
      _ = 2 ^ logn := hsplit.symm

theorem toBytes_natOfBytes (l : List Byte) : toBytes l.length (natOfBytes l) = l := by
  induction l with
  | nil => rfl
  | cons b l ih =>
    have hb : b.toNat < 256 := b.isLt
    rw [List.length_cons, toBytes, natOfBytes, Nat.add_mul_div_left _ _ (by decide), Nat.div_eq_of_lt hb, Nat.zero_add, ih]
    congr 1
    apply BitVec.eq_of_toNat_eq
    rw [BitVec.toNat_ofNat]
    omega

/-- A point of modes other than BFP is the bytes that it was read from. -/
theorem State.pointAt_bytes (s : State) (g mode va : Nat) (runs : List (Nat × Nat)) (hruns : s.window g (va / 2 ^ 48) (va % 2 ^ 48) (pointBytes mode) = some runs)
    (hlen : (s.readRuns runs).length = pointBytes mode) :
    (s.pointAt g mode va).bytes mode = s.readRuns runs ∧ (s.pointAt g mode va).bad = s.runsBad runs := by
  have hread : s.engineRead g va (pointBytes mode) = (natOfBytes (s.readRuns runs), s.runsBad runs) := by
    rw [State.engineRead, State.engineRuns, hruns]
    rfl
  rw [State.pointAt, hread, Point.bytes]
  refine ⟨?_, rfl⟩
  rw [Nat.mod_add_div', ← hlen, toBytes_natOfBytes]

section Perm

variable (s : State) (e : TransformEntry) (dst src : Word) (rs : Nat) (tr : Bool) (p : Nat) (hp : p < 2 ^ e.logn) (hrs : tr = true → rs ≤ e.logn)
include hp hrs

/-- XPERM in modes CF32 and Q32: the source point. -/
theorem permOut_points (hm : e.mode ≠ 1) (pb : Nat) (hpb : pb = pointBytes e.mode) (va : Nat) (hva : va = src.toNat + pb * permSource e.logn rs tr p)
    (runs : List (Nat × Nat)) (hruns : s.window e.group (va / 2 ^ 48) (va % 2 ^ 48) pb = some runs) (hlen : (s.readRuns runs).length = pb) :
    ∃ w, (s.permOut e dst.toNat src.toNat rs tr).writes[p]? = some w ∧ w.place = .virt (BitVec.ofNat 64 (dst.toNat + pb * p)) ∧
      w.data = s.readRuns runs ∧ w.mark = s.runsBad runs := by
  subst hpb
  obtain ⟨hdata, hmark⟩ := s.pointAt_bytes e.group e.mode va runs hruns hlen
  have hw : (s.permOut e dst.toNat src.toNat rs tr).writes[p]? = some (outWrite e (dst.toNat + pointBytes e.mode * p)
      ((s.pointAt e.group e.mode va).bytes e.mode) (s.pointAt e.group e.mode va).bad) := by
    rw [State.permOut, if_neg hm, pointWrites_all e _ _ p (by rw [List.size_toArray, upFrom_map_length]; exact hp), upFrom_toArray_getD _ _ _ _ hp,
      State.points_getD _ _ _ _ _ _ (permSource_lt _ _ _ _ hp hrs), Nat.mul_comm p, Nat.mul_comm (permSource _ _ _ _), ← hva]
  exact ⟨_, hw, rfl, hdata, hmark⟩

end Perm

end Sys2Proof.Machine
end

section
namespace Sys2Proof.Machine

/-! ## Regions without failed data (R293) -/

theorem mapIdx_getD (X : Array Point) (f : Nat → Point → Point) (p : Nat) (hp : p < X.size) :
    (X.mapIdx f).getD p Point.zero = f p (X.getD p Point.zero) := by
  rw [Array.getD_eq_getD_getElem?, Array.getElem?_mapIdx, Array.getD_eq_getD_getElem?, Array.getElem?_eq_getElem hp]
  rfl

theorem getD_past (X : Array Point) (p : Nat) (hp : X.size ≤ p) : X.getD p Point.zero = Point.zero := by
  rw [Array.getD_eq_getD_getElem?, Array.getElem?_eq_none hp]
  rfl

/-- Points none of which failed. -/
def goodPoints (X : Array Point) : Prop := ∀ p, p < X.size → (X.getD p Point.zero).bad = false

theorem Point.good_eq (x : Point) (h : x.bad = false) : { x with bad := false } = x := by rw [← h]

/-- A point whose quad is good stays as it is. -/
theorem quadBad_getD (X : Array Point) (sp p : Nat) (hp : p < X.size) (hown : (X.getD p Point.zero).bad = false)
    (h : ∀ k, k < 4 → (X.getD (quadBase sp p + k * 2 ^ (sp - 1)) Point.zero).bad = false) : (quadBad sp X).getD p Point.zero = X.getD p Point.zero := by
  have hnone : ((upFrom 0 4).any fun k => (X.getD (quadBase sp p + k * 2 ^ (sp - 1)) Point.zero).bad) = false :=
    List.any_eq_false.mpr fun k hk => by rw [h k ((upFrom_mem _ _ _).mp hk).2]; exact Bool.false_ne_true
  rw [quadBad, mapIdx_getD X _ p hp]
  simp only [hnone]
  exact Point.good_eq _ hown

section Good

variable {X : Array Point} (h : goodPoints X)
include h

theorem goodPoints.bad_getD (p : Nat) : (X.getD p Point.zero).bad = false := by
  by_cases hp : p < X.size
  · exact h p hp
  · rw [getD_past X p (Nat.not_lt.mp hp)]
    rfl

theorem goodPoints.blockBad (k : Nat) : blockBad X k = false :=
  List.any_eq_false.mpr fun p _ => by rw [h.bad_getD]; exact Bool.false_ne_true

/-- Nothing spreads from good points. -/
theorem goodPoints.spreadBad_getD (p : Nat) (hp : p < X.size) : (spreadBad X).getD p Point.zero = X.getD p Point.zero := by
  rw [spreadBad, mapIdx_getD X _ p hp, h.blockBad]
  exact Point.good_eq _ (h.bad_getD p)

end Good

theorem spreadBad_size (X : Array Point) : (spreadBad X).size = X.size := Array.size_mapIdx
theorem quadBad_size (sp : Nat) (X : Array Point) : (quadBad sp X).size = X.size := Array.size_mapIdx

/-- The writes of a BFP region whose points are good: each point, then each exponent. -/
theorem XOut.writes_region (o : XOut) (e : TransformEntry) (base n : Nat) (X : Array Point) (E : Array Int) (hm : e.mode = 1)
    (ho : o.writes = pointWrites e base (fun _ => true) X ++ exponentWrites e base X E) (hX : X.size = n) (hgood : goodPoints X) :
    (∀ p, p < n → o.Writes p (base + 4 * p) ((X.getD p Point.zero).bytes 1)) ∧
    ∀ k, k < E.size → o.Writes (n + k) (base + 4 * n + k) (toBytes 1 (wrapTo 8 (E.getD k 0))) := by
  subst hX
  refine ⟨fun p hp => ?_, fun k hk => ?_⟩
  · have h := o.writes_point e base X _ p _ ho hp rfl (hgood p hp)
    rwa [hm] at h
  · exact o.writes_of e (X.size + k) _ _ _ _ _ (by rw [ho]; exact exponentWrites_getElem? e base X E k hk) rfl rfl (hgood.blockBad k)

/-- A point's block lies in the region. -/
theorem div32_lt (logn p : Nat) (h5 : 5 ≤ logn) (hp : p < 2 ^ logn) : p / 32 < 2 ^ logn / 32 := by
  have hsplit : 2 ^ logn = 32 * 2 ^ (logn - 5) := by rw [show (32 : Nat) = 2 ^ 5 from rfl, ← Nat.pow_add, Nat.add_sub_cancel' h5]
  omega

/-! ## XPERM in mode BFP (R301) -/

theorem signedOf_byte_ge (v : Nat) : -128 ≤ signedOf 8 v := by
  unfold signedOf
  split <;> omega

theorem foldl_max_eq {α : Type} (f : α → Int) (l : List α) (m top : Int) (hm : m ≤ top) (hle : ∀ x ∈ l, f x ≤ top)
    (hex : m = top ∨ ∃ x ∈ l, f x = top) :
    l.foldl (fun m x => max m (f x)) m = top := by
  induction l generalizing m with
  | nil => exact hex.resolve_right fun ⟨x, hx, _⟩ => List.not_mem_nil hx
  | cons x l ih =>
    obtain ⟨hx, hl⟩ := List.forall_mem_cons.mp hle
    refine ih (max m (f x)) (max_le hm hx) hl ?_
    rcases hex with rfl | ⟨y, hy, hyt⟩
    · exact Or.inl (max_eq_left hx)
    · rcases List.mem_cons.mp hy with rfl | hy
      · exact Or.inl (by rw [hyt]; exact max_eq_right hm)
      · exact Or.inr ⟨y, hy, hyt⟩

theorem State.mem_exponents (s : State) (g base n : Nat) (x : Int × Bool) : x ∈ (s.exponents g base n).toList ↔
    ∃ k, k < n / 32 ∧ (signedOf 8 (s.engineRead g (base + 4 * n + k) 1).1, (s.engineRead g (base + 4 * n + k) 1).2) = x := by
  simp only [State.exponents, List.mem_map, upFrom_mem, Nat.zero_le, true_and, Nat.zero_add]

section Perm

variable (s : State) (e : TransformEntry) (dst src : Word) (rs : Nat) (tr : Bool)

/-- A source point of XPERM in mode BFP, brought to an exponent. -/
def State.alignedPoint (s : State) (e : TransformEntry) (src rs : Nat) (tr : Bool) (top : Int) (p : Nat) : Point :=
  let q := permSource e.logn rs tr p
  let x := s.pointAt e.group 1 (src + 4 * q)
  let sh := top - signedOf 8 (s.engineRead e.group (src + 4 * 2 ^ e.logn + q / 32) 1).1
  { re := wrapTo 16 (rneShift (signedOf 16 x.re) sh), im := wrapTo 16 (rneShift (signedOf 16 x.im) sh), bad := false }

/-- XPERM in mode BFP: every block at the largest exponent. -/
theorem permOut_blocks (hm : e.mode = 1) (h5 : 5 ≤ e.logn) (hf : (s.permOut e dst.toNat src.toNat rs tr).failed = none) (hrs : tr = true → rs ≤ e.logn)
    (E : Nat → Int) (top : Int) (hE : E = fun k => signedOf 8 (s.engineRead e.group (src.toNat + 4 * 2 ^ e.logn + k) 1).1)
    (hle : ∀ k, k < 2 ^ e.logn / 32 → E k ≤ top) (hex : ∃ k, k < 2 ^ e.logn / 32 ∧ E k = top) :
    (∀ p, p < 2 ^ e.logn → ∀ q x, q = permSource e.logn rs tr p → x = s.pointAt e.group 1 (src.toNat + 4 * q) →
      (s.permOut e dst.toNat src.toNat rs tr).Writes p (dst.toNat + 4 * p) (toBytes 4 (wrapTo 16 (rneShift (signedOf 16 x.re) (top - E (q / 32))) +
        wrapTo 16 (rneShift (signedOf 16 x.im) (top - E (q / 32))) * 2 ^ 16))) ∧
    ∀ k, k < 2 ^ e.logn / 32 → (s.permOut e dst.toNat src.toNat rs tr).Writes (2 ^ e.logn + k) (dst.toNat + 4 * 2 ^ e.logn + k)
      (toBytes 1 (wrapTo 8 top)) := by
  subst hE
  have hfail : (s.permOut e dst.toNat src.toNat rs tr).failed = s.firstFailed e.group (regionPlaces 1 src.toNat (2 ^ e.logn)) := by
    rw [State.permOut, if_pos hm, hm]
  obtain ⟨hpoints, hexps⟩ := s.regionPlaces_good e.group 1 src.toNat (2 ^ e.logn) (hfail ▸ hf)
  have htop : (s.exponents e.group src.toNat (2 ^ e.logn)).foldl (fun m x => max m x.1) (-128) = top := by
    rw [← Array.foldl_toList]
    refine foldl_max_eq Prod.fst _ _ _ ?_ (fun x hx => ?_) (Or.inr ?_)
    · obtain ⟨k, -, rfl⟩ := hex
      exact signedOf_byte_ge _
    · obtain ⟨k, hk, rfl⟩ := (s.mem_exponents _ _ _ x).mp hx
      exact hle k hk
    · obtain ⟨k, hk, h⟩ := hex
      exact ⟨_, (s.mem_exponents _ _ _ _).mpr ⟨k, hk, rfl⟩, h⟩
  have hlost : (s.exponents e.group src.toNat (2 ^ e.logn)).any (fun x => x.2) = false := by
    rw [← Array.any_toList]
    refine List.any_eq_false.mpr fun x hx => ?_
    obtain ⟨k, hk, rfl⟩ := (s.mem_exponents _ _ _ x).mp hx
    rw [hexps rfl k hk]
    exact Bool.false_ne_true
  have hwrites : (s.permOut e dst.toNat src.toNat rs tr).writes =
      pointWrites e dst.toNat (fun _ => true) (spreadBad ((upFrom 0 (2 ^ e.logn)).map (s.alignedPoint e src.toNat rs tr top)).toArray) ++
      exponentWrites e dst.toNat (spreadBad ((upFrom 0 (2 ^ e.logn)).map (s.alignedPoint e src.toNat rs tr top)).toArray)
        ((s.exponents e.group src.toNat (2 ^ e.logn)).map fun _ => top) := by
    rw [State.permOut, if_pos hm, hm]
    simp only [htop, hlost]
    refine congrArg (fun L : List Point => pointWrites e dst.toNat (fun _ => true) (spreadBad L.toArray) ++ exponentWrites e dst.toNat
      (spreadBad L.toArray) ((s.exponents e.group src.toNat (2 ^ e.logn)).map fun _ => top)) (List.map_congr_left fun p hp => ?_)
    have hq := permSource_lt e.logn rs tr p (by have := (upFrom_mem _ _ _).mp hp; omega) hrs
    rw [s.points_getD _ _ _ _ _ hq, s.exponents_getD _ _ _ _ (div32_lt _ _ h5 hq), hpoints _ hq, Nat.mul_comm (permSource _ _ _ _)]
    rfl
  have hget := fun p hp => upFrom_toArray_getD (s.alignedPoint e src.toNat rs tr top) (2 ^ e.logn) p Point.zero hp
  have hgood : goodPoints ((upFrom 0 (2 ^ e.logn)).map (s.alignedPoint e src.toNat rs tr top)).toArray := by
    intro p hp
    rw [List.size_toArray, upFrom_map_length] at hp
    rw [hget p hp]
    rfl
  have hsize : (spreadBad ((upFrom 0 (2 ^ e.logn)).map (s.alignedPoint e src.toNat rs tr top)).toArray).size = 2 ^ e.logn := by
    rw [spreadBad_size, List.size_toArray, upFrom_map_length]
  have hspread : ∀ p, p < 2 ^ e.logn → (spreadBad ((upFrom 0 (2 ^ e.logn)).map (s.alignedPoint e src.toNat rs tr top)).toArray).getD p Point.zero =
      s.alignedPoint e src.toNat rs tr top p := fun p hp =>
    (hgood.spreadBad_getD p (by rw [← spreadBad_size, hsize]; exact hp)).trans (hget p hp)
  obtain ⟨hp, hk⟩ := XOut.writes_region _ e dst.toNat _ _ _ hm hwrites hsize fun p hp => by rw [hspread p (hsize ▸ hp)]; rfl
  refine ⟨?_, fun k hlt => ?_⟩
  · rintro p hlt q x rfl rfl
    have h := hp p hlt
    rwa [hspread p hlt] at h
  · have hsz : k < ((s.exponents e.group src.toNat (2 ^ e.logn)).map fun _ => top).size := by rw [Array.size_map, s.exponents_size]; exact hlt
    have h := hk k hsz
    rwa [Array.getD_eq_getD_getElem?, Array.getElem?_eq_getElem hsz, Array.getElem_map] at h

end Perm

end Sys2Proof.Machine
end

section
namespace Sys2Proof.Machine

/-! ## Legs of butterflies (R297) -/

/-- Two points with the same low index bits and the same high ones: those of one butterfly or quad. -/
def Near (lo hi r p : Nat) : Prop := r % 2 ^ lo = p % 2 ^ lo ∧ r / 2 ^ hi = p / 2 ^ hi

theorem Near.mono {lo hi lo' hi' r p : Nat} (h : Near lo hi r p) (hlo : lo' ≤ lo) (hhi : hi ≤ hi') : Near lo' hi' r p := by
  obtain ⟨hmod, hdiv⟩ := h
  refine ⟨?_, ?_⟩
  · rw [← Nat.mod_mod_of_dvd r (pow_dvd_pow 2 hlo), hmod, Nat.mod_mod_of_dvd p (pow_dvd_pow 2 hlo)]
  · rw [← Nat.add_sub_cancel' hhi, Nat.pow_add, ← Nat.div_div_eq_div_mul, hdiv, Nat.div_div_eq_div_mul]

/-- A point near one of the region lies in it. -/
theorem Near.lt {lo hi r p logn : Nat} (h : Near lo hi r p) (hhi : hi ≤ logn) (hp : p < 2 ^ logn) : r < 2 ^ logn := by
  have hdiv := (h.mono (Nat.zero_le lo) hhi).2
  rw [Nat.div_eq_of_lt hp] at hdiv
  exact (Nat.div_eq_zero_iff_lt (by positivity)).mp hdiv

/-- The points that share all but two bits of the index with a point, or all but one. -/
theorem stride_split (q m p k : Nat) (hq : 0 < q) (hk : k < m) :
    (p - p / q % m * q + k * q) % q = p % q ∧ (p - p / q % m * q + k * q) / (q * m) = p / (q * m) ∧ (p - p / q % m * q + k * q) / q % m = k := by
  have hp : p - p / q % m * q + k * q = q * (m * (p / q / m) + k) + p % q := by
    have h1 : q * (p / q) + p % q = p := Nat.div_add_mod p q
    have h2 : q * (p / q) = q * (m * (p / q / m)) + p / q % m * q := by rw [Nat.mul_comm _ q, ← Nat.mul_add, Nat.div_add_mod]
    rw [Nat.mul_add, Nat.mul_comm q k]
    omega
  have hr : p % q < q := Nat.mod_lt _ hq
  have hdiv : (q * (m * (p / q / m) + k) + p % q) / q = m * (p / q / m) + k := by
    rw [Nat.mul_add_div hq, Nat.div_eq_of_lt hr, Nat.add_zero]
  rw [hp]
  refine ⟨?_, ?_, ?_⟩
  · rw [Nat.mul_add_mod, Nat.mod_mod]
  · rw [← Nat.div_div_eq_div_mul, hdiv, Nat.mul_add_div (by omega), Nat.div_eq_of_lt hk, Nat.add_zero, Nat.div_div_eq_div_mul]
  · rw [hdiv, Nat.mul_add_mod, Nat.mod_eq_of_lt hk]

theorem near_leg (h p k : Nat) (hk : k < 2) : Near h (h + 1) (flyBase h p + k * 2 ^ h) p := by
  obtain ⟨hmod, hdiv, -⟩ := stride_split (2 ^ h) 2 p k (by positivity) hk
  exact ⟨hmod, by rw [Nat.pow_succ]; exact hdiv⟩

theorem near_base (h p : Nat) : Near h (h + 1) (flyBase h p) p := by
  have hn := near_leg h p 0 (by decide)
  rwa [Nat.zero_mul, Nat.add_zero] at hn

theorem near_second (h p : Nat) : Near h (h + 1) (flyBase h p + 2 ^ h) p := by
  have hn := near_leg h p 1 (by decide)
  rwa [Nat.one_mul] at hn

theorem near_quad (sp p k : Nat) (hsp : 1 ≤ sp) (hk : k < 4) : Near (sp - 1) (sp + 1) (quadBase sp p + k * 2 ^ (sp - 1)) p := by
  obtain ⟨hmod, hdiv, -⟩ := stride_split (2 ^ (sp - 1)) 4 p k (by positivity) hk
  refine ⟨hmod, ?_⟩
  rw [show 2 ^ (sp + 1) = 2 ^ (sp - 1) * 4 by rw [show (4 : Nat) = 2 ^ 2 from rfl, ← Nat.pow_add]; congr 1; omega]
  exact hdiv

theorem flyIndex_near {h r p : Nat} (hn : Near h (h + 1) r p) : flyIndex h r = flyIndex h p := by rw [flyIndex, hn.1, hn.2, flyIndex]

/-- A first leg is its own. -/
theorem flyBase_flyBase (h p : Nat) : flyBase h (flyBase h p) = flyBase h p := by
  obtain ⟨-, -, hk⟩ := stride_split (2 ^ h) 2 p 0 (by positivity) (by decide)
  rw [Nat.zero_mul, Nat.add_zero] at hk
  have hbit : flyBase h p / 2 ^ h % 2 = 0 := hk
  conv_lhs => rw [flyBase, hbit, Nat.zero_mul, Nat.sub_zero]

/-- The first leg of a point: itself, or the point a span below it. -/
theorem flyBase_eq (h p : Nat) : flyBase h p = if p / 2 ^ h % 2 = 0 then p else p - 2 ^ h := by
  unfold flyBase
  split
  next hbit => rw [hbit, Nat.zero_mul, Nat.sub_zero]
  next hbit => rw [show p / 2 ^ h % 2 = 1 by omega, Nat.one_mul]

/-- A point is the first leg of its butterfly or the second. -/
theorem leg_of (h p : Nat) : p = flyBase h p ∨ p = flyBase h p + 2 ^ h := by
  rw [flyBase_eq]
  split
  next => exact Or.inl rfl
  next hbit =>
    have hle : 2 ^ h ≤ p := by
      by_contra hlt
      rw [Nat.div_eq_of_lt (Nat.lt_of_not_le hlt)] at hbit
      exact hbit rfl
    exact Or.inr (by omega)

/-- The points that an XSTAGE chooses come in whole butterflies, or whole quads. -/
theorem stageTakes_near {first count span r p : Nat} {quad : Bool} (hn : Near (if quad then span - 1 else span) (span + 1) r p) :
    stageTakes first count span quad r = stageTakes first count span quad p := by
  obtain ⟨hmod, hdiv⟩ := hn
  unfold stageTakes
  cases quad with
  | false => simp only [Bool.false_eq_true, if_false, flyIndex, hdiv] at hmod ⊢; rw [hmod]
  | true => simp only [if_true, quadIndex, hdiv] at hmod ⊢; rw [hmod]

theorem subStages_nonempty (n span : Nat) (quad dit tm : Bool) : ∃ sub, sub ∈ subStages n span quad dit tm := by
  unfold subStages
  cases quad <;> cases dit <;> exact ⟨_, List.mem_cons_self⟩

/-- The spans of the sub-stages. -/
theorem subStages_span {n span : Nat} {quad dit tm : Bool} {sub : Nat × Nat} (hsub : sub ∈ subStages n span quad dit tm) :
    (if quad then span - 1 else span) ≤ sub.1 ∧ sub.1 ≤ span := by
  simp only [subStages] at hsub
  cases quad with
  | false =>
    obtain rfl := List.mem_singleton.mp hsub
    exact ⟨le_refl _, le_refl _⟩
  | true =>
    have hspan : sub.1 = span - 1 ∨ sub.1 = span := by
      cases dit with
      | false =>
        rcases List.mem_pair.mp hsub with rfl | rfl
        · exact Or.inr rfl
        · exact Or.inl rfl
      | true =>
        rcases List.mem_pair.mp hsub with rfl | rfl
        · exact Or.inl rfl
        · exact Or.inr rfl
    simp only [if_true]
    omega

end Sys2Proof.Machine
end

section
namespace Sys2Proof.Machine

/-! ## What an XSTAGE reads (R293, R297) -/

section Reads

variable {s : State} {g mode logn base table first count span : Nat} {quad dit tm : Bool} {sub : Nat × Nat}
  (hsub : sub ∈ subStages (2 ^ logn) span quad dit tm) (hspan : span + 1 ≤ logn)
  (hf : s.firstFailed g (stageReads mode (2 ^ logn) base table first count span quad dit tm) = none)

include hsub in
/-- A butterfly's points are chosen together. -/
theorem stageTakes_leg {r p : Nat} (hn : Near sub.1 (sub.1 + 1) r p) :
    stageTakes first count span quad r = stageTakes first count span quad p :=
  have hs := subStages_span hsub
  stageTakes_near (hn.mono hs.1 (Nat.succ_le_succ hs.2))

include hsub hspan in
/-- A butterfly's points lie in the region. -/
theorem leg_lt {r p : Nat} (hn : Near sub.1 (sub.1 + 1) r p) (hp : p < 2 ^ logn) : r < 2 ^ logn :=
  hn.lt ((Nat.succ_le_succ (subStages_span hsub).2).trans hspan) hp

include hsub hspan hf

/-- The twiddle entry of a chosen point's butterfly, and its legs with their exponents, are good. -/
theorem stageReads_good (p : Nat) (hp : p < 2 ^ logn) (hsel : stageTakes first count span quad p = true) :
    (s.pointAt g mode (twiddleAt mode table (2 ^ logn) tm sub (flyIndex sub.1 p))).bad = false ∧
    (s.pointAt g mode (base + p * pointBytes mode)).bad = false ∧ (mode = 1 → (s.engineRead g (base + 4 * 2 ^ logn + p / 32) 1).2 = false) := by
  have hbase := near_base sub.1 p
  have hp0 : flyBase sub.1 p ∈ (upFrom 0 (2 ^ logn)).filter (stageTakes first count span quad) :=
    List.mem_filter.mpr ⟨(upFrom_mem _ _ _).mpr ⟨Nat.zero_le _, by rw [Nat.zero_add]; exact leg_lt hsub hspan hbase hp⟩,
      (stageTakes_leg hsub hbase).trans hsel⟩
  have hfirst : flyBase sub.1 p ∈ ((upFrom 0 (2 ^ logn)).filter (stageTakes first count span quad)).filter fun q => q == flyBase sub.1 q :=
    List.mem_filter.mpr ⟨hp0, beq_iff_eq.mpr (flyBase_flyBase sub.1 p).symm⟩
  have hgood := (s.firstFailed_none g _).mp hf
  have hread : ∀ r ∈ ((twiddleAt mode table (2 ^ logn) tm sub (flyIndex sub.1 p), pointBytes mode) : Nat × Nat) ::
      (((base + flyBase sub.1 p * pointBytes mode, pointBytes mode) :: if mode = 1 then [(base + 4 * 2 ^ logn + flyBase sub.1 p / 32, 1)] else []) ++
      ((base + (flyBase sub.1 p + 2 ^ sub.1) * pointBytes mode, pointBytes mode) ::
        if mode = 1 then [(base + 4 * 2 ^ logn + (flyBase sub.1 p + 2 ^ sub.1) / 32, 1)] else [])), (s.engineRead g r.1 r.2).2 = false := by
    intro r hr
    refine hgood r ?_
    unfold stageReads
    refine List.mem_flatten_of_mem (List.mem_map_of_mem hsub) (List.mem_flatten_of_mem (List.mem_map_of_mem hfirst) ?_)
    rw [flyIndex_near hbase]
    exact hr
  obtain ⟨htw, hlegs⟩ := List.forall_mem_cons.mp hread
  obtain ⟨hleg0, hleg1⟩ := List.forall_mem_append.mp hlegs
  have hleg : ∀ q, (∀ r ∈ ((base + q * pointBytes mode, pointBytes mode) : Nat × Nat) :: (if mode = 1 then [(base + 4 * 2 ^ logn + q / 32, 1)] else []),
      (s.engineRead g r.1 r.2).2 = false) → (s.pointAt g mode (base + q * pointBytes mode)).bad = false ∧
      (mode = 1 → (s.engineRead g (base + 4 * 2 ^ logn + q / 32) 1).2 = false) := by
    intro q hq
    obtain ⟨hpoint, hexp⟩ := List.forall_mem_cons.mp hq
    exact ⟨hpoint, fun hm => hexp _ (by rw [if_pos hm]; exact List.mem_singleton_self _)⟩
  rcases leg_of sub.1 p with h | h
  · exact ⟨htw, by rw [h]; exact hleg _ hleg0⟩
  · exact ⟨htw, by rw [h]; exact hleg _ hleg1⟩

end Reads

/-! ## XSTAGE in modes CF32 and Q32 (R297 to R299) -/

theorem pointAdd_bad (mode q rm : Nat) (minus : Bool) (a b : Point) : (pointAdd mode q rm minus a b).1.bad = (a.bad || b.bad) := by
  unfold pointAdd
  split <;> rfl

theorem pointMul_bad (mode q rm : Nat) (x w : Point) : (pointMul mode q rm x w).1.bad = (x.bad || w.bad) := by
  unfold pointMul
  split <;> rfl

/-- A butterfly of good points and a good twiddle is good. -/
theorem flyPoint_good (mode q rm : Nat) (dit second : Bool) (a y w : Point) (ha : a.bad = false) (hy : y.bad = false) (hw : w.bad = false) :
    (flyPoint mode q rm dit second a y w).1.bad = false := by
  unfold flyPoint
  cases dit <;> cases second <;> simp [pointAdd_bad, pointMul_bad, ha, hy, hw]

theorem flyIndex_base (h p : Nat) : flyBase h p / (2 * 2 ^ h) * 2 ^ h + flyBase h p % 2 ^ h = flyIndex h p := by
  rw [← flyIndex_near (near_base h p), flyIndex, Nat.pow_succ, Nat.mul_comm (2 ^ h) 2]

/-- A butterfly's output by its index alone. -/
theorem flyAt_eq (mode q rm : Nat) (dit : Bool) (h : Nat) (tw X : Nat → Point) (p : Nat) :
    flyAt mode q rm dit h tw X p =
      (flyPoint mode q rm dit (decide (p ≠ flyBase h p)) (X (flyBase h p)) (X (flyBase h p + 2 ^ h)) (tw (flyIndex h p))).1 := by
  unfold flyAt
  simp only [← flyBase_eq, flyIndex_base, flyPoint]
  cases dit with
  | true => rfl
  | false =>
    by_cases hp : p = flyBase h p
    · simp [← hp]
    · simp [hp]

/-- An array that holds the points of a rule wherever a choice takes them, all of them good. -/
def Agrees (n : Nat) (sel : Nat → Bool) (A : Array Point) (X : Nat → Point) : Prop :=
  A.size = n ∧ ∀ p, p < n → sel p = true → A.getD p Point.zero = X p ∧ (X p).bad = false

/-- One stage over the chosen points. -/
theorem stagePoints_agrees (mode q rm h logn : Nat) (dit : Bool) (sel : Nat → Bool) (tw : Nat → Point) (A : Array Point) (X : Nat → Point)
    (hlegs : ∀ r p, Near h (h + 1) r p → p < 2 ^ logn → r < 2 ^ logn ∧ sel r = sel p)
    (htw : ∀ p, p < 2 ^ logn → sel p = true → (tw (flyIndex h p)).bad = false) (hA : Agrees (2 ^ logn) sel A X) :
    Agrees (2 ^ logn) sel (stagePoints mode q rm h dit sel tw A).1 (flyAt mode q rm dit h tw X) := by
  obtain ⟨hsize, hpts⟩ := hA
  have hsize' : (stagePoints mode q rm h dit sel tw A).1.size = 2 ^ logn := by rw [stagePoints, Array.size_map, Array.size_mapIdx, hsize]
  refine ⟨hsize', fun p hp hsel => ?_⟩
  obtain ⟨h0, hsel0⟩ := hlegs _ _ (near_base h p) hp
  obtain ⟨h1, hsel1⟩ := hlegs _ _ (near_second h p) hp
  obtain ⟨hx0, hbad0⟩ := hpts _ h0 (hsel0.trans hsel)
  obtain ⟨hx1, hbad1⟩ := hpts _ h1 (hsel1.trans hsel)
  have hbad := flyPoint_good mode q rm dit (decide (p ≠ flyBase h p)) _ _ _ hbad0 hbad1 (htw p hp hsel)
  rw [flyAt_eq]
  refine ⟨?_, hbad⟩
  have hpA : p < A.size := hsize ▸ hp
  rw [stagePoints, Array.getD_eq_getD_getElem?, Array.getElem?_map, Array.getElem?_mapIdx, Array.getElem?_eq_getElem hpA]
  simp only [Option.map_some, Option.getD_some, hsel, if_true, hx0, hx1, htw p hp hsel, Bool.or_false]

end Sys2Proof.Machine
end

section
namespace Sys2Proof.Machine

section Stage

variable (s : State) (e : TransformEntry) (base table first count span : Nat) (quad dit tm : Bool) (rec : Nat)

/-- The twiddle entry of a sub-stage's butterfly. -/
def State.twiddleOf (s : State) (e : TransformEntry) (table : Nat) (tm : Bool) (sub : Nat × Nat) (b : Nat) : Point :=
  s.pointAt e.group e.mode (twiddleAt e.mode table (2 ^ e.logn) tm sub b)

/-- The points of an XSTAGE of CF32 or Q32 after all its sub-stages. -/
def State.stagedPoints (s : State) (e : TransformEntry) (base table span : Nat) (quad dit tm : Bool) : Nat → Point :=
  (subStages (2 ^ e.logn) span quad dit tm).foldl (fun X sub => flyAt e.mode e.q e.rm dit sub.1 (s.twiddleOf e table tm sub) X)
    fun p => s.pointAt e.group e.mode (base + p * pointBytes e.mode)

/-- Sub-stages one after another over the chosen points. -/
theorem stages_agree (mode q rm n : Nat) (sel : Nat → Bool) (tw : Nat × Nat → Nat → Point) (subs : List (Nat × Nat))
    (hstep : ∀ sub ∈ subs, ∀ A X, Agrees n sel A X → Agrees n sel (stagePoints mode q rm sub.1 dit sel (tw sub) A).1 (flyAt mode q rm dit sub.1 (tw sub) X))
    (A : Array Point) (X : Nat → Point) (f : BitVec 6) (hA : Agrees n sel A X) :
    Agrees n sel (subs.foldl (fun (st : Array Point × BitVec 6) sub =>
      let y := stagePoints mode q rm sub.1 dit sel (tw sub) st.1
      (y.1, st.2 ||| y.2)) (A, f)).1 (subs.foldl (fun X sub => flyAt mode q rm dit sub.1 (tw sub) X) X) := by
  induction subs generalizing A X f with
  | nil => exact hA
  | cons sub subs ih =>
    obtain ⟨hsub, hsubs⟩ := List.forall_mem_cons.mp hstep
    exact ih hsubs _ _ _ (hsub A X hA)

/-- Chosen points whose quads are chosen whole fail no quad. -/
theorem Agrees.quadBad {logn span : Nat} {sel : Nat → Bool} {A : Array Point} {X : Nat → Point} (h1 : 1 ≤ span) (hspan : span + 1 ≤ logn)
    (hA : Agrees (2 ^ logn) sel A X) (hsel : ∀ r p, Near (span - 1) (span + 1) r p → sel r = sel p) : Agrees (2 ^ logn) sel (quadBad span A) X := by
  obtain ⟨hsize, hpts⟩ := hA
  refine ⟨(quadBad_size span A).trans hsize, fun p hp hp' => ?_⟩
  obtain ⟨hx, hbad⟩ := hpts p hp hp'
  refine ⟨(quadBad_getD A span p (hsize.symm ▸ hp) (by rw [hx]; exact hbad) fun k hk => ?_).trans hx, hbad⟩
  have hn := near_quad span p k h1 hk
  obtain ⟨hy, hgood⟩ := hpts _ (hn.lt hspan hp) ((hsel _ _ hn).trans hp')
  rw [hy]
  exact hgood

theorem stageOut_zero : s.stageOut e base table first 0 span quad dit tm rec = XOut.none := rfl

/-- What an XSTAGE that finds no failed data has read. -/
theorem stageOut_failed (hc : 0 < count) : (s.stageOut e base table first count span quad dit tm rec).failed =
    s.firstFailed e.group (stageReads e.mode (2 ^ e.logn) base table first count span quad dit tm) := by
  rw [State.stageOut]
  simp only [Nat.ne_of_gt hc, if_false]
  split <;> rfl

/-- An XSTAGE of CF32 or Q32 writes the chosen points, each its output. -/
theorem stageOut_points (hc : 0 < count) (hspan : span + 1 ≤ e.logn) (hquad : quad = true → 1 ≤ span)
    (hf : (s.stageOut e base table first count span quad dit tm rec).failed = none) (hm : e.mode ≠ 1) :
    ∃ Y : Array Point, (s.stageOut e base table first count span quad dit tm rec).writes = pointWrites e base (stageTakes first count span quad) Y ∧
      Agrees (2 ^ e.logn) (stageTakes first count span quad) Y (s.stagedPoints e base table span quad dit tm) := by
  rw [stageOut_failed s e base table first count span quad dit tm rec hc] at hf
  have hstep : ∀ sub ∈ subStages (2 ^ e.logn) span quad dit tm, ∀ A X, Agrees (2 ^ e.logn) (stageTakes first count span quad) A X →
      Agrees (2 ^ e.logn) (stageTakes first count span quad)
        (stagePoints e.mode e.q e.rm sub.1 dit (stageTakes first count span quad) (s.twiddleOf e table tm sub) A).1
        (flyAt e.mode e.q e.rm dit sub.1 (s.twiddleOf e table tm sub) X) := fun sub hsub A X =>
    stagePoints_agrees _ _ _ _ _ _ _ _ A X (fun r p hn hp => ⟨leg_lt hsub hspan hn hp, stageTakes_leg hsub hn⟩)
      fun p hp hsel => (stageReads_good hsub hspan hf p hp hsel).1
  have hstart : Agrees (2 ^ e.logn) (stageTakes first count span quad) (s.points e.group e.mode base (2 ^ e.logn))
      fun p => s.pointAt e.group e.mode (base + p * pointBytes e.mode) := by
    refine ⟨s.points_size _ _ _ _, fun p hp hsel => ⟨s.points_getD _ _ _ _ _ hp, ?_⟩⟩
    obtain ⟨sub, hsub⟩ := subStages_nonempty (2 ^ e.logn) span quad dit tm
    exact (stageReads_good hsub hspan hf p hp hsel).2.1
  have hall := stages_agree dit e.mode e.q e.rm (2 ^ e.logn) _ (s.twiddleOf e table tm) _ hstep _ _ 0 hstart
  rw [State.stageOut]
  simp only [Nat.ne_of_gt hc, if_false, if_neg hm]
  refine ⟨_, rfl, ?_⟩
  cases quad with
  | false => exact hall
  | true => exact Agrees.quadBad (hquad rfl) hspan hall fun r p hn => stageTakes_near (quad := true) hn

end Stage

end Sys2Proof.Machine
end

section
namespace Sys2Proof.Machine

/-! ## Blocks of 32 points (R72, R285) -/

theorem renormBlock_length (e : Int) (v : List Num) : (renormBlock e v).2.1.length = v.length := by
  simp only [renormBlock, apply_ite Prod.snd, apply_ite Prod.fst, apply_ite List.length, List.length_map, ite_self]

/-- The two components of each of a block's points in a row. -/
theorem blockValues_length {α : Type} (k : Nat) (f : Nat → List α) (hf : ∀ p, (f p).length = 2) : ((upFrom (32 * k) 32).map f).flatten.length = 64 := by
  rw [flatten_length 2 _ (by rw [List.forall_mem_map]; exact fun p _ => hf p), upFrom_map_length]

/-- A region made of blocks of paired components. -/
def blockPoints (m : Nat) (bad : Nat → Bool) (L : Nat → List Int) : Array Point := ((upFrom 0 m).map fun k => pairUp (bad k) (L k)).flatten.toArray

section Blocks

variable (m : Nat) (bad : Nat → Bool) (L : Nat → List Int) (hL : ∀ k, (L k).length = 64)
include hL

theorem blockPoints_lengths : ∀ l ∈ (upFrom 0 m).map fun k => pairUp (bad k) (L k), l.length = 32 :=
  List.forall_mem_map.mpr fun k _ => pairUp_length (bad k) 32 (L k) (hL k)

theorem blockPoints_size : (blockPoints m bad L).size = 32 * m := by
  rw [blockPoints, List.size_toArray, flatten_length 32 _ (blockPoints_lengths m bad L hL), upFrom_map_length]

theorem blockPoints_getD (p : Nat) (hp : p < 32 * m) : (blockPoints m bad L).getD p Point.zero =
    { re := wrapTo 16 ((L (p / 32)).getD (2 * (p % 32)) 0), im := wrapTo 16 ((L (p / 32)).getD (2 * (p % 32) + 1) 0), bad := bad (p / 32) } := by
  rw [blockPoints, Array.getD_eq_getD_getElem?, List.getElem?_toArray]
  conv_lhs => rw [← Nat.div_add_mod p 32]
  rw [flatten_getElem? 32 _ (blockPoints_lengths m bad L hL) _ _ (Nat.mod_lt _ (by decide)), upFrom_map_getElem? _ _ _ _ (Nat.div_lt_of_lt_mul hp),
    Nat.zero_add, Option.bind_some, pairUp_getElem? _ _ _ (by rw [hL]; omega)]
  rfl

end Blocks

theorem pow_div32 (logn : Nat) (h5 : 5 ≤ logn) : 32 * (2 ^ logn / 32) = 2 ^ logn :=
  Nat.mul_div_cancel' (show 2 ^ 5 ∣ 2 ^ logn from pow_dvd_pow 2 h5)

/-! ## XSTAGE in mode BFP (R72, R298) -/

/-- Arrays that hold the points and exponents of a rule, all of them good. -/
def AgreesBfp (n : Nat) (A : Array Point × Array Int) (S : (Nat → Point) × (Nat → Int)) : Prop :=
  A.1.size = n ∧ A.2.size = n / 32 ∧ (∀ p, p < n → A.1.getD p Point.zero = S.1 p ∧ (S.1 p).bad = false) ∧ ∀ k, k < n / 32 → A.2.getD k 0 = S.2 k

/-- An exact output of a BFP butterfly. -/
def bfpOut (h : Nat) (dit : Bool) (tw : Nat → Point) (S : (Nat → Point) × (Nat → Int)) (p : Nat) : Cplx :=
  let num := fun (p : Nat) => (bfpNum (S.2 (p / 32)) (S.1 p).re, bfpNum (S.2 (p / 32)) (S.1 p).im)
  let w := tw (flyIndex h p)
  flyExact dit (decide (p ≠ flyBase h p)) (num (flyBase h p)) (num (flyBase h p + 2 ^ h)) (twiddleNum w.re, twiddleNum w.im)

/-- A block after a stage. -/
def bfpBlock (h : Nat) (dit : Bool) (tw : Nat → Point) (S : (Nat → Point) × (Nat → Int)) (k : Nat) : Int × List Int × BitVec 6 :=
  renormBlock (max (S.2 k) (S.2 (if 2 ^ h ≥ 32 then Nat.xor k (2 ^ h / 32) else k)))
    ((upFrom (32 * k) 32).map fun p => [(bfpOut h dit tw S p).1, (bfpOut h dit tw S p).2]).flatten

theorem bfpStep_eq (h : Nat) (dit : Bool) (tw : Nat → Point) (S : (Nat → Point) × (Nat → Int)) : bfpStep h dit tw S =
    (fun p => { re := wrapTo 16 ((bfpBlock h dit tw S (p / 32)).2.1.getD (2 * (p % 32)) 0)
                im := wrapTo 16 ((bfpBlock h dit tw S (p / 32)).2.1.getD (2 * (p % 32) + 1) 0), bad := false },
     fun k => (bfpBlock h dit tw S k).1) := by
  unfold bfpStep
  simp only [← flyBase_eq, flyIndex_base]
  rfl

theorem bfpBlock_length (h : Nat) (dit : Bool) (tw : Nat → Point) (S : (Nat → Point) × (Nat → Int)) (k : Nat) : (bfpBlock h dit tw S k).2.1.length = 64 := by
  rw [bfpBlock, renormBlock_length, blockValues_length _ _ fun _ => rfl]

/-- Blocks whose exponents and values are those of a stage. -/
theorem renormBlocks_agrees (logn h : Nat) (dit : Bool) (tw : Nat → Point) (S : (Nat → Point) × (Nat → Int)) (h5 : 5 ≤ logn) (ein : Nat → Int)
    (bad : Nat → Bool) (value : Nat → Cplx) (hein : ∀ k, k < 2 ^ logn / 32 → ein k = max (S.2 k) (S.2 (if 2 ^ h ≥ 32 then Nat.xor k (2 ^ h / 32) else k)))
    (hbad : ∀ k, k < 2 ^ logn / 32 → bad k = false) (hvalue : ∀ p, p < 2 ^ logn → value p = bfpOut h dit tw S p) :
    AgreesBfp (2 ^ logn) ((renormBlocks (2 ^ logn) ein bad value).1, (renormBlocks (2 ^ logn) ein bad value).2.1) (bfpStep h dit tw S) := by
  have hn := pow_div32 logn h5
  have hblock : ∀ k ∈ upFrom 0 (2 ^ logn / 32), renormBlock (ein k)
      ((upFrom (32 * k) 32).map fun p => [(value p).1, (value p).2]).flatten = bfpBlock h dit tw S k := by
    intro k hk
    have hk := ((upFrom_mem _ _ _).mp hk).2
    rw [bfpBlock, hein k (by omega)]
    congr 2
    refine List.map_congr_left fun p hp => ?_
    rw [hvalue p (by have := ((upFrom_mem _ _ _).mp hp).2; omega)]
  have hpoints : (renormBlocks (2 ^ logn) ein bad value).1 = blockPoints (2 ^ logn / 32) (fun _ => false) fun k => (bfpBlock h dit tw S k).2.1 := by
    unfold renormBlocks blockPoints
    simp only [List.map_map]
    congr 2
    refine List.map_congr_left fun k hk => ?_
    have hk' := ((upFrom_mem _ _ _).mp hk).2
    simp only [Function.comp_apply, hblock k hk, hbad k (by omega)]
  have hexps : (renormBlocks (2 ^ logn) ein bad value).2.1 = ((upFrom 0 (2 ^ logn / 32)).map fun k => (bfpBlock h dit tw S k).1).toArray := by
    unfold renormBlocks
    simp only [List.map_map]
    congr 1
    refine List.map_congr_left fun k hk => ?_
    simp only [Function.comp_apply, hblock k hk]
  have hL := bfpBlock_length h dit tw S
  rw [hpoints, hexps, bfpStep_eq]
  refine ⟨(blockPoints_size _ _ _ hL).trans hn, by rw [List.size_toArray, upFrom_map_length], fun p hp => ⟨?_, rfl⟩, fun k hk => upFrom_toArray_getD _ _ _ _ hk⟩
  rw [blockPoints_getD _ _ _ hL p (by rw [hn]; exact hp)]

end Sys2Proof.Machine
end

section
namespace Sys2Proof.Machine

/-- A radix-2 stage of BFP over good points. -/
theorem stageBlocks_agrees (logn h : Nat) (dit : Bool) (tw : Nat → Point) (A : Array Point × Array Int) (S : (Nat → Point) × (Nat → Int)) (h5 : 5 ≤ logn)
    (hspan : h + 1 ≤ logn) (htw : ∀ p, p < 2 ^ logn → (tw (flyIndex h p)).bad = false) (hA : AgreesBfp (2 ^ logn) A S) :
    AgreesBfp (2 ^ logn) ((stageBlocks h dit tw A.1 A.2).1, (stageBlocks h dit tw A.1 A.2).2.1) (bfpStep h dit tw S) := by
  obtain ⟨hsize, hEsize, hpts, hexp⟩ := hA
  have hn := pow_div32 logn h5
  have hvalue : ∀ p, p < 2 ^ logn → bfpValue A.1 A.2 p = (bfpNum (S.2 (p / 32)) (S.1 p).re, bfpNum (S.2 (p / 32)) (S.1 p).im) := by
    intro p hp
    rw [bfpValue, (hpts p hp).1, hexp _ (div32_lt _ _ h5 hp)]
  have hlegs : ∀ p, p < 2 ^ logn → flyBase h p < 2 ^ logn ∧ flyBase h p + 2 ^ h < 2 ^ logn := fun p hp =>
    ⟨(near_base h p).lt hspan hp, (near_second h p).lt hspan hp⟩
  have hstage : stageBlocks h dit tw A.1 A.2 = renormBlocks A.1.size _ _ _ := rfl
  rw [hstage, hsize]
  refine renormBlocks_agrees logn h dit tw S h5 _ _ _ (fun k hk => ?_) (fun k hk => ?_) fun p hp => ?_
  · have hpartner : (if 2 ^ h ≥ 32 then Nat.xor k (2 ^ h / 32) else k) < 2 ^ logn / 32 := by
      split
      next hge =>
        have hblocks : 2 ^ logn / 32 = 2 ^ (logn - 5) := Nat.pow_div h5 (by decide)
        have hdist : 2 ^ h / 32 < 2 ^ (logn - 5) := by
          rw [← hblocks]
          have hlt : 2 ^ h < 2 ^ logn := Nat.pow_lt_pow_right (by decide) hspan
          omega
        rw [hblocks] at hk ⊢
        exact Nat.xor_lt_two_pow hk hdist
      next => exact hk
    simp only [hexp k hk, hexp _ hpartner]
  · refine List.any_eq_false.mpr fun p hp => ?_
    have hp : p < 2 ^ logn := by have := ((upFrom_mem _ _ _).mp hp).2; omega
    obtain ⟨h0, h1⟩ := hlegs p hp
    simp only [(hpts _ h0).1, (hpts _ h0).2, (hpts _ h1).1, (hpts _ h1).2, htw p hp, Bool.or_false, Bool.false_eq_true, not_false_eq_true]
  · obtain ⟨h0, h1⟩ := hlegs p hp
    simp only [hvalue _ h0, hvalue _ h1, bfpOut]

/-- Sub-stages one after another over a BFP region. -/
theorem blockStages_agree (dit : Bool) (n : Nat) (tw : Nat × Nat → Nat → Point) (subs : List (Nat × Nat))
    (hstep : ∀ sub ∈ subs, ∀ A S, AgreesBfp n A S → AgreesBfp n ((stageBlocks sub.1 dit (tw sub) A.1 A.2).1, (stageBlocks sub.1 dit (tw sub) A.1 A.2).2.1)
      (bfpStep sub.1 dit (tw sub) S))
    (X : Array Point) (E : Array Int) (S : (Nat → Point) × (Nat → Int)) (f : BitVec 6) (hA : AgreesBfp n (X, E) S) :
    ∃ (Y : Array Point) (F : Array Int) (f' : BitVec 6), subs.foldl (fun (st : Array Point × Array Int × BitVec 6) sub =>
        let y := stageBlocks sub.1 dit (tw sub) st.1 st.2.1
        (y.1, y.2.1, st.2.2 ||| y.2.2)) (X, E, f) = (Y, F, f') ∧
      AgreesBfp n (Y, F) (subs.foldl (fun S sub => bfpStep sub.1 dit (tw sub) S) S) := by
  induction subs generalizing X E S f with
  | nil => exact ⟨X, E, f, rfl, hA⟩
  | cons sub subs ih =>
    obtain ⟨hsub, hsubs⟩ := List.forall_mem_cons.mp hstep
    exact ih hsubs _ _ _ _ (hsub (X, E) S hA)

theorem mul_add_lt {a b A B : Nat} (ha : a < A) (hb : b < B) : a * B + b < A * B :=
  calc a * B + b
    _ < (a + 1) * B := by rw [Nat.succ_mul]; omega
    _ ≤ A * B := Nat.mul_le_mul_right B ha

/-- An XSTAGE of all butterflies, or all quads, chooses every point. -/
theorem stageTakes_all (logn span p : Nat) (quad : Bool) (hspan : span + 1 ≤ logn) (hquad : quad = true → 1 ≤ span) (hp : p < 2 ^ logn) :
    stageTakes 0 (if quad then 2 ^ logn / 4 else 2 ^ logn / 2) span quad p = true := by
  have hhigh : p / 2 ^ (span + 1) < 2 ^ (logn - (span + 1)) :=
    Nat.div_lt_of_lt_mul (by rw [← Nat.pow_add, Nat.add_sub_cancel' hspan]; exact hp)
  cases quad with
  | false =>
    have hlt := mul_add_lt hhigh (Nat.mod_lt p (show 0 < 2 ^ span by positivity))
    rw [← Nat.pow_add, show logn - (span + 1) + span = logn - 1 by omega,
      show 2 ^ (logn - 1) = 2 ^ logn / 2 from (Nat.pow_div (by omega) (by decide)).symm] at hlt
    simp only [stageTakes, flyIndex, Bool.false_eq_true, if_false, Nat.zero_le, Nat.zero_add, true_and, decide_eq_true_eq]
    exact hlt
  | true =>
    have h1 := hquad rfl
    have hlt := mul_add_lt hhigh (Nat.mod_lt p (show 0 < 2 ^ (span - 1) by positivity))
    rw [← Nat.pow_add, show logn - (span + 1) + (span - 1) = logn - 2 by omega,
      show 2 ^ (logn - 2) = 2 ^ logn / 4 from (Nat.pow_div (by omega) (by decide)).symm] at hlt
    simp only [stageTakes, quadIndex, if_true, Nat.zero_le, Nat.zero_add, true_and, decide_eq_true_eq]
    exact hlt

section Stage

variable (s : State) (e : TransformEntry) (base table count span : Nat) (quad dit tm : Bool) (rec : Nat)

/-- A BFP region after all sub-stages of an XSTAGE. -/
def State.stagedBlocks (s : State) (e : TransformEntry) (base table span : Nat) (quad dit tm : Bool) : (Nat → Point) × (Nat → Int) :=
  (subStages (2 ^ e.logn) span quad dit tm).foldl (fun S sub => bfpStep sub.1 dit (s.twiddleOf e table tm sub) S)
    (fun p => s.pointAt e.group e.mode (base + p * pointBytes e.mode), fun k => signedOf 8 (s.engineRead e.group (base + 4 * 2 ^ e.logn + k) 1).1)

/-- A region as an XSTAGE of BFP reads it: a point whose exponent failed has failed. -/
def State.blockRegion (s : State) (e : TransformEntry) (base : Nat) : Array Point :=
  (s.points e.group e.mode base (2 ^ e.logn)).mapIdx fun p x =>
    { x with bad := x.bad || ((s.exponents e.group base (2 ^ e.logn)).getD (p / 32) (0, false)).2 }

/-- The writes of an XSTAGE of BFP, of the arrays that its sub-stages leave. -/
theorem stageOut_bfp (first : Nat) (hc : 0 < count) (hm : e.mode = 1) : (s.stageOut e base table first count span quad dit tm rec).writes =
    (fun r : Array Point × Array Int × BitVec 6 => pointWrites e base (fun _ => true) (spreadBad (if quad then quadBad span r.1 else r.1)) ++
      exponentWrites e base (spreadBad (if quad then quadBad span r.1 else r.1)) r.2.1)
    ((subStages (2 ^ e.logn) span quad dit tm).foldl (fun (st : Array Point × Array Int × BitVec 6) sub =>
      let y := stageBlocks sub.1 dit (s.twiddleOf e table tm sub) st.1 st.2.1
      (y.1, y.2.1, st.2.2 ||| y.2.2)) (s.blockRegion e base, (s.exponents e.group base (2 ^ e.logn)).map Prod.fst, 0)) := by
  rw [State.stageOut, if_neg (Nat.ne_of_gt hc)]
  simp only [if_pos hm]
  rfl

/-- An XSTAGE of BFP writes every point and exponent. -/
theorem stageOut_blocks (hspan : span + 1 ≤ e.logn) (hquad : quad = true → 1 ≤ span) (hm : e.mode = 1) (h5 : 5 ≤ e.logn) (hc : 0 < count)
    (hall : count = if quad then 2 ^ e.logn / 4 else 2 ^ e.logn / 2) (hf : (s.stageOut e base table 0 count span quad dit tm rec).failed = none) :
    (∀ p, p < 2 ^ e.logn → (s.stageOut e base table 0 count span quad dit tm rec).Writes p (base + 4 * p)
      (((s.stagedBlocks e base table span quad dit tm).1 p).bytes 1)) ∧
    ∀ k, k < 2 ^ e.logn / 32 → (s.stageOut e base table 0 count span quad dit tm rec).Writes (2 ^ e.logn + k) (base + 4 * 2 ^ e.logn + k)
      (toBytes 1 (wrapTo 8 ((s.stagedBlocks e base table span quad dit tm).2 k))) := by
  have hreads := stageOut_failed s e base table 0 count span quad dit tm rec hc ▸ hf
  have htakes : ∀ p, p < 2 ^ e.logn → stageTakes 0 count span quad p = true := fun p hp => hall ▸ stageTakes_all e.logn span p quad hspan hquad hp
  have hgood : ∀ sub ∈ subStages (2 ^ e.logn) span quad dit tm, ∀ p, p < 2 ^ e.logn → _ := fun sub hsub p hp =>
    stageReads_good hsub hspan hreads p hp (htakes p hp)
  have hstep : ∀ sub ∈ subStages (2 ^ e.logn) span quad dit tm, ∀ A S, AgreesBfp (2 ^ e.logn) A S → AgreesBfp (2 ^ e.logn)
      ((stageBlocks sub.1 dit (s.twiddleOf e table tm sub) A.1 A.2).1, (stageBlocks sub.1 dit (s.twiddleOf e table tm sub) A.1 A.2).2.1)
      (bfpStep sub.1 dit (s.twiddleOf e table tm sub) S) := fun sub hsub A S =>
    stageBlocks_agrees e.logn sub.1 dit _ A S h5 ((Nat.succ_le_succ (subStages_span hsub).2).trans hspan) fun p hp => (hgood sub hsub p hp).1
  have hstart : AgreesBfp (2 ^ e.logn)
      (s.blockRegion e base, (s.exponents e.group base (2 ^ e.logn)).map Prod.fst)
      (fun p => s.pointAt e.group e.mode (base + p * pointBytes e.mode), fun k => signedOf 8 (s.engineRead e.group (base + 4 * 2 ^ e.logn + k) 1).1) := by
    obtain ⟨sub, hsub⟩ := subStages_nonempty (2 ^ e.logn) span quad dit tm
    refine ⟨by rw [State.blockRegion, Array.size_mapIdx, s.points_size], by rw [Array.size_map, s.exponents_size], fun p hp => ?_, fun k hk => ?_⟩
    · obtain ⟨-, hpoint, hexp⟩ := hgood sub hsub p hp
      rw [State.blockRegion, mapIdx_getD _ _ _ (by rw [s.points_size]; exact hp), s.points_getD _ _ _ _ _ hp,
        s.exponents_getD _ _ _ _ (div32_lt _ _ h5 hp), hexp hm, Bool.or_false]
      exact ⟨rfl, hpoint⟩
    · have hget := s.exponents_getD e.group base (2 ^ e.logn) k hk
      have hk' : k < (s.exponents e.group base (2 ^ e.logn)).size := by rw [s.exponents_size]; exact hk
      rw [Array.getD_eq_getD_getElem?, Array.getElem?_eq_getElem hk'] at hget
      rw [Array.getD_eq_getD_getElem?, Array.getElem?_map, Array.getElem?_eq_getElem hk']
      exact congrArg Prod.fst hget
  obtain ⟨Y, F, f', hfold, hYsize, hFsize, hY, hF⟩ := blockStages_agree dit (2 ^ e.logn) (s.twiddleOf e table tm) _ hstep _ _ _ 0 hstart
  have hYgood : goodPoints Y := fun p hp => by rw [(hY p (hYsize ▸ hp)).1]; exact (hY p (hYsize ▸ hp)).2
  have hwrites : (s.stageOut e base table 0 count span quad dit tm rec).writes =
      pointWrites e base (fun _ => true) (spreadBad (if quad then quadBad span Y else Y)) ++
      exponentWrites e base (spreadBad (if quad then quadBad span Y else Y)) F := by
    rw [stageOut_bfp s e base table count span quad dit tm rec 0 hc hm, hfold]
  have hZ : (if quad then quadBad span Y else Y).size = 2 ^ e.logn ∧
      ∀ p, p < 2 ^ e.logn → (if quad then quadBad span Y else Y).getD p Point.zero = Y.getD p Point.zero := by
    cases quad with
    | false => exact ⟨hYsize, fun _ _ => rfl⟩
    | true => exact ⟨(quadBad_size span Y).trans hYsize, fun p hp => quadBad_getD Y span p (hYsize.symm ▸ hp) (hYgood.bad_getD p) fun k _ => hYgood.bad_getD _⟩
  obtain ⟨hZsize, hZget⟩ := hZ
  have hZgood : goodPoints (if quad then quadBad span Y else Y) := fun p hp => by rw [hZget p (hZsize ▸ hp)]; exact hYgood.bad_getD p
  have hspread : ∀ p, p < 2 ^ e.logn → (spreadBad (if quad then quadBad span Y else Y)).getD p Point.zero =
      (s.stagedBlocks e base table span quad dit tm).1 p := fun p hp =>
    ((hZgood.spreadBad_getD p (hZsize.symm ▸ hp)).trans (hZget p hp)).trans (hY p hp).1
  obtain ⟨hpoint, hexp⟩ := XOut.writes_region _ e base (2 ^ e.logn) _ F hm hwrites ((spreadBad_size _).trans hZsize) fun p hp => by
    have hp : p < 2 ^ e.logn := by rw [spreadBad_size, hZsize] at hp; exact hp
    rw [hspread p hp]
    exact (hY p hp).2
  refine ⟨fun p hp => ?_, fun k hk => ?_⟩
  · rw [← hspread p hp]
    exact hpoint p hp
  · have h := hexp k (hFsize.symm ▸ hk)
    rwa [hF k hk] at h

end Stage

end Sys2Proof.Machine
end

section
namespace Sys2Proof.Machine

/-! ## XPOINT: each step reads what the steps before it wrote (R302) -/

theorem State.applyOut_append (s : State) (g : Nat) (l l' : List AsyncWrite) : s.applyOut g (l ++ l') = (s.applyOut g l).applyOut g l' :=
  List.foldl_append

/-- The writes of `k` steps from step `p` on, each by a rule of the state with the writes before it in place. -/
def State.loopWrites (g : Nat) (B : State → Nat → List AsyncWrite) : Nat → Nat → State → List AsyncWrite
  | 0, _, _ => []
  | k + 1, p, s => B s p ++ State.loopWrites g B k (p + 1) (s.applyOut g (B s p))

section Loop

variable (g c : Nat) (B : State → Nat → List AsyncWrite) (hB : ∀ s p, (B s p).length = c)
include hB

/-- The state that a step sees. -/
theorem State.loopWrites_take (k p i : Nat) (s : State) : (State.loopWrites g B (k + 1) p s).take (c * (i + 1)) =
    B s p ++ (State.loopWrites g B k (p + 1) (s.applyOut g (B s p))).take (c * i) := by
  rw [State.loopWrites, List.take_append, hB, List.take_of_length_le (by rw [hB, Nat.mul_succ]; omega), Nat.mul_succ, Nat.add_sub_cancel]

/-- The writes of a step. -/
theorem State.loopWrites_getElem? (k p i j : Nat) (s : State) (hi : i < k) (hj : j < c) : (State.loopWrites g B k p s)[c * i + j]? =
    (B (s.applyOut g ((State.loopWrites g B k p s).take (c * i))) (p + i))[j]? := by
  induction k generalizing p i s with
  | zero => exact absurd hi (Nat.not_lt_zero i)
  | succ k ih =>
    cases i with
    | zero =>
      rw [Nat.mul_zero, Nat.zero_add, Nat.add_zero, List.take_zero, State.loopWrites, List.getElem?_append_left (by rw [hB]; exact hj)]
      rfl
    | succ i =>
      rw [State.loopWrites_take g c B hB, State.applyOut_append, State.loopWrites, List.getElem?_append_right (by rw [hB, Nat.mul_succ]; omega), hB,
        show c * (i + 1) + j - c = c * i + j by rw [Nat.mul_succ]; omega, ih (p + 1) i _ (by omega), show p + 1 + i = p + (i + 1) by omega]

end Loop

section Points

variable (e : TransformEntry) (dst a b : Nat) (conj bcast : Bool)

/-- The write of one point of XPOINT in modes CF32 and Q32. -/
def State.pointWrite (s : State) (e : TransformEntry) (dst a b : Nat) (conj bcast : Bool) (p : Nat) : List AsyncWrite :=
  let y := s.pointAt e.group e.mode (if bcast then b else b + p * pointBytes e.mode)
  let r := pointMul e.mode e.q e.rm (s.pointAt e.group e.mode (a + p * pointBytes e.mode)) (if conj then y.conj32 else y)
  [outWrite e (dst + p * pointBytes e.mode) (r.1.bytes e.mode) r.1.bad]

theorem pointLoop_writes (k p : Nat) (s : State) (acc : XOut) : (s.pointLoop e dst a b conj bcast k p acc).writes =
    acc.writes ++ State.loopWrites e.group (fun s p => s.pointWrite e dst a b conj bcast p) k p s := by
  induction k generalizing p s acc with
  | zero => exact (List.append_nil _).symm
  | succ k ih =>
    rw [State.pointLoop, ih, State.loopWrites, ← List.append_assoc]
    rfl

/-- XPOINT in modes CF32 and Q32: a point is the product of the points as they stand when its turn comes. -/
theorem productOut_point (s : State) (hm : e.mode ≠ 1) (p : Nat) (hp : p < 2 ^ e.logn) (u : State)
    (hu : u = s.applyOut e.group ((s.productOut e dst a b conj bcast).writes.take p)) (x y : Point)
    (hx : x = u.pointAt e.group e.mode (a + p * pointBytes e.mode)) (hy : y = u.pointAt e.group e.mode (if bcast then b else b + p * pointBytes e.mode))
    (hxb : x.bad = false) (hyb : y.bad = false) :
    (s.productOut e dst a b conj bcast).Writes p (dst + p * pointBytes e.mode)
      ((pointMul e.mode e.q e.rm x { y with im := if conj then Nat.xor y.im 0x80000000 else y.im }).1.bytes e.mode) := by
  have hw : (s.productOut e dst a b conj bcast).writes =
      State.loopWrites e.group (fun s p => s.pointWrite e dst a b conj bcast p) (2 ^ e.logn) 0 s := by
    rw [State.productOut, if_neg hm, pointLoop_writes]
    rfl
  have hget := State.loopWrites_getElem? e.group 1 (fun s p => s.pointWrite e dst a b conj bcast p) (fun _ _ => rfl) (2 ^ e.logn) 0 p 0 s hp (by decide)
  rw [← hw, Nat.one_mul, Nat.add_zero, Nat.zero_add, ← hu] at hget
  have hconj : { y with im := if conj then Nat.xor y.im 0x80000000 else y.im } = if conj then y.conj32 else y := by cases conj <;> rfl
  rw [hconj]
  refine XOut.writes_of _ e p _ _ _ _ _ hget rfl ?_ ?_
  · rw [hx, hy]
  · rw [pointMul_bad, ← hx, ← hy, hxb]
    cases conj
    · exact hyb
    · exact hyb

end Points

end Sys2Proof.Machine
end

section
namespace Sys2Proof.Machine

/-! ## XPOINT in mode BFP (R72, R302) -/

section Blocks

variable (e : TransformEntry) (n dst a b : Nat) (conj bcast : Bool)

/-- The exponent that the engine reads at an address. -/
def State.exponentOf (s : State) (e : TransformEntry) (va : Nat) : Int := signedOf 8 (s.engineRead e.group va 1).1

/-- The places that a block of XPOINT reads. -/
def productPlaces (n a b : Nat) (bcast : Bool) (j : Nat) : List (Nat × Nat) :=
  ((upFrom (32 * j) 32).map fun p => [(a + 4 * p, 4), (if bcast then b else b + 4 * p, 4)]).flatten ++
    [(a + 4 * n + j, 1), (if bcast then b + 4 else b + 4 * n + j, 1)]

/-- The product of a block. -/
def State.productBlock (s : State) (e : TransformEntry) (n a b : Nat) (conj bcast : Bool) (j : Nat) : Int × List Int × BitVec 6 :=
  let ex := s.exponentOf e (a + 4 * n + j)
  let ey := s.exponentOf e (if bcast then b + 4 else b + 4 * n + j)
  renormBlock (ex + ey) ((upFrom (32 * j) 32).map fun p =>
    let x := s.pointAt e.group 1 (a + 4 * p)
    let y := s.pointAt e.group 1 (if bcast then b else b + 4 * p)
    let yi := if conj then (bfpNum ey y.im).negate else bfpNum ey y.im
    let z := cplxMul (bfpNum ex x.re, bfpNum ex x.im) (bfpNum ey y.re, yi)
    [z.1, z.2]).flatten

/-- The writes of a block of XPOINT. -/
def State.blockWrites (s : State) (e : TransformEntry) (n dst a b : Nat) (conj bcast : Bool) (j : Nat) : List AsyncWrite :=
  let bad := (productPlaces n a b bcast j).any fun p => (s.engineRead e.group p.1 p.2).2
  let r := s.productBlock e n a b conj bcast j
  ((pairUp bad r.2.1).zipIdx.map fun q => outWrite e (dst + 4 * (32 * j + q.2)) (q.1.bytes 1) bad) ++
    [outWrite e (dst + 4 * n + j) (toBytes 1 (wrapTo 8 r.1)) bad]

theorem State.productBlock_length (s : State) (j : Nat) : (s.productBlock e n a b conj bcast j).2.1.length = 64 := by
  rw [State.productBlock, renormBlock_length, blockValues_length _ _ fun _ => rfl]

theorem State.blockWrites_length (s : State) (j : Nat) : (s.blockWrites e n dst a b conj bcast j).length = 33 := by
  rw [State.blockWrites, List.length_append, List.length_map, List.length_zipIdx, pairUp_length _ 32 _ (s.productBlock_length e n a b conj bcast j)]
  rfl

/-- The points and the exponent of a block whose places are good. -/
theorem State.blockWrites_getElem? (s : State) (j : Nat) (hf : s.firstFailed e.group (productPlaces n a b bcast j) = none) :
    (∀ i, i < 32 → (s.blockWrites e n dst a b conj bcast j)[i]? = some (outWrite e (dst + 4 * (32 * j + i))
      (toBytes 4 (wrapTo 16 ((s.productBlock e n a b conj bcast j).2.1.getD (2 * i) 0) +
        wrapTo 16 ((s.productBlock e n a b conj bcast j).2.1.getD (2 * i + 1) 0) * 2 ^ 16)) false)) ∧
    (s.blockWrites e n dst a b conj bcast j)[32]? = some (outWrite e (dst + 4 * n + j) (toBytes 1 (wrapTo 8 (s.productBlock e n a b conj bcast j).1)) false) := by
  have hgood : ((productPlaces n a b bcast j).any fun p => (s.engineRead e.group p.1 p.2).2) = false :=
    List.any_eq_false.mpr fun p hp => by rw [(s.firstFailed_none _ _).mp hf p hp]; exact Bool.false_ne_true
  have hlen : (pairUp false (s.productBlock e n a b conj bcast j).2.1).length = 32 := pairUp_length _ 32 _ (s.productBlock_length e n a b conj bcast j)
  simp only [State.blockWrites, hgood]
  refine ⟨fun i hi => ?_, ?_⟩
  · rw [List.getElem?_append_left (by rw [List.length_map, List.length_zipIdx, hlen]; exact hi), List.getElem?_map, List.getElem?_zipIdx,
      pairUp_getElem? _ _ _ (by rw [s.productBlock_length]; omega), Nat.zero_add]
    rfl
  · rw [List.getElem?_append_right (by rw [List.length_map, List.length_zipIdx, hlen]), List.length_map, List.length_zipIdx, hlen]
    rfl

/-- A step of XPOINT in mode BFP: the block's writes go in place before the next block is read. -/
theorem blockLoop_succ (k j : Nat) (s : State) (acc : XOut) : ∃ f : BitVec 6, s.blockLoop e n dst a b conj bcast (k + 1) j acc =
    (s.applyOut e.group (s.blockWrites e n dst a b conj bcast j)).blockLoop e n dst a b conj bcast k (j + 1)
      { acc with writes := acc.writes ++ s.blockWrites e n dst a b conj bcast j, flags := f
                 failed := acc.failed.or (s.firstFailed e.group (productPlaces n a b bcast j)) } :=
  ⟨_, rfl⟩

theorem blockLoop_writes (k j : Nat) (s : State) (acc : XOut) : (s.blockLoop e n dst a b conj bcast k j acc).writes =
    acc.writes ++ State.loopWrites e.group (fun s j => s.blockWrites e n dst a b conj bcast j) k j s := by
  induction k generalizing j s acc with
  | zero => exact (List.append_nil _).symm
  | succ k ih =>
    obtain ⟨f, hstep⟩ := blockLoop_succ e n dst a b conj bcast k j s acc
    rw [hstep, ih, State.loopWrites, ← List.append_assoc]

/-- When no block has failed, none before it has, and every block's places are good as it reads them. -/
theorem blockLoop_failed (k j : Nat) (s : State) (acc : XOut) (hf : (s.blockLoop e n dst a b conj bcast k j acc).failed = none) :
    acc.failed = none ∧ ∀ i, i < k → (s.applyOut e.group ((State.loopWrites e.group (fun s j => s.blockWrites e n dst a b conj bcast j) k j s).take
      (33 * i))).firstFailed e.group (productPlaces n a b bcast (j + i)) = none := by
  induction k generalizing j s acc with
  | zero => exact ⟨hf, fun i hi => absurd hi (Nat.not_lt_zero i)⟩
  | succ k ih =>
    obtain ⟨f, hstep⟩ := blockLoop_succ e n dst a b conj bcast k j s acc
    rw [hstep] at hf
    obtain ⟨hacc, hrest⟩ := ih (j + 1) _ _ hf
    obtain ⟨hacc, hfirst⟩ := Option.or_eq_none_iff.mp hacc
    refine ⟨hacc, fun i hi => ?_⟩
    cases i with
    | zero => exact hfirst
    | succ i =>
      have h := hrest i (by omega)
      rw [State.loopWrites_take e.group 33 _ (fun s p => s.blockWrites_length e n dst a b conj bcast p), State.applyOut_append, ← Nat.add_assoc,
        Nat.add_right_comm]
      exact h

end Blocks

/-- XPOINT in mode BFP: a block is the product of the blocks as they stand when its turn comes. -/
theorem productOut_block (s : State) (e : TransformEntry) (dst a b : Nat) (conj bcast : Bool) (hm : e.mode = 1) (j : Nat) (hj : j < 2 ^ e.logn / 32)
    (u : State) (hu : u = s.applyOut e.group ((s.productOut e dst a b conj bcast).writes.take (33 * j)))
    (hf : (s.productOut e dst a b conj bcast).failed = none) (m : Int × List Int × BitVec 6) (hmul : m = u.productBlock e (2 ^ e.logn) a b conj bcast j) :
    (∀ i, i < 32 → (s.productOut e dst a b conj bcast).Writes (33 * j + i) (dst + 4 * (32 * j + i))
      (toBytes 4 (wrapTo 16 (m.2.1.getD (2 * i) 0) + wrapTo 16 (m.2.1.getD (2 * i + 1) 0) * 2 ^ 16))) ∧
    (s.productOut e dst a b conj bcast).Writes (33 * j + 32) (dst + 4 * 2 ^ e.logn + j) (toBytes 1 (wrapTo 8 m.1)) := by
  subst hmul
  have hout : s.productOut e dst a b conj bcast = s.blockLoop e (2 ^ e.logn) dst a b conj bcast (2 ^ e.logn / 32) 0 XOut.none := by
    rw [State.productOut, if_pos hm]
  have hw : (s.productOut e dst a b conj bcast).writes =
      State.loopWrites e.group (fun s j => s.blockWrites e (2 ^ e.logn) dst a b conj bcast j) (2 ^ e.logn / 32) 0 s := by
    rw [hout, blockLoop_writes]
    rfl
  rw [hout] at hf
  have hgood := (blockLoop_failed e _ dst a b conj bcast _ 0 s _ hf).2 j hj
  have hget := fun i hi => State.loopWrites_getElem? e.group 33 (fun s j => s.blockWrites e (2 ^ e.logn) dst a b conj bcast j)
    (fun s p => s.blockWrites_length e _ dst a b conj bcast p) (2 ^ e.logn / 32) 0 j i s hj hi
  rw [← hw, ← hu, Nat.zero_add] at hgood
  simp only [← hw, ← hu, Nat.zero_add] at hget
  obtain ⟨hpts, hexp⟩ := u.blockWrites_getElem? e (2 ^ e.logn) dst a b conj bcast j hgood
  exact ⟨fun i hi => XOut.writes_of _ e _ _ _ _ _ _ ((hget i (by omega)).trans (hpts i hi)) rfl rfl rfl,
    XOut.writes_of _ e _ _ _ _ _ _ ((hget 32 (by decide)).trans hexp) rfl rfl rfl⟩

end Sys2Proof.Machine
end

section
namespace Sys2Proof.Machine

/-! ## XNORM (R303) -/

section Norm

variable (s : State) (e : TransformEntry) (dst src dir : Nat)

/-- The components of a block of a region, by a rule of the point. -/
def State.blockOf {α : Type} (s : State) (e : TransformEntry) (mode src k : Nat) (f : Point → List α) : List α :=
  ((upFrom (32 * k) 32).map fun p => f (s.pointAt e.group mode (src + pointBytes mode * p))).flatten

/-- The components of an f32 point. -/
def components32 (x : Point) : List Num := [unpack .f32 x.re, unpack .f32 x.im]

/-- The mantissas of a BFP point. -/
def mantissas (x : Point) : List Int := [signedOf 16 x.re, signedOf 16 x.im]

/-- What `renorm` makes of a block. -/
def State.fitted (s : State) (k : Nat) (o : Option (Int × List Int)) : Int × List Int × BitVec 6 :=
  match o with
  | some r => (r.1, r.2, 0)
  | none => (signedOf 8 (Config.renormFree s.fresh k 0), (upFrom 1 64).map fun i => signedOf 16 (Config.renormFree s.fresh k i), 0)

/-- A block of XNORM's `tobfp` or `renorm`. -/
def State.normBlock (s : State) (e : TransformEntry) (src dir k : Nat) : Int × List Int × BitVec 6 :=
  if dir = 0 then toBfpBlock (s.blockOf e 0 src k components32)
  else s.fitted k (renormFit (s.exponentOf e (src + 4 * 2 ^ e.logn + k)) (s.blockOf e 1 src k mantissas))

theorem renormFit_length (E : Int) (ms : List Int) (r : Int × List Int) (h : renormFit E ms = some r) : r.2.length = ms.length := by
  obtain ⟨k, -, rfl⟩ := Option.map_eq_some_iff.mp h
  exact List.length_map _

theorem State.normBlock_length (k : Nat) : (s.normBlock e src dir k).2.1.length = 64 := by
  have hlen : ∀ (α : Type) (mode : Nat) (f : Point → List α), (∀ x, (f x).length = 2) → (s.blockOf e mode src k f).length = 64 := fun α mode f hf =>
    blockValues_length k _ fun p => hf _
  rw [State.normBlock]
  split
  next => exact (List.length_map _).trans (hlen _ _ _ fun _ => rfl)
  next =>
    cases h : renormFit (s.exponentOf e (src + 4 * 2 ^ e.logn + k)) (s.blockOf e 1 src k mantissas) with
    | none => exact upFrom_map_length _ _ _
    | some r => exact (renormFit_length _ _ r h).trans (hlen _ _ _ fun _ => rfl)

/-- The points of a region that an entry reads block by block. -/
theorem State.points_block {α : Type} (mode k : Nat) (f : Point → List α) (h5 : 5 ≤ e.logn) (hk : k < 2 ^ e.logn / 32) :
    (((upFrom (32 * k) 32).map fun p => (s.points e.group mode src (2 ^ e.logn)).getD p Point.zero).map f).flatten = s.blockOf e mode src k f := by
  have hn := pow_div32 e.logn h5
  rw [State.blockOf, List.map_map]
  congr 1
  refine List.map_congr_left fun p hp => ?_
  have hp := ((upFrom_mem _ _ _).mp hp).2
  rw [Function.comp_apply, s.points_getD _ _ _ _ _ (by omega), Nat.mul_comm p]

/-- The writes of blocks none of which failed. -/
theorem goodBlocks_writes (m dst : Nat) (bad : Nat → Bool) (one B : Nat → Int × List Int × BitVec 6) (hbad : ∀ k, k < m → bad k = false)
    (hone : ∀ k, k < m → one k = B k) (rs : List (List Point × Int × BitVec 6))
    (hrs : rs = (upFrom 0 m).map fun k => (pairUp (bad k) (one k).2.1, (one k).1, if bad k then 0 else (one k).2.2)) :
    pointWrites e dst (fun _ => true) (rs.map Prod.fst).flatten.toArray ++
        exponentWrites e dst (rs.map Prod.fst).flatten.toArray (rs.map fun r => r.2.1).toArray =
      pointWrites e dst (fun _ => true) (blockPoints m (fun _ => false) fun k => (B k).2.1) ++
        exponentWrites e dst (blockPoints m (fun _ => false) fun k => (B k).2.1) ((upFrom 0 m).map fun k => (B k).1).toArray := by
  subst hrs
  have hlt : ∀ k ∈ upFrom 0 m, k < m := fun k hk => by have := ((upFrom_mem _ _ _).mp hk).2; omega
  rw [List.map_map, List.map_map]
  refine congrArg₂ (fun (L : List (List Point)) (E : List Int) => pointWrites e dst (fun _ => true) L.flatten.toArray ++
    exponentWrites e dst L.flatten.toArray E.toArray) (List.map_congr_left fun k hk => ?_) (List.map_congr_left fun k hk => ?_)
  · rw [Function.comp_apply, hbad k (hlt k hk), hone k (hlt k hk)]
  · rw [Function.comp_apply, hone k (hlt k hk)]

/-- XNORM's `tobfp` and `renorm` write the blocks and their exponents. -/
theorem normOut_blocks (hm : e.mode = 1) (h5 : 5 ≤ e.logn) (hdir : dir ≠ 1) (hf : (s.normOut e dst src dir).failed = none) (k : Nat)
    (hk : k < 2 ^ e.logn / 32) :
    (∀ i, i < 32 → (s.normOut e dst src dir).Writes (32 * k + i) (dst + 4 * (32 * k + i))
      (toBytes 4 (wrapTo 16 ((s.normBlock e src dir k).2.1.getD (2 * i) 0) + wrapTo 16 ((s.normBlock e src dir k).2.1.getD (2 * i + 1) 0) * 2 ^ 16))) ∧
    (s.normOut e dst src dir).Writes (2 ^ e.logn + k) (dst + 4 * 2 ^ e.logn + k) (toBytes 1 (wrapTo 8 (s.normBlock e src dir k).1)) := by
  have hn := pow_div32 e.logn h5
  have hL := fun k => s.normBlock_length e src dir k
  have hfail : (s.normOut e dst src dir).failed = s.firstFailed e.group (regionPlaces (if dir = 0 then 0 else 1) src (2 ^ e.logn)) := by
    rw [State.normOut, if_neg hdir]
  obtain ⟨hpoints, hexps⟩ := s.regionPlaces_good e.group _ src (2 ^ e.logn) (hfail ▸ hf)
  have hX : goodPoints (s.points e.group (if dir = 0 then 0 else 1) src (2 ^ e.logn)) := fun p hp => by
    rw [s.points_size] at hp
    rw [s.points_getD _ _ _ _ _ hp]
    exact hpoints p hp
  have hwrites : (s.normOut e dst src dir).writes =
      pointWrites e dst (fun _ => true) (blockPoints (2 ^ e.logn / 32) (fun _ => false) fun k => (s.normBlock e src dir k).2.1) ++
      exponentWrites e dst (blockPoints (2 ^ e.logn / 32) (fun _ => false) fun k => (s.normBlock e src dir k).2.1)
        ((upFrom 0 (2 ^ e.logn / 32)).map fun k => (s.normBlock e src dir k).1).toArray := by
    rw [State.normOut, if_neg hdir]
    refine goodBlocks_writes e (2 ^ e.logn / 32) dst _ _ (s.normBlock e src dir) (fun k hk => ?_) (fun k hk => ?_) _ rfl
    · rw [hX.blockBad, Bool.false_or]
      split
      next => rfl
      next h0 => rw [s.exponents_getD _ _ _ _ hk, hexps (if_neg h0) k hk]
    · rw [State.normBlock]
      split
      next h0 =>
        rw [s.points_block e src _ _ _ h5 hk]
        rfl
      next h0 =>
        rw [s.points_block e src _ _ _ h5 hk, s.exponents_getD _ _ _ _ hk]
        rfl
  obtain ⟨hpt, hex⟩ := XOut.writes_region _ e dst (2 ^ e.logn) _ _ hm hwrites ((blockPoints_size _ _ _ hL).trans hn) fun p hp => by
    rw [blockPoints_size _ _ _ hL] at hp
    rw [blockPoints_getD _ _ _ hL p hp]
  refine ⟨fun i hi => ?_, ?_⟩
  · have h := hpt (32 * k + i) (by omega)
    rw [blockPoints_getD _ _ _ hL _ (by omega), show (32 * k + i) / 32 = k by omega, show (32 * k + i) % 32 = i by omega] at h
    exact h
  · have h := hex k (by rw [List.size_toArray, upFrom_map_length]; exact hk)
    rwa [upFrom_toArray_getD _ _ _ _ hk] at h

/-- XNORM's `tof32`. -/
theorem normOut_f32 (h5 : 5 ≤ e.logn) (hf : (s.normOut e dst src 1).failed = none) (p : Nat) (hp : p < 2 ^ e.logn) (x : Point) (E : Int)
    (hx : x = s.pointAt e.group 1 (src + 4 * p)) (hE : E = s.exponentOf e (src + 4 * 2 ^ e.logn + p / 32)) :
    (s.normOut e dst src 1).Writes p (dst + 8 * p) (toBytes 8 (toF32 E x.re + toF32 E x.im * 2 ^ 32)) := by
  subst hx hE
  obtain ⟨hpoints, hexps⟩ := s.regionPlaces_good e.group 1 src (2 ^ e.logn) hf
  have hblock := div32_lt e.logn p h5 hp
  have hw : (s.normOut e dst src 1).writes[p]? = some _ := upFrom_map_getElem? _ 0 (2 ^ e.logn) p hp
  have hgetp := s.points_getD e.group 1 src (2 ^ e.logn) p hp
  have hgete := s.exponents_getD e.group src (2 ^ e.logn) (p / 32) hblock
  simp only [Nat.zero_add, if_neg (show ¬ (1 = 0) by decide), hgetp, hgete, hpoints p hp, hexps rfl _ hblock, Bool.or_false] at hw
  refine XOut.writes_of _ e p _ _ _ _ _ hw rfl ?_ rfl
  rw [Nat.mul_comm p]
  rfl

end Norm

/-! ## XNORM's `tobfp` of finite points (R303) -/

theorem upFrom_find? (n k : Nat) (p : Nat → Bool) (hk : k < n) (hp : p k = true) (hbelow : ∀ j, j < k → p j = false) : (upFrom 0 n).find? p = some k := by
  rw [upFrom_eq_range', List.find?_range'_eq_some]
  refine ⟨hp, List.mem_range'_1.mpr ⟨Nat.zero_le k, by omega⟩, fun j _ hj => ?_⟩
  rw [hbelow j hj]
  rfl

section Finite

variable (v : List Num) (E : Int) (hfin : ∀ x ∈ v, ∃ m z i, x = .fin m z i) (hlo : -128 ≤ E) (hhi : E ≤ 127)
  (hfits : ∀ x ∈ v, (rneAt (E - 15) x).natAbs ≤ 32767)
  (hleast : ∀ E', -128 ≤ E' → E' < E → ∃ x ∈ v, 32767 < (rneAt (E' - 15) x).natAbs)

include hlo hhi hfits hleast in
/-- The least exponent that holds a block. -/
theorem blockExponent_eq : blockExponent v = some E := by
  have hfind := upFrom_find? 256 (E + 128).toNat (fun k => v.all fun x => decide ((rneAt ((k : Int) - 128 - 15) x).natAbs ≤ 32767)) (by omega)
    (List.all_eq_true.mpr fun x hx => decide_eq_true (by rw [show ((E + 128).toNat : Int) - 128 = E by omega]; exact hfits x hx))
    fun j hj => by
      obtain ⟨x, hx, hbig⟩ := hleast ((j : Int) - 128) (by omega) (by omega)
      exact List.all_eq_false.mpr ⟨x, hx, by rw [decide_eq_true_eq]; omega⟩
  have hcast : ((E + 128).toNat : Int) = E + 128 := Int.toNat_of_nonneg (by omega)
  rw [blockExponent, upFrom_cast, List.find?_map, Function.comp_def, hfind, Option.map_some, Option.map_some, hcast, Int.add_sub_cancel]

/-- Whether a block holds an infinity. -/
def anyInf (v : List Num) : Bool := v.any fun x => match x with | .inf _ => true | _ => false

include hfin in
theorem anyInf_finite : anyInf v = false := by
  refine List.any_eq_false.mpr fun x hx => ?_
  obtain ⟨m, z, i, rfl⟩ := hfin x hx
  exact Bool.false_ne_true

/-- A finite component that fits is its mantissa. -/
theorem mantissaAt_fin (x : Num) (h : ∃ m z i, x = .fin m z i) (hx : (rneAt (E - 15) x).natAbs ≤ 32767) : mantissaAt E x = rneAt (E - 15) x := by
  obtain ⟨m, z, i, rfl⟩ := h
  have hmin : intMin .s16 = -32768 := by decide
  have hmax : intMax .s16 = 32767 := by decide
  rw [mantissaAt, satInt, hmin, hmax, if_neg (by omega), if_neg (by omega)]

include hfin hlo hhi hfits hleast

theorem toBfpBlock_finite : (toBfpBlock v).1 = E ∧ ∀ i, i < v.length → (toBfpBlock v).2.1.getD i 0 = rneAt (E - 15) (v.getD i (.nan false)) := by
  have hat : (toBfpBlock v).1 = (if anyInf v then none else blockExponent v).getD 127 := rfl
  have hms : (toBfpBlock v).2.1 = v.map (mantissaAt (toBfpBlock v).1) := rfl
  rw [anyInf_finite v hfin, blockExponent_eq v E hlo hhi hfits hleast] at hat
  have h1 : (toBfpBlock v).1 = E := hat
  rw [h1] at hms
  refine ⟨h1, fun i hi => ?_⟩
  have hx : v[i] ∈ v := List.getElem_mem hi
  rw [hms, List.getD_eq_getElem?_getD, List.getElem?_map, List.getD_eq_getElem?_getD, List.getElem?_eq_getElem hi]
  exact mantissaAt_fin E _ (hfin _ hx) (hfits _ hx)

end Finite

end Sys2Proof.Machine
end

section
namespace Sys2Proof.Machine

/-! ## The clauses about an entry's outputs, put together -/

section Stage

variable (s : State) (e : TransformEntry) (d tb : Word) (f c sp rec : Nat) (quad dit tm : Bool)

/-- The outputs of an XSTAGE of CF32 or Q32: the chosen points, and no other. -/
theorem stage_points (hc : 0 < c) (hspan : sp + 1 ≤ e.logn) (hquad : quad = true → 1 ≤ sp) (o : XOut)
    (ho : o = s.stageOut e d.toNat tb.toNat f c sp quad dit tm rec) (hf : o.failed = none) (hm : e.mode ≠ 1) :
    (∀ p, p < 2 ^ e.logn → stageTakes f c sp quad p = true →
      ∃ k, o.Writes k (d.toNat + p * pointBytes e.mode) ((s.stagedPoints e d.toNat tb.toNat sp quad dit tm p).bytes e.mode)) ∧
    ∀ w ∈ o.writes, ∃ p, p < 2 ^ e.logn ∧ stageTakes f c sp quad p = true ∧ w.place = .virt (BitVec.ofNat 64 (d.toNat + p * pointBytes e.mode)) := by
  subst ho
  obtain ⟨Y, hw, hsize, hY⟩ := stageOut_points s e d.toNat tb.toNat f c sp quad dit tm rec hc hspan hquad hf hm
  rw [hw]
  refine ⟨fun p hp hsel => ?_, fun w hmem => ?_⟩
  · obtain ⟨hx, hbad⟩ := hY p hp hsel
    have hmem := (mem_pointWrites e d.toNat (stageTakes f c sp quad) Y _).mpr ⟨p, ⟨hsize.symm ▸ hp, hsel⟩, rfl⟩
    obtain ⟨k, hk⟩ := List.getElem?_of_mem hmem
    exact ⟨k, XOut.writes_of _ e k _ _ _ _ _ (by rw [hw]; exact hk) rfl (by rw [hx]) (by rw [hx]; exact hbad)⟩
  · obtain ⟨p, ⟨hp, hsel⟩, rfl⟩ := (mem_pointWrites e d.toNat (stageTakes f c sp quad) Y w).mp hmem
    exact ⟨p, hsize ▸ hp, hsel, rfl⟩

end Stage

/-- Settles O43, clause by clause: the events of the queue, then what each operation writes. -/
theorem transformEventResults : Obligations.TransformEventResults := by
  unfold Obligations.TransformEventResults
  refine ⟨?_, ?_⟩
  · rintro b s C T rfl hT
    refine ⟨exec_transform_empty b s, execTransformEntryStart_busy b s, ?_, ?_, ?_⟩
    · rintro e rest G H hserves hq hnot hidle rfl hs hw ha hc hpop
      obtain ⟨hp, rfl⟩ := Group.popToken_of _ _ _ hpop
      exact execTransformEntryStart_head b s T hT e rest hserves hq hnot hidle hs hw ha hc hp
    · rintro e rest G H o rec hq he hb h0 rfl hover rfl hf hrec hpush
      obtain ⟨x, rfl, hx⟩ := Group.pushOpt_of _ _ _ hpush
      exact execTransformEntryRetire_started b s e rest x rec hq he hb h0 hover hf hrec hx _ rfl _ rfl
    · intro e base root count p
      refine ⟨fun hop hm hq hp => ?_, ?_⟩
      · rw [State.transformOut, hop]
        exact twiddleOut_powers e base root count p hp hm hq
      · rintro rs tr hop hm hp src pb hpb hsrc runs hruns hlen hrs
        rw [State.transformOut, hop]
        exact permOut_points s e base root rs tr p hp hrs hm pb hpb src hsrc runs hruns hlen
  · rintro s e o n mode pb rfl rfl rfl rfl
    refine ⟨?_, ?_, ?_, ?_, ?_⟩
    · intro base root count p hop hp t ht
      rw [State.transformOut, hop]
      exact twiddleOut_turn e base root count p hp t ht
    · intro d tb f c sp rc quad dit tm hop
      rw [State.transformOut, hop]
      refine ⟨?_, ?_⟩
      · rintro rfl
        rfl
      · rintro hc hspan hquad hf far tw X bf rfl rfl rfl rfl
        refine ⟨?_, ?_⟩
        · rintro hm fly Y rfl hY
          have hstaged : Y = s.stagedPoints e d.toNat tb.toNat sp quad dit tm := by
            rw [hY]
            cases quad <;> cases dit <;> rfl
          obtain ⟨hpts, honly⟩ := stage_points s e d tb f c sp rc quad dit tm hc hspan hquad _ rfl hf hm
          refine ⟨fun p hp hlo hhi => ?_, fun w hw => ?_⟩
          · rw [hstaged]
            exact hpts p hp (decide_eq_true ⟨hlo, hhi⟩)
          · obtain ⟨p, hp, hsel, hplace⟩ := honly w hw
            obtain ⟨hlo, hhi⟩ := of_decide_eq_true hsel
            exact ⟨p, hp, hlo, hhi, hplace⟩
        · rintro hm h5 rfl hall S Y rfl hY
          have hstaged : Y = s.stagedBlocks e d.toNat tb.toNat sp quad dit tm := by
            rw [hY]
            cases quad <;> cases dit <;> rfl
          rw [hstaged]
          exact stageOut_blocks s e d.toNat tb.toNat c sp quad dit tm rc hspan hquad hm h5 hc hall hf
    · intro d a rs tr E top hop hm h5 hf hrs hE hle hex
      rw [State.transformOut, hop] at hf ⊢
      exact permOut_blocks s e d a rs tr hm h5 hf hrs E top hE hle hex
    · intro d a b conj bc hop
      rw [State.transformOut, hop]
      refine ⟨?_, ?_⟩
      · intro hm p hp u x y hu hx hy hxb hyb
        exact productOut_point e d.toNat a.toNat b.toNat conj bc s hm p hp u hu x y hx hy hxb hyb
      · rintro hm h5 j hj u ex ey m hu hf rfl rfl hmul
        exact productOut_block s e d.toNat a.toNat b.toNat conj bc hm j hj u hu hf m hmul
    · intro d a dir hop hm h5 hf
      rw [State.transformOut, hop] at hf ⊢
      refine ⟨?_, ?_, ?_⟩
      · rintro rfl k hk v E hv hfin hlo hhi hfits hleast
        have hblock : s.normBlock e a.toNat 0 k = toBfpBlock v := by
          rw [hv]
          rfl
        obtain ⟨hE, hms⟩ := toBfpBlock_finite v E hfin hlo hhi hfits hleast
        have hlen : v.length = 64 := by rw [hv]; exact blockValues_length k _ fun _ => rfl
        obtain ⟨hpts, hexp⟩ := normOut_blocks s e d.toNat a.toNat 0 hm h5 (by decide) hf k hk
        rw [hblock, hE] at hexp
        refine ⟨fun i hi => ?_, hexp⟩
        have h := hpts i hi
        rwa [hblock, hms _ (by omega), hms _ (by omega)] at h
      · rintro rfl p hp x E hx hE
        exact normOut_f32 s e d.toNat a.toNat h5 hf p hp x E hx hE
      · rintro rfl k hk ms r hms hr
        have hblock : s.normBlock e a.toNat 2 k = (r.1, r.2, 0) := by
          rw [hms] at hr
          exact congrArg (s.fitted k) hr
        have h := normOut_blocks s e d.toNat a.toNat 2 hm h5 (by decide) hf k hk
        rwa [hblock] at h

end Sys2Proof.Machine
end

section
namespace Sys2Proof.Machine

/-! ## Reset (R82, R453) -/

theorem State.slotSet_reset (T : Nat) : State.reset.slotSet T = SlotSet.fresh := ite_self _

/-- Settles O56: every table is empty at reset, so that each entry reads as its fresh value; MBSTAT reads 0 while firmware is unverified. -/
theorem resetState : Obligations.ResetState := by
  unfold Obligations.ResetState
  refine ⟨⟨rfl, rfl⟩, fun T => ?_, rfl, rfl, fun _ => rfl, fun _ => ⟨rfl, rfl, rfl⟩, fun _ => ⟨rfl, rfl⟩, fun _ => ⟨rfl, rfl⟩, fun _ => ⟨rfl, rfl⟩, rfl, ?_⟩
  · rw [State.slotSet_reset]
    exact ⟨rfl, rfl⟩
  · exact ⟨_, rfl, by decide⟩

end Sys2Proof.Machine
end

section
namespace Sys2Proof.Machine

theorem exec_trap (a : Reg) (s : State) : exec (.trap a) s = execTrap a s := rfl
theorem exec_rte (s : State) : exec .rte s = execRte s := rfl
theorem exec_halt (s : State) : exec .halt s = execHalt s := rfl
theorem exec_gterm (s : State) : exec .gterm s = execGterm s := rfl
theorem exec_ctxsave (d : Reg) (s : State) : exec (.ctxsave d) s = execCtxsave d s := rfl
theorem exec_ctxload (d a : Reg) (s : State) : exec (.ctxload d a) s = execCtxload d a s := rfl
theorem exec_sfrpop (d : Reg) (s : State) : exec (.sfrpop d) s = execSfrpop d s := rfl
theorem exec_tlbinv (a b : Reg) (s : State) : exec (.tlbinv a b) s = execTlbinv a b s := rfl

/-! ## The level of the executing group (R87) -/

theorem State.isSupervisor_of_supervisor (s : State) (h : s.own.level = .supervisor) : s.isSupervisor = true := by simp [State.isSupervisor, h]

theorem State.isSupervisor_of_user (s : State) (h : s.own.level = .user) : s.isSupervisor = false := by simp [State.isSupervisor, h]

/-- At user level each instruction of R87 raises PRIV before any other check. -/
theorem exec_privileged_user (d a b : Reg) (s : State) (h : s.own.level = .user) :
    ∀ i ∈ [Instr.rte, .halt, .gterm, .ctxsave d, .ctxload d a, .sfrpop d, .tlbinv a b], exec i s = .next s.priv := by
  have hu := s.isSupervisor_of_user h
  simp [exec_rte, exec_halt, exec_gterm, exec_ctxsave, exec_ctxload, exec_sfrpop, exec_tlbinv, execRte, execHalt, execGterm, execCtxsave, execCtxload,
    execSfrpop, execTlbinv, hu]

/-! ## Traps that do not enter the handler (R89, R90) -/

/-- A trap that TRAPVEC.FWD forwards: the group is Trapped and its record goes to the host. -/
theorem State.trap_forwarded (s : State) (g : Nat) (X : Trap) (hl : (s.group g).level = .user) (ho : (s.group g).over = false)
    (ha : (s.slotSet (setOf g)).st = .active) (hf : bitOf (s.group g).trapvec 0 = true) :
    s.trap g X = (s.putGroup g { (s.group g).recordTrap X with phase := .trapped false }).post (trapRecord g ((s.group g).recordTrap X)) := by
  simp [State.trap, hl, ho, ha, hf]

/-- A trap at supervisor level faults the context. -/
theorem State.trap_supervisor (s : State) (g : Nat) (X : Trap) (hl : (s.group g).level = .supervisor) (ho : (s.group g).over = false)
    (ha : (s.slotSet (setOf g)).st = .active) : s.trap g X = s.faultContext (setOf g) X.code (cellOf g) (slotOf g) := by
  simp [State.trap, hl, ho, ha]

/-- The fault word keeps nine bits of the cell. -/
theorem State.faultContext_cell (s : State) (t cause cell slot : Nat) : s.faultContext t cause cell slot = s.faultContext t cause (cell % 512) slot := by
  simp [State.faultContext, faultWord]

/-- The context of a group that traps at supervisor level is Faulted, with the group's place in the fault word. -/
theorem State.trap_supervisor_faults (s : State) (g : Nat) (X : Trap) (hl : (s.group g).level = .supervisor) (ho : (s.group g).over = false)
    (ha : (s.slotSet (setOf g)).st = .active) (hc : X.code < 256) : s.FaultsSet (s.trap g X) (setOf g) X.code (cellOf g % 512) (slotOf g) := by
  rw [s.trap_supervisor g X hl ho ha, State.faultContext_cell]
  exact s.faultContext_faults _ _ _ _ (setOf_lt g) (by simp [ha]) hc (Nat.mod_lt _ (by decide)) (Nat.mod_lt _ (by decide))

/-! ## The return from a trap (R94, R137, R310) -/

/-- RTE of a trap that has interrupted no wait. -/
theorem Group.returnFromTrap_plain (G : Group) (h : G.interrupted = none) :
    G.returnFromTrap = { G with level := .user, pc := G.trappc, resume := bitOf G.vresume 16, phase := .running } := by
  simp only [Group.returnFromTrap, h]

/-- RTE of a trap that has interrupted a wait: the group waits again when the handler has kept the wait's PC. -/
theorem Group.returnFromTrap_wait (G : Group) (pc : Word) (w : Wait) (h : G.interrupted = some (pc, w)) :
    G.returnFromTrap = { G with
      level := .user, pc := G.trappc, resume := bitOf G.vresume 16, interrupted := none
      phase := if bitOf G.trapstat 2 = true ∧ G.trappc = pcField pc then .waiting w else .running
      wdog := if bitOf G.trapstat 2 = true ∧ G.trappc = pcField pc then 0 else G.wdog } := by
  simp only [Group.returnFromTrap, h]
  by_cases hk : bitOf G.trapstat 2 = true ∧ G.trappc = pcField pc
  · simp only [hk, and_self, if_true]; rfl
  · simp only [hk, if_false]

/-- RTE at supervisor level. -/
theorem execRte_supervisor (s : State) (h : s.own.level = .supervisor) :
    execRte s = .next (s.putOwn { s.own.closeConvoy.returnFromTrap.otherStrips with retired := s.own.retired + 1 }) := by
  simp only [execRte, s.isSupervisor_of_supervisor h, if_true, State.close, State.putOwn_putOwn, Group.closeConvoy_retired, State.own_putOwn]

/-- Settles O30: traps by the level and TRAPVEC.FWD of the group, RTE by `Group.returnFromTrap_plain` and `Group.returnFromTrap_wait`. -/
theorem trapAndReturnResults : Obligations.TrapAndReturnResults := by
  unfold Obligations.TrapAndReturnResults
  rintro d a b s _ rfl
  refine ⟨fun h => ⟨_, exec_trap a s, s.trap_takes _ _ _ _ h⟩, fun hl ho ha hf => ⟨_, exec_trap a s, ?_⟩,
    fun hl ho ha => ⟨_, exec_trap a s, s.trap_supervisor_faults s.cur _ hl ho ha (show 0xD < 256 by decide)⟩, ?_, ?_⟩
  · rw [s.trap_forwarded s.cur _ hl ho ha hf]
    generalize hR : (s.group s.cur).recordTrap _ = R
    have hown : ((s.putGroup s.cur { R with phase := .trapped false }).post (trapRecord s.cur R)).own = { R with phase := .trapped false } := s.own_putOwn _
    refine ⟨State.onlyGroup_putOwn { s with port := _ } _, ?_, ?_⟩
    · rw [hown, ← hR]
      simp [Group.recordTrap, Trap.stat, State.own]
    · rw [hown]
      rfl
  · rintro hl kept rfl
    refine ⟨_, (exec_rte s).trans (execRte_supervisor s hl), s.onlyGroup_putOwn _, fun hi => ?_, fun pc w hi => ?_⟩
    · exact (s.own_putOwn _).trans (congrArg (fun R : Group => { R.otherStrips with retired := s.own.retired + 1 })
        (s.own.closeConvoy.returnFromTrap_plain hi))
    · exact (s.own_putOwn _).trans (congrArg (fun R : Group => { R.otherStrips with retired := s.own.retired + 1 })
        (s.own.closeConvoy.returnFromTrap_wait pc w hi))
  · intro h i hi
    exact ⟨_, exec_privileged_user d a b s h.1 i hi, s.raise_takes _ _ _ h⟩

end Sys2Proof.Machine
end

section
namespace Sys2Proof.Machine

theorem exec_wfe (a b : Reg) (s : State) : exec (.wfe a b) s = execWfe a b s := rfl
theorem exec_gyield (s : State) : exec .gyield s = execGyield s := rfl
theorem exec_sdrain (s : State) : exec .sdrain s = execSdrain s := rfl
theorem exec_kend (s : State) : exec .kend s = execKend s := rfl

/-! ## The open convoy closed -/

/-- A convoy that has ended stays as it is. -/
@[simp] theorem Group.closeConvoy_closeConvoy (G : Group) : G.closeConvoy.closeConvoy = G.closeConvoy := by
  simp [Group.closeConvoy]

/-- The close of the convoy keeps whether a group handles its traps. -/
theorem State.Handles.close {s : State} (h : s.Handles) : s.close.Handles := by
  have hs : s.close.slotSet (setOf s.close.cur) = s.slotSet (setOf s.cur) := rfl
  rw [State.Handles, State.own_close, hs]
  exact h

/-! ## A load that finds its data at once (R158, R159) -/

/-- A group without matrix entries has none of any kind. -/
theorem State.no_entry (s : State) (g : Nat) (h : s.entriesOf g = []) (p : MatrixEntry → Bool) :
    (s.cell (cellOf g)).mq.any (fun e => e.group == g && p e) = false := by
  rw [List.any_eq_false]
  intro e he hp
  rw [Bool.and_eq_true] at hp
  have hm : e ∈ s.entriesOf g := List.mem_filter.mpr ⟨he, hp.1⟩
  rw [h] at hm
  exact absurd hm (by simp)

/-- Without matrix entries no access waits for a tile, nor for rows still to be read. -/
theorem State.tileBusy_noEntries (s : State) (g : Nat) (runs : List (Nat × Nat)) (h : s.entriesOf g = []) : s.tileBusy g runs = false := by
  have hf : ((s.cell (cellOf g)).mq.filter fun e => e.group == g) = [] := h
  have hu : s.rowUnknown g = false := s.no_entry g h _
  simp [State.tileBusy, State.tilesPending, hf, hu]

theorem State.readAhead_noEntries (s : State) (g q seq : Nat) (h : s.entriesOf g = []) : s.readAhead g q seq = false := by
  have hf : ((s.cell (cellOf g)).mq.filter fun e => e.group == g) = [] := h
  simp [State.readAhead, hf]

/-- The accesses of a slice queue are among those of the list of queues. -/
theorem Group.mem_slice (G : Group) (q : Nat) (a : Access) (h : a ∈ G.slice q) : ∃ l ∈ G.slices.toList, a ∈ l := by
  unfold Group.slice at h
  by_cases hq : q < 4
  · rw [Vector.getElem?_eq_getElem hq, Option.getD_some] at h
    exact ⟨_, by simp, h⟩
  · rw [Vector.getElem?_eq_none (by omega), Option.getD_none] at h
    exact absurd h (by simp)

/-- Queues without an access that a test names stay as they are. -/
theorem State.drainThose_none (s : State) (g : Nat) (p : State → Access → Bool) (h : ∀ q, ∀ a ∈ (s.group g).slice q, p s a = false) :
    s.drainThose g p = s := by
  refine List.foldl_fixed' (fun q => ?_) _
  have hn : ((s.group g).slice q).any (p s) = false := List.any_eq_false.mpr fun a ha => by simp [h q a ha]
  cases ((s.group g).slice q).length with
  | zero => rfl
  | succ n => simp [State.drainUntil, hn]

/-- A change of one group that keeps its pieces keeps where queued accesses lie. -/
theorem State.accessRuns_putGroup (s : State) (g : Nat) (G : Group) (h : Nat) (a : Access) (hh : G.hold = (s.group g).hold) :
    (s.putGroup g G).accessRuns h a = s.accessRuns h a := by
  simp only [State.accessRuns, State.spotOf, s.look_putGroup g G h _ _ _ _ hh]

section Ready

variable {s : State} {va : Word} {n leaf : Nat} {runs : List (Nat × Nat)}

/-- A load that is ready stays so when the convoy is closed. -/
theorem State.LoadReady.close (h : s.LoadReady va n runs leaf) : s.close.LoadReady va n runs leaf := by
  have hlook : s.close.look s.cur .load va.toNat n = ((s.look s.cur .load va.toNat n).1.putGroup s.cur s.own.closeConvoy, (s.look s.cur .load va.toNat n).2) :=
    s.look_putGroup s.cur _ s.cur .load va.toNat n 0 rfl
  have hhold : s.own.closeConvoy.hold = ((s.look s.cur .load va.toNat n).1.group s.cur).hold := by rw [State.look_tr]; rfl
  obtain ⟨⟨halign, hlate, hslice, hhere, hunh, hreach, hmeet⟩, hrest⟩ := h
  have hmeets : ∀ l ∈ s.own.slices.toList, s.close.NoneMeets .load va.toNat n runs l := fun l hl a ha => by
    have hcur : s.close.cur = s.cur := rfl
    rw [hcur, hlook, State.accessRuns_putGroup _ _ _ _ _ hhold]
    exact hmeet l hl a ha
  refine ⟨⟨halign, ?_, ?_, ?_, ?_, hreach, ?_⟩, hrest⟩
  · rw [State.own_close]; exact hlate
  · rw [State.own_close]; exact hslice
  · exact (congrArg Prod.snd hlook).trans hhere
  · rw [State.Unhindered, State.own_close]; exact hunh
  · rw [State.own_close]; exact hmeets

/-- What a ready load finds queued does not meet its bytes. -/
theorem State.LoadReady.noneMeets (h : s.LoadReady va n runs leaf) (q : Nat) (a : Access) (ha : a ∈ s.own.slice q) :
    a.overlaps va.toNat n = false ∧ runsMeet ((s.look s.cur .load va.toNat n).1.accessRuns s.cur a) runs = false := by
  obtain ⟨⟨-, -, -, -, -, -, hmeet⟩, -⟩ := h
  obtain ⟨l, hl, hal⟩ := Group.mem_slice _ q a ha
  exact hmeet l hl a hal

/-- No queued store has the value of a ready load. -/
theorem State.LoadReady.forward (h : s.LoadReady va n runs leaf) :
    (s.look s.cur .load va.toNat n).1.forward s.cur va.toNat n runs = none := by
  obtain ⟨⟨-, -, -, -, -, -, hmeet⟩, -⟩ := h
  have hg : (s.look s.cur .load va.toNat n).1.group s.cur = s.own := by rw [State.look_tr]; rfl
  have hlast : ((s.own.slices.toList.map fun l => (l.filter fun a =>
      a.overlaps va.toNat n || runsMeet ((s.look s.cur .load va.toNat n).1.accessRuns s.cur a) runs).getLast?).filterMap id) = [] := by
    rw [List.filterMap_map, List.filterMap_eq_nil_iff]
    intro l hl
    simpa using hmeet l hl
  simp only [State.forward, hg, hlast, List.foldl_nil]

/-- Nothing of the group stands before a ready load. -/
theorem State.LoadReady.sliceClear (h : s.LoadReady va n runs leaf) :
    (s.look s.cur .load va.toNat n).1.sliceClear s.cur (sliceOf va.toNat) runs = true := by
  have hno := h.noneMeets
  obtain ⟨⟨-, -, hslice, -, ⟨hent, -, hheld⟩, -, -⟩, -⟩ := h
  have hg : (s.look s.cur .load va.toNat n).1.group s.cur = s.own := by rw [State.look_tr]; rfl
  have hent' : (s.look s.cur .load va.toNat n).1.entriesOf s.cur = [] := by rw [State.look_tr]; exact hent
  have hb : ∀ p, s.own.heldBehind (sliceOf va.toNat) p = false := fun p => by
    rw [Group.heldBehind, List.any_eq_false]
    intro w hw
    simp [hheld w hw]
  have ha : (s.look s.cur .load va.toNat n).1.aliasBefore s.cur (sliceOf va.toNat) s.own.seq runs = false := by
    rw [State.aliasBefore, hg, List.any_eq_false]
    intro p _
    have h1 : (s.own.slice p).any (fun a => decide (a.seq < s.own.seq) && runsMeet ((s.look s.cur .load va.toNat n).1.accessRuns s.cur a) runs) = false :=
      List.any_eq_false.mpr fun a ha => by simp [(hno p a ha).2]
    rw [Bool.not_eq_true, Bool.and_eq_false_iff, Bool.or_eq_false_iff]
    exact Or.inr ⟨h1, List.any_eq_false.mpr fun w hw => by simp [hheld w hw]⟩
  simp [State.sliceClear, State.storesClear, State.readAhead_noEntries _ _ _ _ hent', hg, hslice, hb, ha]

/-- A ready load takes the bytes as they stand, and changes translation alone. -/
theorem State.LoadReady.load (h : s.LoadReady va n runs leaf) :
    s.load s.cur va n = ((s.look s.cur .load va.toNat n).1, .data (s.readRuns runs)) := by
  have hforward := h.forward
  have hclear := h.sliceClear
  have hno := h.noneMeets
  obtain ⟨⟨-, -, hslice, hhere, ⟨hent, -, -⟩, -, -⟩, hloc, hbad, -⟩ := h
  rcases hl : s.look s.cur .load va.toNat n with ⟨s1, o⟩
  have htr : s1 = { s with tr := s1.tr } := by have := s.look_tr s.cur .load va.toNat n 0; rwa [hl] at this
  rw [hl] at hhere hforward hclear hno
  simp only at hhere hforward hclear hno
  have hg : s1.group s.cur = s.own := by rw [htr]; rfl
  have hent1 : s1.entriesOf s.cur = [] := by rw [htr]; exact hent
  have hbefore : s1.drainBefore s.cur (sliceOf va.toNat) runs = s1 := by
    rw [State.drainBefore, s1.drain_nil s.cur _ (by rw [hg]; exact hslice)]
    exact s1.drainThose_none s.cur _ fun q a ha => (hno q a (by rwa [hg] at ha)).2
  have hbad1 : s1.runsBad runs = false := by rw [htr]; exact hbad
  have hread : s1.readRuns runs = s.readRuns runs := by rw [htr]; exact State.readRuns_congr _ s runs rfl rfl
  have hprep : s.prepare s.cur va n = (s1, .place runs leaf) := by
    simp only [State.prepare, hl, hhere, s1.tileBusy_noEntries s.cur runs hent1, hforward, hbefore, hclear, Bool.false_eq_true, if_false, if_true]
  simp only [State.load, hprep, State.readFor, hloc, hbad1, hread, if_true, Bool.false_eq_true, if_false]

end Ready

/-- The word of a WFE that is ready is read as it stands. -/
theorem State.LoadReady.close_load {s : State} {va : Word} {n leaf : Nat} {runs : List (Nat × Nat)} (h : s.LoadReady va n runs leaf) :
    s.close.load s.cur va n = ({ s with tr := (s.look s.cur .load va.toNat n).1.tr }.putOwn s.own.closeConvoy, .data (s.readRuns runs)) := by
  have hlook : s.close.look s.cur .load va.toNat n = ((s.look s.cur .load va.toNat n).1.putGroup s.cur s.own.closeConvoy, (s.look s.cur .load va.toNat n).2) :=
    s.look_putGroup s.cur _ s.cur .load va.toNat n 0 rfl
  refine h.close.load.trans (Prod.ext ?_ (congrArg Got.data (State.readRuns_congr _ s runs rfl rfl)))
  refine (congrArg Prod.fst hlook).trans ?_
  rw [State.look_tr]
  rfl

/-! ## WFE (R96) -/

section Wfe

variable (a b : Reg) {s : State} {runs : List (Nat × Nat)} {leaf : Nat} (h : s.LoadReady (s.x a) 8 runs leaf)

include h

/-- WFE of a word that differs from xb goes on. -/
theorem execWfe_differs (hne : BitVec.ofNat 64 (natOfBytes (s.readRuns runs)) ≠ s.x b) :
    execWfe a b s = .next (({ s with tr := (s.look s.cur .load (s.x a).toNat 8).1.tr }.putOwn s.own.closeConvoy).retire 4) := by
  have halign : ¬ (s.x a).toNat % 8 ≠ 0 := fun hc => hc h.1.1
  simp only [execWfe, if_neg halign, h.close_load, if_pos hne]

/-- WFE of a word that equals xb waits on its line. -/
theorem execWfe_waits {pa n l : Nat} {rest : List (Nat × Nat)} (heq : BitVec.ofNat 64 (natOfBytes (s.readRuns runs)) = s.x b)
    (hline : ((s.look s.cur .load (s.x a).toNat 8).1.look s.cur .load (s.x a).toNat 8).2 = .here ((pa, n) :: rest) l) :
    execWfe a b s = .next ({ s with tr := (s.look s.cur .load (s.x a).toNat 8).1.tr }.putOwn
      (Group.enterWait { s.own.closeConvoy with dataWait := none } (.event (pa / 128) false))) := by
  have halign : ¬ (s.x a).toNat % 8 ≠ 0 := fun hc => hc h.1.1
  have hne : ¬ BitVec.ofNat 64 (natOfBytes (s.readRuns runs)) ≠ s.x b := fun hc => hc heq
  have hlook2 : (({ s with tr := (s.look s.cur .load (s.x a).toNat 8).1.tr }.putOwn s.own.closeConvoy).look s.cur .load (s.x a).toNat 8).2 =
      .here ((pa, n) :: rest) l := by
    refine (congrArg Prod.snd (State.look_putGroup { s with tr := (s.look s.cur .load (s.x a).toNat 8).1.tr } s.cur s.own.closeConvoy s.cur .load _ 8 0 rfl)).trans ?_
    rwa [State.look_tr s] at hline
  simp only [execWfe, if_neg halign, h.close_load, if_neg hne, hlook2, State.wait, State.putOwn_putOwn, State.own_putOwn]

end Wfe

/-! ## GYIELD (R144) -/

/-- The groups of the set that are ready after a retirement of the executing one. -/
theorem State.readyPeers_retire (s : State) : (s.close.retire 4).readyPeers s.cur =
    ((upFrom 0 4).map fun k => groupCode (cellOf s.cur) (setOf s.cur) k).filter
      fun h => decide (h ≠ s.cur) && (s.groups.find h).isSome && (s.close.retire 4).fetched h := by
  refine List.filter_congr fun h _ => ?_
  by_cases hc : h = s.cur
  · simp [hc]
  · have hf : (s.close.retire 4).groups.find h = s.groups.find h := by
      rw [State.close, State.retire_putOwn]
      exact Table.find_put_ne _ _ hc
    rw [hf]

/-- GYIELD marks the group for 64 clocks when another of its set is ready. -/
theorem execGyield_marks (s : State) (l : List Nat) (hl : l = (s.close.retire 4).readyPeers s.cur) :
    execGyield s = .next ((s.putOwn { s.own.closeConvoy with
      yield := if l.isEmpty then s.own.yield else some { others := l, left := 64 } }).retire 4) := by
  subst hl
  simp only [execGyield, State.retire_putOwn]
  by_cases he : ((s.close.retire 4).readyPeers s.cur).isEmpty = true
  · rw [if_pos he, if_pos he, State.close, State.retire_putOwn]
    rfl
  · rw [if_neg he, if_neg he, State.close, State.retire_putOwn, State.putOwn_putOwn, State.own_putOwn]
    rfl

/-! ## SDRAIN and KEND with nothing on its way (R126, R366, R369) -/

/-- Nothing queued: every queue is empty already. -/
theorem State.drainAll_nil (s : State) (g : Nat) (h : ∀ l ∈ (s.group g).slices.toList, l = []) : s.drainAll g = s :=
  List.foldl_fixed' (fun q => s.drain_nil g q (Group.slice_nil _ q h)) _

/-- No store of a group without accesses, entries and writes of the asynchronous path is still to be translated. -/
theorem State.untranslated_nil (s : State) (g : Nat) (hs : ∀ l ∈ (s.group g).slices.toList, l = []) (he : s.entriesOf g = [])
    (ha : (s.group g).async = []) : s.untranslated g = false := by
  have hq : (upFrom 0 4).any (s.sliceUntranslated g) = false := List.any_eq_false.mpr fun q _ => by
    simp [State.sliceUntranslated, Group.slice_nil _ q hs]
  simp [State.untranslated, hq, he, ha]

/-- PAGE_STORE of a group whose convoy has just been closed. -/
theorem State.close_pageStore_takes (s : State) (h : s.Handles) (hq : s.own.sfrq ≠ []) : s.TakesStoreTrap (s.close.pageStore s.cur) s.cur := by
  obtain ⟨r, rest, hr⟩ := List.exists_cons_of_ne_nil hq
  have hg : s.close.group s.cur = s.own.closeConvoy := s.own_close
  have ht := s.close.pageStore_handled s.cur r rest h.close (by rw [hg]; exact hr)
  rw [hg, State.close, State.putOwn, State.putGroup_putGroup] at ht
  rw [State.close, State.putOwn, ht]
  refine ⟨r, rest, hr, s.onlyGroup_putGroup _ _, ?_⟩
  rw [State.group_putGroup]
  simp [Group.enterHandler, Group.recordTrap, Trap.stat, State.own, Group.handler, Group.closeConvoy]

section Quiet

variable {s : State} (h : s.Quiet) (ha : s.own.async = [])

include h ha

/-- What SDRAIN and KEND try first changes nothing of a quiet group but its convoy. -/
theorem State.Quiet.close_drain : (s.close.drainAll s.cur).flush s.cur = s.close := by
  have hg : s.close.group s.cur = s.own.closeConvoy := s.own_close
  obtain ⟨-, -, hs, -, -⟩ := h
  rw [State.drainAll_nil _ _ (by rw [hg]; exact hs), State.flush_nil _ _ (by rw [hg]; exact ha)]

/-- SDRAIN by whether a store fault is on record. -/
theorem execSdrain_quiet : execSdrain s = .next (if s.own.sfrq = [] then s.close.retire 4 else s.close.pageStore s.cur) := by
  have hd := h.close_drain ha
  have hg : s.close.group s.cur = s.own.closeConvoy := s.own_close
  obtain ⟨⟨he, -, -⟩, -, hs, -, -⟩ := h
  have hu : s.close.untranslated s.cur = false := State.untranslated_nil _ _ (by rw [hg]; exact hs) he (by rw [hg]; exact ha)
  simp only [execSdrain, hd, hu, State.own_close, Group.closeConvoy_sfrq]
  cases s.own.sfrq <;> rfl

/-- KEND of a group whose convoys are done and whose writes are acknowledged takes PAGE_STORE with a store fault on record, and waits for
contributions that have not ended. -/
theorem execKend_quiet (hc : s.own.convoys = []) (hsent : s.own.sent = []) :
    (s.own.sfrq ≠ [] → execKend s = .next (s.close.pageStore s.cur)) ∧
    (s.own.sfrq = [] → s.transformsOf s.cur = [] → s.own.collDone ≠ s.own.collIssued → execKend s = .next (s.close.wait .collective)) := by
  have hd := h.close_drain ha
  obtain ⟨⟨he, -, -⟩, -, hs, hlate, -⟩ := h
  have hq : s.own.closeConvoy.queued = false := List.any_eq_false.mpr fun l hl => by rw [hs l hl]; decide
  have hcc : s.own.closeConvoy.convoys = [] := by rw [Group.closeConvoy, hc]; rfl
  have hee : s.close.entriesOf s.cur = [] := he
  refine ⟨fun hf => ?_, fun hf ht hcoll => ?_⟩
  · simp [execKend, hd, hcc, hq, hsent, hlate, hee, ha, hf]
  · have htt : s.close.transformsOf s.cur = [] := ht
    simp [execKend, hd, hcc, hq, hsent, hlate, hee, ha, hf, htt, hcoll]

end Quiet

/-! ## SFRPOP (R365, R366, R370) -/

/-- A register write keeps a group that differs from another in its x registers alone so. -/
theorem Group.setReg_onlyX {G H : Group} (h : H = { G with x := H.x }) (r : Reg) (v : Word) : H.setReg r v = { G with x := (H.setReg r v).x } := by
  unfold Group.setReg
  split
  · exact h
  · exact congrArg (fun K : Group => { K with x := H.x.set r.toNat v }) h

/-- Four registers from one on, written in order. -/
def Group.setFour (G : Group) (d : Reg) (w : Word × Word × Word × Word) : Group :=
  (((G.setReg d w.1).setReg (d + 1) w.2.1).setReg (d + 2) w.2.2.1).setReg (d + 3) w.2.2.2

theorem Group.setFour_only (G : Group) (d : Reg) (w : Word × Word × Word × Word) : G.setFour d w = { G with x := (G.setFour d w).x } :=
  Group.setReg_onlyX (Group.setReg_onlyX (Group.setReg_onlyX (Group.setReg_onlyX (H := G) rfl d w.1) _ _) _ _) _ _

theorem Group.reg_setFour (G : Group) (d q : Reg) (w : Word × Word × Word × Word) :
    (G.setFour d w).reg q = if q = 0 then 0 else if q = d then w.1 else if q = d + 1 then w.2.1 else if q = d + 2 then w.2.2.1
      else if q = d + 3 then w.2.2.2 else G.reg q := by
  by_cases h0 : q = 0
  · rw [if_pos h0, h0]; rfl
  · simp only [Group.setFour, Group.reg_setReg, h0, not_false_eq_true, and_true, ne_eq, if_false]
    by_cases h : q = d
    · simp [h]
    · by_cases h1 : q = d + 1
      · simp [h1]
      · by_cases h2 : q = d + 2
        · simp [h2]
        · simp only [h, h1, h2, if_false]

/-- SFRPOP at supervisor level, by the record that stands first. -/
theorem execSfrpop_supervisor (d : Reg) (s : State) (hs : s.own.level = .supervisor) :
    execSfrpop d s = .next ((s.putOwn (match s.own.sfrq with
      | [] => s.own.closeConvoy.setFour d (0, 0, 0, 0)
      | r :: rest =>
        if r.came = s.clock then s.own.closeConvoy.setFour d (0, 0, 0, leftWord (rest.length + 1))
        else Group.setFour { s.own.closeConvoy with sfrq := rest } d (r.pc, r.addr, r.data, r.word rest.length))).retire 4) := by
  simp only [execSfrpop, s.isSupervisor_of_supervisor hs, State.close, State.putOwn_putOwn, State.own_putOwn, Group.closeConvoy_sfrq]
  cases s.own.sfrq with
  | nil => rfl
  | cons r rest => by_cases hc : r.came = s.clock <;> simp only [hc] <;> rfl

/-- What SFRPOP leaves of the records, and the words it writes. -/
theorem execSfrpop_pops (d : Reg) (s : State) (hs : s.own.level = .supervisor) (l : List SfRecord) (w : Word × Word × Word × Word)
    (h : s.own.sfrq = [] ∧ l = [] ∧ w = (0, 0, 0, 0) ∨
      (∃ r rest, s.own.sfrq = r :: rest ∧ r.came = s.clock ∧ l = s.own.sfrq ∧ w = (0, 0, 0, leftWord l.length)) ∨
      ∃ r, s.own.sfrq = r :: l ∧ r.came ≠ s.clock ∧ w = (r.pc, r.addr, r.data, r.word l.length)) :
    execSfrpop d s = .next ((s.putOwn (Group.setFour { s.own.closeConvoy with sfrq := l } d w)).retire 4) := by
  have hkeep : ∀ l, l = s.own.sfrq → ({ s.own.closeConvoy with sfrq := l } : Group) = s.own.closeConvoy := by rintro _ rfl; rfl
  rw [execSfrpop_supervisor d s hs]
  rcases h with ⟨hq, hl, rfl⟩ | ⟨r, rest, hq, hcame, hl, rfl⟩ | ⟨r, hq, hcame, rfl⟩
  · rw [hkeep l (hl.trans hq.symm), hq]
  · rw [hkeep l hl, hl, hq]
    simp only [if_pos hcame, List.length_cons]
  · rw [hq]
    simp only [if_neg hcame]

/-- Settles O32: WFE by its ready load, SDRAIN and KEND of a quiet group, SFRPOP by its oldest record. -/
theorem groupControlResults : Obligations.GroupControlResults := by
  unfold Obligations.GroupControlResults
  intro d a b s
  refine ⟨fun runs leaf pa n l rest h => ⟨fun hne => ?_, fun heq hline => ?_⟩, fun l hl => ?_, fun h ha => ⟨fun hf => ?_, fun hf hh => ?_, fun hc hs => ?_⟩,
    fun hl l w hw => ?_⟩
  · exact ⟨_, (exec_wfe a b s).trans (execWfe_differs a b h hne), State.retires_putOwn { s with tr := _ } _ 4 rfl rfl⟩
  · refine ⟨_, (exec_wfe a b s).trans (execWfe_waits a b h heq hline), State.onlyGroup_putOwn { s with tr := _ } _, ?_⟩
    exact State.own_putOwn { s with tr := _ } _
  · rw [← State.readyPeers_retire] at hl
    exact ⟨_, (exec_gyield s).trans (execGyield_marks s l hl), s.retires_putOwn _ 4 rfl rfl⟩
  · refine ⟨_, (exec_sdrain s).trans (execSdrain_quiet h ha), ?_⟩
    rw [if_pos hf]
    exact s.retires_putOwn _ 4 rfl rfl
  · refine ⟨_, (exec_sdrain s).trans (execSdrain_quiet h ha), ?_⟩
    rw [if_neg hf]
    exact s.close_pageStore_takes hh hf
  · obtain ⟨hfault, hwait⟩ := execKend_quiet h ha hc hs
    refine ⟨fun hf hh => ⟨_, (exec_kend s).trans (hfault hf), s.close_pageStore_takes hh hf⟩,
      fun hf ht hcoll => ⟨_, (exec_kend s).trans (hwait hf ht hcoll), ?_⟩⟩
    rw [State.close, State.wait, State.putOwn_putOwn, State.own_putOwn]
    exact ⟨s.onlyGroup_putOwn _, s.own_putOwn _⟩
  · refine ⟨_, (exec_sfrpop d s).trans (execSfrpop_pops d s hl l w hw), ?_, fun q => ?_⟩
    · rw [State.retire_putOwn]
      refine ⟨s.onlyGroup_putOwn _, ?_⟩
      rw [State.own_putOwn, Group.setFour_only]
      rfl
    · rw [State.retire_putOwn, State.x, State.own_putOwn, Group.reg_x, Group.reg_setFour]
      rfl

end Sys2Proof.Machine
end

section
namespace Sys2Proof.Machine
theorem exec_ctxyield (d : Reg) (s : State) : exec (.ctxyield d) s = execCtxyield d s := rfl

/-! ## Slot sets written beside groups -/

@[simp] theorem State.group_putSet (s : State) (t : Nat) (S : SlotSet) (h : Nat) : (s.putSet t S).group h = s.group h := by
  rw [State.group, State.putSet_groups]
  rfl

@[simp] theorem State.own_putSet (s : State) (t : Nat) (S : SlotSet) : (s.putSet t S).own = s.own := by
  rw [State.own, State.putSet_cur, State.group_putSet]
  rfl

@[simp] theorem State.putSet_putSet (s : State) (t : Nat) (A B : SlotSet) : (s.putSet t A).putSet t B = s.putSet t B := by
  unfold State.putSet
  split <;> rfl

theorem State.close_putSet (s : State) (t : Nat) (S : SlotSet) : s.close.putSet t S = (s.putSet t S).close := by
  unfold State.putSet
  split <;> rfl

@[simp] theorem State.slotSet_close (s : State) (t : Nat) : s.close.slotSet t = s.slotSet t := rfl

theorem State.close_weigh (s : State) (t : Nat) : s.close.weigh t = (s.weigh t).close := s.close_putSet t _

@[simp] theorem State.slotSet_weigh (s : State) (t : Nat) : (s.weigh t).slotSet t = { s.slotSet t with lastAt := some s.clock } := s.slotSet_putSet t _

theorem State.slotSet_weigh_partner (s : State) (t : Nat) (ht : t < 2) : (s.weigh t).slotSet (1 - t) = s.slotSet (1 - t) :=
  s.slotSet_putSet_partner t _ ht

/-! ## A context Retired (R82, R95, R101) -/

/-- The slot set of a context that has been Retired: queues closed, tokens and marks gone. -/
abbrev SlotSet.IsRetired (S : SlotSet) : Prop :=
  S.st = .retired ∧ (∀ q ∈ S.queues, q.2.closed = true) ∧ S.ingress = [] ∧ S.egress = [] ∧ S.waiters = [] ∧ S.saveMark = false

/-- Whatever becomes of its launches and groups, a context that is Retired has its slot set so. -/
theorem State.retireContext_retired (s : State) (t : Nat) (ht : t < 2) : ((s.retireContext t).slotSet t).IsRetired := by
  obtain ⟨u, hu, hx⟩ : ∃ u : State, (u.slotSet t).IsRetired ∧
      s.retireContext t = if (s.slotSet t).st = .active then u.activatePartner t else u := by
    refine ⟨_, ?_, rfl⟩
    rw [State.slotSet_setCtx, (State.dropHoldings_keeps _ t).1, State.slotSet_putSet]
    refine ⟨rfl, fun q hq => ?_, rfl, rfl, rfl, rfl⟩
    obtain ⟨e, -, rfl⟩ := List.mem_map.mp hq
    rfl
  have hpartner : (u.activatePartner t).slotSet t = u.slotSet t := by
    unfold State.activatePartner
    split
    · have hback : 1 - (1 - t) = t := by omega
      have := (u.activate_sets (1 - t) (by omega)).2
      rwa [hback] at this
    · rfl
  rw [hx]
  split
  · rwa [hpartner]
  · exact hu

theorem State.halt_dropped (s : State) (t : Nat) (h : s.dropped t = true) : s.halt t = s := if_pos h

theorem State.halt_retired (s : State) (t : Nat) (ht : t < 2) (h : s.dropped t = false) : ((s.halt t).slotSet t).IsRetired := by
  rw [State.halt, if_neg (by simp [h])]
  exact State.retireContext_retired _ t ht

/-! ## The switch (R82 to R86) -/

theorem stopGroup_idle : stopGroup Group.idle = Group.idle := rfl

theorem resumeGroup_idle : resumeGroup Group.idle = Group.idle := rfl

/-- A context whose conductor has been placed becomes Active without a placement. -/
theorem State.activate_again (s : State) (t : Nat) (h : (s.slotSet t).conductorDone = true) :
    s.activate t = (s.setCtx t .active).mapSet t fun _ => resumeGroup := by
  have hc : (((s.setCtx t .active).mapSet t fun _ => resumeGroup).slotSet t).conductorDone = true :=
    (congrArg SlotSet.conductorDone (s.slotSet_setCtx t .active)).trans h
  unfold State.activate State.placeConductor
  simp only [hc, if_true]
  split <;> rfl

theorem State.group_setCtx (s : State) (t : Nat) (st : CtxState) (h : Nat) : (s.setCtx t st).group h = s.group h := s.group_putSet t _ h

/-- Nothing has changed but groups, slot sets and the events waiting for the host. -/
def State.SwitchFrame (s t : State) : Prop :=
  t = { s with groups := t.groups, set0 := t.set0, set1 := t.set1, port := { s.port with waiting := t.port.waiting } }

theorem State.SwitchFrame.trans {s t u : State} (h : s.SwitchFrame t) (h' : t.SwitchFrame u) : s.SwitchFrame u :=
  Eq.trans h' (congrArg (fun v : State => { v with
    groups := u.groups, set0 := u.set0, set1 := u.set1, port := { v.port with waiting := u.port.waiting } }) h)

theorem State.SwitchFrame.cur {s t : State} (h : s.SwitchFrame t) : t.cur = s.cur := by rw [State.SwitchFrame] at h; rw [h]

theorem State.switchFrame_setCtx (s : State) (t : Nat) (st : CtxState) : s.SwitchFrame (s.setCtx t st) := by
  unfold State.SwitchFrame State.setCtx State.putSet
  by_cases h : t = 0 <;> simp only [h, if_true, if_false] <;> rfl

theorem State.switchFrame_putSet (s : State) (t : Nat) (S : SlotSet) : s.SwitchFrame (s.putSet t S) := by
  unfold State.SwitchFrame State.putSet
  split <;> rfl

theorem State.switchFrame_mapSet (s : State) (t : Nat) (f : Nat → Group → Group) : s.SwitchFrame (s.mapSet t f) := rfl

/-- The context that a switch leaves: Pre-empting, its groups stopped, no cell drained yet. -/
def State.preempt (s : State) (t : Nat) : State :=
  ((s.setCtx t .preempting).mapSet t fun _ => stopGroup).putSet t { (s.setCtx t .preempting).slotSet t with drained := [] }

theorem State.beginSwitch_eq (s : State) (t : Nat) : s.beginSwitch t = (s.preempt t).activate (1 - t) := rfl

theorem State.slotSet_preempt (s : State) (t : Nat) : (s.preempt t).slotSet t = { s.slotSet t with st := .preempting, drained := [] } := by
  rw [State.preempt, State.slotSet_putSet, State.slotSet_setCtx]

theorem State.slotSet_preempt_partner (s : State) (t : Nat) (ht : t < 2) : (s.preempt t).slotSet (1 - t) = s.slotSet (1 - t) :=
  (State.slotSet_putSet_partner _ t _ ht).trans (s.slotSet_setCtx_partner t _ ht)

theorem State.group_preempt (s : State) (t h : Nat) : (s.preempt t).group h = if setOf h = t then stopGroup (s.group h) else s.group h := by
  rw [State.preempt, State.group_putSet, State.group_mapSet _ _ _ _ stopGroup_idle, State.group_setCtx]

theorem State.switchFrame_preempt (s : State) (t : Nat) : s.SwitchFrame (s.preempt t) :=
  ((s.switchFrame_setCtx t _).trans (State.switchFrame_mapSet _ t _)).trans (State.switchFrame_putSet _ t _)

section
variable (s : State) (t : Nat) (hd : (s.slotSet t).conductorDone = true)
include hd

theorem State.slotSet_activate_again : (s.activate t).slotSet t = { s.slotSet t with st := .active } := by
  rw [s.activate_again t hd]
  exact s.slotSet_setCtx t _

theorem State.group_activate_again (h : Nat) : (s.activate t).group h = if setOf h = t then resumeGroup (s.group h) else s.group h := by
  rw [s.activate_again t hd, State.group_mapSet _ _ _ _ resumeGroup_idle, State.group_setCtx]

theorem State.switchFrame_activate_again : s.SwitchFrame (s.activate t) := by
  rw [s.activate_again t hd]
  exact (s.switchFrame_setCtx t _).trans (State.switchFrame_mapSet _ t _)

end

/-- What a switch to a context whose conductor stands leaves: the one context Pre-empting with its groups stopped, the
other Active with its groups resumed. -/
structure State.Switches (s u : State) (t : Nat) : Prop where
  frame : s.SwitchFrame u
  left : u.slotSet t = { s.slotSet t with st := .preempting, drained := [] }
  entered : u.slotSet (1 - t) = { s.slotSet (1 - t) with st := .active }
  groups : ∀ h, u.group h = if setOf h = t then stopGroup (s.group h) else resumeGroup (s.group h)

theorem State.beginSwitch_switches (s : State) (t : Nat) (ht : t < 2) (hd : (s.slotSet (1 - t)).conductorDone = true) :
    s.Switches (s.beginSwitch t) t := by
  have hp := s.slotSet_preempt_partner t ht
  have hd' : ((s.preempt t).slotSet (1 - t)).conductorDone = true := by rw [hp]; exact hd
  have hleft := ((s.preempt t).activate_sets (1 - t) (by omega)).2
  rw [show 1 - (1 - t) = t by omega] at hleft
  rw [State.beginSwitch_eq]
  refine ⟨(s.switchFrame_preempt t).trans (State.switchFrame_activate_again _ _ hd'), hleft.trans (s.slotSet_preempt t), ?_, fun h => ?_⟩
  · rw [State.slotSet_activate_again _ _ hd', hp]
  · rw [State.group_activate_again _ _ hd', State.group_preempt]
    have := setOf_lt h
    by_cases hs : setOf h = t
    · rw [if_neg (by omega), if_pos hs, if_pos hs]
    · rw [if_pos (by omega), if_neg hs, if_neg hs]

/-- A group that has just retired an instruction stops behind it. -/
theorem stopGroup_retire (G : Group) (len : Nat) (h : G.barPending = none) : stopGroup (G.retire len) = { (G.retire len).cutConvoy with phase := .preempted } := by
  simp [stopGroup, Group.retire, h]

theorem Group.cutConvoy_nil (G : Group) (h : G.convoys = []) : G.cutConvoy = G := by
  simp only [Group.cutConvoy, h]

theorem Group.cutConvoy_cons (G : Group) (c : Convoy) (rest : List Convoy) (h : G.convoys = c :: rest) :
    G.cutConvoy = { G with convoys := c.cutAt :: rest } := by
  simp only [Group.cutConvoy, h]

/-- The cut of a convoy at a boundary behind which the group stands. -/
theorem Group.cutConvoy_retire (G : Group) (X : Vector Word 32) (len : Nat) :
    (({ G with x := X } : Group).retire len).cutConvoy = { G.cutConvoy with
      x := X, pc := G.pc + BitVec.ofNat 64 len, retired := G.retired + 1, phase := .running, dataWait := none, resume := false } := by
  by_cases hc : G.convoys = []
  · rw [Group.cutConvoy_nil G hc, Group.cutConvoy_nil _ (by exact hc)]; rfl
  · obtain ⟨c, rest, hc⟩ := List.exists_cons_of_ne_nil hc
    rw [G.cutConvoy_cons c rest hc, Group.cutConvoy_cons _ c rest (by exact hc)]; rfl

/-! ## The instructions (R95 to R99) -/

/-- CTXYIELD of an event that is not dropped. -/
theorem execCtxyield_kept (d : Reg) (s : State) (h : s.dropped (setOf s.cur) = false) :
    execCtxyield d s = .next (if s.switchStatus (setOf s.cur) ≠ 0 then s.close.done d (BitVec.ofNat 64 (s.switchStatus (setOf s.cur))) 4
      else ((s.close.weigh (setOf s.cur)).done d 0 4).beginSwitch (setOf s.cur)) := by
  simp only [execCtxyield, h]; rfl

/-- The state in which an accepted CTXYIELD switches: the group stands behind it. -/
theorem State.close_weigh_done (s : State) (t : Nat) (d : Reg) (v : Word) (len : Nat) :
    (s.close.weigh t).done d v len = (s.weigh t).putOwn ((s.own.closeConvoy.setReg d v).retire len) := by
  rw [State.close_weigh, State.close, State.done_putOwn]
  exact congrArg (fun G : Group => (s.weigh t).putOwn ((G.closeConvoy.setReg d v).retire len)) (s.own_putSet t _)

/-- An accepted CTXYIELD: the switch of the state behind it, seen from the state before. -/
theorem execCtxyield_accepted (d : Reg) (s : State) (T : Nat) (hT : T = setOf s.cur) (hdrop : s.dropped T = false)
    (hst : (s.slotSet (1 - T)).st = .standby) (hcd : (s.slotSet (1 - T)).conductorDone = true) :
    ∃ t, exec (.ctxyield d) s = .next t ∧ ((s.weigh T).putOwn ((s.own.closeConvoy.setReg d 0).retire 4)).Switches t T := by
  subst hT
  have hpart := s.slotSet_weigh_partner (setOf s.cur) (setOf_lt _)
  refine ⟨_, (exec_ctxyield d s).trans (execCtxyield_kept d s hdrop), ?_⟩
  rw [State.switchStatus, hst, State.close_weigh_done]
  exact State.beginSwitch_switches _ _ (setOf_lt _) (by rw [State.slotSet_putOwn, hpart]; exact hcd)

/-- The group of an accepted CTXYIELD, Pre-empted behind it. -/
theorem stopGroup_ctxyield (G : Group) (d : Reg) (v : Word) (len : Nat) (h : G.barPending = none) :
    stopGroup ((G.closeConvoy.setReg d v).retire len) = { G.closeConvoy.cutConvoy with
      x := (G.closeConvoy.setReg d v).x, pc := G.pc + BitVec.ofNat 64 len, retired := G.retired + 1, phase := .preempted, dataWait := none
      resume := false } := by
  have hx := Group.setReg_onlyX (G := G.closeConvoy) (H := G.closeConvoy) rfl d v
  generalize hH : G.closeConvoy.setReg d v = H at hx
  have hb : H.barPending = none := (congrArg Group.barPending hx).trans h
  rw [stopGroup_retire H len hb, hx, Group.cutConvoy_retire]
  rfl

/-- CTXSAVE at supervisor level, of an event that is not dropped. -/
theorem execCtxsave_kept (d : Reg) (s : State) (hl : s.own.level = .supervisor) (h : s.dropped (setOf s.cur) = false) :
    execCtxsave d s = .next (
      if ((s.slotSet (setOf s.cur)).img.map Image.saveArea).getD false = false then s.close.done d 1 4
      else if (s.slotSet (setOf s.cur)).saveMark then s.close.done d 2 4
      else ((s.close.weigh (setOf s.cur)).putSet (setOf s.cur) { (s.close.weigh (setOf s.cur)).slotSet (setOf s.cur) with saveMark := true }).done d 0 4) := by
  simp only [execCtxsave, h, s.isSupervisor_of_supervisor hl, Bool.not_true, Bool.false_eq_true, if_false, Bool.not_eq_true']

section Ctxload

variable (d a : Reg) (s : State) (hl : s.own.level = .supervisor) (hn : (s.x a).toNat < 2 ^ 16) (h : s.dropped (setOf s.cur) = false)
include hl hn h

/-- CTXLOAD while the other slot set holds a context. -/
theorem execCtxload_used (he : (s.slotSet (1 - setOf s.cur)).st ≠ .empty) : execCtxload d a s = .next (s.close.done d 1 4) := by
  simp only [execCtxload, h, s.isSupervisor_of_supervisor hl, Bool.not_true, Bool.false_eq_true, if_false, ge_iff_le, Nat.not_le.mpr hn, he, ne_eq,
    not_false_eq_true, if_true]

/-- CTXLOAD of a context that is not saved. -/
theorem execCtxload_unsaved (he : (s.slotSet (1 - setOf s.cur)).st = .empty) (hf : s.saved.find? (fun c => c.num == (s.x a).toNat) = none) :
    execCtxload d a s = .next (s.close.done d 2 4) := by
  simp only [execCtxload, h, s.isSupervisor_of_supervisor hl, Bool.not_true, Bool.false_eq_true, if_false, ge_iff_le, Nat.not_le.mpr hn, he, ne_eq,
    not_true_eq_false, hf]

/-- CTXLOAD of a saved context, by whether the list names it. -/
theorem execCtxload_saved (c : SavedContext) (he : (s.slotSet (1 - setOf s.cur)).st = .empty)
    (hf : s.saved.find? (fun c => c.num == (s.x a).toNat) = some c) :
    execCtxload d a s = .next (
      if !((((s.slotSet (setOf s.cur)).img.map Image.loadable).getD []).contains (s.x a).toNat) then s.close.done d 3 4
      else ((s.close.weigh (setOf s.cur)).loadSaved (1 - setOf s.cur) c).done d 0 4) := by
  simp only [execCtxload, h, s.isSupervisor_of_supervisor hl, Bool.not_true, Bool.false_eq_true, if_false, ge_iff_le, Nat.not_le.mpr hn, he, ne_eq,
    not_true_eq_false, hf]

end Ctxload

/-- A saved context that begins to load into an Empty set. -/
theorem State.loadSaved_empty (s : State) (t : Nat) (c : SavedContext) (h : (s.slotSet t).st = .empty) :
    s.loadSaved t c = (s.putSet t { s.slotSet t with st := .loading, img := c.set.img }).post
      { kind := 6, set := t, id := 0, body := leCells 8 1 0 ++ leCells 9 1 1 ++ leCells 10 2 ((c.set.img.map Image.num).getD (s.slotSet t).loadNum) } := by
  simp only [State.loadSaved, State.setCtx, State.slotSet_putSet, State.putSet_putSet, h, CtxState.code, reduceCtorEq, if_false, List.append_nil]

theorem State.close_loadSaved (s : State) (t : Nat) (c : SavedContext) : s.close.loadSaved t c = (s.loadSaved t c).close := by
  simp only [State.loadSaved, State.setCtx, State.slotSet_putSet, State.putSet_putSet, State.slotSet_close, State.close_putSet]
  rfl

/-- Settles O33: HALT by `State.halt_retired`, CTXYIELD by `State.beginSwitch_switches`, CTXLOAD by `State.loadSaved_empty`. -/
theorem contextInstructionResults : Obligations.ContextInstructionResults := by
  unfold Obligations.ContextInstructionResults
  rintro d a s T _ hT rfl
  have hlt : T < 2 := hT ▸ setOf_lt _
  refine ⟨fun hl => ⟨fun hd => ?_, fun hd => ?_⟩, fun v hv => ?_, fun hd hst hcd hb => ?_, fun hl u v hv => ?_, fun hl hn v found hf hv => ?_,
    fun hl hn ho ha => ?_, fun hl hn hd he c hc hm => ?_⟩
  · obtain ⟨hst, hq, hi, he, hw, hm⟩ := s.close.halt_retired T hlt hd
    refine ⟨s.close.halt T, (exec_halt s).trans ?_, hst, hq, hi, he, hw, hm⟩
    rw [execHalt, s.isSupervisor_of_supervisor hl, hT]; rfl
  · refine ⟨s.close, (exec_halt s).trans ?_, s.onlyGroup_putOwn _, s.own_close⟩
    rw [execHalt, s.isSupervisor_of_supervisor hl, ← hT, s.close.halt_dropped T hd]; rfl
  · rcases hv with ⟨hd, rfl⟩ | ⟨hd, hv⟩
    · refine ⟨_, (exec_ctxyield d s).trans ?_, s.close_done_gives d 4 4⟩
      simp only [execCtxyield, ← hT, hd, if_true]
    · have hs : s.switchStatus T ≠ 0 ∧ BitVec.ofNat 64 (s.switchStatus T) = v := by
        rcases hv with ⟨h, rfl⟩ | ⟨h, h', rfl⟩
        · simp [State.switchStatus, h]
        · simp [State.switchStatus, h, h']
      refine ⟨_, (exec_ctxyield d s).trans (execCtxyield_kept d s (hT ▸ hd)), ?_⟩
      rw [← hT, if_pos hs.1, hs.2]
      exact s.close_done_gives d v 4
  · obtain ⟨t, hx, hs⟩ := execCtxyield_accepted d s T hT hd hst hcd
    have hframe : s.SwitchFrame t := ((s.switchFrame_putSet T _).trans (u := (s.weigh T).putOwn _) rfl).trans hs.frame
    have hcur : t.cur = s.cur := hframe.cur
    have hown : t.own = stopGroup ((s.own.closeConvoy.setReg d 0).retire 4) := by
      rw [State.own, hcur, hs.groups, if_pos hT.symm, ← (s.putSet_cur T _ : (s.weigh T).cur = s.cur)]
      exact congrArg stopGroup (State.own_putOwn _ _)
    rw [stopGroup_ctxyield s.own d 0 4 hb] at hown
    refine ⟨t, hx, hframe, fun r => ?_, ?_, ?_, ?_, fun h hh => ?_⟩
    · rw [State.x, hown]
      exact Group.reg_setReg s.own.closeConvoy d r 0
    · rw [hown]; rfl
    · rw [hs.left, State.slotSet_putOwn, State.slotSet_weigh]
    · rw [hs.entered, State.slotSet_putOwn, s.slotSet_weigh_partner T hlt]
    · rw [hs.groups, State.putOwn, State.group_putGroup_ne _ _ (by rw [State.weigh, State.putSet_cur]; exact hh), State.weigh, State.group_putSet]
  · rcases hv with ⟨hd, rfl, rfl⟩ | ⟨hd, hv⟩
    · refine ⟨_, (exec_ctxsave d u).trans ?_, u.close_done_gives d 4 4⟩
      simp only [execCtxsave, ← hT, hd, u.isSupervisor_of_supervisor hl, Bool.not_true, Bool.false_eq_true, if_false, if_true]
    · have hx := (exec_ctxsave d s).trans (execCtxsave_kept d s hl (hT ▸ hd))
      rw [← hT] at hx
      rcases hv with ⟨hi, rfl, rfl⟩ | ⟨hi, ⟨hm, rfl, rfl⟩ | ⟨hm, rfl, rfl⟩⟩
      · rw [if_pos hi] at hx
        exact ⟨_, hx, u.close_done_gives d 1 4⟩
      · rw [if_neg (by simp [hi]), if_pos hm] at hx
        exact ⟨_, hx, u.close_done_gives d 2 4⟩
      · rw [if_neg (by simp [hi]), if_neg (by simp [hm]), State.close_weigh, State.slotSet_close, State.slotSet_weigh, State.close_putSet, State.weigh,
          State.putSet_putSet] at hx
        exact ⟨_, hx, State.close_done_gives _ d 0 4⟩
  · subst hf
    rcases hv with ⟨hd, rfl⟩ | ⟨hd, hv⟩
    · refine ⟨_, (exec_ctxload d a s).trans ?_, s.close_done_gives d 4 4⟩
      simp only [execCtxload, ← hT, hd, s.isSupervisor_of_supervisor hl, Bool.not_true, Bool.false_eq_true, if_false, if_true, Nat.not_le.mpr hn]
    · have hd' := hT ▸ hd
      rcases hv with ⟨he, rfl⟩ | ⟨he, ⟨hc, rfl⟩ | ⟨hc, hm, rfl⟩⟩
      · exact ⟨_, (exec_ctxload d a s).trans (execCtxload_used d a s hl hn hd' (hT ▸ he)), s.close_done_gives d 1 4⟩
      · exact ⟨_, (exec_ctxload d a s).trans (execCtxload_unsaved d a s hl hn hd' (hT ▸ he) hc), s.close_done_gives d 2 4⟩
      · obtain ⟨c, hc⟩ := Option.isSome_iff_exists.mp hc
        have hx := (exec_ctxload d a s).trans (execCtxload_saved d a s hl hn hd' c (hT ▸ he) hc)
        rw [← hT, if_pos (by simpa using hm)] at hx
        exact ⟨_, hx, s.close_done_gives d 3 4⟩
  · have ht := s.trap_supervisor_faults s.cur { code := 1, sub := 0, kind := 0, addr := s.ir, elem := none, vec := false, pc := s.own.pc, wait := none } hl ho
      (hT ▸ ha) (show 1 < 256 by decide)
    refine ⟨s.illegal, (exec_ctxload d a s).trans ?_, hT ▸ ht⟩
    simp only [execCtxload, s.isSupervisor_of_supervisor hl, Bool.not_true, Bool.false_eq_true, if_false, ge_iff_le, hn, if_true]
  · have hx := (exec_ctxload d a s).trans (execCtxload_saved d a s hl hn (hT ▸ hd) c (hT ▸ he) hc)
    have hp := s.slotSet_weigh_partner T hlt
    rw [← hT, if_neg (by simpa using hm)] at hx
    rw [State.close_weigh, State.close_loadSaved, State.loadSaved_empty _ _ _ (by rw [hp]; exact he), hp] at hx
    exact ⟨_, hx, State.close_done_gives _ d 0 4⟩

end Sys2Proof.Machine
end


section
namespace Sys2Proof.Machine

theorem exec_waitWake (b : BitVec 12) (s : State) : exec (.waitWake b) s = execWaitWake b s := rfl

/-! ## The result of a wait (R135) -/

/-- WAIT_WAKE of a live group whose count has not passed its limit. -/
theorem execWaitWake_live (b : BitVec 12) (s : State) (hl : s.live b.toNat = true) (hp : (s.group b.toNat).limitPassed = false) :
    execWaitWake b s = .next ((s.wakeUp b.toNat true).getD s) := by
  simp [execWaitWake, hl, hp]

theorem State.group_at (s : State) (g h : Nat) : ({ s with cur := g } : State).group h = s.group h := rfl

/-- A group that waits for nothing is not woken. -/
theorem State.wakeUp_of_not_waiting (s : State) (g : Nat) (sp : Bool) (h : ∀ w, (s.group g).phase ≠ .waiting w) : s.wakeUp g sp = none := by
  cases hp : (s.group g).phase with
  | waiting w => exact absurd hp (h w)
  | _ => simp only [State.wakeUp, State.group_at, hp]

/-- WAIT_WAKE of a group that is not live, does not wait or is past its limit. -/
theorem execWaitWake_idle (b : BitVec 12) (s : State)
    (h : s.live b.toNat = false ∨ (∀ w, (s.group b.toNat).phase ≠ .waiting w) ∨ (s.group b.toNat).limitPassed = true) :
    execWaitWake b s = .next s := by
  rcases h with h | h | h
  · simp [execWaitWake, h]
  · simp [execWaitWake, s.wakeUp_of_not_waiting _ _ h]
  · simp [execWaitWake, h]

/-- A register result of a group that is changed beside it in fields that keep its place and registers. -/
theorem State.putOwn_done_gives (s : State) (G : Group) (d : Reg) (v : Word) (len : Nat) (hpc : G.pc = s.own.pc) (hr : G.retired = s.own.retired)
    (hx : G.x = s.own.x) :
    s.Retires ((s.putOwn G).done d v len) len { G with x := ((s.putOwn G).done d v len).own.x } ∧ s.SetsX ((s.putOwn G).done d v len) d v := by
  rw [State.done_putOwn, State.own_putOwn]
  refine ⟨⟨s.onlyGroup_putOwn _, ?_⟩, fun r => ?_⟩
  · rw [State.own_putOwn, ← hpc, ← hr]
    unfold Group.retire Group.setReg
    split <;> rfl
  · rw [State.x, State.own_putOwn, Group.reg_x, Group.reg_setReg, State.x, Group.reg, Group.reg, hx]

section Waits

variable {s : State} {g : Nat} {sp : Bool}

theorem State.wakeUp_barrier {h : Word} {p : BitVec 32} {d : Reg} {q : Bool} (hw : (s.group g).phase = .waiting (.barrier h p d q)) :
    s.wakeUp g sp = (s.barOver g h p).map fun done => ({ s with cur := g } : State).done d (barAnswer q done p) 4 := by
  simp only [State.wakeUp, State.group_at, hw]

theorem State.wakeUp_passed {d : Reg} {v : Word} (hw : (s.group g).phase = .waiting (.passed d v)) :
    s.wakeUp g sp = some (({ s with cur := g } : State).done d v 4) := by
  simp only [State.wakeUp, State.group_at, hw]

theorem State.wakeUp_freed {d : Reg} (hw : (s.group g).phase = .waiting (.freed d)) :
    s.wakeUp g sp = some (({ s with cur := g } : State).done d (BitVec.allOnes 64) 4) := by
  simp only [State.wakeUp, State.group_at, hw]

theorem State.wakeUp_token {f : BitVec 4} (hw : (s.group g).phase = .waiting (.token f)) (ha : (s.group g).async = []) :
    s.wakeUp g sp = if (s.group g).fifos[f.toNat] = 0 then none
      else some ((({ s with cur := g } : State).putOwn ((s.group g).popToken (some f))).retire 4) := by
  simp only [State.wakeUp, State.group_at, hw, ha, List.isEmpty_nil, if_true]

theorem State.wakeUp_token_waits {f : BitVec 4} (hw : (s.group g).phase = .waiting (.token f)) (hf : (s.group g).fifos[f.toNat] = 0) :
    s.wakeUp g sp = none := by
  simp only [State.wakeUp, State.group_at, hw, hf, if_true]

theorem State.wakeUp_vecToken {f : BitVec 4} (hw : (s.group g).phase = .waiting (.vecToken f)) :
    s.wakeUp g sp = if (s.group g).fifos[f.toNat] > 0 then some (({ s with cur := g } : State).putGroup g (s.group g).goOn) else none := by
  simp only [State.wakeUp, State.group_at, hw]
  rfl

theorem State.wakeUp_queue {d : Reg} {ks : List Nat} (hw : (s.group g).phase = .waiting (.queue d ks)) :
    s.wakeUp g sp = if ks.any (fun k => ((s.slotSet (setOf g)).kernel? k).isSome) then none else some (({ s with cur := g } : State).done d 0 4) := by
  simp only [State.wakeUp, State.group_at, hw]

theorem State.wakeUp_watermark {d : Reg} {ch : BitVec 4} {target : Word} (hw : (s.group g).phase = .waiting (.watermark d ch target)) :
    s.wakeUp g sp = ((s.group g).chan[ch.toNat].answer target).map fun v => ({ s with cur := g } : State).done d v 4 := by
  simp only [State.wakeUp, State.group_at, hw]

theorem State.wakeUp_place {runs : List (Nat × Nat)} (hw : (s.group g).phase = .waiting (.place runs)) :
    s.wakeUp g sp = if s.behind g runs then none else some (({ s with cur := g } : State).putGroup g (s.group g).goOn) := by
  simp only [State.wakeUp, State.group_at, hw]
  rfl

theorem State.wakeUp_message {d : Reg} {h slot : Nat} {flag : Word} (hw : (s.group g).phase = .waiting (.message d h))
    (hr : (s.group g).recvHeld (BitVec.ofNat 64 h) = some (slot, .complete flag)) :
    s.wakeUp g sp = some ((({ s with cur := g } : State).putOwn ((s.group g).dropRecv slot)).done d flag 4) := by
  simp only [State.wakeUp, State.group_at, hw, hr]

theorem State.wakeUp_message_waits {d : Reg} {h slot : Nat} (hw : (s.group g).phase = .waiting (.message d h))
    (hr : (s.group g).recvHeld (BitVec.ofNat 64 h) = some (slot, .posted) ∨ (s.group g).recvHeld (BitVec.ofNat 64 h) = some (slot, .landing)) :
    s.wakeUp g sp = none := by
  rcases hr with hr | hr <;> simp only [State.wakeUp, State.group_at, hw, hr]

theorem State.wakeUp_message_gone {d : Reg} {h : Nat} (hw : (s.group g).phase = .waiting (.message d h))
    (hr : (s.group g).recvHeld (BitVec.ofNat 64 h) = none) :
    s.wakeUp g sp = some (({ s with cur := g } : State).done d (flagWord 4 0 0) 4) := by
  simp only [State.wakeUp, State.group_at, hw, hr]

/-- An END item leaves every buffer of the ring as it is. -/
theorem Group.takeItem_end (G : Group) (v : Word) (rest : List Word) (hi : G.items = v :: rest) (he : bitOf v 63 = true) :
    G.takeItem = some ({ G with items := rest }, v) := by
  simp only [Group.takeItem, hi, he, if_true]

theorem Group.takeItem_empty (G : Group) (hi : G.items = []) : G.takeItem = none := by
  simp only [Group.takeItem, hi]

theorem State.wakeUp_kvItem {d : Reg} {v : Word} {G : Group} (hw : (s.group g).phase = .waiting (.kvItem d)) (hi : (s.group g).takeItem = some (G, v)) :
    s.wakeUp g sp = some ((({ s with cur := g } : State).putOwn G).done d v 4) := by
  simp only [State.wakeUp, State.group_at, hw, hi]

theorem State.wakeUp_kvItem_waits {d : Reg} (hw : (s.group g).phase = .waiting (.kvItem d)) (hi : (s.group g).takeItem = none)
    (hs : ∃ k ∈ (s.seqAt (seqOf g)).subs, k.group = g) : s.wakeUp g sp = none := by
  have hany : (s.seqAt (seqOf g)).subs.any (fun u => u.group == g) = true := by simpa using hs
  simp only [State.wakeUp, State.group_at, hw, hi]
  exact if_pos hany

theorem State.wakeUp_ticket {h : Word} {i j : Bool} (hw : (s.group g).phase = .waiting (.ticket h i j)) :
    s.wakeUp g sp = if (if ticketHere h then s.ticketCalled g h else j) then some (({ s with cur := g } : State).retire 4) else none := by
  simp only [State.wakeUp, State.group_at, hw]

theorem State.wakeUp_hostTaken {d : Reg} {ch : BitVec 4} {v : BitVec 32} {rest : List (BitVec 32)} (hw : (s.group g).phase = .waiting (.hostTaken d ch))
    (hf : s.firstWaiter (setOf g) ch.toNat = some g) (hi : (s.slotSet (setOf g)).ingress.findD ch.toNat [] = v :: rest) :
    s.wakeUp g sp = some ((({ s with cur := g } : State).putSet (setOf g) { s.slotSet (setOf g) with
      ingress := (s.slotSet (setOf g)).ingress.put ch.toNat rest
      waiters := (s.slotSet (setOf g)).waiters.filter fun k => !(k.1 == g && k.2.2 == decide ((s.group g).level = .supervisor)) }).done d (v.setWidth 64) 4) := by
  simp only [State.wakeUp, State.group_at, hw, hf, fifoOf, hi, if_true]
  rfl

theorem State.wakeUp_hostTaken_waits {d : Reg} {ch : BitVec 4} (hw : (s.group g).phase = .waiting (.hostTaken d ch))
    (hi : (s.slotSet (setOf g)).ingress.findD ch.toNat [] = []) : s.wakeUp g sp = none := by
  simp only [State.wakeUp, State.group_at, hw, fifoOf, hi, ite_self]

theorem State.wakeUp_hostGiven {ch : BitVec 4} {v : BitVec 32} (hw : (s.group g).phase = .waiting (.hostGiven ch v)) :
    s.wakeUp g sp = if ((s.slotSet (setOf g)).egress.findD ch.toNat []).length < 16 then
      some ((({ s with cur := g } : State).putSet (setOf g) { s.slotSet (setOf g) with
        egress := (s.slotSet (setOf g)).egress.put ch.toNat ((s.slotSet (setOf g)).egress.findD ch.toNat [] ++ [v]) }).retire 4)
      else none := by
  simp only [State.wakeUp, State.group_at, hw, fifoOf]
  rfl

theorem State.wakeUp_event {line : Nat} {q : Bool} (hw : (s.group g).phase = .waiting (.event line q)) :
    s.wakeUp g true = some (({ s with cur := g } : State).retire 4) := by
  simp only [State.wakeUp, State.group_at, hw, Bool.or_true, if_true]

theorem State.wakeUp_collective (hw : (s.group g).phase = .waiting .collective) :
    s.wakeUp g sp = if (s.group g).collDone = (s.group g).collIssued then some (({ s with cur := g } : State).putGroup g (s.group g).goOn) else none := by
  simp only [State.wakeUp, State.group_at, hw]
  rfl

end Waits

/-- The flag of a receive that ends without its message: status 4, no length, nothing landed. -/
theorem flagWord_cancelled : flagWord 4 0 0 = 2 ^ 63 + 4 * 2 ^ 56 := by
  apply BitVec.eq_of_toNat_eq
  simp [flagWord]

/-- The channel's answer to a wait for a watermark. -/
theorem Channel.answer_some (c : Channel) (h v : Word)
    (hc : h.toNat ≤ c.filled ∧ v = 0 ∨ c.filled < h.toNat ∧ (c.st = .failed ∧ v = 1 ∨ c.st ≠ .failed ∧ c.st ≠ .copying ∧ v = 2)) : c.answer h = some v := by
  rcases hc with ⟨hf, rfl⟩ | ⟨hf, ⟨hs, rfl⟩ | ⟨hs, hs', rfl⟩⟩
  · simp [Channel.answer, hf]
  · simp [Channel.answer, Nat.not_le.mpr hf, hs]
  · simp [Channel.answer, Nat.not_le.mpr hf, hs, hs']

theorem Channel.answer_none (c : Channel) (h : Word) (hf : c.filled < h.toNat) (hs : c.st = .copying) : c.answer h = none := by
  simp [Channel.answer, Nat.not_le.mpr hf, hs]

/-- Whether a wait for the phase of a live barrier is over. -/
theorem State.barOver_entry (s : State) (g : Nat) (h : Word) (p : BitVec 32) (key : Nat) (hl : s.liveHandle g h = .ok (.entry key)) :
    s.barOver g h p = if (s.barEntry key).past p then some true else none := by
  simp only [State.barOver, hl]

theorem SlotSet.kernel?_isSome (S : SlotSet) (ks : List Nat) : ks.any (fun k => (S.kernel? k).isSome) = true ↔ ∃ k ∈ S.kernels, k.num ∈ ks := by
  simp only [SlotSet.kernel?, List.any_eq_true, List.find?_isSome, beq_iff_eq]
  constructor
  · rintro ⟨n, hn, k, hk, rfl⟩
    exact ⟨k, hk, hn⟩
  · rintro ⟨k, hk, hn⟩
    exact ⟨_, hn, k, hk, rfl⟩

/-- Settles O38: by `execWaitWake_live` and what `State.wakeUp` gives for each reason to wait. -/
theorem waitWakeResults : Obligations.WaitWakeResults := by
  unfold Obligations.WaitWakeResults
  rintro b s u g G rfl rfl rfl
  refine ⟨fun h => (exec_waitWake b s).trans (execWaitWake_idle b s h), fun hl hp d f ch h v p q key slot ks rest l runs => ?_⟩
  have hx := (exec_waitWake b s).trans (execWaitWake_live b s hl hp)
  have wakes : ∀ {t : State}, s.wakeUp b.toNat true = some t → exec (.waitWake b) s = .next t := fun ht => by rw [hx, ht]; rfl
  have stays : s.wakeUp b.toNat true = none → exec (.waitWake b) s = .next s := fun ht => by rw [hx, ht]; rfl
  clear hx
  refine ⟨fun hw hb => ⟨fun h1 h2 => ?_, fun he => stays ?_⟩, fun v hw => ?_, fun hw => ?_, fun hw => ⟨fun hf ha => ?_, fun hf => stays ?_⟩,
    fun hw => ⟨fun hf => wakes ?_, fun hf => stays ?_⟩, fun hw => ⟨fun hk => ?_, fun hk => stays ?_⟩, fun hw c hc => ⟨fun hv => ?_, fun hf hs => stays ?_⟩,
    fun hw => ⟨fun hb => wakes ?_, fun hb => stays ?_⟩, fun K hw => ⟨fun hr => ?_, fun hr => stays ?_, fun hr => ?_⟩,
    fun hw => ⟨fun hi he => ?_, fun hi hs => stays ?_⟩, fun i j hw hh D hD => ⟨fun hn => ?_, fun hn => stays ?_⟩,
    fun i j hw hh => ⟨fun hj => ?_, fun hj => stays ?_⟩, fun hw S hS => ⟨fun hf hi => ?_, fun hi => stays ?_⟩, fun hw S hS hl => ⟨fun hn => ?_, fun hn => stays ?_⟩,
    fun line hw => ?_, fun hw => ⟨fun hc => wakes ?_, fun hc => stays ?_⟩⟩
  · have hpast : (s.barEntry key).past p = true := decide_eq_true ⟨h1, h2⟩
    refine ⟨_, wakes ?_, State.done_gives _ d _ 4⟩
    rw [State.wakeUp_barrier hw, s.barOver_entry _ _ _ _ hb, if_pos hpast]
    rfl
  · rw [State.wakeUp_barrier hw, s.barOver_entry _ _ _ _ hb, if_neg (by simp [BarEntry.past, he])]
    rfl
  · exact ⟨_, wakes (State.wakeUp_passed hw), State.done_gives _ d v 4⟩
  · exact ⟨_, wakes (State.wakeUp_freed hw), State.done_gives _ d _ 4⟩
  · exact ⟨_, wakes ((State.wakeUp_token hw ha).trans (if_neg hf)), State.retires_putOwn _ _ 4 rfl rfl⟩
  · exact State.wakeUp_token_waits hw hf
  · exact (State.wakeUp_vecToken hw).trans (if_pos (Nat.pos_of_ne_zero hf))
  · exact (State.wakeUp_vecToken hw).trans (if_neg (by omega))
  · refine ⟨_, wakes ((State.wakeUp_queue hw).trans (if_neg ?_)), State.done_gives _ d 0 4⟩
    rw [SlotSet.kernel?_isSome]
    rintro ⟨k, hk', hn⟩
    exact hk k hk' hn
  · exact (State.wakeUp_queue hw).trans (if_pos ((SlotSet.kernel?_isSome _ _).mpr hk))
  · subst hc
    refine ⟨_, wakes ?_, State.done_gives _ d v 4⟩
    rw [State.wakeUp_watermark hw, Channel.answer_some _ _ _ hv]
    rfl
  · subst hc
    rw [State.wakeUp_watermark hw, Channel.answer_none _ _ hf hs]
    rfl
  · exact (State.wakeUp_place hw).trans (if_neg (by simp [hb]))
  · exact (State.wakeUp_place hw).trans (if_pos hb)
  · exact ⟨_, wakes (State.wakeUp_message hw hr), State.putOwn_done_gives _ _ d v 4 rfl rfl rfl⟩
  · exact State.wakeUp_message_waits hw hr
  · have hx := State.wakeUp_message_gone (sp := true) hw hr
    rw [flagWord_cancelled] at hx
    exact ⟨_, wakes hx, State.done_gives _ d _ 4⟩
  · exact ⟨_, wakes (State.wakeUp_kvItem hw (Group.takeItem_end _ v rest hi he)), State.putOwn_done_gives _ _ d v 4 rfl rfl rfl⟩
  · exact State.wakeUp_kvItem_waits hw (Group.takeItem_empty _ hi) hs
  · subst hD
    refine ⟨_, wakes ((State.wakeUp_ticket hw).trans ?_), State.retires_retire _ 4⟩
    rw [hh]
    exact if_pos (decide_eq_true hn)
  · subst hD
    rw [State.wakeUp_ticket hw]
    rw [hh]
    exact if_neg fun hc => absurd (of_decide_eq_true hc) (Nat.not_lt.mpr hn)
  · exact ⟨_, wakes ((State.wakeUp_ticket hw).trans (by simp [hh, hj])), State.retires_retire _ 4⟩
  · exact (State.wakeUp_ticket hw).trans (by simp [hh, hj])
  · subst hS
    exact ⟨_, wakes (State.wakeUp_hostTaken hw hf hi), State.done_gives _ d _ 4⟩
  · subst hS
    exact State.wakeUp_hostTaken_waits hw hi
  · subst hS hl
    refine ⟨_, wakes ((State.wakeUp_hostGiven hw).trans (if_pos hn)), ?_⟩
    have ht := State.retires_retire (({ s with cur := b.toNat } : State).putSet (setOf b.toNat) { s.slotSet (setOf b.toNat) with
      egress := (s.slotSet (setOf b.toNat)).egress.put ch.toNat ((s.slotSet (setOf b.toNat)).egress.findD ch.toNat [] ++ [p]) }) 4
    rw [State.own_putSet] at ht
    exact ht
  · subst hS hl
    exact (State.wakeUp_hostGiven hw).trans (if_neg (Nat.not_lt.mpr hn))
  · exact ⟨_, wakes (State.wakeUp_event hw), State.retires_retire _ 4⟩
  · exact (State.wakeUp_collective hw).trans (if_pos hc)
  · exact (State.wakeUp_collective hw).trans (if_neg hc)

end Sys2Proof.Machine
end


section
namespace Sys2Proof.Machine

theorem exec_cmdLoad (s : State) : exec .cmdLoad s = execCmdLoad s := rfl
theorem exec_cmdLoadsaved (s : State) : exec .cmdLoadsaved s = execCmdLoadsaved s := rfl
theorem exec_cmdSave (s : State) : exec .cmdSave s = execCmdSave s := rfl
theorem exec_cmdStop (s : State) : exec .cmdStop s = execCmdStop s := rfl
theorem exec_cmdFault (s : State) : exec .cmdFault s = execCmdFault s := rfl
theorem exec_cmdRelease (s : State) : exec .cmdRelease s = execCmdRelease s := rfl
theorem exec_cmdSwitch (s : State) : exec .cmdSwitch s = execCmdSwitch s := rfl

/-! ## A command of the mailbox (R449, R450) -/

theorem State.Runs.command {s : State} {code : Nat} {c : Command} {used : Nat → Bool} (h : s.Runs code c used) : s.command code = some c := by
  obtain ⟨hf, hc, hcode, hb, -, -, -⟩ := h
  simp [State.command, hf, hc, hcode, hb]

/-- A command that names a slot set runs when its words are in range. -/
theorem State.Runs.runCmd {s : State} {code : Nat} {c : Command} {used : Nat → Bool} (h : s.Runs code c used) (f : Command → State) :
    s.runCmd code true used f = f c := by
  have hok : c.ok true used = true := by
    obtain ⟨-, -, -, -, hr, hs, hu⟩ := h
    simp only [Command.ok, hr, if_true, hs, decide_true, Bool.and_true, Bool.true_and, List.all_eq_true]
    exact hu
  rw [State.runCmd, h.command]
  exact if_pos hok

/-- An instruction that runs such a command. -/
theorem State.Runs.exec {s : State} {code : Nat} {c : Command} {used : Nat → Bool} (h : s.Runs code c used) {f : Command → State} {r : Res}
    (hx : r = .next (s.runCmd code true used f)) : r = .next (f c) := by
  rw [hx, h.runCmd]

/-- A command without a slot set runs when SET is zero too. -/
theorem State.Runs.runCmd_unnamed {s : State} {code : Nat} {c : Command} {used : Nat → Bool} (h : s.Runs code c used) (hs : c.set = 0)
    (f : Command → State) : s.runCmd code false used f = f c := by
  have hok : c.ok false used = true := by
    obtain ⟨-, -, -, -, hr, -, hu⟩ := h
    simp only [Command.ok, hr, hs, Bool.false_eq_true, if_false, le_refl, decide_true, Bool.true_and, List.all_eq_true]
    exact hu
  rw [State.runCmd, h.command]
  exact if_pos hok

theorem State.beginCmd_eq (s : State) (c : Command) (h : s.port.cmd = some c) :
    s.beginCmd = { s with port := { s.port with cmd := some { c with begun := true } } } := by
  rw [State.beginCmd, h]; rfl

theorem State.beginCmd_putSet (s : State) (t : Nat) (S : SlotSet) : (s.putSet t S).beginCmd = s.beginCmd.putSet t S := by
  unfold State.putSet
  split <;> rfl

/-! ## Changes of slot sets alone -/

/-- Nothing has changed but slot sets and the events waiting for the host. -/
def State.SetsFrame (s t : State) : Prop := t = { s with set0 := t.set0, set1 := t.set1, port := { s.port with waiting := t.port.waiting } }

theorem State.SetsFrame.trans {s t u : State} (h : s.SetsFrame t) (h' : t.SetsFrame u) : s.SetsFrame u :=
  Eq.trans h' (congrArg (fun v : State => { v with set0 := u.set0, set1 := u.set1, port := { v.port with waiting := u.port.waiting } }) h)

theorem State.setsFrame_putSet (s : State) (t : Nat) (S : SlotSet) : s.SetsFrame (s.putSet t S) := by
  unfold State.SetsFrame State.putSet
  split <;> rfl

theorem State.setsFrame_setCtx (s : State) (t : Nat) (st : CtxState) : s.SetsFrame (s.setCtx t st) := s.setCtx_only t st

theorem State.SetsFrame.cmd {s t : State} (h : s.SetsFrame t) : t.port.cmd = s.port.cmd := by rw [State.SetsFrame] at h; rw [h]

/-- A command that goes on after a change of the slot sets. -/
theorem State.SetsFrame.beginCmd {s t : State} (h : s.SetsFrame t) {c : Command} (hc : s.port.cmd = some c) :
    t.beginCmd = { s with
      set0 := t.set0, set1 := t.set1, port := { s.port with waiting := t.port.waiting, cmd := some { c with begun := true } } } := by
  rw [t.beginCmd_eq c (h.cmd.trans hc)]
  exact congrArg (fun v : State => { v with port := { v.port with cmd := some { c with begun := true } } }) h

/-- The partner of a partner. -/
theorem partner_partner {t : Nat} (h : t ≤ 1) : 1 - (1 - t) = t := by omega

/-- A slot set that begins to load (R82): an image by its number, or a saved context. -/
theorem State.load_frame (s : State) (t : Nat) (S : SlotSet) (st : CtxState) : s.SetsFrame (((s.weigh t).putSet t S).setCtx t st) :=
  ((s.setsFrame_putSet t _).trans (State.setsFrame_putSet _ t S)).trans (State.setsFrame_setCtx _ t st)

theorem State.load_partner (s : State) (t : Nat) (S : SlotSet) (st : CtxState) (ht : t < 2) :
    (((s.weigh t).putSet t S).setCtx t st).slotSet (1 - t) = s.slotSet (1 - t) := by
  rw [State.slotSet_setCtx_partner _ _ _ ht, State.slotSet_putSet_partner _ _ _ ht, State.slotSet_weigh_partner _ _ ht]

theorem State.load_set (s : State) (t : Nat) (S : SlotSet) (st : CtxState) : (((s.weigh t).putSet t S).setCtx t st).slotSet t = { S with st := st } := by
  rw [State.slotSet_setCtx, State.slotSet_putSet]

/-! ## The commands on contexts (R450) -/

theorem execCmdSave_runs {s : State} {c : Command} {used : Nat → Bool} (h : s.Runs 3 c used) :
    execCmdSave s = .next (s.runCmd 3 true (fun _ => false) fun c =>
      if s.dropped c.set || !(((s.slotSet c.set).img.map Image.saveArea).getD false) then s.finishCmd 3 []
      else if (s.slotSet c.set).st = .standby then ((s.weigh c.set).putSet c.set { (s.weigh c.set).slotSet c.set with saveCmd := true }).beginCmd
      else if (s.slotSet c.set).st = .active then ((s.weigh c.set).putSet c.set { (s.weigh c.set).slotSet c.set with saveMark := true }).beginCmd
      else s.finishCmd 3 []) := by
  obtain ⟨-, hc, -, hb, -, -, -⟩ := h
  simp only [execCmdSave, hc, Option.filter_some, hb, Bool.and_false, Bool.false_eq_true, if_false]

theorem execCmdSave_begun {s : State} {c : Command} (hc : s.port.cmd = some c) (hcode : c.code = 3) (hb : c.begun = true) :
    execCmdSave s = .next (if (s.slotSet c.set).st = .standby ∨ (s.slotSet c.set).st = .active ∨ (s.slotSet c.set).st = .preempting then s else s.finishCmd 3 []) := by
  simp only [execCmdSave, hc, Option.filter_some, hb, hcode, beq_self_eq_true, Bool.and_self, if_true]

theorem State.groupsOf_isEmpty (s : State) (t : Nat) : (s.groupsOf t).isEmpty = true ↔ ∀ q ∈ s.groups, setOf q.1 ≠ t := by
  simp [State.groupsOf]

/-- A saved context that begins to load by a command: its set and the frame. -/
theorem State.weigh_loadSaved (s : State) (t : Nat) (q : SavedContext) :
    (s.weigh t).loadSaved t q = ((s.weigh t).putSet t { s.slotSet t with lastAt := some s.clock, img := q.set.img }).setCtx t .loading := by
  rw [State.loadSaved, State.slotSet_weigh]

/-- A mark of SAVE set by a command that goes on. -/
theorem State.weigh_mark (s : State) (t : Nat) (S : SlotSet) (c : Command) (hc : s.port.cmd = some c) :
    ((s.weigh t).putSet t S).beginCmd = ({ s with port := { s.port with cmd := some { c with begun := true } } } : State).putSet t S := by
  rw [State.weigh, State.putSet_putSet, State.beginCmd_putSet, s.beginCmd_eq c hc]

/-- The set of a Retired context emptied (R82). -/
theorem State.release_leaves (s : State) (t : Nat) (ht : t < 2) (u : State)
    (hu : (∃ im, u = ((s.weigh t).setCtx t .empty).vacate t im) ∨ u = ((s.weigh t).setCtx t .empty).putSet t SlotSet.fresh) :
    u.slotSet t = SlotSet.fresh ∧ u.slotSet (1 - t) = s.slotSet (1 - t) := by
  have hp : ((s.weigh t).setCtx t .empty).slotSet (1 - t) = s.slotSet (1 - t) :=
    (State.slotSet_setCtx_partner _ t _ ht).trans (s.slotSet_weigh_partner t ht)
  obtain ⟨im, rfl⟩ | rfl := hu
  · obtain ⟨hfresh, hpartner, -⟩ := ((s.weigh t).setCtx t .empty).vacate_leaves t im ht
    exact ⟨hfresh, hpartner.trans hp⟩
  · exact ⟨State.slotSet_putSet _ t _, (State.slotSet_putSet_partner _ t _ ht).trans hp⟩

/-- RELEASE of a Retired context whose groups have all ended. -/
theorem execCmdRelease_empties {s : State} {c : Command} (hr : s.Runs 6 c (fun _ => false)) (hst : (s.slotSet c.set).st = .retired)
    (hd : s.dropped c.set = false) (hg : ∀ q ∈ s.groups, setOf q.1 ≠ c.set) :
    ∃ u : State, exec .cmdRelease s = .next (u.answered 0 []) ∧
      ((∃ im, u = ((s.weigh c.set).setCtx c.set .empty).vacate c.set im) ∨ u = ((s.weigh c.set).setCtx c.set .empty).putSet c.set SlotSet.fresh) := by
  have hx := hr.exec (exec_cmdRelease s)
  simp only [hd, hst, (s.groupsOf_isEmpty c.set).mpr hg, Bool.false_eq_true, reduceCtorEq, if_false, if_true, Bool.not_true] at hx
  cases hi : (s.slotSet c.set).img with
  | none => rw [hi] at hx; exact ⟨_, hx, Or.inr rfl⟩
  | some im => rw [hi] at hx; exact ⟨_, hx, Or.inl ⟨im, rfl⟩⟩

/-- A switch by command, seen from the state before the event is weighed. -/
theorem State.weigh_switches (s : State) (t : Nat) (ht : t < 2) (hd : (s.slotSet (1 - t)).conductorDone = true) :
    s.SwitchFrame ((s.weigh t).beginSwitch t) ∧
    ((s.weigh t).beginSwitch t).slotSet t = { s.slotSet t with st := .preempting, drained := [], lastAt := some s.clock } ∧
    ((s.weigh t).beginSwitch t).slotSet (1 - t) = { s.slotSet (1 - t) with st := .active } ∧
    ∀ h, ((s.weigh t).beginSwitch t).group h = if setOf h = t then stopGroup (s.group h) else resumeGroup (s.group h) := by
  have hp := s.slotSet_weigh_partner t ht
  obtain ⟨hframe, hleft, hentered, hgroups⟩ := (s.weigh t).beginSwitch_switches t ht (by rw [hp]; exact hd)
  refine ⟨(s.switchFrame_putSet t _).trans hframe, ?_, ?_, fun h => ?_⟩
  · rw [hleft, State.slotSet_weigh]
  · rw [hentered, hp]
  · rw [hgroups, State.weigh, State.group_putSet]

/-- Settles O50: each command by `State.Runs.runCmd` and the rule of the change of context it makes. -/
theorem contextCommandResults : Obligations.ContextCommandResults := by
  unfold Obligations.ContextCommandResults
  rintro s c T S rfl rfl
  refine ⟨fun hr ha => ?_, fun hr found hf => ?_, fun hr => ?_, fun b hb hcode hbegun => ?_, fun hr => ?_, fun hr => ?_, fun hr => ?_, fun hr P hP => ?_⟩
  · have hx := hr.exec (exec_cmdLoad s)
    rw [if_neg (show ¬ c.arg 24 1 > 1 from Nat.not_lt.mpr ha)] at hx
    obtain ⟨-, hcmd, -, -, -, hset, -⟩ := hr
    refine ⟨fun h => ?_, fun he hd => ?_⟩
    · rw [if_pos h] at hx; exact hx
    · rw [if_neg (by simp [he, hd])] at hx
      refine ⟨_, hx, ?_, ?_, ?_⟩
      · exact congrArg (fun v : State => { v with fresh := s.fresh + 1 }) ((s.load_frame c.set _ .loading).beginCmd hcmd)
      · exact (s.load_set c.set _ .loading).trans (by rw [State.slotSet_weigh])
      · exact s.load_partner c.set _ .loading (by omega)
  · subst hf
    have hx := hr.exec (exec_cmdLoadsaved s)
    obtain ⟨-, hcmd, -, -, -, hset, -⟩ := hr
    refine ⟨fun h => ?_, fun he hd hn => ?_, fun q he hd hq => ?_⟩
    · rw [if_pos h] at hx; exact hx
    · rw [if_neg (by simp [he, hd])] at hx
      exact hx.trans (by rw [Command.arg, hn]; rfl)
    · rw [if_neg (by simp [he, hd])] at hx
      simp only [Command.arg, hq, State.weigh_loadSaved] at hx
      exact ⟨_, hx, (s.load_frame c.set _ .loading).beginCmd hcmd, s.load_set c.set _ .loading, s.load_partner c.set _ .loading (by omega)⟩
  · have hx := hr.exec ((exec_cmdSave s).trans (execCmdSave_runs hr))
    obtain ⟨-, hcmd, -, -, -, -, -⟩ := hr
    refine ⟨fun h => ?_, fun hd hi hst => ?_⟩
    · by_cases hsave : (s.dropped c.set || !(((s.slotSet c.set).img.map Image.saveArea).getD false)) = true
      · rw [if_pos hsave] at hx; exact hx
      · have hst : (s.slotSet c.set).st ≠ .standby ∧ (s.slotSet c.set).st ≠ .active := by
          rcases h with h | h | h
          · simp [h] at hsave
          · simp [h] at hsave
          · exact h
        rw [if_neg hsave, if_neg hst.1, if_neg hst.2] at hx
        exact hx
    · simp only [hd, hi, Bool.not_true, Bool.or_self, Bool.false_eq_true, if_false, State.slotSet_weigh, s.weigh_mark c.set _ c hcmd] at hx
      rcases hst with hst | hst
      · simp only [hst, if_true] at hx
        exact ⟨_, hx, by simp only [hst, if_true, reduceCtorEq, if_false]⟩
      · simp only [hst, if_true, reduceCtorEq, if_false] at hx
        exact ⟨_, hx, by simp only [hst, if_true, reduceCtorEq, if_false]⟩
  · have hx := (exec_cmdSave s).trans (execCmdSave_begun hb hcode hbegun)
    refine ⟨fun h => ?_, fun h => ?_⟩
    · rw [if_pos (by simpa using h)] at hx; exact hx
    · rw [if_neg (by simpa using h)] at hx; exact hx
  · have hx := hr.exec (exec_cmdStop s)
    obtain ⟨-, -, -, -, -, hset, -⟩ := hr
    refine ⟨fun h => ?_, fun hst hd => ?_⟩
    · rw [if_pos h] at hx; exact hx
    · rw [if_neg (by simp [hst, hd])] at hx
      obtain ⟨hret, hq, hi, he, hw, -⟩ := s.halt_retired c.set (by omega) hd
      exact ⟨_, hx, hret, hq, hi, he, hw⟩
  · have hx := hr.exec (exec_cmdFault s)
    obtain ⟨-, -, -, -, -, hset, -⟩ := hr
    refine ⟨fun h => ?_, fun h => ?_⟩
    · rw [if_pos (by simpa using h)] at hx; exact hx
    · rw [if_neg (by have := h; simp at this; tauto)] at hx
      exact ⟨_, hx, s.faultContext_faults c.set 0xF1 0 0 (by omega) h (by decide) (by decide) (by decide)⟩
  · have hx := hr.exec (exec_cmdRelease s)
    have hset : c.set < 2 := by obtain ⟨-, -, -, -, -, hset, -⟩ := hr; omega
    refine ⟨fun h => ?_, fun hst hd => ?_, fun hst hd hg => ?_, fun hst hd hg => ?_, fun hf hret => ?_⟩
    · rw [if_pos h] at hx; exact hx
    · simp only [hd, hst, Bool.false_eq_true, if_false, if_true] at hx
      exact ⟨_, hx, ((s.weigh c.set).retireContext_retired c.set hset).1⟩
    · obtain ⟨u, hu, hleft⟩ := execCmdRelease_empties hr hst hd hg
      exact ⟨u, hu, s.release_leaves c.set hset u hleft⟩
    · have he : (s.groupsOf c.set).isEmpty = false := by
        rw [Bool.eq_false_iff, ne_eq, State.groupsOf_isEmpty]
        obtain ⟨q, hq, hs⟩ := hg
        exact fun h => h q hq hs
      simp only [hd, hst, he, Bool.false_eq_true, reduceCtorEq, if_false, if_true, Bool.not_false] at hx
      exact hx
    · simp only [hf, hret, if_false, ite_self] at hx
      exact hx
  · subst hP
    have hx := hr.exec (exec_cmdSwitch s)
    obtain ⟨-, -, -, -, -, hset, -⟩ := hr
    have hback := partner_partner hset
    refine ⟨fun h => ?_, fun hp hst hd hcd => ?_⟩
    · rw [if_pos] at hx
      · exact hx
      · rcases h with h | h | h
        · exact Or.inl h
        · refine Or.inr (Or.inl ?_)
          rw [State.switchStatus, hback, if_pos h]
          split <;> decide
        · exact Or.inr (Or.inr h)
    · have hs : s.switchStatus (1 - c.set) = 0 := by simp [State.switchStatus, hback, hst]
      rw [if_neg (by simp [hp, hs, hd])] at hx
      have hsw := s.weigh_switches (1 - c.set) (by omega) (by rw [hback]; exact hcd)
      rw [hback] at hsw
      obtain ⟨hframe, hleft, hentered, hgroups⟩ := hsw
      refine ⟨_, hx, hframe, hleft, hentered, fun h => (hgroups h).trans ?_⟩
      have := setOf_lt h
      by_cases ht : setOf h = 1 - c.set
      · rw [if_pos ht, if_pos ht]
      · rw [if_neg ht, if_neg ht, if_pos (by omega)]

end Sys2Proof.Machine
end


section
namespace Sys2Proof.Machine

/-! ## A group that leaves (R126, R141) -/

/-- A group's own part in its end: what keeps its slot from being freed. -/
def Group.SameWork (G H : Group) : Prop :=
  H.phase = G.phase ∧ H.kernid = G.kernid ∧ H.slices = G.slices ∧ H.late = G.late ∧ H.dataWait = G.dataWait ∧ H.sent = G.sent ∧ H.async = G.async ∧
  H.chan = G.chan

/-- A terminated group with no work in progress. -/
structure Group.Spent (G : Group) : Prop where
  phase : G.phase = .terminated
  slices : ∀ l ∈ G.slices.toList, l = []
  late : G.late = none
  dataWait : G.dataWait = none
  sent : G.sent = []
  async : G.async = []
  chan : ∀ c ∈ G.chan.toList, c = Channel.free

/-- On the way from `s` to `t` a spent group has left, and nothing that it did not hold has changed: no other group, no
byte of memory, no kernel of its slot set. -/
structure State.Leaving (s t : State) (g : Nat) : Prop where
  others : ∀ h, h ≠ g → t.group h = s.group h
  mem : t.mem = s.mem
  hostMem : t.hostMem = s.hostMem
  kernels : (t.slotSet (setOf g)).kernels = (s.slotSet (setOf g)).kernels
  kernid : (t.group g).kernid = (s.group g).kernid
  spent : (t.group g).Spent
  entries : t.entriesOf g = []
  transforms : t.transformsOf g = []
  posts : ∀ r ∈ (t.receiver (recvKey (dieOf g) (setOf g))).posts, r.group ≠ some g
  subs : ∀ u ∈ (t.seqAt (seqOf g)).subs, u.group ≠ g

theorem Group.Spent.of_sameWork {G H : Group} (h : G.Spent) (hw : G.SameWork H) : H.Spent := by
  obtain ⟨hp, -, hs, hl, hd, hsent, ha, hc⟩ := hw
  exact ⟨hp.trans h.phase, hs ▸ h.slices, hl.trans h.late, hd.trans h.dataWait, hsent.trans h.sent, ha.trans h.async, hc ▸ h.chan⟩

/-- A step that touches only what the leaving group does not work with. -/
theorem State.Leaving.step {s t u : State} {g : Nat} (h : s.Leaving t g) (ho : ∀ n, n ≠ g → u.group n = t.group n)
    (hw : (t.group g).SameWork (u.group g)) (hm : u.mem = t.mem) (hh : u.hostMem = t.hostMem)
    (hk : (u.slotSet (setOf g)).kernels = (t.slotSet (setOf g)).kernels) (hc : u.cells = t.cells)
    (hp : (u.receiver (recvKey (dieOf g) (setOf g))).posts = (t.receiver (recvKey (dieOf g) (setOf g))).posts)
    (hs : (u.seqAt (seqOf g)).subs = (t.seqAt (seqOf g)).subs) : s.Leaving u g where
  others n hn := (ho n hn).trans (h.others n hn)
  mem := hm.trans h.mem
  hostMem := hh.trans h.hostMem
  kernels := hk.trans h.kernels
  kernid := hw.2.1.trans h.kernid
  spent := h.spent.of_sameWork hw
  entries := (show u.entriesOf g = t.entriesOf g by simp only [State.entriesOf, State.cell, hc]).trans h.entries
  transforms := (show u.transformsOf g = t.transformsOf g by simp only [State.transformsOf, State.cell, hc]).trans h.transforms
  posts := hp ▸ h.posts
  subs := hs ▸ h.subs

theorem Group.SameWork.refl (G : Group) : G.SameWork G := ⟨rfl, rfl, rfl, rfl, rfl, rfl, rfl, rfl⟩

/-- A step that changes only units that hold no work of the group. -/
theorem State.Leaving.units {s t u : State} {g : Nat} (h : s.Leaving t g) (hg : u.groups = t.groups) (hm : u.mem = t.mem) (hh : u.hostMem = t.hostMem)
    (h0 : u.set0 = t.set0) (h1 : u.set1 = t.set1) (hc : u.cells = t.cells) (hr : u.receivers = t.receivers)
    (hs : (u.seqAt (seqOf g)).subs = (t.seqAt (seqOf g)).subs) : s.Leaving u g :=
  have hgroup : ∀ n, u.group n = t.group n := fun n => by rw [State.group, State.group, hg]
  h.step (fun n _ => hgroup n) (by rw [hgroup g]; exact Group.SameWork.refl _) hm hh (by rw [State.slotSet, State.slotSet, h0, h1]) hc
    (by rw [State.receiver, State.receiver, hr]) hs

/-- A step that changes the leaving group itself in what is not work. -/
theorem State.Leaving.putGroup {s t : State} {g : Nat} (h : s.Leaving t g) (G : Group) (hw : (t.group g).SameWork G) : s.Leaving (t.putGroup g G) g :=
  h.step (fun _ hn => t.group_putGroup_ne G hn) (by rw [State.group_putGroup]; exact hw) rfl rfl rfl rfl rfl rfl

/-- A receive engine whose messages travel on without the group that sent them. -/
def Receiver.orphan (g : Nat) (R : Receiver) : Receiver :=
  { R with
    tray := R.tray.map (Msg.orphan g), landing := R.landing.map fun p => (p.1, p.2.orphan g)
    waitingHost := R.waitingHost.map fun p => (p.1.orphan g, p.2), refused := R.refused.map (Msg.orphan g) }

theorem State.receivers_forgetSender (t : State) (g : Nat) :
    (t.forgetSender g).receivers = t.receivers.map fun e => (e.1, e.2.orphan g) := rfl

theorem State.posts_forgetSender (t : State) (g k : Nat) : ((t.forgetSender g).receiver k).posts = (t.receiver k).posts := by
  rw [State.receiver, State.receivers_forgetSender, Table.findD, Table.find_map t.receivers fun _ R => R.orphan g, State.receiver, Table.findD]
  cases Table.find t.receivers k <;> rfl

/-- The channels of a spent group are Free, and stay so when they are cut again. -/
theorem Channel.cut_free : Channel.free.cut = Channel.free := rfl

section
variable {s t : State} {g : Nat} (h : s.Leaving t g)
include h

theorem State.Leaving.emit (p : OutPacket) : s.Leaving (t.emit p) g := h.units rfl rfl rfl rfl rfl rfl rfl rfl

theorem State.Leaving.finishTicket (set die disp : Nat) : s.Leaving (t.finishTicket set die disp) g := h.units rfl rfl rfl rfl rfl rfl rfl rfl

theorem State.Leaving.leaveMisses : s.Leaving (t.leaveMisses g) g := h.units rfl rfl rfl rfl rfl rfl rfl rfl

theorem State.Leaving.dropAsked : s.Leaving (t.dropAsked g) g := h.units rfl rfl rfl rfl rfl rfl rfl rfl

theorem State.Leaving.tellFar (c : Contribution) (why : Nat) : s.Leaving (t.tellFar g c why) g :=
  List.foldlRecOn (motive := fun u => s.Leaving u g) _ _ h fun _ hu _ _ => hu.emit _

theorem State.Leaving.failContributions : s.Leaving (t.failContributions g) g := by
  have hfold := List.foldlRecOn (motive := fun u => s.Leaving u g) (t.colls.filter fun q => q.group == some g && !q.done)
    (fun st q => st.tellFar g q 0) h fun _ hu q _ => hu.tellFar q 0
  exact hfold.units rfl rfl rfl rfl rfl rfl rfl rfl

theorem State.Leaving.returnTickets : s.Leaving (t.returnTickets g) g := by
  refine State.Leaving.putGroup (List.foldlRecOn (motive := fun u => s.Leaving u g) _ _ h fun u hu q _ => ?_) _ ⟨rfl, rfl, rfl, rfl, rfl, rfl, rfl, rfl⟩
  show s.Leaving (if ticketHere q.1 then _ else _) g
  split
  · exact hu.finishTicket _ _ _
  · exact hu.emit _

/-- A group without a subscription has none to withdraw. -/
theorem State.Leaving.releaseKv : s.Leaving (t.releaseKv g) g := by
  have hq : ((t.seqAt (seqOf g)).subs.filter fun u => u.group == g) = [] := List.filter_eq_nil_iff.mpr fun u hu => by simpa using h.subs u hu
  simp only [State.releaseKv, hq, List.map_nil, List.foldl_nil]
  refine State.Leaving.putGroup ?_ _ ⟨rfl, rfl, rfl, rfl, rfl, rfl, rfl, rfl⟩
  split
  · exact h
  · exact h.units rfl rfl rfl rfl rfl rfl rfl (by rw [State.putSeq, State.seqAt, Table.findD_put_self])

theorem State.Leaving.forgetSender : s.Leaving (t.forgetSender g) g :=
  h.step (fun _ _ => rfl) (Group.SameWork.refl _) rfl rfl rfl rfl (t.posts_forgetSender g _) rfl

/-- A slot set written with its kernels kept. -/
theorem State.Leaving.putSet (S : SlotSet) (hk : S.kernels = (t.slotSet (setOf g)).kernels) : s.Leaving (t.putSet (setOf g) S) g := by
  refine h.step (fun n _ => t.group_putSet _ _ n) (by rw [State.group_putSet]; exact Group.SameWork.refl _) (by simp) (by simp) ?_ (by simp) ?_ ?_
  · rw [State.slotSet_putSet, hk]
  · rw [State.receiver, State.receiver, State.putSet_receivers]
  · rw [State.seqAt, State.seqAt, State.putSet_seqs]

theorem State.Leaving.releaseHoldings : s.Leaving (t.releaseHoldings g) g :=
  (((h.failContributions.returnTickets).releaseKv).forgetSender).putSet _ rfl

/-- The receives of a group that has posted none. -/
theorem State.Leaving.releaseRecvs : ∃ u, t.releaseRecvs g = (u, true) ∧ s.Leaving u g := by
  have hq : ((t.receiver (recvKey (dieOf g) (setOf g))).posts.filter fun r => r.group == some g) = [] :=
    List.filter_eq_nil_iff.mpr fun r hr => by simpa using h.posts r hr
  simp only [State.releaseRecvs, hq, List.map_nil, List.foldl_nil, Bool.not_true, Bool.false_eq_true, if_false]
  refine ⟨_, rfl, State.Leaving.putGroup ?_ _ ⟨rfl, rfl, rfl, rfl, rfl, rfl, rfl, rfl⟩⟩
  exact h.step (fun _ _ => rfl) (Group.SameWork.refl _) rfl rfl rfl rfl (by rw [State.receiver_putReceiver]) rfl

/-- A spent group has nothing that lingers. -/
theorem State.Leaving.lingers : t.lingers g = false := by
  have hsl : (t.group g).queued = false := by
    rw [Group.queued, List.any_eq_false]
    intro l hl
    simp [h.spent.slices l hl]
  have hch : (t.group g).chan.toList.any (fun c => decide (c.st = .copying)) = false := by
    rw [List.any_eq_false]
    intro c hc
    rw [h.spent.chan c hc]
    decide
  simp [State.lingers, hsl, hch, h.spent.late, h.spent.dataWait, h.spent.sent, h.spent.async, h.entries, h.transforms]

/-- A spent group's slot is freed at once. -/
theorem State.Leaving.tryFree : ∃ u, t.tryFree g = u.freeSlot g ∧ s.Leaving u g := by
  have hcut : s.Leaving (t.putGroup g { t.group g with chan := (t.group g).chan.map Channel.cut }) g := by
    refine h.putGroup _ ⟨rfl, rfl, rfl, rfl, rfl, rfl, rfl, ?_⟩
    refine Vector.ext fun i hi => ?_
    rw [Vector.getElem_map, h.spent.chan (t.group g).chan[i] (by simp), Channel.cut_free]
  obtain ⟨u, hu, hl⟩ := hcut.releaseRecvs
  refine ⟨u, ?_, hl⟩
  rw [State.tryFree, if_neg (by simp [h.spent.phase])]
  simp only [hu, hl.lingers, Bool.false_eq_true, if_false]

end

/-! ## The end of a Trapped group (R90, R116, R141) -/

/-- A channel with nothing on its way is Free once it is cut. -/
theorem Channel.cut_settled (c : Channel) (h : c.settled = true) : c.cut = Channel.free := by
  have hs : ({ c with owed := 0, tke := false } : Channel).settled = true := by
    simp only [Channel.settled, Bool.and_eq_true] at h ⊢
    exact ⟨h.1, rfl⟩
  rw [Channel.cut, Channel.leave, if_pos hs]

/-- A group as its termination leaves it. -/
def Group.terminated (G : Group) : Group :=
  { G.cutVector with
    phase := .terminated, causes := [], sfrq := [], interrupted := none, yield := none, barPending := none
    fifos := Vector.replicate 16 0, chan := G.chan.map Channel.cut }

/-- The state in which a group's kernel is told of its termination. -/
def State.forsaken (s : State) (g : Nat) : State := ((s.putGroup g (s.group g).terminated).discardEntries g).releaseHoldings g

theorem State.arrivePending_none (s : State) (g : Nat) (h : (s.group g).barPending = none) : s.arrivePending g = s := by
  simp only [State.arrivePending, h]

theorem State.terminate_eq (s : State) (g : Nat) (hs : (s.groups.find g).isSome = true) (ho : (s.group g).over = false) (hb : (s.group g).barPending = none) :
    s.terminate g = (((((s.forsaken g).barDepart g (s.group g).kernid).groupGone (setOf g) (s.group g).kernid
      (fun w => wordFail w 1)).leaveMisses g).tryFree g) := by
  have hc : ((s.groups.find g).isNone || (s.group g).over) = false := by
    rw [ho, Bool.or_false, Option.isNone_eq_false_iff]
    exact hs
  simp only [State.terminate, hc, Bool.false_eq_true, if_false, s.arrivePending_none g hb]
  rfl

/-- Entries discarded of a group that has none. -/
theorem State.Leaving.discardEntries {s t : State} {g : Nat} (h : s.Leaving t g) : s.Leaving (t.discardEntries g) g := by
  have hent := List.filter_eq_nil_iff.mp h.entries
  have htr := List.filter_eq_nil_iff.mp h.transforms
  rw [State.discardEntries]
  split
  · refine ⟨h.others, h.mem, h.hostMem, h.kernels, h.kernid, h.spent, ?_, ?_, h.posts, h.subs⟩
    · rw [State.entriesOf, State.cell_putCell, List.filter_eq_nil_iff]
      exact fun e he => hent e (List.mem_of_mem_filter he)
    · rw [State.transformsOf, State.cell_putCell, List.filter_eq_nil_iff]
      intro e he
      refine htr e ?_
      rw [CellState.tq] at he ⊢
      split at he <;> rename_i hz
      · rw [if_pos hz]; exact List.mem_of_mem_filter he
      · rw [if_neg hz]; exact List.mem_of_mem_filter he
  · exact h

theorem State.Leaving.terminated (s : State) (g : Nat) (h : ({ s with cur := g } : State).Rests) : s.Leaving (s.putGroup g (s.group g).terminated) g := by
  obtain ⟨⟨⟨hent, hasync, -⟩, -, hsl, hlate, hdata⟩, hsent, hconv, -, -, htr, hch, -, -, -, -, hposts, hsubs⟩ := h
  have hg : (s.putGroup g (s.group g).terminated).group g = (s.group g).terminated := s.group_putGroup _ _
  refine ⟨fun n hn => s.group_putGroup_ne _ hn, rfl, rfl, rfl, ?_, ?_, hent, htr, hposts, hsubs⟩
  · rw [hg]; rfl
  · rw [hg]
    refine ⟨rfl, ?_, hlate, hdata, hsent, hasync, ?_⟩
    · intro l hl
      obtain ⟨m, hm, rfl⟩ : ∃ m ∈ (s.group g).slices.toList, m.filter (fun a => !(s.group g).unissued a) = l := by
        simpa [Group.terminated, Group.cutVector] using hl
      rw [hsl m hm, List.filter_nil]
    · intro c hc
      obtain ⟨d, hd, rfl⟩ : ∃ d ∈ (s.group g).chan.toList, d.cut = c := by
        simpa [Group.terminated] using hc
      exact d.cut_settled (hch d hd)

theorem State.Leaving.forsaken (s : State) (g : Nat) (h : ({ s with cur := g } : State).Rests) : s.Leaving (s.forsaken g) g :=
  (State.Leaving.terminated s g h).discardEntries.releaseHoldings


theorem SlotSet.num_of_kernel? {S : SlotSet} {num : Nat} {k : Kernel} (h : S.kernel? num = some k) : k.num = num := by
  simpa using List.find?_some h

/-- A kernel's record replaced by one of the same number. -/
theorem SlotSet.kernel?_putKernel (S : SlotSet) (k j : Kernel) (num : Nat) (hk : S.kernel? num = some k) (hj : j.num = k.num) :
    (S.putKernel j).kernel? num = some j := by
  have hn := SlotSet.num_of_kernel? hk
  have hp : ((fun q : Kernel => q.num == num) ∘ fun q : Kernel => if q.num = j.num then j else q) = fun q => q.num == num := by
    funext q
    simp only [Function.comp]
    split
    · next hq => rw [hq]
    · rfl
  have hk' : S.kernels.find? (fun q => q.num == num) = some k := hk
  rw [SlotSet.kernel?, SlotSet.putKernel, List.find?_map, hp, hk', Option.map_some, if_pos hj.symm]

/-- A launch that waits no more for a group's writes. -/
def Kernel.settled (g : Nat) (k : Kernel) : Kernel := if (k.after.map Prod.fst) = some g then { k with after := none } else k

theorem SlotSet.kernel?_settleLaunches (S : SlotSet) (g num : Nat) : (S.settleLaunches g).kernel? num = (S.kernel? num).map (Kernel.settled g) := by
  have hp : ((fun q : Kernel => q.num == num) ∘ Kernel.settled g) = fun q => q.num == num := by
    funext q
    simp only [Function.comp, Kernel.settled]
    split <;> rfl
  have hs : (S.settleLaunches g).kernels = S.kernels.map (Kernel.settled g) := rfl
  rw [SlotSet.kernel?, hs, List.find?_map, hp]
  rfl

theorem Kernel.settled_counts (g : Nat) (k : Kernel) : (k.settled g).ended = k.ended ∧ (k.settled g).ngrp = k.ngrp ∧ (k.settled g).st = k.st := by
  unfold Kernel.settled
  split <;> exact ⟨rfl, rfl, rfl⟩

/-- A kernel with groups that have not ended goes on. -/
theorem State.finishKernel_goesOn (s : State) (t num : Nat) (k : Kernel) (hk : (s.slotSet t).kernel? num = some k) (he : k.ended ≠ k.ngrp) :
    s.finishKernel t num = s := by
  simp only [State.finishKernel, hk, he, false_and, and_false, if_false]

theorem Table.find_drop_self {α : Type} (t : Table α) (n : Nat) : Table.find (Table.drop t n) n = none := by
  induction t with
  | nil => rfl
  | cons e t ih =>
    rw [Table.drop]
    split
    · exact ih
    · next h => rw [Table.find, if_neg h]; exact ih

theorem Table.find_drop_ne {α : Type} (t : Table α) {n m : Nat} (h : m ≠ n) : Table.find (Table.drop t n) m = Table.find t m := by
  induction t with
  | nil => rfl
  | cons e t ih =>
    rw [Table.drop]
    split
    · next hn => rw [ih, Table.find, if_neg (hn ▸ h)]
    · rw [Table.find, Table.find, ih]

/-- The word of a kernel told of a group's end. -/
theorem State.putWord_stores (s : State) (t pa : Nat) (k : Kernel) (f : Word → Word) (hm : s.MemCanonical) (hc : k.cword = some pa)
    (hp : paHost pa = true ∨ paModule pa = false) :
    (s.putSet t ((s.slotSet t).putKernel { k with word := f k.word })).StoresAt (s.putWord t k f) none pa
      (toBytes 8 (f (BitVec.ofNat 64 (natOfBytes (s.readAt pa 8)))).toNat) := by
  have hfar : (paModule pa && !paHost pa) = false := by rcases hp with h | h <;> simp [h]
  generalize hu : s.putSet t ((s.slotSet t).putKernel { k with word := f k.word }) = u
  have hread : u.readAt pa 8 = s.readAt pa 8 := by rw [← hu]; simp only [State.readAt, State.putSet_mem, State.putSet_hostMem]
  have hcanon : u.MemCanonical := by rw [← hu]; exact ⟨by rw [State.putSet_mem]; exact hm.1, by rw [State.putSet_hostMem]; exact hm.2⟩
  have hw : s.putWord t k f = u.write none pa (toBytes 8 (f (BitVec.ofNat 64 (natOfBytes (s.readAt pa 8)))).toNat) := by
    rw [State.putWord, hu]
    simp only [hc, State.unitUpdate, hfar, Bool.false_eq_true, if_false, hread]
  rw [hw]
  exact u.writeAs_stores none none none pa _ hcanon (List.ne_nil_of_length_eq_add_one (toBytes_length 8 _))

/-- The end of a group of a kernel that goes on: its slot is free, and the kernel keeps its record. -/
theorem State.freeSlot_plain (s : State) (g : Nat) (k : Kernel) (hk : (s.slotSet (setOf g)).kernel? (s.group g).kernid = some k) (he : k.ended ≠ k.ngrp) :
    (s.freeSlot g).groups = s.groups.drop g ∧ (s.freeSlot g).mem = s.mem ∧ (s.freeSlot g).hostMem = s.hostMem ∧
    ((s.freeSlot g).slotSet (setOf g)).kernel? (s.group g).kernid = some (k.settled g) := by
  obtain ⟨hended, hngrp, -⟩ := k.settled_counts g
  generalize hu : ({ s.dropAsked g with groups := s.groups.drop g } : State).putSet (setOf g)
    { (s.slotSet (setOf g)).settleLaunches g with placeDue := true } = u
  have hset : (u.slotSet (setOf g)).kernel? (s.group g).kernid = some (k.settled g) := by
    rw [← hu, State.slotSet_putSet]
    exact (SlotSet.kernel?_settleLaunches _ g _).trans (by rw [hk]; rfl)
  have hx : s.freeSlot g = u := by
    refine Eq.trans ?_ (u.finishKernel_goesOn (setOf g) (s.group g).kernid _ hset (by rw [hended, hngrp]; exact he))
    rw [← hu]
    rfl
  rw [hx]
  refine ⟨?_, ?_, ?_, hset⟩
  · rw [← hu, State.putSet_groups]
  · rw [← hu, State.putSet_mem]; rfl
  · rw [← hu, State.putSet_hostMem]; rfl

/-- A write touches no group but one that waits for its line. -/
theorem touchGroup_terminated (by_ : Option Nat) (lo n g : Nat) (G : Group) (h : G.phase = .terminated) : touchGroup by_ lo n g G = G := by
  simp only [touchGroup, h]

/-- What the termination of a group at rest leaves of its kernel and of memory. -/
structure State.Terminates (s u : State) (g pa : Nat) (k : Kernel) : Prop where
  gone : u.groups.find g = none
  others : ∀ h, h ≠ g → u.group h = touchGroup none pa 8 h (s.group h)
  word : u.readAt pa 8 = toBytes 8 (wordFail (BitVec.ofNat 64 (natOfBytes (s.readAt pa 8))) 1).toNat
  only : s.OnlyWord u pa
  kernel : ∃ j, (u.slotSet (setOf g)).kernel? (s.group g).kernid = some j ∧ j.ended = k.ended + 1 ∧ j.st = k.st

/-- The kernel of a spent group told of its end. -/
theorem State.Leaving.putWord {s f : State} {g pa : Nat} {k : Kernel} (hl : s.Leaving f g) (hm : s.MemCanonical) (hc : k.cword = some pa)
    (hp : paHost pa = true ∨ paModule pa = false) (hk : (s.slotSet (setOf g)).kernel? (s.group g).kernid = some k) :
    ∃ w : State, w = f.putWord (setOf g) { k with ended := k.ended + 1 } (fun w => wordFail w 1) ∧ w.Leaving w g ∧
      (∀ h, h ≠ g → w.group h = touchGroup none pa 8 h (s.group h)) ∧ (w.group g).kernid = (s.group g).kernid ∧
      w.readAt pa 8 = toBytes 8 (wordFail (BitVec.ofNat 64 (natOfBytes (s.readAt pa 8))) 1).toNat ∧ s.OnlyWord w pa ∧
      (w.slotSet (setOf g)).kernel? (s.group g).kernid = some { k with ended := k.ended + 1, word := wordFail k.word 1 } := by
  refine ⟨_, rfl, ?_⟩
  have hread : f.readAt pa 8 = s.readAt pa 8 := by rw [State.readAt, State.readAt, hl.mem, hl.hostMem]
  have hst := f.putWord_stores (setOf g) pa { k with ended := k.ended + 1 } (fun w => wordFail w 1) (by rw [State.MemCanonical, hl.mem, hl.hostMem]; exact hm)
    hc hp
  rw [hread] at hst
  generalize f.putWord (setOf g) { k with ended := k.ended + 1 } (fun w => wordFail w 1) = w at hst ⊢
  have hkf : (f.slotSet (setOf g)).kernel? (s.group g).kernid = some k := by rw [SlotSet.kernel?, hl.kernels]; exact hk
  obtain ⟨honly, hword, hmem, hhost, hgroup⟩ := hst
  simp only [toBytes_length, State.putSet_mem, State.putSet_hostMem, State.group_putSet, hl.mem, hl.hostMem] at hword hmem hhost hgroup
  have hown : w.group g = f.group g := (hgroup g).trans (touchGroup_terminated _ _ _ _ _ hl.spent.phase)
  have hcells : w.cells = f.cells := (congrArg State.cells honly).trans (State.putSet_cells _ _ _)
  have hrecv : w.receivers = f.receivers := (congrArg State.receivers honly).trans (State.putSet_receivers _ _ _)
  have hseqs : w.seqs = f.seqs := (congrArg State.seqs honly).trans (State.putSet_seqs _ _ _)
  refine ⟨⟨fun _ _ => rfl, rfl, rfl, rfl, rfl, hown ▸ hl.spent, ?_, ?_, ?_, ?_⟩, fun h hh => ?_, ?_, hword, ⟨hmem, hhost⟩, ?_⟩
  · rw [State.entriesOf, State.cell, hcells]; exact hl.entries
  · rw [State.transformsOf, State.cell, hcells]; exact hl.transforms
  · rw [State.receiver, hrecv]; exact hl.posts
  · rw [State.seqAt, hseqs]; exact hl.subs
  · rw [hgroup, hl.others h hh]
  · rw [hown, hl.kernid]
  · have hset : w.slotSet (setOf g) = _ := (congrArg (fun v : State => v.slotSet (setOf g)) honly).trans (f.slotSet_putSet (setOf g) _)
    rw [hset]
    exact SlotSet.kernel?_putKernel _ k _ _ hkf rfl

/-- The kernel of a group that no barrier counts. -/
theorem State.barDepart_plain (s : State) (g num : Nat) (k : Kernel) (hk : (s.slotSet (setOf g)).kernel? num = some k) (hc : k.cohort = false) :
    s.barDepart g num = s := by
  simp only [State.barDepart, hk, hc, Bool.not_false, if_true]

/-- A Trapped group at rest terminated: its slot is free and its kernel counts one failed group more. -/
theorem State.terminate_terminates (s : State) (g pa : Nat) (k : Kernel) (hm : s.MemCanonical) (hr : ({ s with cur := g } : State).Rests)
    (hk : (s.slotSet (setOf g)).kernel? (s.group g).kernid = some k) (hco : k.cohort = false) (hc : k.cword = some pa)
    (hp : paHost pa = true ∨ paModule pa = false) (he : k.ended + 1 < k.ngrp) : s.Terminates (s.terminate g) g pa k := by
  have hl := State.Leaving.forsaken s g hr
  have hkf : ((s.forsaken g).slotSet (setOf g)).kernel? (s.group g).kernid = some k := by rw [SlotSet.kernel?, hl.kernels]; exact hk
  obtain ⟨w, hw, hlw, hothers, hkid, hword, honly, hkw⟩ := hl.putWord hm hc hp hk
  obtain ⟨x, hx, hlx⟩ := hlw.leaveMisses.tryFree
  obtain ⟨-, -, -, -, -, -, -, -, hb, ho, hs, -, -⟩ := hr
  have hterm : s.terminate g = x.freeSlot g := by
    rw [s.terminate_eq g hs ho hb, State.barDepart_plain _ g _ k hkf hco, State.groupGone]
    simp only [hkf]
    rw [← hw, State.finishKernel_goesOn w _ _ _ hkw (Nat.ne_of_lt he), hx]
  have hxid : (x.group g).kernid = (s.group g).kernid := hlx.kernid.trans hkid
  have hkx : (x.slotSet (setOf g)).kernel? (x.group g).kernid = some { k with ended := k.ended + 1, word := wordFail k.word 1 } := by
    rw [SlotSet.kernel?, hlx.kernels, hxid]; exact hkw
  obtain ⟨hgroups, hmem, hhost, hker⟩ := x.freeSlot_plain g _ hkx (Nat.ne_of_lt he)
  obtain ⟨hended, -, hst⟩ := Kernel.settled_counts g { k with ended := k.ended + 1, word := wordFail k.word 1 }
  rw [hterm]
  refine ⟨?_, fun h hh => ?_, ?_, ?_, _, hxid ▸ hker, hended, hst⟩
  · rw [hgroups]; exact Table.find_drop_self _ _
  · rw [State.group, hgroups, Table.findD, Table.find_drop_ne _ hh]
    exact (hlx.others h hh).trans (hothers h hh)
  · rw [State.readAt, hmem, hhost, hlx.mem, hlx.hostMem]; exact hword
  · rw [State.OnlyWord, hmem, hhost, hlx.mem, hlx.hostMem]; exact honly

end Sys2Proof.Machine
end


section
namespace Sys2Proof.Machine

theorem exec_cmdResume (s : State) : exec .cmdResume s = execCmdResume s := rfl
theorem exec_cmdTerminate (s : State) : exec .cmdTerminate s = execCmdTerminate s := rfl
theorem exec_cmdSetplim (s : State) : exec .cmdSetplim s = execCmdSetplim s := rfl
theorem exec_cmdTrainlink (out : Lanes) (s : State) : exec (.cmdTrainlink out) s = execCmdTrainlink out s := rfl
theorem exec_cmdTrainhbm (ok : Bool) (s : State) : exec (.cmdTrainhbm ok) s = execCmdTrainhbm ok s := rfl
theorem exec_cmdXlate (s : State) : exec .cmdXlate s = execCmdXlate s := rfl
theorem exec_cmdSpillret (s : State) : exec .cmdSpillret s = execCmdSpillret s := rfl
theorem exec_cmdAttest (ok : Bool) (s : State) : exec (.cmdAttest ok) s = execCmdAttest ok s := rfl
theorem exec_cmdQuery (s : State) : exec .cmdQuery s = execCmdQuery s := rfl

/-! ## Commands that do not run -/

theorem State.runCmd_idle (s : State) (code : Nat) (named : Bool) (used : Nat → Bool) (f : Command → State) (h : s.port.cmd = none) :
    s.runCmd code named used f = s := by
  simp only [State.runCmd, State.command, h, Option.filter_none, ite_self]

/-- A command whose reserved bits or SET are out of range. -/
theorem State.runCmd_outOfRange (s : State) (c : Command) (code : Nat) (named : Bool) (used : Nat → Bool) (f : Command → State) (hf : s.firmware = .running)
    (hc : s.port.cmd = some c) (hcode : c.code = code) (hb : c.begun = false) (hr : c.reserved ≠ 0 ∨ 1 < c.set) :
    s.runCmd code named used f = s.answered 2 [] := by
  have hcmd : s.command code = some c := by simp [State.command, hf, hc, hcode, hb]
  have hok : c.ok named used = false := by
    rcases hr with hr | hr
    · simp [Command.ok, hr]
    · have hs : ¬ c.set ≤ (if named then 1 else 0) := by split <;> omega
      simp [Command.ok, hs]
  rw [State.runCmd, hcmd]
  exact if_neg (by simp [hok])

/-- What an instruction of a command does unless its command has begun: its `runCmd`. -/
theorem execCmdSave_fresh (s : State) (h : ∀ c, s.port.cmd = some c → c.begun = false) :
    ∃ f, execCmdSave s = .next (s.runCmd 3 true (fun _ => false) f) := by
  have hn : (s.port.cmd.filter fun c => c.code == 3 && c.begun) = none := by
    cases hc : s.port.cmd with
    | none => rfl
    | some c => simp [h c hc]
  simp only [execCmdSave, hn]
  exact ⟨_, rfl⟩

theorem execCmdTrainlink_fresh (out : Lanes) (s : State) (h : ∀ c, s.port.cmd = some c → c.begun = false) :
    ∃ f, execCmdTrainlink out s = .next (s.runCmd 0xB false (fun o => decide (o < 1)) f) := by
  have hn : (s.port.cmd.filter fun c => c.code == 0xB && c.begun) = none := by
    cases hc : s.port.cmd with
    | none => rfl
    | some c => simp [h c hc]
  simp only [execCmdTrainlink, hn]
  exact ⟨_, rfl⟩

/-- Every command that has not begun is a `runCmd` of its code. -/
theorem exec_command (out : Lanes) (ok : Bool) (s : State) (h : ∀ c, s.port.cmd = some c → c.begun = false) (e : Instr × Nat)
    (he : e ∈ [(Instr.cmdLoad, 1), (.cmdLoadsaved, 2), (.cmdSave, 3), (.cmdStop, 4), (.cmdFault, 5), (.cmdRelease, 6), (.cmdSwitch, 7), (.cmdResume, 8),
      (.cmdTerminate, 9), (.cmdSetplim, 0xA), (.cmdTrainlink out, 0xB), (.cmdTrainhbm ok, 0xC), (.cmdXlate, 0xD), (.cmdSpillret, 0xE), (.cmdAttest ok, 0xF),
      (.cmdQuery, 0x10)]) :
    ∃ named used f, exec e.1 s = .next (s.runCmd e.2 named used f) := by
  obtain ⟨f, hf⟩ := execCmdSave_fresh s h
  obtain ⟨f', hf'⟩ := execCmdTrainlink_fresh out s h
  simp only [List.mem_cons, List.not_mem_nil, or_false] at he
  rcases he with rfl | rfl | rfl | rfl | rfl | rfl | rfl | rfl | rfl | rfl | rfl | rfl | rfl | rfl | rfl | rfl
  · exact ⟨_, _, _, exec_cmdLoad s⟩
  · exact ⟨_, _, _, exec_cmdLoadsaved s⟩
  · exact ⟨_, _, _, (exec_cmdSave s).trans hf⟩
  · exact ⟨_, _, _, exec_cmdStop s⟩
  · exact ⟨_, _, _, exec_cmdFault s⟩
  · exact ⟨_, _, _, exec_cmdRelease s⟩
  · exact ⟨_, _, _, exec_cmdSwitch s⟩
  · exact ⟨_, _, _, exec_cmdResume s⟩
  · exact ⟨_, _, _, exec_cmdTerminate s⟩
  · exact ⟨_, _, _, exec_cmdSetplim s⟩
  · exact ⟨_, _, _, (exec_cmdTrainlink out s).trans hf'⟩
  · exact ⟨_, _, _, exec_cmdTrainhbm ok s⟩
  · exact ⟨_, _, _, exec_cmdXlate s⟩
  · exact ⟨_, _, _, exec_cmdSpillret s⟩
  · exact ⟨_, _, _, exec_cmdAttest ok s⟩
  · exact ⟨_, _, _, exec_cmdQuery s⟩

/-! ## Trapped groups (R90) -/

theorem State.trappedGroup_range (s : State) (c : Command) (h : 511 < memNat c.args 0 2 ∨ 3 < memNat c.args 2 1) : s.trappedGroup c = .error 2 := by
  simp only [State.trappedGroup]
  exact if_pos h

section
variable {s : State} {c : Command} (hcell : memNat c.args 0 2 ≤ 511) (hslot : memNat c.args 2 1 ≤ 3)
include hcell hslot

theorem State.trappedGroup_notResident (h : (s.slotSet c.set).st ∉ [CtxState.active, .preempting, .standby]) : s.trappedGroup c = .error 3 := by
  simp only [State.trappedGroup]
  refine (if_neg ?_).trans (if_pos ?_)
  · simp only [Command.arg]; omega
  · simpa using h

theorem State.trappedGroup_notTrapped (h : (s.slotSet c.set).st ∈ [CtxState.active, .preempting, .standby])
    (hp : ∀ b, (s.group (groupCode (memNat c.args 0 2) c.set (memNat c.args 2 1))).phase ≠ .trapped b) : s.trappedGroup c = .error 6 := by
  simp only [State.trappedGroup]
  refine (if_neg ?_).trans ((if_neg ?_).trans ?_)
  · simp only [Command.arg]; omega
  · simp only [List.mem_cons, List.not_mem_nil, or_false] at h
    tauto
  · split
    · next b hb => exact absurd hb (hp b)
    · rfl

theorem State.trappedGroup_ok {b : Bool} (h : (s.slotSet c.set).st ∈ [CtxState.active, .preempting, .standby])
    (hp : (s.group (groupCode (memNat c.args 0 2) c.set (memNat c.args 2 1))).phase = .trapped b) :
    s.trappedGroup c = .ok (groupCode (memNat c.args 0 2) c.set (memNat c.args 2 1)) := by
  simp only [State.trappedGroup]
  refine (if_neg ?_).trans ((if_neg ?_).trans ?_)
  · simp only [Command.arg]; omega
  · simp only [List.mem_cons, List.not_mem_nil, or_false] at h
    tauto
  · simp only [Command.arg, hp]

end

/-- RESUME and TERMINATE of no Trapped group answer the status. -/
theorem exec_trapped_refused (s : State) (c : Command) (st : Nat) (ht : s.trappedGroup c = .error st) (e : Instr × Nat)
    (he : e ∈ [(Instr.cmdResume, 8), (.cmdTerminate, 9)]) (hr : s.Runs e.2 c (fun o => decide (o < 3))) : exec e.1 s = .next (s.answered st []) := by
  simp only [List.mem_cons, List.not_mem_nil, or_false] at he
  rcases he with rfl | rfl
  · have hx := hr.exec (exec_cmdResume s)
    rw [ht] at hx
    exact hx
  · have hx := hr.exec (exec_cmdTerminate s)
    rw [ht] at hx
    exact hx

/-- RESUME of a Trapped group that has not been interrupted in a wait. -/
theorem exec_cmdResume_trapped (s : State) (c : Command) (g : Nat) (G : Group) (hG : G = s.group g) (ht : s.trappedGroup c = .ok g)
    (hr : s.Runs 8 c (fun o => decide (o < 3))) (hi : G.interrupted = none) :
    exec .cmdResume s = .next ((s.putGroup g { G with
      level := .user, pc := G.trappc, chan := G.chan.map fun ch => ch.dropHeld fun h => h.pc != G.trappc, resume := bitOf G.vresume 16
      phase := (if (s.slotSet c.set).st = CtxState.active then .running else .preempted) }).answered 0 []) := by
  subst hG
  have hx := hr.exec (exec_cmdResume s)
  rw [ht] at hx
  simp only [(s.group g).returnFromTrap_plain hi] at hx
  refine hx.trans ?_
  by_cases ha : (s.slotSet c.set).st = .active
  · simp only [ha, ne_eq, not_true_eq_false, and_false, if_false, if_true]; rfl
  · simp only [ha, ne_eq, not_false_eq_true, Group.otherStrips, and_self, if_false, if_true]; rfl

/-- TERMINATE of a Trapped group. -/
theorem exec_cmdTerminate_trapped (s : State) (c : Command) (g : Nat) (ht : s.trappedGroup c = .ok g)
    (hr : s.Runs 9 c (fun o => decide (o < 3))) : exec .cmdTerminate s = .next ((s.terminate g).answered 0 []) := by
  have hx := hr.exec (exec_cmdTerminate s)
  rw [ht] at hx
  exact hx

/-! ## Links and stacks (R403, R453) -/

theorem trained_full (reduced : Bool) (k : Nat) : trained reduced k .full = if reduced = true ∧ k < 10 then .degraded else .up := by
  simp [trained]

/-- The training of a link that a TRAINLINK waits for ends the command. -/
theorem State.endTraining_trainCmd (s : State) (k : Nat) (out : Lanes) (c : Command) (hc : s.port.cmd = some c) (hb : c.begun = true) (hcode : c.code = 0xB)
    (hk : k = memNat c.args 0 1) :
    s.endTraining k out = ({ s with links := s.links.put k { st := trained s.reduced k out, replays := 0, held := false } } : State).answered
      (if trained s.reduced k out = .failed then 0xA else 0) (leCells 0 1 (trained s.reduced k out).code) := by
  have ht : s.trainCmd k = true := by simp only [State.trainCmd, hc, hb, hcode, hk, decide_true, Bool.and_self]
  simp only [State.endTraining, ht, if_true]
  rfl

/-- TRAINLINK that has begun, by the state of its link. -/
theorem execCmdTrainlink_begun (out : Lanes) (s : State) (c : Command) (hc : s.port.cmd = some c) (hcode : c.code = 0xB) (hb : c.begun = true) :
    execCmdTrainlink out s = .next (if (s.link (c.arg 0 1)).st = .training then s.endTraining (c.arg 0 1) out else s) := by
  simp only [execCmdTrainlink, hc, Option.filter_some, hb, hcode, beq_self_eq_true, Bool.and_self, if_true]

/-- TRAINLINK as it starts, by the state of its link. -/
theorem exec_cmdTrainlink_runs {s : State} {c : Command} (hr : s.Runs 0xB c (fun o => decide (o < 1))) (hset : c.set = 0) (out : Lanes) :
    (linkKnown (c.arg 0 1) = false → exec (.cmdTrainlink out) s = .next (s.answered 2 [])) ∧
    (linkKnown (c.arg 0 1) = true →
      ((s.link (c.arg 0 1)).st = .up ∨ (s.link (c.arg 0 1)).st = .degraded → exec (.cmdTrainlink out) s = .next (s.answered 3 [])) ∧
      ((s.link (c.arg 0 1)).st ∈ [LinkState.down, .failed, .training] → exec (.cmdTrainlink out) s = .next ({ s with
        links := s.links.put (c.arg 0 1) { st := .training, replays := 0, held := (s.link (c.arg 0 1)).held } } : State).beginCmd) ∧
      ((s.link (c.arg 0 1)).st = .retraining → exec (.cmdTrainlink out) s = .next (s.beginCmd.endTraining (c.arg 0 1) out))) := by
  have hx := exec_cmdTrainlink out s
  obtain ⟨-, hc, -, hb, -, -, -⟩ := id hr
  simp only [execCmdTrainlink, hc, Option.filter_some, hb, Bool.and_false, Bool.false_eq_true, if_false] at hx
  rw [hr.runCmd_unnamed hset] at hx
  refine ⟨fun hk => ?_, fun hk => ⟨fun hl => ?_, fun hl => ?_, fun hl => ?_⟩⟩
  · rw [hk] at hx; exact hx
  · rcases hl with hl | hl
    · rw [hk, hl] at hx; exact hx
    · rw [hk, hl] at hx; exact hx
  · simp only [List.mem_cons, List.not_mem_nil, or_false] at hl
    rcases hl with hl | hl | hl
    · simp only [hk, hl] at hx; exact hx
    · simp only [hk, hl] at hx; exact hx
    · simp only [hk, hl] at hx; exact hx
  · rw [hk, hl] at hx; exact hx

theorem linkKnown_eq (k : Nat) : linkKnown k = true ↔ k < 10 ∨ 16 ≤ k ∧ k < 64 := by
  simp [linkKnown]

theorem stackBit_eq (d k : Nat) : stackBit d k = BitVec.twoPow 16 (2 * d + k) := by
  apply BitVec.eq_of_toNat_eq
  simp [stackBit, BitVec.toNat_twoPow]

/-- A bit of HBMOK. -/
theorem and_stackBit (x : BitVec 16) (d k : Nat) : x &&& stackBit d k = if x.getLsbD (2 * d + k) then stackBit d k else 0 := by
  rw [stackBit_eq, BitVec.and_twoPow]
  rfl

theorem stackBit_ne_zero (d k : Nat) (hd : d ≤ 7) (hk : k ≤ 1) : stackBit d k ≠ 0 := by
  intro h
  have hn := congrArg BitVec.toNat h
  rw [stackBit_eq, BitVec.toNat_twoPow_of_lt (by omega)] at hn
  exact absurd hn (by simp)

/-- TRAINHBM of a stack by its bit of HBMOK. -/
theorem exec_cmdTrainhbm_runs {s : State} {c : Command} (hr : s.Runs 0xC c (fun o => decide (o < 2))) (hset : c.set = 0) (ok : Bool) :
    (c.arg 0 1 > 7 ∨ c.arg 1 1 > 1 → exec (.cmdTrainhbm ok) s = .next (s.answered 2 [])) ∧
    (c.arg 0 1 ≤ 7 → c.arg 1 1 ≤ 1 → exec (.cmdTrainhbm ok) s = .next (
      if s.hbmok.getLsbD (2 * c.arg 0 1 + c.arg 1 1) = true then s.answered 3 []
      else if ok then ({ s with hbmok := s.hbmok ||| stackBit (c.arg 0 1) (c.arg 1 1) } : State).answered 0 (leCells 0 1 1)
      else s.answered 0xA [])) := by
  have hx := exec_cmdTrainhbm ok s
  rw [execCmdTrainhbm, hr.runCmd_unnamed hset] at hx
  refine ⟨fun h => ?_, fun hd hk => ?_⟩
  · rw [if_pos h] at hx; exact hx
  · rw [if_neg (by omega), and_stackBit] at hx
    by_cases hb : s.hbmok.getLsbD (2 * c.arg 0 1 + c.arg 1 1) = true
    · rw [if_pos hb, if_pos (stackBit_ne_zero _ _ hd hk)] at hx
      rw [if_pos hb]; exact hx
    · rw [if_neg hb, if_neg (fun h => h rfl)] at hx
      rw [if_neg hb]; exact hx

/-! ## Answers of the host (R360, R436) -/

/-- XLATE as it runs, by its mode and by whether a translation request has its number. -/
theorem exec_cmdXlate_runs {s : State} {c : Command} (hr : s.Runs 0xD c (fun o => decide (o < 4 ∨ (8 ≤ o ∧ o < 17)))) {id : Nat} (hid : id = c.arg 0 4) :
    (c.arg 16 1 > 1 → exec .cmdXlate s = .next (s.answered 2 [])) ∧
    (c.arg 16 1 ≤ 1 → s.port.requests.find id = none → exec .cmdXlate s = .next (s.answered 8 [])) ∧
    ∀ die granule, s.port.requests.find id = some (.translate die c.set granule) →
      (c.arg 16 1 = 1 → exec .cmdXlate s = .next ((s.answerMiss id none).answered 0 [])) ∧
      (c.arg 16 1 = 0 → ∀ leaf, leaf = c.arg 8 8 → exec .cmdXlate s = .next ((s.answerMiss id (some leaf)).answered 0 [])) := by
  subst hid
  have hx := hr.exec (exec_cmdXlate s)
  refine ⟨fun h => ?_, fun h hf => ?_, fun die granule hf => ⟨fun h => ?_, fun h leaf hleaf => ?_⟩⟩
  · rw [if_pos h] at hx; exact hx
  · rw [if_neg (Nat.not_lt.mpr h)] at hx
    simp only [hf] at hx
    exact hx
  · rw [if_neg (by omega)] at hx
    simp only [hf, h, if_true] at hx
    exact hx
  · rw [if_neg (by omega)] at hx
    simp only [hf, h, if_true, Nat.zero_ne_one, if_false] at hx
    rw [hleaf]
    exact hx

/-- An answer whose leaf gives the miss's first access what it needs is installed. -/
theorem State.answerMiss_installs (s : State) (id die t granule : Nat) (m : Miss) (im : Image) (leaf : Nat)
    (hf : s.port.requests.find id = some (.translate die t granule)) (hm : (s.tr.misses.findD die []).find? (fun m => m.request == some id) = some m)
    (hi : (s.slotSet t).img = some im) (h0 : entryBit leaf 0 = true) (h1 : entryBit leaf 1 = true) (hmal : malformed s.hbmuse im.apertures 0 leaf = false)
    (hp : permits (missKind m.kind) leaf = true) :
    ∃ u : State, s.answerMiss id (some leaf) = u ∧ u = { s with tr := u.tr, port := { s.port with requests := s.port.requests.drop id } } ∧
      TlbEntry.mk im.num (granule * 4096 / 2 ^ pageLog 0 leaf) (pageLog 0 leaf) leaf none ∈ u.tr.dies.findD die [] := by
  have hi' : (({ s with port := { s.port with requests := s.port.requests.drop id } } : State).slotSet t).img = some im := hi
  have hx : ∃ x : Xlate, s.answerMiss id (some leaf) = { s with
      tr := x.install t die none (tlbEntry true im.num (granule * 4096) leaf (pageLog 0 leaf))
      port := { s.port with requests := s.port.requests.drop id } } := by
    simp only [State.answerMiss, hf, hm, hi', h0, h1, hmal, hp, Bool.not_false, Bool.and_self, if_true]
    exact ⟨_, rfl⟩
  obtain ⟨x, hx⟩ := hx
  exact ⟨_, rfl, by rw [hx], by rw [hx]; exact Xlate.mem_install _ _ _ _ _⟩

/-- With ATS off every page of host memory that firmware names is granted at once (R446). -/
theorem Xlate.hostPages_off (x : Xlate) (t : Nat) (l : List Nat) : ∃ n, (x.hostPages false t l) = (x, .ok n 0 0) := by
  induction l with
  | nil => exact ⟨0, rfl⟩
  | cons p ps ih => exact ih

theorem State.hostAccess_off (s : State) (t pa n : Nat) (h : s.port.ats = false) : ∃ m, s.hostAccess t pa n = (s, .ok m 0 0) := by
  rw [State.hostAccess, h]
  obtain ⟨m, hm⟩ := s.tr.hostPages_off t ((upFrom 0 (n / 4096 + 2)).filterMap fun i =>
    if pa / 4096 * 4096 + 4096 * i < pa + n then some (pa / 4096 * 4096 + 4096 * i) else none)
  exact ⟨m, by rw [hm]⟩

/-- SPILLRET as it runs, by its mode and by whether a spill return request has its number. -/
theorem exec_cmdSpillret_runs {s : State} {c : Command} (hr : s.Runs 0xE c (fun o => decide (o < 5))) {id : Nat} (hid : id = c.arg 0 4) :
    (c.arg 4 1 > 1 → exec .cmdSpillret s = .next (s.answered 2 [])) ∧
    (c.arg 4 1 ≤ 1 → s.port.requests.find id = none → exec .cmdSpillret s = .next (s.answered 8 [])) ∧
    ∀ die, s.port.requests.find id = some (.spill die c.set) → ∀ u : State,
      (c.arg 4 1 = 1 → s.spillAnswer id true = (u, true) → exec .cmdSpillret s = .next (u.answered 0 [])) ∧
      (c.arg 4 1 = 0 → s.spillAnswer id false = (u, true) → exec .cmdSpillret s = .next (u.answered 0 [])) := by
  subst hid
  have hx := hr.exec (exec_cmdSpillret s)
  refine ⟨fun h => ?_, fun h hf => ?_, fun die hf u => ⟨fun h hu => ?_, fun h hu => ?_⟩⟩
  · rw [if_pos h] at hx; exact hx
  · rw [if_neg (Nat.not_lt.mpr h)] at hx
    simp only [hf] at hx
    exact hx
  · rw [if_neg (by omega)] at hx
    simp only [hf, h, if_true, decide_true, hu] at hx
    exact hx
  · rw [if_neg (by omega)] at hx
    simp only [hf, h, if_true, Nat.zero_ne_one, decide_false, hu] at hx
    exact hx

/-- A refusal always ends the request. -/
theorem State.spillAnswer_refusal (s : State) (id die t : Nat) (hf : s.port.requests.find id = some (.spill die t)) : ∃ u, s.spillAnswer id true = (u, true) := by
  cases hw : (s.receiver (recvKey die t)).waitingHost.find? fun w => w.2 == id with
  | none => simp only [State.spillAnswer, hf, hw]; exact ⟨_, rfl⟩
  | some w => simp only [State.spillAnswer, hf, hw, if_true]; exact ⟨_, rfl⟩

/-- A message that the host returns comes back to its place in the tray. -/
theorem State.spillAnswer_returns (s : State) (id die t : Nat) (m : Msg) (im : Image) (hf : s.port.requests.find id = some (.spill die t))
    (ha : s.port.ats = false) (hw : (s.receiver (recvKey die t)).waitingHost.find? (fun w => w.2 == id) = some (m, id)) (hi : (s.slotSet t).img = some im) :
    s.spillAnswer id false = ((({ s with port := { s.port with requests := s.port.requests.drop id } } : State).putReceiver (recvKey die t)
      { s.receiver (recvKey die t) with
        waitingHost := (s.receiver (recvKey die t)).waitingHost.filter fun w => w.2 != id
        tray := (s.receiver (recvKey die t)).tray.map fun q => if q = m
          then { m with payload := s.readAt (2 ^ 51 + im.hostSpillAddr + m.spill.getD 0) m.payload.length, back := true, spill := none } else q }), true) := by
  obtain ⟨n, hn⟩ := s.hostAccess_off t (2 ^ 51 + im.hostSpillAddr + m.spill.getD 0) m.payload.length ha
  simp only [State.spillAnswer, hf, hw, hi, Option.map_some, Option.getD_some, hn, Bool.false_eq_true, if_false]

/-! ## The report and the query (R460) -/

theorem State.StoresAt.port_eq {s t : State} {pa : Nat} {data : List Byte} (h : s.StoresAt t none pa data) : t.port = s.port := by
  obtain ⟨h, -⟩ := h
  rw [h]

/-- What is stored after a change of the mailbox alone. -/
theorem State.StoresAt.port {s t : State} {pa : Nat} {data : List Byte} (h : s.StoresAt t none pa data) (p : HostPort) :
    ({ s with port := p } : State).StoresAt { t with port := p } none pa data := by
  obtain ⟨honly, hword, hmem, hhost, hgroup⟩ := h
  exact ⟨congrArg (fun v : State => { v with port := p }) honly, hword, hmem, hhost, hgroup⟩

section
variable {s : State} {c : Command} (hr : s.Runs 0xF c (fun o => decide (o < 44))) (hset : c.set = 0)
include hr hset

theorem exec_cmdAttest_fails : exec (.cmdAttest false) s = .next (s.answered 9 []) := by
  have hx := exec_cmdAttest false s
  rw [execCmdAttest, hr.runCmd_unnamed hset] at hx
  exact hx

/-- ATTEST writes the report to host memory, as far as the host's buffer holds it (R460). -/
theorem exec_cmdAttest_stores (ha : s.port.ats = false) (hm : s.MemCanonical) (hpos : 0 < min (Config.reportLength s.port.reports) (c.arg 40 4)) :
    ∃ u : State, exec (.cmdAttest true) s = .next (u.answered 0 (leCells 0 4 (min (Config.reportLength s.port.reports) (c.arg 40 4)))) ∧
      ({ s with port := { s.port with reports := s.port.reports + 1 } } : State).StoresAt u none (2 ^ 51 + c.arg 32 8 % 2 ^ 51)
        ((upFrom 0 (min (Config.reportLength s.port.reports) (c.arg 40 4))).map fun i =>
          s.reportByte (s.reportFields ((upFrom 0 32).map fun j => memByte c.args j)) i) := by
  have hx := exec_cmdAttest true s
  rw [execCmdAttest, hr.runCmd_unnamed hset] at hx
  generalize min (Config.reportLength s.port.reports) (c.arg 40 4) = n at hx hpos ⊢
  generalize hdata : ((upFrom 0 n).map fun i => s.reportByte (s.reportFields ((upFrom 0 32).map fun j => memByte c.args j)) i) = data at hx ⊢
  have hne : data ≠ [] := List.ne_nil_of_length_pos (by rw [← hdata, upFrom_map_length]; exact hpos)
  obtain ⟨m, hacc⟩ := s.hostAccess_off 2 (2 ^ 51 + c.arg 32 8 % 2 ^ 51) n ha
  have hst := s.writeAs_stores none none none (2 ^ 51 + c.arg 32 8 % 2 ^ 51) data hm hne
  simp only [Bool.not_true, Bool.false_eq_true, if_false, hacc, hdata, State.write] at hx
  generalize s.writeAs none none none (2 ^ 51 + c.arg 32 8 % 2 ^ 51) data = w at hx hst
  rw [hst.port_eq] at hx
  exact ⟨_, hx, hst.port _⟩

end

/-- The end of a training as the statement names it. -/
theorem fin_eq_trained {out : Lanes} {reduced : Bool} {k : Nat} {fin : LinkState}
    (h : fin = (match out with | .full => if reduced = true ∧ k < 10 then .degraded else .up | .half => .degraded | .fewer => .failed)) :
    fin = trained reduced k out := by
  subst h
  cases out
  · exact (trained_full reduced k).symm
  · rfl
  · rfl

theorem setOf_groupCode (cell t slot : Nat) (ht : t ≤ 1) (hs : slot ≤ 3) : setOf (groupCode cell t slot) = t := by
  unfold setOf groupCode
  omega

/-- Settles O51: each command by its rule above, TERMINATE by `State.terminate_terminates`. -/
theorem otherCommandResults : Obligations.OtherCommandResults := by
  unfold Obligations.OtherCommandResults
  rintro out ok s c T S rfl rfl
  refine ⟨fun e he => ⟨fun hn => ?_, fun hf hc hcode hb hr => ?_⟩,
    fun cell slot g G hcell hslot hg hG => ⟨fun e he hr => ⟨fun h => ?_, fun h1 h2 => ⟨fun h => ?_, fun h hp => ?_⟩⟩,
      fun b h1 h2 hst hph => ⟨fun hr hi => ?_, fun hr k pa hm hrests hk hco hc hp hend => ?_⟩⟩,
    fun hset => ⟨fun hr w hw => ?_, fun hr k fin hk hfin => ?_, fun k fin hc hcode hb hk hfin => ⟨fun hl => ?_, fun hl => ?_⟩, fun hr d k hd hk => ?_,
      fun hr n hn => ?_, fun hr => ?_⟩,
    fun hr id hid => ⟨fun h => ?_, fun h hf => ?_, fun die granule hf => ⟨fun h => ?_, fun m im leaf log h0 hleaf hm hi hlog hv hl hmal hp => ?_⟩⟩,
    fun hr id hid => ⟨fun h => ?_, fun h hf => ?_, fun die hf => ⟨fun h => ?_, fun k R m im h0 hk hR ha hw hi => ?_⟩⟩⟩
  · obtain ⟨named, used, f, hx⟩ := exec_command out ok s (fun c hc => by rw [hn] at hc; cases hc) e he
    rw [hx, s.runCmd_idle _ _ _ _ hn]
  · obtain ⟨named, used, f, hx⟩ := exec_command out ok s (fun d hd => by rw [hc] at hd; cases hd; exact hb) e he
    rw [hx, s.runCmd_outOfRange c _ _ _ _ hf hc hcode hb hr]
  · subst hcell hslot
    exact exec_trapped_refused s c 2 (s.trappedGroup_range c h) e he hr
  · subst hcell hslot
    exact exec_trapped_refused s c 3 (State.trappedGroup_notResident h1 h2 h) e he hr
  · subst hcell hslot hg hG
    exact exec_trapped_refused s c 6 (State.trappedGroup_notTrapped h1 h2 h hp) e he hr
  · subst hcell hslot hg
    exact exec_cmdResume_trapped s c _ G hG (State.trappedGroup_ok h1 h2 hst (hG ▸ hph)) hr hi
  · subst hcell hslot hg hG
    have hset : setOf (groupCode (memNat c.args 0 2) c.set (memNat c.args 2 1)) = c.set := setOf_groupCode _ _ _ (by obtain ⟨-, -, -, -, -, hs, -⟩ := hr; exact hs) h2
    have ht := s.terminate_terminates _ pa k hm hrests (by rw [hset]; exact hk) hco hc hp hend
    obtain ⟨hgone, hothers, hword, honly, hkernel⟩ := ht
    rw [hset] at hkernel
    exact ⟨_, exec_cmdTerminate_trapped s c _ (State.trappedGroup_ok h1 h2 hst hph) hr, hgone, hothers, hword, honly, hkernel⟩
  · subst hw
    have hx := exec_cmdSetplim s
    rw [execCmdSetplim, hr.runCmd_unnamed hset] at hx
    refine ⟨fun hlo hhi => hx.trans (congrArg Host.Outcome.next (if_neg ?_)), fun h => hx.trans (congrArg Host.Outcome.next (if_pos h))⟩
    exact fun h => h.elim (Nat.not_lt.mpr hlo) (Nat.not_lt.mpr hhi)
  · subst hk
    rw [fin_eq_trained hfin]
    obtain ⟨hunknown, hknown⟩ := exec_cmdTrainlink_runs hr hset out
    refine ⟨fun h => hunknown (Bool.eq_false_iff.mpr fun hl => h ((linkKnown_eq _).mp hl)), fun h => ?_⟩
    obtain ⟨hup, hdown, hretrain⟩ := hknown ((linkKnown_eq _).mpr h)
    obtain ⟨-, hc, hcode, -, -, -, -⟩ := hr
    refine ⟨hup, fun hl => (hdown hl).trans (congrArg _ (State.beginCmd_eq _ c hc)), fun hl => (hretrain hl).trans (congrArg _ ?_)⟩
    exact s.beginCmd.endTraining_trainCmd _ out { c with begun := true } (by rw [s.beginCmd_eq c hc]) rfl hcode rfl
  · subst hk
    rw [fin_eq_trained hfin]
    refine (exec_cmdTrainlink out s).trans ((execCmdTrainlink_begun out s c hc hcode hb).trans (congrArg _ ((if_pos hl).trans ?_)))
    exact s.endTraining_trainCmd _ out c hc hb hcode rfl
  · subst hk
    exact (exec_cmdTrainlink out s).trans ((execCmdTrainlink_begun out s c hc hcode hb).trans (congrArg _ (if_neg hl)))
  · subst hd hk
    obtain ⟨hrange, hstack⟩ := exec_cmdTrainhbm_runs hr hset ok
    refine ⟨hrange, fun h1 h2 => ?_⟩
    have hx := hstack h1 h2
    refine ⟨fun hb => hx.trans (congrArg _ (if_pos hb)), fun hb ho => ?_, fun hb ho => ?_⟩
    · rw [if_neg (by exact Bool.eq_false_iff.mp hb), if_pos ho] at hx
      exact hx
    · rw [if_neg (by exact Bool.eq_false_iff.mp hb), if_neg (Bool.eq_false_iff.mp ho)] at hx
      exact hx
  · refine ⟨fun ho => ho ▸ exec_cmdAttest_fails hr hset, fun ho hpos ha hm => ?_⟩
    subst ho hn
    exact exec_cmdAttest_stores hr hset ha hm hpos
  · have hx := exec_cmdQuery s
    rw [execCmdQuery, hr.runCmd_unnamed hset] at hx
    exact hx
  · exact (exec_cmdXlate_runs hr hid).1 h
  · exact (exec_cmdXlate_runs hr hid).2.1 h hf
  · exact ⟨_, exec_xlateDeadline id s, ((exec_cmdXlate_runs hr hid).2.2 die granule hf).1 h⟩
  · rw [hlog]
    obtain ⟨u, rfl, hframe, hentry⟩ := s.answerMiss_installs id.toNat die c.set granule m im _ hf hm hi hv hl hmal hp
    exact ⟨_, ((exec_cmdXlate_runs hr hid).2.2 die granule hf).2 h0 leaf hleaf, hframe, hentry⟩
  · exact (exec_cmdSpillret_runs hr hid).1 h
  · exact (exec_cmdSpillret_runs hr hid).2.1 h hf
  · obtain ⟨u, hu⟩ := s.spillAnswer_refusal id.toNat die c.set hf
    refine ⟨u, (exec_spillDeadline id s).trans ?_, ((exec_cmdSpillret_runs hr hid).2.2 die hf u).1 h hu⟩
    rw [execSpillDeadline, hu]
  · subst hk hR
    exact ((exec_cmdSpillret_runs hr hid).2.2 die hf _).2 h0 (s.spillAnswer_returns id.toNat die c.set m im hf ha hw hi)

end Sys2Proof.Machine
end

section
namespace Sys2Proof.Machine

theorem exec_qwait (d a : Reg) (s : State) : exec (.qwait d a) s = execQwait d a s := rfl
theorem exec_qprio (d a b : Reg) (s : State) : exec (.qprio d a b) s = execQprio d a b s := rfl
theorem exec_htokwait (d a : Reg) (s : State) : exec (.htokwait d a) s = execHtokwait d a s := rfl
theorem exec_htokraise (a b : Reg) (s : State) : exec (.htokraise a b) s = execHtokraise a b s := rfl
theorem exec_kstat (d a : Reg) (s : State) : exec (.kstat d a) s = execKstat d a s := rfl

/-! ## Nothing outstanding: a release waits for nothing (R331, R337) -/

/-- The close of the convoy keeps a group settled. -/
theorem State.Settled.close {s : State} (h : s.Settled) : s.close.Settled := by
  rw [State.Settled, State.Quiet, State.Unhindered, State.own_close]
  exact h

/-- A group without transform entries has none of any kind. -/
theorem State.no_transform (s : State) (g : Nat) (h : ∀ e ∈ (s.cell (cellOf g)).tq0 ++ (s.cell (cellOf g)).tq1, e.group ≠ g) (p : TransformEntry → Bool) :
    ((s.cell (cellOf g)).tq0 ++ (s.cell (cellOf g)).tq1).any (fun e => e.group == g && p e) = false :=
  List.any_eq_false.mpr fun e he => by simp [h e he]

section Settled

variable {s : State} (h : s.Settled)

include h

theorem State.Settled.slice_nil (q : Nat) : (s.group s.cur).slice q = [] := by
  obtain ⟨⟨-, -, hslices, -⟩, -⟩ := h
  exact Group.slice_nil _ q hslices

/-- A settled group is one without accesses and entries. -/
theorem State.Settled.unqueued : s.Unqueued s.cur := by
  obtain ⟨⟨⟨hent, -, hheld⟩, -, hslices, -⟩, -⟩ := h
  exact ⟨hslices, hheld, hent⟩

theorem State.Settled.drainAll : s.drainAll s.cur = s := by
  obtain ⟨⟨-, -, hslices, -⟩, -⟩ := h
  exact s.drainAll_nil s.cur hslices

theorem State.Settled.storesLeft (scope : Nat) : s.storesLeft s.cur scope = false := by
  obtain ⟨⟨-, -, hslices, -⟩, hsent, -⟩ := h
  have hsent' : (s.group s.cur).sent = [] := hsent
  have hq : (s.group s.cur).slices.toList.any (fun l => l.any fun a => decide (s.accessScope s.cur a ≤ scope)) = false :=
    List.any_eq_false.mpr fun l hl => by rw [hslices l hl]; simp
  rw [State.storesLeft, hq, hsent']
  rfl

theorem State.Settled.loadsLeft (scope : Nat) : s.loadsLeft s.cur scope = false := by
  obtain ⟨⟨⟨hent, -, -⟩, hcopy, -, hlate, -⟩, -, htransforms⟩ := h
  have hlate' : (s.group s.cur).late = none := hlate
  have hc : (s.group s.cur).chan.toList.any (fun c => decide (c.st = .copying) && decide (c.asked > c.nextStrip) && decide (5 ≤ scope)) = false :=
    List.any_eq_false.mpr fun c hc => by simp [hcopy c hc]
  simp only [State.loadsLeft, hlate', s.no_entry s.cur hent, s.no_transform s.cur htransforms, hc, Bool.or_self]

end Settled

/-! ## Waits and results beside a slot set -/

/-- A wait entered with the convoy closed. -/
theorem State.close_wait_waits (s : State) (w : Wait) : s.Waits (s.close.wait w) s.own w := by
  rw [State.close, State.wait, State.putOwn_putOwn, State.own_putOwn]
  exact ⟨s.onlyGroup_putOwn _, s.own_putOwn _⟩

/-- An instruction without a result, with the convoy closed. -/
theorem State.close_retire_retires (s : State) (len : Nat) : s.Retires (s.close.retire len) len s.own.closeConvoy :=
  s.retires_putOwn _ len rfl rfl

/-! ## Queues and kernels by number (R100, R108, R109, R127) -/

theorem SlotSet.queue?_none {S : SlotSet} {q : Nat} (h : 15 < q ∨ S.queues.find q = none) : S.queue? q = none := by
  unfold SlotSet.queue?
  split
  · rfl
  · next hq => exact h.resolve_left hq

theorem SlotSet.queue?_some {S : SlotSet} {q : Nat} {Q : Queue} (hq : q ≤ 15) (h : S.queues.find q = some Q) : S.queue? q = some Q := by
  rw [SlotSet.queue?, if_neg (Nat.not_lt.mpr hq), h]

section Queues

variable (d a b : Reg) (s : State)

/-- QWAIT and QPRIO of a queue that is not declared. -/
theorem exec_queue_undeclared (hq : (s.slotSet (setOf s.cur)).queue? (s.x a).toNat = none) :
    exec (.qwait d a) s = .next (s.close.done d 1 4) ∧ exec (.qprio d a b) s = .next (s.close.done d (BitVec.allOnes 64) 4) := by
  rw [exec_qwait, exec_qprio]
  exact ⟨by simp only [execQwait, hq], by simp only [execQprio, hq]⟩

variable {Q : Queue} (hq : (s.slotSet (setOf s.cur)).queue? (s.x a).toNat = some Q)

include hq

/-- QWAIT of a declared queue, by the launches that are there. -/
theorem exec_qwait_declared : exec (.qwait d a) s = .next
    (if ((s.slotSet (setOf s.cur)).inQueue (s.x a).toNat).map Kernel.num = [] then s.close.done d 0 4
      else s.close.wait (.queue d (((s.slotSet (setOf s.cur)).inQueue (s.x a).toNat).map Kernel.num))) := by
  rw [exec_qwait]
  simp only [execQwait, hq]
  cases ((s.slotSet (setOf s.cur)).inQueue (s.x a).toNat).map Kernel.num <;> rfl

/-- QPRIO of a declared queue, by whether the new priority is one. -/
theorem exec_qprio_declared : exec (.qprio d a b) s = .next
    (if (s.x b).toNat > 7 then s.close.done d (BitVec.allOnes 64) 4
      else (s.close.putSet (setOf s.cur) { s.slotSet (setOf s.cur) with
        queues := (s.slotSet (setOf s.cur)).queues.put (s.x a).toNat { Q with prio := (s.x b).toNat } }).done d (BitVec.ofNat 64 Q.prio) 4) := by
  rw [exec_qprio]
  simp only [execQprio, hq]

end Queues

/-- KSTAT by the kernel of the number, if there is one. -/
theorem exec_kstat_eq (d a : Reg) (s : State) : exec (.kstat d a) s = .next (s.close.done d (BitVec.ofNat 64
    (if 2 ^ 32 ≤ (s.x a).toNat then 0
      else ((s.slotSet (setOf s.cur)).kernel? (s.x a).toNat).elim 0 fun k => k.ended * 2 ^ 39 + k.placed * 2 ^ 14 + k.st.code)) 4) := by
  rw [exec_kstat]
  simp only [execKstat, ge_iff_le]
  cases (s.slotSet (setOf s.cur)).kernel? (s.x a).toNat <;> rfl

/-! ## Host tokens (R111, R112) -/

section Tokens

variable (d a b : Reg) (s : State)

/-- HTOKWAIT and HTOKRAISE of a channel above 15. -/
theorem exec_htok_above (hc : 15 < (s.x a).toNat) :
    exec (.htokwait d a) s = .next (s.close.done d (BitVec.allOnes 64) 4) ∧ exec (.htokraise a b) s = .next (s.close.retire 4) := by
  rw [exec_htokwait, exec_htokraise]
  exact ⟨by simp only [execHtokwait, hc, if_true], by simp only [execHtokraise, hc, if_true]⟩

variable (hc : (s.x a).toNat ≤ 15)

include hc

/-- HTOKWAIT takes the oldest token when no earlier group awaits it. -/
theorem exec_htokwait_takes (v : BitVec 32) (rest : List (BitVec 32))
    (hi : (s.slotSet (setOf s.cur)).ingress.findD (s.x a).toNat [] = v :: rest) (hw : s.firstWaiter (setOf s.cur) (s.x a).toNat = none) :
    exec (.htokwait d a) s = .next ((s.close.putSet (setOf s.cur) { s.slotSet (setOf s.cur) with
      ingress := (s.slotSet (setOf s.cur)).ingress.put (s.x a).toNat rest }).done d (v.setWidth 64) 4) := by
  rw [exec_htokwait]
  simp only [execHtokwait, gt_iff_lt, Nat.not_lt.mpr hc, if_false, fifoOf, hi, hw]

/-- HTOKWAIT waits without a token, or behind an earlier group. -/
theorem exec_htokwait_waits (h : (s.slotSet (setOf s.cur)).ingress.findD (s.x a).toNat [] = [] ∨ (s.firstWaiter (setOf s.cur) (s.x a).toNat).isSome = true) :
    exec (.htokwait d a) s = .next ((s.close.putSet (setOf s.cur)
      ((s.slotSet (setOf s.cur)).enqueueWaiter s.cur (s.x a).toNat s.isSupervisor)).wait (.hostTaken d (BitVec.ofNat 4 (s.x a).toNat))) := by
  rw [exec_htokwait]
  simp only [execHtokwait, gt_iff_lt, Nat.not_lt.mpr hc, if_false, fifoOf]
  rcases h with h | h
  · simp only [h]
  · obtain ⟨g, hg⟩ := Option.isSome_iff_exists.mp h
    rw [hg]
    cases (s.slotSet (setOf s.cur)).ingress.findD (s.x a).toNat [] <;> rfl

/-- HTOKRAISE of a settled group, by whether the egress FIFO has room. -/
theorem exec_htokraise_settled (hs : s.Settled) (l : List (BitVec 32)) (hl : l = (s.slotSet (setOf s.cur)).egress.findD (s.x a).toNat []) :
    exec (.htokraise a b) s = .next (if l.length < 16 then (s.close.putSet (setOf s.cur) { s.slotSet (setOf s.cur) with
      egress := (s.slotSet (setOf s.cur)).egress.put (s.x a).toNat (l ++ [(s.x b).setWidth 32]) }).retire 4
      else s.close.wait (.hostGiven (BitVec.ofNat 4 (s.x a).toNat) ((s.x b).setWidth 32))) := by
  have hd : s.close.drainAll s.cur = s.close := hs.close.drainAll
  have hst : s.close.storesLeft s.cur 6 = false := hs.close.storesLeft 6
  have hld : s.close.loadsLeft s.cur 6 = false := hs.close.loadsLeft 6
  rw [exec_htokraise, hl]
  simp only [execHtokraise, gt_iff_lt, Nat.not_lt.mpr hc, if_false, hd, hst, hld, Bool.or_self, Bool.false_eq_true, fifoOf, State.slotSet_close]

end Tokens

/-- Settles O34: each instruction by its rule above, its change of the slot set beside the retirement or the wait. -/
theorem queueInstructionResults : Obligations.QueueInstructionResults := by
  unfold Obligations.QueueInstructionResults
  rintro d a b s T S rfl rfl
  have gives : ∀ (A : SlotSet) (v : Word), (s.putSet (setOf s.cur) A).ClosesGivesX ((s.close.putSet (setOf s.cur) A).done d v 4) d v 4 := fun A v => by
    rw [State.close_putSet]
    exact State.close_done_gives _ d v 4
  refine ⟨fun h => ?_, ?_, fun hc => ?_, ?_, fun k hn hk => ?_, fun h => ?_⟩
  · obtain ⟨hwait, hprio⟩ := exec_queue_undeclared d a b s (SlotSet.queue?_none h)
    exact ⟨⟨_, hwait, s.close_done_gives d 1 4⟩, _, hprio, s.close_done_gives d _ 4⟩
  · rintro q Q ks rfl hq hQ rfl
    have hwait := exec_qwait_declared d a s (SlotSet.queue?_some hq hQ)
    have hprio := exec_qprio_declared d a b s (SlotSet.queue?_some hq hQ)
    refine ⟨fun hk => ?_, fun hk => ?_, fun hp => ?_, fun hp => ?_⟩
    · exact ⟨_, hwait.trans (congrArg _ (if_pos hk)), s.close_done_gives d 0 4⟩
    · exact ⟨_, hwait.trans (congrArg _ (if_neg hk)), s.close_wait_waits _⟩
    · exact ⟨_, hprio.trans (congrArg _ (if_neg (Nat.not_lt.mpr hp))), gives _ _⟩
    · exact ⟨_, hprio.trans (congrArg _ (if_pos hp)), s.close_done_gives d _ 4⟩
  · obtain ⟨hwait, hraise⟩ := exec_htok_above d a b s hc
    exact ⟨⟨_, hwait, s.close_done_gives d _ 4⟩, _, hraise, s.close_retire_retires 4⟩
  · rintro c l rfl hc
    refine ⟨fun v rest hi hw => ⟨_, exec_htokwait_takes d a s hc v rest hi hw, gives _ _⟩, fun h => ⟨_, exec_htokwait_waits d a s hc h, ?_⟩,
      fun hs hl => ?_⟩
    · rw [State.close_putSet]
      have hw := (s.putSet (setOf s.cur) ((s.slotSet (setOf s.cur)).enqueueWaiter s.cur (s.x a).toNat s.isSupervisor)).close_wait_waits
        (.hostTaken d (BitVec.ofNat 4 (s.x a).toNat))
      rw [State.own_putSet] at hw
      exact hw
    · have hx := exec_htokraise_settled a b s hc hs l hl
      refine ⟨fun hn => ⟨_, hx.trans (congrArg _ (if_pos hn)), ?_⟩, fun hn => ⟨_, hx.trans (congrArg _ (if_neg (Nat.not_lt.mpr hn))), s.close_wait_waits _⟩⟩
      rw [State.close_putSet]
      have hr := (s.putSet (setOf s.cur) { s.slotSet (setOf s.cur) with
        egress := (s.slotSet (setOf s.cur)).egress.put (s.x a).toNat (l ++ [(s.x b).setWidth 32]) }).close_retire_retires 4
      rw [State.own_putSet] at hr
      exact hr
  · have hx := exec_kstat_eq d a s
    have hk' : (s.slotSet (setOf s.cur)).kernel? (s.x a).toNat = some k := hk
    rw [if_neg (Nat.not_le.mpr hn), hk'] at hx
    exact ⟨_, hx, s.close_done_gives d _ 4⟩
  · have hx := exec_kstat_eq d a s
    refine ⟨_, hx.trans ?_, s.close_done_gives d 0 4⟩
    rcases h with h | h
    · rw [if_pos h]; rfl
    · have hk : (s.slotSet (setOf s.cur)).kernel? (s.x a).toNat = none := h
      rw [hk, Option.elim_none, ite_self]; rfl

end Sys2Proof.Machine
end

section
namespace Sys2Proof.Machine

theorem exec_hostWrite (ad : BitVec 64) (data : List Byte) (s : State) : exec (.hostWrite ad data) s = execHostWrite ad data s := rfl
theorem exec_hostRead (ad : BitVec 64) (n : Nat) (s : State) : exec (.hostRead ad n) s = execHostRead ad n s := rfl
theorem exec_ingressDoorbell (t : BitVec 1) (ch : BitVec 4) (pl : BitVec 32) (s : State) :
    exec (.ingressDoorbell t ch pl) s = .next (s.doorbell t.toNat ch.toNat pl) := rfl
theorem exec_egressRead (t : BitVec 1) (ch : BitVec 4) (s : State) : exec (.egressRead t ch) s = execEgressRead t ch s := rfl
theorem exec_hostRegisterWrite (off : BitVec 26) (val : RegWrite) (s : State) :
    exec (.hostRegisterWrite off val) s = execHostRegisterWrite off val s := rfl
theorem exec_mbgoWhileBusy (s : State) : exec .mbgoWhileBusy s = execMbgoWhileBusy s := rfl
theorem exec_eventRingWrite (s : State) : exec .eventRingWrite s = execEventRingWrite s := rfl
theorem exec_codeUnassigned (s : State) : exec .codeUnassigned s = execCodeUnassigned s := rfl

/-! ## Memory that the host reaches (R350) -/

section Access

variable (ad : BitVec 64) (s : State)

/-- HOST_WRITE below BAR 0, by whether the host reaches the place. -/
theorem execHostWrite_memory (data : List Byte) (hpa : ad.toNat < 2 ^ 52) :
    execHostWrite ad data s = .next (if (paHost ad.toNat || s.inModule ad.toNat data.length) = true then s.write none ad.toNat data else s) := by
  simp only [execHostWrite, ge_iff_le, Nat.not_le.mpr hpa, if_false]

theorem execHostWrite_above (data : List Byte) (hpa : 2 ^ 52 ≤ ad.toNat) : execHostWrite ad data s = .next s := by
  simp only [execHostWrite, ge_iff_le, hpa, if_true]

/-- HOST_READ below BAR 0. -/
theorem execHostRead_memory (n : Nat) (hpa : ad.toNat < 2 ^ 63) :
    execHostRead ad n s = .next { s with port := { s.port with
      readData := if (decide (ad.toNat < 2 ^ 52) && (paHost ad.toNat || s.inModule ad.toNat n)) = true then s.readAt ad.toNat n else List.replicate n 0xFF
      readPoison := if (decide (ad.toNat < 2 ^ 52) && (paHost ad.toNat || s.inModule ad.toNat n)) = true then !paHost ad.toNat && s.badData ad.toNat n
        else true } } := by
  simp only [execHostRead, ge_iff_le, Nat.not_le.mpr hpa, if_false]
  split <;> rfl

end Access

/-! ## Registers of BAR 0 (R447, R449, R452) -/

/-- The bytes of a number, taken where an index into it starts. -/
theorem toBytes_eq_map (n lo v : Nat) : toBytes n v = (upFrom lo n).map fun o => BitVec.ofNat 8 (v / 256 ^ (o - lo)) := by
  have h : ∀ n k, toBytes n (v / 256 ^ k) = (upFrom (lo + k) n).map fun o => BitVec.ofNat 8 (v / 256 ^ (o - lo)) := by
    intro n
    induction n with
    | zero => intro k; rfl
    | succ n ih =>
      intro k
      simp only [toBytes, upFrom, List.map_cons, Nat.add_sub_cancel_left, Nat.div_div_eq_div_mul, ← Nat.pow_succ]
      rw [ih (k + 1), Nat.add_assoc]
  simpa using h n 0

theorem mem_upFrom {lo n o : Nat} (h : o ∈ upFrom lo n) : lo ≤ o ∧ o < lo + n := by
  induction n generalizing lo with
  | zero => exact absurd h (by simp [upFrom])
  | succ n ih =>
    rcases List.mem_cons.mp h with rfl | h
    · omega
    · have := ih h; omega

/-- The eight bytes of a register, each found at its offset. -/
theorem State.bar0Bytes_eq (s : State) (base v : Nat) (h8 : base % 8 = 0)
    (h : ∀ off, base ≤ off → off < base + 8 → s.bar0Byte off = BitVec.ofNat 8 (v / 256 ^ (off % 8))) :
    (upFrom base 8).map s.bar0Byte = toBytes 8 v := by
  rw [toBytes_eq_map 8 base v]
  refine List.map_congr_left fun o ho => ?_
  obtain ⟨hlo, hhi⟩ := mem_upFrom ho
  rw [h o hlo hhi]
  have : o % 8 = o - base := by omega
  rw [this]

/-- A read of eight bytes of BAR 0 where no egress register stands. -/
theorem execHostRead_register (ad : BitVec 64) (s : State) (base v : Nat) (hpa : ad.toNat = 2 ^ 63 + base) (he : egressTouched base 8 = [])
    (hv : (upFrom base 8).map s.bar0Byte = toBytes 8 v) :
    execHostRead ad 8 s = .next { s with port := { s.port with readData := toBytes 8 v, readPoison := false } } := by
  have hge : ad.toNat ≥ 2 ^ 63 := by omega
  have hoff : ad.toNat - 2 ^ 63 = base := by omega
  simp only [execHostRead, hge, if_true, hoff, he, hv, List.foldl_nil]

/-- The registers of BAR 0 that a read shows without taking a token, each with its offset: MBCMD, MBSTAT, EVHEAD, EVTAIL and the overflow
bits of the slot sets. -/
def State.shown (s : State) : List (Nat × Nat) :=
  [(0, (s.port.mbcmd &&& 0xFFFFFFFF00FFFFFF).toNat), (0x800, s.port.mbstat (decide (s.firmware ≠ .unverified))), (0x11000, s.port.evhead.toNat),
   (0x11008, s.port.evtail.toNat), (0x100200, s.set0.overflow.toNat), (0x101200, s.set1.overflow.toNat)]

/-- No egress register stands where they do. -/
theorem State.shown_noEgress (s : State) (e : Nat × Nat) (he : e ∈ s.shown) : e.1 % 8 = 0 ∧ egressTouched e.1 8 = [] := by
  have hall : ∀ o ∈ [0, 0x800, 0x11000, 0x11008, 0x100200, 0x101200], o % 8 = 0 ∧ egressTouched o 8 = [] := by decide
  exact hall e.1 (List.mem_map_of_mem (f := Prod.fst) he)

theorem State.bar0Bytes_shown (s : State) (e : Nat × Nat) (he : e ∈ s.shown) : (upFrom e.1 8).map s.bar0Byte = toBytes 8 e.2 := by
  refine s.bar0Bytes_eq _ _ (s.shown_noEgress e he).1 ?_
  simp only [State.shown, List.mem_cons, List.not_mem_nil, or_false] at he
  rcases he with rfl | rfl | rfl | rfl | rfl | rfl <;> simp only <;> intro off hlo hhi
  · rw [State.bar0Byte, if_pos (by omega)]
  · rw [State.bar0Byte, if_neg (by omega), if_neg (by omega), if_pos (by omega)]
  · rw [State.bar0Byte, if_neg (by omega), if_neg (by omega), if_neg (by omega), if_neg (by omega), if_neg (by omega), if_pos (by omega)]
  · rw [State.bar0Byte, if_neg (by omega), if_neg (by omega), if_neg (by omega), if_neg (by omega), if_neg (by omega), if_neg (by omega),
      if_pos (by omega)]
  · rw [State.bar0Byte, if_neg (by omega), if_neg (by omega), if_neg (by omega), if_neg (by omega), if_neg (by omega), if_neg (by omega),
      if_neg (by omega), if_pos (by omega)]
  · rw [State.bar0Byte, if_neg (by omega), if_neg (by omega), if_neg (by omega), if_neg (by omega), if_neg (by omega), if_neg (by omega),
      if_neg (by omega), if_neg (by omega), if_pos (by omega)]

/-- A read of one of those registers. -/
theorem execHostRead_shown (ad : BitVec 64) (s : State) (e : Nat × Nat) (he : e ∈ s.shown) (hpa : ad.toNat = 2 ^ 63 + e.1) :
    execHostRead ad 8 s = .next { s with port := { s.port with readData := toBytes 8 e.2, readPoison := false } } :=
  execHostRead_register ad s e.1 e.2 hpa (s.shown_noEgress e he).2 (s.bar0Bytes_shown e he)

/-- MBSTAT reads 0 while firmware is unverified (R449). -/
theorem State.mbstat_eq (s : State) : s.port.mbstat (decide (s.firmware ≠ .unverified)) = if s.firmware = .unverified then 0
    else s.port.tag.toNat * 2 ^ 32 + bitNat s.port.busy * 2 ^ 31 + bitNat s.port.done * 2 ^ 30 + bitNat s.port.lost * 2 ^ 29 + s.port.status % 2 ^ 16 := by
  by_cases h : s.firmware = .unverified <;> simp [HostPort.mbstat, h]

/-! ## Registers of token channels (R110, R447) -/

/-- The offset of a channel's register among those that stand from `base` on. -/
def channelOff (base : Nat) (U : BitVec 1) (c : BitVec 4) : Nat := base + 0x1000 * U.toNat + 8 * c.toNat

/-- Every byte of a channel's register belongs to it. -/
theorem channelAt_off (base : Nat) (U : BitVec 1) (c : BitVec 4) (o : Nat) (h1 : channelOff base U c ≤ o) (h2 : o < channelOff base U c + 8) :
    channelAt base o = some (U.toNat, c.toNat) := by
  have hU := U.isLt
  have hc := c.isLt
  unfold channelOff at h1 h2
  unfold channelAt
  obtain h | h : U.toNat = 0 ∨ U.toNat = 1 := by omega
  · rw [h] at h1 h2 ⊢
    rw [if_pos (by omega)]
    have : (o - base) / 8 = c.toNat := by omega
    rw [this]
  · rw [h] at h1 h2 ⊢
    rw [if_neg (by omega), if_pos (by omega)]
    have : (o - base - 0x1000) / 8 = c.toNat := by omega
    rw [this]

/-- The bytes of an egress register are those of its oldest token. -/
theorem State.bar0Bytes_egress (s : State) (U : BitVec 1) (c : BitVec 4) :
    (upFrom (channelOff 0x100100 U c) 8).map s.bar0Byte = toBytes 8 (s.egressWord U.toNat c.toNat) := by
  have hU := U.isLt
  have hc := c.isLt
  refine s.bar0Bytes_eq _ _ (by unfold channelOff; omega) fun off hlo hhi => ?_
  have hch := channelAt_off 0x100100 U c off hlo hhi
  unfold channelOff at hlo hhi
  rw [State.bar0Byte, if_neg (by omega), if_neg (by omega), if_neg (by omega), if_neg (by omega), if_neg (by omega), if_neg (by omega),
    if_neg (by omega), if_neg (by omega), if_neg (by omega), if_neg (by omega)]
  simp only [hch]

/-- A read of an egress register touches that one. -/
theorem egressTouched_off (U : BitVec 1) (c : BitVec 4) : egressTouched (channelOff 0x100100 U c) 8 = [(U.toNat, c.toNat)] := by
  have h : (upFrom (channelOff 0x100100 U c) 8).filterMap (fun o => channelAt 0x100100 o) = List.replicate 8 (U.toNat, c.toNat) := by
    have hch := fun k hk => channelAt_off 0x100100 U c (channelOff 0x100100 U c + k) (Nat.le_add_right _ _) (Nat.add_lt_add_left hk _)
    generalize channelOff 0x100100 U c = b at hch
    have h0 := hch 0 (by omega)
    have h1 := hch 1 (by omega)
    have h2 := hch 2 (by omega)
    have h3 := hch 3 (by omega)
    have h4 := hch 4 (by omega)
    have h5 := hch 5 (by omega)
    have h6 := hch 6 (by omega)
    have h7 := hch 7 (by omega)
    simp only [upFrom, Nat.add_assoc, Nat.reduceAdd, Nat.add_zero] at h0 ⊢
    simp [h0, h1, h2, h3, h4, h5, h6, h7, List.replicate]
  rw [egressTouched, h]
  exact List.replicate_dedup (by decide)

theorem State.popEgress_port (s : State) (t ch : Nat) (p : HostPort) :
    ({ s with port := p } : State).popEgress t ch = { s.popEgress t ch with port := p } := by
  have hset : ({ s with port := p } : State).slotSet t = s.slotSet t := rfl
  simp only [State.popEgress, hset]
  split
  · rfl
  · unfold State.putSet
    split <;> rfl

theorem State.popEgress_keepsPort (s : State) (t ch : Nat) : (s.popEgress t ch).port = s.port := by
  unfold State.popEgress
  simp only
  split
  · rfl
  · exact State.putSet_port _ _ _

/-- A HOST_READ of an egress register is an EGRESS_READ. -/
theorem execHostRead_egress (ad : BitVec 64) (s : State) (U : BitVec 1) (c : BitVec 4) (hpa : ad.toNat = 2 ^ 63 + channelOff 0x100100 U c) :
    execHostRead ad 8 s = execEgressRead U c s := by
  have hge : ad.toNat ≥ 2 ^ 63 := by omega
  have hoff : ad.toNat - 2 ^ 63 = channelOff 0x100100 U c := by omega
  simp only [execHostRead, hge, if_true, hoff, egressTouched_off, s.bar0Bytes_egress, List.foldl_cons, List.foldl_nil, State.popEgress_port,
    execEgressRead, State.popEgress_keepsPort]

/-- EGRESS_READ by the tokens of the channel. -/
theorem exec_egressRead_eq (t : BitVec 1) (ch : BitVec 4) (s : State) :
    ((s.slotSet t.toNat).egress.findD ch.toNat [] = [] →
      exec (.egressRead t ch) s = .next { s with port := { s.port with readData := toBytes 8 0, readPoison := false } }) ∧
    ∀ v rest, (s.slotSet t.toNat).egress.findD ch.toNat [] = v :: rest → exec (.egressRead t ch) s =
      .next { s.putSet t.toNat { s.slotSet t.toNat with egress := (s.slotSet t.toNat).egress.put ch.toNat rest } with
        port := { s.port with readData := toBytes 8 (2 ^ 32 + v.toNat), readPoison := false } } := by
  rw [exec_egressRead]
  refine ⟨fun h => ?_, fun v rest h => ?_⟩
  · simp only [execEgressRead, State.popEgress, State.egressWord, h]
  · simp only [execEgressRead, State.popEgress, State.egressWord, h, State.putSet_port]

/-- A doorbell by the state of its set. -/
theorem SlotSet.hasTokens_eq (S : SlotSet) : S.hasTokens = true ↔ S.st ∉ [CtxState.empty, .loading, .retired] := by
  simp [SlotSet.hasTokens]

/-- INGRESS_DOORBELL by its set and by whether the channel has room. -/
theorem exec_ingressDoorbell_eq (t : BitVec 1) (ch : BitVec 4) (pl : BitVec 32) (s : State) (S : SlotSet) (hS : S = s.slotSet t.toNat) (l : List (BitVec 32))
    (hl : l = S.ingress.findD ch.toNat []) :
    (S.st ∈ [CtxState.empty, .loading, .retired] → exec (.ingressDoorbell t ch pl) s = .next s) ∧
    (S.st ∉ [CtxState.empty, .loading, .retired] →
      (l.length < 16 → exec (.ingressDoorbell t ch pl) s = .next (s.putSet t.toNat { S with ingress := S.ingress.put ch.toNat (l ++ [pl]) })) ∧
      (16 ≤ l.length → exec (.ingressDoorbell t ch pl) s =
        .next (s.putSet t.toNat { S with overflow := S.overflow ||| BitVec.ofNat 16 (2 ^ ch.toNat) }))) := by
  subst hS hl
  simp only [exec_ingressDoorbell, State.doorbell]
  refine ⟨fun h => ?_, fun h => ⟨fun hn => ?_, fun hn => ?_⟩⟩
  · have hno : (s.slotSet t.toNat).hasTokens = false := by
      rw [← Bool.not_eq_true, SlotSet.hasTokens_eq]
      exact fun hc => hc h
    rw [hno]; rfl
  · rw [(SlotSet.hasTokens_eq _).mpr h, if_neg (by decide), if_neg (Nat.not_le.mpr hn)]
  · rw [(SlotSet.hasTokens_eq _).mpr h, if_neg (by decide), if_pos hn]

/-! ## Writes of the mailbox registers (R447, R449) -/

/-- An MBGO write by the state of firmware. -/
theorem State.mbgo_eq (s : State) :
    (s.firmware = .running → s.port.busy = false → s.mbgo = { s with port := { s.port with
      tag := BitVec.ofNat 32 (bits s.port.mbcmd 32 32), busy := true, done := false, lost := false
      cmd := some { code := bits s.port.mbcmd 0 16, set := bits s.port.mbcmd 16 8, reserved := bits s.port.mbcmd 24 8, args := s.port.area, begun := false } } }) ∧
    (s.firmware = .running → s.port.busy = true → s.mbgo = { s with port := { s.port with lost := true } }) ∧
    (s.firmware = .refused → s.mbgo = { s with port := { s.port with
      tag := BitVec.ofNat 32 (bits s.port.mbcmd 32 32), done := true, status := 0xF, result := [] } }) ∧
    (s.firmware = .unverified ∨ s.firmware = .failed → s.mbgo = s) := by
  refine ⟨fun hf hb => ?_, fun hf hb => ?_, fun hf => ?_, fun hf => ?_⟩
  · simp only [State.mbgo, hf, hb, Bool.false_eq_true, if_false]
  · simp only [State.mbgo, hf, hb, if_true]
  · simp only [State.mbgo, hf]
  · rcases hf with hf | hf <;> simp only [State.mbgo, hf]

section Registers

variable (off : BitVec 26) (s : State)

/-- MBGO, by a write of eight bytes or of either half. -/
theorem execHostRegisterWrite_mbgo (wr : RegWrite) (w : BitVec 32) (h : off.toNat = 8 ∨ off.toNat = 12 ∧ wr = .four w) :
    execHostRegisterWrite off wr s = .next s.mbgo := by
  rcases h with h | ⟨h, rfl⟩
  · simp [execHostRegisterWrite, h]
  · simp [execHostRegisterWrite, h, regHalf]

/-- A write of eight bytes by its register. -/
theorem execHostRegisterWrite_eight (v : BitVec 64) :
    execHostRegisterWrite off (.eight v) s = .next
      (if off.toNat = 0 then { s with port := { s.port with mbcmd := v } }
      else if off.toNat = 8 then s.mbgo
      else if 0x10 ≤ off.toNat ∧ off.toNat + 8 ≤ 0x800 then
        { s with port := { s.port with area := memPutBytes s.port.area (off.toNat - 0x10) (toBytes 8 v.toNat) } }
      else if off.toNat = 0x11000 then { s with port := { s.port with evhead := v.setWidth 32 } }
      else if off.toNat = 0x100200 then s.clearOverflow 0 v
      else if off.toNat = 0x101200 then s.clearOverflow 1 v
      else s) := by
  refine congrArg Host.Outcome.next (if_congr Iff.rfl rfl ((if_neg fun h => Bool.false_ne_true h.2).trans (if_congr ?_ rfl
    (if_congr Iff.rfl rfl (if_congr Iff.rfl rfl (if_congr Iff.rfl rfl (if_congr Iff.rfl rfl ?_)))))))
  · exact or_iff_left fun h => Bool.false_ne_true h.2
  · split
    · exact if_neg fun h => Bool.false_ne_true h.1
    · rfl

/-- A write of four bytes by its register. -/
theorem execHostRegisterWrite_four (w : BitVec 32) :
    execHostRegisterWrite off (.four w) s = .next
      (if off.toNat = 0 then { s with port := { s.port with mbcmd := (s.port.mbcmd &&& 0xFFFFFFFF00000000) ||| w.setWidth 64 } }
      else if off.toNat = 4 then { s with port := { s.port with mbcmd := (s.port.mbcmd &&& 0xFFFFFFFF) ||| (w.setWidth 64 <<< 32) } }
      else if off.toNat = 8 ∨ off.toNat = 12 then s.mbgo
      else if 0x10 ≤ off.toNat ∧ off.toNat + 4 ≤ 0x800 then
        { s with port := { s.port with area := memPutBytes s.port.area (off.toNat - 0x10) (toBytes 4 (w.setWidth 64).toNat) } }
      else if off.toNat = 0x11000 then { s with port := { s.port with evhead := w } }
      else if off.toNat = 0x100200 then s.clearOverflow 0 (w.setWidth 64)
      else if off.toNat = 0x101200 then s.clearOverflow 1 (w.setWidth 64)
      else (channelAt 0x100000 off.toNat).elim s fun q => if off.toNat % 8 = 0 ∧ s.tripped = false then s.doorbell q.1 q.2 w else s) := by
  have hw : (w.setWidth 64).setWidth 32 = w := by simp
  refine congrArg Host.Outcome.next (if_congr Iff.rfl rfl (if_congr (and_iff_left rfl) rfl (if_congr (or_congr_right (and_iff_left rfl)) rfl
    (if_congr Iff.rfl rfl (if_congr Iff.rfl ?_ (if_congr Iff.rfl rfl (if_congr Iff.rfl rfl ?_)))))))
  · exact congrArg (fun v => { s with port := { s.port with evhead := v } }) hw
  · cases channelAt 0x100000 off.toNat with
    | none => rfl
    | some q => exact (if_congr (and_iff_right rfl) (congrArg (s.doorbell q.1 q.2) hw) rfl)

end Registers

/-- A write of four bytes at a doorbell's offset rings it (R110), but for a module that has tripped (R458). -/
theorem execHostRegisterWrite_doorbell (off : BitVec 26) (s : State) (w : BitVec 32) (U : BitVec 1) (c : BitVec 4)
    (ho : off.toNat = channelOff 0x100000 U c) (ht : s.tripped = false) :
    execHostRegisterWrite off (.four w) s = .next (s.doorbell U.toNat c.toNat w) := by
  have hU := U.isLt
  have hc := c.isLt
  have hch := channelAt_off 0x100000 U c off.toNat (by omega) (by omega)
  unfold channelOff at ho
  have h8 : off.toNat % 8 = 0 := by omega
  rw [execHostRegisterWrite_four, if_neg (by omega), if_neg (by omega), if_neg (by omega), if_neg (by omega), if_neg (by omega), if_neg (by omega),
    if_neg (by omega), hch]
  exact congrArg Host.Outcome.next (if_pos ⟨h8, ht⟩)

/-! ## Events and commands (R449, R451, R452) -/

theorem exec_mbgoWhileBusy_eq (s : State) :
    exec .mbgoWhileBusy s = .next (if s.port.busy = true then { s with port := { s.port with lost := true } } else s) := rfl

/-- EVENT_RING_WRITE with nothing held, or without firmware that a reset has verified. -/
theorem exec_eventRingWrite_none (s : State) (h : s.port.waiting = [] ∨ s.firmware = .unverified ∨ s.firmware = .refused) :
    exec .eventRingWrite s = .next s := by
  rw [exec_eventRingWrite]
  rcases h with h | h
  · simp only [execEventRingWrite, h]
  · have hi : s.informs = false := by rcases h with h | h <;> simp [State.informs, h]
    simp only [execEventRingWrite, hi, Bool.not_false, if_true]
    split <;> rfl

/-- EVENT_RING_WRITE of verified firmware, by whether the ring has room. -/
theorem exec_eventRingWrite_some (s : State) (e : RingEntry) (rest : List RingEntry) (h : s.port.waiting = e :: rest)
    (hf : s.firmware = .running ∨ s.firmware = .failed) : exec .eventRingWrite s = .next (if (s.port.evtail - s.port.evhead).toNat = 64 then s
      else { s with port := { s.port with ring := s.port.ring.put (s.port.evtail.toNat % 64) e, evtail := s.port.evtail + 1, waiting := rest } }) := by
  have hi : s.informs = true := decide_eq_true hf
  rw [exec_eventRingWrite]
  simp only [execEventRingWrite, h, hi, Bool.not_true, Bool.false_eq_true, if_false]

theorem exec_codeUnassigned_some (s : State) (c : Command) (h : s.port.cmd = some c) :
    exec .codeUnassigned s = .next (if c.code = 0 ∨ c.code > 0x10 then s.answered 1 [] else s) := by
  rw [exec_codeUnassigned]
  simp only [execCodeUnassigned, h]
  rfl

/-- Settles O49: memory by whether the host reaches the place, registers by the chain of their offsets, token channels by theirs. -/
theorem hostAccessResults : Obligations.HostAccessResults := by
  unfold Obligations.HostAccessResults
  rintro ad val data n T ch pl off s _ _ wr w _ S _ rfl rfl hS rfl rfl
  refine ⟨fun hpa hr hd hm => ?_, fun h => ?_, fun hpa hr => ?_, fun h => ?_, fun e he hpa => ?_, fun l hl => ?_, fun h => ?_, fun v rest h => ?_,
    fun h => ?_, fun h => ?_, fun h1 h2 => ?_, fun h => ?_, fun h => ?_, fun k hk h => ?_, fun h1 h2 => ?_, fun h => ?_, fun h => ?_, fun h1 h2 => ?_,
    fun k hk h => ?_, fun h1 h2 h3 => ?_, fun U c ht h => ?_, fun U c h => ?_, fun h => ?_, fun h => ?_, fun h => ?_, fun e rest h hf => ⟨fun hn => ?_, fun hn => ?_⟩,
    fun c h hc => ?_, fun c h h1 h2 => ?_, fun h => ?_⟩
  · refine ⟨_, (exec_hostWrite ad data s).trans ((execHostWrite_memory ad s data hpa).trans (congrArg _ (if_pos ?_))), s.writeAs_stores none none none _ _ hm hd⟩
    rwa [Bool.or_eq_true]
  · rw [exec_hostWrite]
    rcases h with h | ⟨h1, h2⟩
    · exact execHostWrite_above ad s data h
    · by_cases hpa : ad.toNat < 2 ^ 52
      · rw [execHostWrite_memory ad s data hpa, h1, h2]; rfl
      · exact execHostWrite_above ad s data (Nat.not_lt.mp hpa)
  · have hok : (decide (ad.toNat < 2 ^ 52) && (paHost ad.toNat || s.inModule ad.toNat n)) = true := by
      rw [Bool.and_eq_true, Bool.or_eq_true]
      exact ⟨decide_eq_true hpa, hr⟩
    rw [exec_hostRead, execHostRead_memory ad s n (by omega), if_pos hok, if_pos hok]
  · have hno : ¬ (decide (ad.toNat < 2 ^ 52) && (paHost ad.toNat || s.inModule ad.toNat n)) = true := by
      rw [Bool.and_eq_true, Bool.or_eq_true, decide_eq_true_eq]
      rintro ⟨hlt, hr⟩
      rcases h with h | ⟨-, h1, h2⟩
      · omega
      · rw [h1, h2] at hr
        exact hr.elim Bool.false_ne_true Bool.false_ne_true
    rw [exec_hostRead, execHostRead_memory ad s n (by omega), if_neg hno, if_neg hno]
  · rw [← s.mbstat_eq] at he
    rw [exec_hostRead]
    exact execHostRead_shown ad s e he hpa
  · exact exec_ingressDoorbell_eq T ch pl s S hS l hl
  · exact (exec_egressRead_eq T ch s).1 (hS ▸ h)
  · exact ⟨_, (exec_egressRead_eq T ch s).2 v rest (hS ▸ h), hS ▸ rfl⟩
  · rw [exec_hostRegisterWrite, execHostRegisterWrite_eight, if_pos h]
  · obtain ⟨hstart, hlost, hrefused, hnone⟩ := s.mbgo_eq
    rw [exec_hostRegisterWrite, execHostRegisterWrite_mbgo off s wr w h]
    exact ⟨fun hf hb => congrArg _ (hstart hf hb), fun hf hb => congrArg _ (hlost hf hb), fun hf => congrArg _ (hrefused hf), fun hf => congrArg _ (hnone hf)⟩
  · rw [exec_hostRegisterWrite, execHostRegisterWrite_eight, if_neg (by omega), if_neg (by omega), if_pos ⟨h1, h2⟩]
  · rw [exec_hostRegisterWrite, execHostRegisterWrite_eight, if_neg (by omega), if_neg (by omega), if_neg (by omega), if_pos h]
  · rw [exec_hostRegisterWrite, execHostRegisterWrite_four, if_neg (by omega), if_neg (by omega), if_neg (by omega), if_neg (by omega), if_pos h]
  · rw [exec_hostRegisterWrite, execHostRegisterWrite_eight, if_neg (by omega), if_neg (by omega), if_neg (by omega), if_neg (by omega)]
    obtain rfl | rfl : k = 0 ∨ k = 1 := by omega
    · rw [if_pos h]; rfl
    · rw [if_neg (by omega), if_pos h]; rfl
  · simp only [List.mem_cons, List.not_mem_nil, or_false, not_or] at h1
    rw [exec_hostRegisterWrite, execHostRegisterWrite_eight, if_neg (by omega), if_neg (by omega), if_neg (by omega), if_neg (by omega), if_neg (by omega),
      if_neg (by omega)]
  · rw [exec_hostRegisterWrite, execHostRegisterWrite_four, if_pos h]
  · rw [exec_hostRegisterWrite, execHostRegisterWrite_four, if_neg (by omega), if_pos h]
  · rw [exec_hostRegisterWrite, execHostRegisterWrite_four, if_neg (by omega), if_neg (by omega), if_neg (by omega), if_pos ⟨h1, h2⟩]
  · have hw : (w.setWidth 64).setWidth 16 = w.setWidth 16 := BitVec.setWidth_setWidth_of_le _ (by decide)
    rw [exec_hostRegisterWrite, execHostRegisterWrite_four, if_neg (by omega), if_neg (by omega), if_neg (by omega), if_neg (by omega), if_neg (by omega), ← hw]
    obtain rfl | rfl : k = 0 ∨ k = 1 := by omega
    · rw [if_pos h]; rfl
    · rw [if_neg (by omega), if_pos h]; rfl
  · simp only [List.mem_cons, List.not_mem_nil, or_false, not_or] at h1
    rw [exec_hostRegisterWrite, execHostRegisterWrite_four, if_neg (by omega), if_neg (by omega), if_neg (by omega), if_neg (by omega), if_neg (by omega),
      if_neg (by omega), if_neg (by omega), h3, Option.elim_none]
  · rw [exec_hostRegisterWrite, exec_ingressDoorbell]
    exact execHostRegisterWrite_doorbell off s w U c h ht
  · rw [exec_hostRead, exec_egressRead]
    exact execHostRead_egress ad s U c (h.trans (by unfold channelOff; omega))
  · rw [exec_mbgoWhileBusy_eq, if_pos h]
  · rw [exec_mbgoWhileBusy_eq, h]; rfl
  · exact exec_eventRingWrite_none s h
  · rw [exec_eventRingWrite_some s e rest h hf, if_pos hn]
  · rw [exec_eventRingWrite_some s e rest h hf, if_neg hn]
  · rw [exec_codeUnassigned_some s c h, if_pos hc]
  · rw [exec_codeUnassigned_some s c h, if_neg (by omega)]
  · rw [exec_codeUnassigned]
    simp only [execCodeUnassigned, h]

end Sys2Proof.Machine
end

section
namespace Sys2Proof.Machine

theorem exec_klaunch (d a : Reg) (s : State) : exec (.klaunch d a) s = execKlaunch d a s := rfl

/-! ## What a look finds with the convoy closed (R38, R353) -/

/-- A look after the close of the convoy is the look before it, closed. -/
theorem State.close_look (s : State) (k : Kind) (va n id : Nat) :
    s.close.look s.cur k va n id = ((s.look s.cur k va n id).1.close, (s.look s.cur k va n id).2) := by
  refine (s.look_putGroup s.cur s.own.closeConvoy s.cur k va n id rfl).trans (Prod.ext ?_ rfl)
  rw [State.look_tr]
  rfl

theorem State.close_wordPlace (s : State) (k : Kind) (va : Word) : s.close.wordPlace k va = ((s.wordPlace k va).1.close, (s.wordPlace k va).2) := by
  unfold State.wordPlace
  have hcur : s.close.cur = s.cur := rfl
  rw [hcur, s.close_look]
  generalize s.look s.cur k va.toNat 8 = q
  obtain ⟨u, o⟩ := q
  split
  · rfl
  · rcases o with ⟨_ | ⟨r, rs⟩, leaf⟩ | _ | _ | _ <;> rfl

theorem State.close_depPlaces (s : State) (l : List Word) (acc : List Nat) :
    s.close.depPlaces l acc = ((s.depPlaces l acc).1.close, (s.depPlaces l acc).2) := by
  induction l generalizing s acc with
  | nil => rfl
  | cons d ds ih =>
    unfold State.depPlaces
    split
    · exact ih s acc
    · rw [s.close_wordPlace]
      generalize s.wordPlace .load d = q
      obtain ⟨u, o⟩ := q
      cases o with
      | error e => rfl
      | ok pa => exact ih u _

/-! ## Translation alone changed -/

/-- Two states differ in what translation holds, if at all. -/
def State.OnlyTr (s u : State) : Prop := u = { s with tr := u.tr }

section OnlyTr

variable {s u : State} (h : s.OnlyTr u)

include h

theorem State.OnlyTr.cur : u.cur = s.cur := by rw [h]

theorem State.OnlyTr.own : u.own = s.own := by rw [h]; rfl

theorem State.OnlyTr.x (r : Reg) : u.x r = s.x r := by rw [State.x, h.own]; rfl

theorem State.OnlyTr.slotSet (T : Nat) : u.slotSet T = s.slotSet T := by rw [h]; rfl

theorem State.OnlyTr.memCanonical (hm : s.MemCanonical) : u.MemCanonical := by rw [h]; exact hm

theorem State.OnlyTr.settled (hs : s.Settled) : u.Settled := by rw [h]; exact hs

theorem State.OnlyTr.readRuns (runs : List (Nat × Nat)) : u.readRuns runs = s.readRuns runs := by
  rw [h]; exact State.readRuns_congr _ s runs rfl rfl

theorem State.OnlyTr.runsBad (runs : List (Nat × Nat)) : u.runsBad runs = s.runsBad runs := by rw [h]; rfl

theorem State.OnlyTr.trans {v : State} (h2 : u.OnlyTr v) : s.OnlyTr v := by
  unfold State.OnlyTr at h h2 ⊢
  rw [h] at h2
  exact h2

theorem State.OnlyTr.withTr : ({ s with tr := u.tr } : State) = u := h.symm

end OnlyTr

theorem State.look_onlyTr (s : State) (g : Nat) (k : Kind) (va n id : Nat) : s.OnlyTr (s.look g k va n id).1 := s.look_tr g k va n id

theorem State.wordPlace_onlyTr (s : State) (k : Kind) (va : Word) : s.OnlyTr (s.wordPlace k va).1 := by
  unfold State.wordPlace
  split
  · rfl
  · have htr := s.look_onlyTr s.cur k va.toNat 8 0
    generalize s.look s.cur k va.toNat 8 = q at htr ⊢
    obtain ⟨u, o⟩ := q
    rcases o with ⟨_ | ⟨r, rs⟩, leaf⟩ | _ | _ | _ <;> exact htr

theorem State.depPlaces_onlyTr (s : State) (l : List Word) (acc : List Nat) : s.OnlyTr (s.depPlaces l acc).1 := by
  induction l generalizing s acc with
  | nil => rfl
  | cons d ds ih =>
    unfold State.depPlaces
    split
    · exact ih s acc
    · have hw := s.wordPlace_onlyTr .load d
      generalize s.wordPlace .load d = q at hw ⊢
      obtain ⟨u, o⟩ := q
      cases o with
      | error e => exact hw
      | ok pa => exact hw.trans (ih u _)

/-! ## A long read that finds its data at once -/

/-- A settled group's read of bytes of its own die. -/
theorem State.Settled.loadWide {s u : State} (h : s.Settled) (va : Word) (n : Nat) {runs : List (Nat × Nat)} {leaf : Nat}
    (hl : s.look s.cur .load va.toNat n = (u, .here runs leaf)) (hloc : runsLocal s.cur runs = true) (hb : s.runsBad runs = false) :
    s.loadWide s.cur va n = (u, .data (s.readRuns runs)) := by
  have hu : s.OnlyTr u := by have htr := s.look_onlyTr s.cur .load va.toNat n 0; rwa [hl] at htr
  have hs := hu.settled h
  have hnil : ∀ q, (u.group s.cur).slice q = [] := hu.cur ▸ hs.slice_nil
  have hq : u.Unqueued s.cur := hu.cur ▸ hs.unqueued
  have hc : ∀ vas, u.clearFor s.cur vas runs = true := fun vas => List.all_eq_true.mpr fun va _ => by
    rw [State.sliceClear, hq.storesClear, State.readAhead_noEntries _ _ _ _ hq.2.2]
    rfl
  simp only [State.loadWide, hl, hq.tileBusy, State.drainFor_nil _ _ _ _ hnil, hc, State.readFor, hloc, hu.runsBad, hb, hu.readRuns, if_true,
    Bool.false_eq_true, if_false]

/-- As `State.Settled.loadWide`, after the close of the convoy. -/
theorem State.Settled.close_loadWide {s u : State} (h : s.Settled) (va : Word) (n : Nat) {runs : List (Nat × Nat)} {leaf : Nat}
    (hl : s.look s.cur .load va.toNat n = (u, .here runs leaf)) (hloc : runsLocal s.cur runs = true) (hb : s.runsBad runs = false) :
    s.close.loadWide s.cur va n = (u.close, .data (s.readRuns runs)) := by
  have hlook : s.close.look s.close.cur .load va.toNat n = (u.close, .here runs leaf) := by
    refine (s.close_look .load va.toNat n 0).trans ?_
    rw [hl]
  refine (h.close.loadWide va n hlook hloc hb).trans ?_
  exact congrArg (fun b => (u.close, Got.data b)) (State.readRuns_congr s.close s runs rfl rfl)

/-! ## A launch accepted (R115, R116, R122, R125) -/

/-- A write on a group's line changes its phase at most. -/
theorem touchGroup_phase (by_ : Option Nat) (lo n g : Nat) (G : Group) : ∃ p, touchGroup by_ lo n g G = { G with phase := p } := by
  unfold touchGroup
  split
  · split
    · exact ⟨_, rfl⟩
    · exact ⟨_, rfl⟩
  · exact ⟨_, rfl⟩

/-- A group that does not wait is told of no write. -/
theorem touchGroup_running (by_ : Option Nat) (lo n g : Nat) (G : Group) (h : G.phase = .running) : touchGroup by_ lo n g G = G := by
  simp only [touchGroup, h]

/-- A store with one group then set, which no write is told to, is a store after that group is set. -/
theorem State.StoresAt.putGroup {s t : State} {pa : Nat} {data : List Byte} (h : s.StoresAt t none pa data) (g : Nat) (G : Group)
    (hG : touchGroup none pa data.length g G = G) : (s.putGroup g G).StoresAt (t.putGroup g G) none pa data := by
  obtain ⟨honly, hread, hmem, hhost, hgroup⟩ := h
  refine ⟨by rw [honly]; rfl, hread, hmem, hhost, fun k => ?_⟩
  by_cases hk : k = g
  · subst hk
    rw [State.group_putGroup, State.group_putGroup, hG]
  · rw [State.group_putGroup_ne _ _ hk, State.group_putGroup_ne _ _ hk, hgroup]

/-- A kernel put at the end of the records, of a number that none of them has, is itself the record of that number. -/
theorem SlotSet.putKernel_last (S : SlotSet) (l : List Kernel) (k : Kernel) (hS : S.kernels = l ++ [k]) (hl : ∀ q ∈ l, q.num ≠ k.num) :
    S.putKernel k = S := by
  have hmap : (l ++ [k]).map (fun q => if q.num = k.num then k else q) = l ++ [k] := by
    rw [List.map_append, List.map_singleton, if_pos rfl]
    congr 1
    exact (List.map_congr_left fun q hq => if_neg (hl q hq)).trans (List.map_id _)
  rw [SlotSet.putKernel, hS, hmap, ← hS]

theorem State.Settled.landsOn {s : State} (h : s.Settled) (pa : Nat) : s.landsOn s.cur pa = false := by
  obtain ⟨⟨-, -, hslices, -⟩, hsent, -⟩ := h
  have hsent' : (s.group s.cur).sent = [] := hsent
  have hq : (s.group s.cur).slices.toList.any (fun l => l.any fun a => runsMeet (s.accessRuns s.cur a) [(pa, 8)]) = false :=
    List.any_eq_false.mpr fun l hl => by rw [hslices l hl]; simp
  simp only [State.landsOn, hq, hsent', List.any_nil, Bool.or_self]

/-- The kernel that a launch brings (R114, R116). -/
def SlotSet.launched (S : SlotSet) (G : Nat) (seq : Nat) (r : LaunchRecord) (kd : KernelDesc) (cword : Nat) (deps : List Nat) : Kernel :=
  { num := S.nextKernel, queue := some r.queue, st := .queued, desc := kd, args := r.args, ngrp := r.ngrp, serial := r.serial, cohort := r.cohort
    cword := some cword, word := 1, deps := deps, launchable := false, passed := 0, reserving := false, placed := 0, ended := 0
    bar := { used := true, gen := 0, count := r.ngrp, phase := 0, arrivals := 0 }, after := some (G, seq), stays := false }

/-- A slot set with a kernel behind the others, and the number after its own next. -/
def SlotSet.withLaunch (S : SlotSet) (k : Kernel) : SlotSet :=
  { S with kernels := S.kernels ++ [k], nextKernel := if S.nextKernel ≥ 2 ^ 32 - 1 then 1 else S.nextKernel + 1 }

/-- A settled group's launch: the record, its completion word Queued, and the number. -/
theorem State.Settled.acceptLaunch {s : State} (h : s.Settled) (d : Reg) (r : LaunchRecord) (kd : KernelDesc) (pa : Nat) (deps : List Nat)
    (S : SlotSet) (hS : S = s.slotSet (setOf s.cur)) (hpa : paHost pa = true ∨ paModule pa = false) (hnum : ∀ q ∈ S.kernels, q.num ≠ S.nextKernel) :
    s.close.acceptLaunch d r kd pa deps =
      ((s.close.putSet (setOf s.cur) (S.withLaunch (S.launched s.cur s.own.seq r kd pa deps))).write none pa (toBytes 8 1)).done d
        (BitVec.ofNat 64 (S.nextKernel * 2 ^ 32)) 4 := by
  have hdrain : (s.close.drainScope s.cur 3).drainThose s.cur (fun st a => runsMeet (st.accessRuns s.cur a) [(pa, 8)]) = s.close := by
    have hnil : ∀ q, (s.close.group s.cur).slice q = [] := h.close.slice_nil
    rw [State.drainScope, State.drainThose_nil _ _ _ hnil, State.drainThose_nil _ _ _ hnil]
  have hleft : (s.close.storesLeft s.cur 3 || s.close.loadsLeft s.cur 3 || s.close.landsOn s.cur pa) = false := by
    have h1 : s.close.storesLeft s.cur 3 = false := h.close.storesLeft 3
    have h2 : s.close.loadsLeft s.cur 3 = false := h.close.loadsLeft 3
    have h3 : s.close.landsOn s.cur pa = false := h.close.landsOn pa
    rw [h1, h2, h3]; rfl
  have hfar : (paModule pa && !paHost pa) = false := by rcases hpa with h | h <;> simp [h]
  subst hS
  have hput := SlotSet.putKernel_last ((s.slotSet (setOf s.cur)).withLaunch ((s.slotSet (setOf s.cur)).launched s.cur s.own.seq r kd pa deps)) _ _ rfl hnum
  have hword : (s.close.putSet (setOf s.cur) ((s.slotSet (setOf s.cur)).withLaunch ((s.slotSet (setOf s.cur)).launched s.cur s.own.seq r kd pa deps))).putWord
      (setOf s.cur) ((s.slotSet (setOf s.cur)).launched s.cur s.own.seq r kd pa deps) (fun _ => 1) =
      (s.close.putSet (setOf s.cur) ((s.slotSet (setOf s.cur)).withLaunch ((s.slotSet (setOf s.cur)).launched s.cur s.own.seq r kd pa deps))).write none pa
        (toBytes 8 1) := by
    have hself : ∀ k : Kernel, k.word = 1 → ({ k with word := 1 } : Kernel) = k := fun k hk => by rw [← hk]
    rw [State.putWord, State.slotSet_putSet, State.putSet_putSet, hself _ rfl, hput]
    simp only [SlotSet.launched, State.unitUpdate, hfar, Bool.false_eq_true, if_false]
    rfl
  have hseq : s.close.own.seq = s.own.seq := by rw [State.own_close]; rfl
  have hcur : s.close.cur = s.cur := rfl
  simp only [State.acceptLaunch, hcur, hdrain, hleft, Bool.false_eq_true, if_false, hseq, State.slotSet_close]
  exact congrArg (fun u : State => u.done d _ 4) hword

/-- What an accepted launch leaves: the number in xd, the group behind its instruction, and the word beside the new record. -/
theorem State.write_done_launches (s : State) (d : Reg) (v : Word) (T pa : Nat) (A : SlotSet) (data : List Byte) (hm : s.MemCanonical) (hd : data ≠ [])
    {t : State} (ht : t = ((s.close.putSet T A).write none pa data).done d v 4) : t.tr = s.tr ∧ s.SetsX t d v ∧
      ((s.putSet T A).putOwn { s.own.closeConvoy with
        x := t.own.x, pc := s.own.pc + 4, retired := s.own.retired + 1, phase := .running, dataWait := none, resume := false }).StoresAt t none pa data := by
  have hm' : (s.close.putSet T A).MemCanonical := ⟨by rw [State.putSet_mem]; exact hm.1, by rw [State.putSet_hostMem]; exact hm.2⟩
  have hst : (s.close.putSet T A).StoresAt ((s.close.putSet T A).write none pa data) none pa data := State.writeAs_stores _ none none none pa data hm' hd
  generalize (s.close.putSet T A).write none pa data = w at hst ht
  have honly := hst.1
  have hcur : w.cur = s.cur := by rw [honly]; exact State.putSet_cur _ _ _
  have htr : w.tr = s.tr := by rw [honly]; exact State.putSet_tr _ _ _
  obtain ⟨p, hp⟩ : ∃ p, w.own = { s.own.closeConvoy with phase := p } := by
    obtain ⟨p, hp⟩ := touchGroup_phase none pa data.length s.cur s.own.closeConvoy
    have hown : w.own = touchGroup none pa data.length s.cur ((s.close.putSet T A).group s.cur) := by rw [State.own, hcur]; exact hst.2.2.2.2 s.cur
    have hclose : (s.close.putSet T A).group s.cur = s.own.closeConvoy := (State.group_putSet _ _ _ _).trans s.own_close
    exact ⟨p, by rw [hown, hclose, hp]⟩
  rw [State.done_eq] at ht
  have hG : t.own = (w.own.setReg d v).retire 4 := by rw [ht, State.own_putOwn]
  have hx : t.own = { s.own.closeConvoy with
      x := t.own.x, pc := s.own.pc + 4, retired := s.own.retired + 1, phase := .running, dataWait := none, resume := false } := by
    rw [hG, hp]
    unfold Group.retire Group.setReg
    split <;> rfl
  refine ⟨by rw [ht]; exact htr, fun r => ?_, ?_⟩
  · have hreg : w.own.reg r = s.x r := by rw [hp]; rfl
    rw [State.x, hG, Group.reg_x, Group.reg_setReg, hreg]
  · have ht' : t = w.putGroup s.cur t.own := by rw [hG, ht, State.putOwn, hcur]
    have hput : (s.close.putSet T A).putGroup s.cur t.own = (s.putSet T A).putOwn t.own := by
      rw [State.close_putSet, State.close, State.putOwn, State.putOwn, State.putGroup, State.putGroup, State.putGroup, State.putSet_cur, Table.put_put]
    rw [← hx, ← hput]
    generalize t.own = G at hx ht'
    rw [ht']
    exact hst.putGroup s.cur G (touchGroup_running _ _ _ _ _ (by rw [hx]))

/-! ## KLAUNCH, check by check (R125) -/

section Launch

variable {d a : Reg} {s s1 : State} {r1 : List (Nat × Nat)} {l1 : Nat} (h : s.Settled) (halign : (s.x a).toNat % 64 = 0)
  (hlook : s.look s.cur .load (s.x a).toNat 64 = (s1, .here r1 l1)) (hloc : runsLocal s.cur r1 = true) (hbad : s.runsBad r1 = false)

include h halign hlook hloc hbad

theorem execKlaunch_badRecord (hr : recordOk (s.readRuns r1) = false) : execKlaunch d a s = .next (s1.close.done d 3 4) := by
  have hload := h.close_loadWide (s.x a) 64 hlook hloc hbad
  simp only [execKlaunch, halign, ne_eq, not_true_eq_false, if_false, hload, hr, Bool.not_false, if_true]

variable {r : LaunchRecord} (hrec : r = launchRecord (s.readRuns r1)) (hr : recordOk (s.readRuns r1) = true) {s2 : State} {r2 : List (Nat × Nat)} {l2 : Nat}
  (h1 : s.OnlyTr s1) (hlook2 : s1.look s.cur .load r.desc.toNat 32 = (s2, .here r2 l2)) (hloc2 : runsLocal s.cur r2 = true)
  (hbad2 : s.runsBad r2 = false)

include hrec hr h1 hlook2 hloc2 hbad2

omit halign hr in
/-- The record's read and the descriptor's, behind the close of the convoy. -/
theorem State.Settled.launchReads : s.close.loadWide s.cur (s.x a) 64 = (s1.close, .data (s.readRuns r1)) ∧
    s1.close.loadWide s.cur (launchRecord (s.readRuns r1)).desc 32 = (s2.close, .data (s.readRuns r2)) := by
  subst hrec
  refine ⟨h.close_loadWide (s.x a) 64 hlook hloc hbad, ?_⟩
  have hl := (h1.settled h).close_loadWide _ 32 (h1.cur ▸ hlook2) (h1.cur ▸ hloc2) ((h1.runsBad r2).trans hbad2)
  rwa [h1.cur, h1.readRuns] at hl

theorem execKlaunch_badDesc (hd : descOk (s.readRuns r2) = false) : execKlaunch d a s = .next (s2.close.done d 3 4) := by
  obtain ⟨hload, hload2⟩ := h.launchReads hlook hloc hbad hrec h1 hlook2 hloc2 hbad2
  simp only [execKlaunch, halign, ne_eq, not_true_eq_false, if_false, hload, hr, hload2, hd, Bool.not_true, Bool.not_false, Bool.false_eq_true, if_true]

theorem execKlaunch_noQueue (hd : descOk (s.readRuns r2) = true) (hq : (s2.slotSet (setOf s.cur)).queue? r.queue = none) :
    execKlaunch d a s = .next (s2.close.done d 2 4) := by
  obtain ⟨hload, hload2⟩ := h.launchReads hlook hloc hbad hrec h1 hlook2 hloc2 hbad2
  subst hrec
  simp only [execKlaunch, halign, ne_eq, not_true_eq_false, if_false, hload, hr, hload2, hd, State.slotSet_close, hq, Bool.not_true, Bool.false_eq_true,
    Option.isNone_none, if_true]

/-- A launch whose words have places, by its fit and by the room of its queue. -/
theorem execKlaunch_placed (hd : descOk (s.readRuns r2) = true) {S : SlotSet} (hS : S = s2.slotSet (setOf s.cur)) (hq : (S.queue? r.queue).isSome = true)
    {s3 s4 : State} {pa : Nat} {deps : List Nat} (hword : s2.wordPlace .store r.cword = (s3, .ok pa)) (hdeps : s3.depPlaces r.deps [] = (s4, .ok deps))
    {im : Image} (him : S.img = some im) : execKlaunch d a s = .next
      (if (r.cohort && decide (r.ngrp > 512 * emptyFit im (kernelDesc (s.readRuns r2)))) = true then s4.close.done d 4 4
      else if (!r.cohort && decide (emptyFit im (kernelDesc (s.readRuns r2)) = 0)) = true then s4.close.done d 6 4
      else if S.unplaced r.queue ≥ 256 then s4.close.done d 1 4
      else s4.close.acceptLaunch d r (kernelDesc (s.readRuns r2)) pa deps) := by
  subst hS
  have hword2 : s2.close.wordPlace .store r.cword = (s3.close, .ok pa) := by rw [State.close_wordPlace, hword]
  have hdeps2 : s3.close.depPlaces r.deps [] = (s4.close, .ok deps) := by rw [State.close_depPlaces, hdeps]
  have hnone : ((s2.slotSet (setOf s.cur)).queue? r.queue).isNone = false := by rw [Option.isNone_eq_false_iff]; exact hq
  obtain ⟨hload, hload2⟩ := h.launchReads hlook hloc hbad hrec h1 hlook2 hloc2 hbad2
  subst hrec
  simp only [execKlaunch, halign, ne_eq, not_true_eq_false, if_false, hload, hr, hload2, hd, State.slotSet_close, hnone, hword2, hdeps2, him, Option.map_some,
    Option.getD_some, Bool.not_true, Bool.false_eq_true]
  rfl

end Launch

/-- A result with the convoy closed, of a state that a translation has led to. -/
theorem State.OnlyTr.gives {s u : State} (h : s.OnlyTr u) (d : Reg) (v : Word) :
    ({ s with tr := (u.close.done d v 4).tr } : State).ClosesGivesX (u.close.done d v 4) d v 4 := by
  have htr : (u.close.done d v 4).tr = u.tr := rfl
  rw [htr, h.withTr]
  exact u.close_done_gives d v 4

/-- Settles O35: each refusal by the check that it fails, the launch by `State.Settled.acceptLaunch`. -/
theorem launchResults : Obligations.LaunchResults := by
  unfold Obligations.LaunchResults
  rintro d a s s1 s2 s3 s4 _ S im r1 r2 l1 l2 pa deps r _ rfl hS him h halign hlook hloc hbad hrec
  have gives : ∀ (u : State) (v : Word), s.OnlyTr u → execKlaunch d a s = .next (u.close.done d v 4) →
      ∃ t, exec (.klaunch d a) s = .next t ∧ ({ s with tr := t.tr } : State).ClosesGivesX t d v 4 := fun u v hu hx =>
    ⟨_, (exec_klaunch d a s).trans hx, hu.gives d v⟩
  have h1 : s.OnlyTr s1 := by have htr := s.look_onlyTr s.cur .load (s.x a).toNat 64 0; rwa [hlook] at htr
  refine ⟨fun hr => gives s1 3 h1 (execKlaunch_badRecord h halign hlook hloc hbad hr), ?_⟩
  rintro hr hlook2 hloc2 hbad2 rfl
  have h2 : s.OnlyTr s2 := h1.trans (by have htr := s1.look_onlyTr s.cur .load r.desc.toNat 32 0; rwa [hlook2] at htr)
  rw [← h2.slotSet] at hS
  refine ⟨fun hd => gives s2 3 h2 (execKlaunch_badDesc h halign hlook hloc hbad hrec hr h1 hlook2 hloc2 hbad2 hd),
    fun hd hq => gives s2 2 h2 (execKlaunch_noQueue h halign hlook hloc hbad hrec hr h1 hlook2 hloc2 hbad2 hd (hS ▸ hq)), fun hd hq hword hdeps => ?_⟩
  have h3 : s.OnlyTr s3 := h2.trans (by have htr := s2.wordPlace_onlyTr .store r.cword; rwa [hword] at htr)
  have h4 : s.OnlyTr s4 := h3.trans (by have htr := s3.depPlaces_onlyTr r.deps []; rwa [hdeps] at htr)
  have hx := execKlaunch_placed h halign hlook hloc hbad hrec hr h1 hlook2 hloc2 hbad2 hd hS hq hword hdeps him (d := d)
  refine ⟨fun hc hf => gives s4 6 h4 (hx.trans ?_), fun hf hc => ?_⟩
  · rw [hc, hf]; rfl
  have hco : ¬ (r.cohort && decide (r.ngrp > 512 * emptyFit im (kernelDesc (s.readRuns r2)))) = true := by
    rw [Bool.and_eq_true, decide_eq_true_eq]
    exact fun hn => absurd (hc hn.1) (Nat.not_le.mpr hn.2)
  have hno : ¬ (!r.cohort && decide (emptyFit im (kernelDesc (s.readRuns r2)) = 0)) = true := by
    rw [Bool.and_eq_true, decide_eq_true_eq]
    exact fun hn => absurd hn.2 (by omega)
  rw [if_neg hco, if_neg hno] at hx
  refine ⟨fun hu => gives s4 1 h4 (hx.trans (congrArg _ (if_pos hu))), fun hu hm hpa hnum k hk => ?_⟩
  have hS4 : S = s4.slotSet (setOf s4.cur) := by rw [hS, h2.slotSet, h4.slotSet, h4.cur]
  have hk' : S.launched s4.cur s4.own.seq r (kernelDesc (s.readRuns r2)) pa deps = k := by rw [h4.cur, h4.own]; exact hk.symm
  rw [if_neg (Nat.not_le.mpr hu), (h4.settled h).acceptLaunch d r _ pa deps S hS4 hpa hnum, hk', h4.cur] at hx
  generalize ht : ((s4.close.putSet (setOf s.cur) (S.withLaunch k)).write none pa (toBytes 8 1)).done d (BitVec.ofNat 64 (S.nextKernel * 2 ^ 32)) 4 = t at hx
  obtain ⟨htr, hsets, hstores⟩ := s4.write_done_launches d (BitVec.ofNat 64 (S.nextKernel * 2 ^ 32)) (setOf s.cur) pa (S.withLaunch k) (toBytes 8 1)
    (h4.memCanonical hm) (List.ne_nil_of_length_eq_add_one (toBytes_length 8 1)) ht.symm
  rw [h4.own] at hstores
  refine ⟨t, (exec_klaunch d a s).trans hx, fun q => by rw [hsets q, h4.x], ?_⟩
  rw [htr, h4.withTr]
  exact hstores

end Sys2Proof.Machine
end

section
namespace Sys2Proof.Machine

theorem exec_kernelLaunchable (kn : BitVec 32) (far : List Host.Cell) (s : State) :
    exec (.kernelLaunchable kn far) s = execKernelLaunchable kn far s := rfl
theorem exec_placementDecision (s : State) : exec .placementDecision s = execPlacementDecision s := rfl

/-! ## A kernel becomes launchable (R102) -/

theorem State.activeSet_lt {s : State} {T : Nat} (h : s.activeSet = some T) : T < 2 := by
  unfold State.activeSet at h
  split at h
  · cases h; decide
  · split at h
    · cases h; decide
    · cases h

section Launchable

variable (kn : BitVec 32) (far : List Host.Cell) {s : State} {T : Nat} (hT : s.activeSet = some T)

include hT

theorem execKernelLaunchable_none (h : (s.slotSet T).kernel? kn.toNat = none) : execKernelLaunchable kn far s = .next s := by
  simp only [execKernelLaunchable, hT, h]

/-- KERNEL_LAUNCHABLE of a kernel, by conditions 1 to 3 of R102. -/
theorem execKernelLaunchable_some {k : Kernel} (h : (s.slotSet T).kernel? kn.toNat = some k) : execKernelLaunchable kn far s = .next
    (if k.st = .queued ∧ !k.launchable ∧ s.meets T (s.slotSet T) k far = true then
      s.putSet T { (s.slotSet T).putKernel { k with launchable := true } with placeDue := true } else s) := by
  simp only [execKernelLaunchable, hT, h]

end Launchable

/-! ## Kernels by number (R115) -/

/-- Records changed in place keep their numbers. -/
theorem SlotSet.kernel?_map {S A : SlotSet} (f : Kernel → Kernel) (hf : ∀ k, (f k).num = k.num) (hA : A.kernels = S.kernels.map f) (n : Nat) :
    A.kernel? n = (S.kernel? n).map f := by
  have hp : ((fun q : Kernel => q.num == n) ∘ f) = fun q => q.num == n := funext fun q => by simp only [Function.comp, hf]
  rw [SlotSet.kernel?, hA, List.find?_map, hp]
  rfl

/-- The record of a number that only it has. -/
theorem SlotSet.kernel?_of_mem {S : SlotSet} {k : Kernel} (hk : k ∈ S.kernels) (h : ∀ j ∈ S.kernels, j.num = k.num → j = k) : S.kernel? k.num = some k := by
  have hs : (S.kernel? k.num).isSome = true := List.find?_isSome.mpr ⟨k, hk, by simp⟩
  obtain ⟨j, hj⟩ := Option.isSome_iff_exists.mp hs
  rw [hj, h j (List.mem_of_find?_eq_some hj) (SlotSet.num_of_kernel? hj)]

/-! ## Candidates (R104) -/

/-- A kernel that the placer may take: launchable and not fully placed. -/
abbrev Kernel.Waits (k : Kernel) : Prop := k.launchable = true ∧ (k.st = .queued ∨ k.st = .placing)

theorem SlotSet.candidate_mem {S : SlotSet} {q : Nat} {k : Kernel} (h : S.candidate q = some k) : k ∈ S.kernels ∧ k.queue = some q ∧ k.Waits := by
  have hp := List.find?_some h
  obtain ⟨hk, hq⟩ := List.mem_filter.mp (List.mem_of_find?_eq_some h)
  rw [Bool.and_eq_true, decide_eq_true_eq] at hp
  exact ⟨hk, eq_of_beq hq, hp⟩

theorem SlotSet.candidate_isSome {S : SlotSet} {q : Nat} {k : Kernel} (hk : k ∈ S.kernels) (hq : k.queue = some q) (hw : k.Waits) :
    (S.candidate q).isSome = true := by
  obtain ⟨hl, hst⟩ := hw
  refine List.find?_isSome.mpr ⟨k, List.mem_filter.mpr ⟨hk, by simp [hq]⟩, ?_⟩
  rw [hl, decide_eq_true hst]
  rfl

/-- A kernel as a decision finds it: not known to stay. -/
def Kernel.opened (k : Kernel) : Kernel := { k with stays := false }

theorem SlotSet.candidate_openDecision (S : SlotSet) (q : Nat) : S.openDecision.candidate q = (S.candidate q).map Kernel.opened := by
  have hk : S.openDecision.kernels = S.kernels.map Kernel.opened := rfl
  rw [SlotSet.candidate, SlotSet.inQueue, hk, List.filter_map, List.find?_map]
  rfl

/-- Each declared queue of a priority is served in its turn. -/
theorem SlotSet.mem_served {S : SlotSet} {q p : Nat} (hq : q ≤ 15) (h : (S.queue? q).map Queue.prio = some p) : q ∈ S.served p := by
  have hup : q ∈ upFrom 0 16 := by
    have hall : ∀ n, n < 16 → n ∈ upFrom 0 16 := by decide
    exact hall q (by omega)
  have hall : q ∈ (upFrom 0 16).filter fun q => decide ((S.queue? q).map Queue.prio = some p) := List.mem_filter.mpr ⟨hup, decide_eq_true h⟩
  unfold SlotSet.served
  simp only
  split
  · next l hl =>
    by_cases hlt : l < q
    · exact List.mem_append_left _ (List.mem_filter.mpr ⟨hall, decide_eq_true hlt⟩)
    · exact List.mem_append_right _ (List.mem_filter.mpr ⟨hall, decide_eq_true (Nat.not_lt.mp hlt)⟩)
  · exact hall

theorem SlotSet.mem_order {S : SlotSet} {q : Nat} {Q : Queue} (hq : q ≤ 15) (h : S.queues.find q = some Q) (hp : Q.prio ≤ 7) : q ∈ S.order := by
  have hall : ∀ n, n < 8 → n ∈ [7, 6, 5, 4, 3, 2, 1, 0] := by decide
  refine List.mem_flatten.mpr ⟨S.served Q.prio, List.mem_map_of_mem (hall _ (by omega)), ?_⟩
  exact SlotSet.mem_served hq (by rw [SlotSet.queue?_some hq h]; rfl)

/-- Queues without a candidate are passed. -/
theorem State.decideFrom_skip (s : State) (t : Nat) (l rest : List Nat) (h : ∀ q ∈ l, (s.slotSet t).candidate q = none) :
    s.decideFrom t (l ++ rest) = s.decideFrom t rest := by
  induction l with
  | nil => rfl
  | cons q l ih =>
    rw [List.cons_append, State.decideFrom]
    simp only [h q List.mem_cons_self]
    exact ih fun p hp => h p (List.mem_cons_of_mem _ hp)

/-- The queue whose candidate is placed ends the decision. -/
theorem State.decideFrom_places (s u : State) (t q : Nat) (rest : List Nat) (k : Kernel) (hk : (s.slotSet t).candidate q = some k)
    (hh : (s.slotSet t).heldBack k = false) (hu : s.placeNext t k = some u) :
    s.decideFrom t (q :: rest) = (u.putSet t { u.slotSet t with lastServed := (u.slotSet t).lastServed.put ((u.slotSet t).prioOf k) q }, true) := by
  rw [State.decideFrom]
  simp only [hk, hh, hu, Bool.false_eq_true, if_false]

/-- Without a reserving kernel none is held back. -/
theorem SlotSet.heldBack_none {S : SlotSet} (k : Kernel) (h : ∀ j ∈ S.kernels, j.reserving = false) : S.heldBack k = false :=
  List.any_eq_false.mpr fun j hj => by simp [h j hj]

/-! ## What fits does not turn on records of kernels (R129) -/

section PutSet

variable (s : State) (T : Nat) (A : SlotSet)

@[simp] theorem State.cellGroups_putSet (t c : Nat) : (s.putSet T A).cellGroups t c = s.cellGroups t c := by
  simp only [State.cellGroups, State.putSet_groups]

@[simp] theorem State.freeSlots_putSet (t c : Nat) : (s.putSet T A).freeSlots t c = s.freeSlots t c := by
  simp only [State.freeSlots, State.putSet_groups]

@[simp] theorem State.holdingFor_putSet (t c : Nat) (im : Image) (d : KernelDesc) : (s.putSet T A).holdingFor t c im d = s.holdingFor t c im d := by
  simp only [State.holdingFor, State.cellGroups_putSet]

@[simp] theorem State.launchSeen_putSet (k : Kernel) : (s.putSet T A).launchSeen k = s.launchSeen k := by
  simp only [State.launchSeen, State.group_putSet]

variable (hA : A.img = (s.slotSet T).img)

include hA

theorem State.fitsOn_putSet (d : KernelDesc) (c : Nat) : (s.putSet T A).fitsOn T d c = s.fitsOn T d c := by
  unfold State.fitsOn
  rw [State.slotSet_putSet, hA, State.freeSlots_putSet, State.cellGroups_putSet]

theorem State.chooseCell_putSet (d : KernelDesc) (ok : Nat → Bool) : (s.putSet T A).chooseCell T d ok = s.chooseCell T d ok := by
  simp only [State.chooseCell, s.fitsOn_putSet T A hA, State.freeSlots_putSet]

/-- A group placed beside other records of its slot set. -/
theorem State.placeOn_putSet (c : Nat) (k : Kernel) {im : Image} {slot : Nat} {free : List Nat} (him : (s.slotSet T).img = some im)
    (hf : s.freeSlots T c = slot :: free) : (s.putSet T A).placeOn T c k =
      (s.putSet T A).putGroup (groupCode c T slot) (Group.start im k.desc k.args k.placed k.num k.ngrp (s.holdingFor T c im k.desc)) := by
  simp only [State.placeOn, State.slotSet_putSet, hA, him, State.freeSlots_putSet, hf, State.holdingFor_putSet]

end PutSet

/-! ## One group placed (R116, R129) -/

/-- The record of a kernel that has placed one group more. -/
def Kernel.next (k : Kernel) : Kernel :=
  { k with placed := k.placed + 1, st := if k.placed + 1 = k.ngrp then .placed else .placing, passed := 0, reserving := false }

/-- A kernel's record after a placement, and its word when STATE has changed. -/
def State.recordNext (s : State) (T : Nat) (k : Kernel) : State :=
  if k.next.st = k.st then s.putSet T ((s.slotSet T).putKernel k.next) else s.putWord T k.next fun w => wordState w k.next.st

theorem State.placeGroups_zero (s : State) (T : Nat) (k : Kernel) : s.placeGroups T k 0 = some (s, k) := by
  delta State.placeGroups
  rfl

/-- One group more, on the cell that `chooseCell` gives (by the recursion's own functional: the equation lemma of
`placeGroups` would evaluate the choice over all cells). -/
theorem State.placeGroups_succ (s : State) (T n : Nat) (k : Kernel) : s.placeGroups T k (n + 1) =
    (s.chooseCell T k.desc (s.mayUse k)).elim none fun c => (s.placeOn T c k).placeGroups T { k with placed := k.placed + 1 } n := by
  delta State.placeGroups
  show State.placeGroups._f T n.succ _ s k = _
  delta State.placeGroups._f
  beta_reduce
  generalize s.chooseCell T k.desc (s.mayUse k) = x
  cases x <;> rfl

theorem State.placeNext_one (s : State) (T c : Nat) (k : Kernel) (hco : k.cohort = false) (hc : s.chooseCell T k.desc (s.mayUse k) = some c) :
    s.placeNext T k = some ((s.placeOn T c k).recordNext T k) := by
  have hg : s.placeGroups T k 1 = some (s.placeOn T c k, { k with placed := k.placed + 1 }) := by
    rw [State.placeGroups_succ s T 0 k, hc, Option.elim_some, State.placeGroups_zero]
  simp only [State.placeNext, hco, Bool.false_eq_true, if_false, hg, Option.map_some, State.recordNext, Kernel.next]

section RecordNext

variable (s : State) (T : Nat) (k : Kernel)

/-- The slot set keeps the record of the placement. -/
theorem State.slotSet_recordNext : ∃ w, (s.recordNext T k).slotSet T = (s.slotSet T).putKernel { k.next with word := w } := by
  unfold State.recordNext
  split
  · exact ⟨k.next.word, s.slotSet_putSet T _⟩
  · refine ⟨wordState k.word k.next.st, ?_⟩
    unfold State.putWord
    simp only
    split
    · exact (State.slotSet_unitUpdate _ _ _ _ _).trans (s.slotSet_putSet T _)
    · exact s.slotSet_putSet T _

theorem State.slotSet_recordNext_partner (hT : T < 2) : (s.recordNext T k).slotSet (1 - T) = s.slotSet (1 - T) := by
  unfold State.recordNext
  split
  · exact s.slotSet_putSet_partner T _ hT
  · exact s.slotSet_putWord_partner T _ _ hT

/-- STATE as it was: no word is written. -/
theorem State.recordNext_same (h : k.next.st = k.st) : s.recordNext T k = s.putSet T ((s.slotSet T).putKernel k.next) := if_pos h

variable (h : k.next.st ≠ k.st) {pa : Nat} (hc : k.cword = some pa)

include h hc

/-- STATE changed in a word of this module or of the host. -/
theorem State.recordNext_stores (hm : s.MemCanonical) (hp : paHost pa = true ∨ paModule pa = false) :
    (s.putSet T ((s.slotSet T).putKernel { k.next with word := wordState k.word k.next.st })).StoresAt (s.recordNext T k) none pa
      (toBytes 8 (wordState (BitVec.ofNat 64 (natOfBytes (s.readAt pa 8))) k.next.st).toNat) := by
  rw [State.recordNext, if_neg h]
  exact s.putWord_stores T pa k.next _ hm hc hp

/-- STATE changed in a word of another module. -/
theorem State.recordNext_sends (hh : paHost pa = false) (hp : paModule pa = true) :
    s.recordNext T k = { s.putSet T ((s.slotSet T).putKernel { k.next with word := wordState k.word k.next.st }) with
      out := s.out ++ [.request pa (updateKind fun w => wordState w k.next.st) (groupCode 0 T 0)], outAt := s.clock } := by
  have hc' : k.next.cword = some pa := hc
  rw [State.recordNext, if_neg h, State.putWord]
  simp only [hc', State.unitUpdate, hh, hp, Bool.not_false, Bool.and_self, if_true, State.putSet_out, State.putSet_clock]
  rfl

end RecordNext

/-- The codes of the two states that a placement brings (R116), and the updates that they ask of another module. -/
theorem updateKind_state (n : Nat) (st : KState) (h : n = 2 ∧ st = .placing ∨ n = 3 ∧ st = .placed) :
    updateKind (fun w => wordState w st) = .update (BitVec.ofNat 64 (7 - n)) (BitVec.ofNat 64 n) 0 := by
  rcases h with ⟨rfl, rfl⟩ | ⟨rfl, rfl⟩ <;> decide

/-! ## The decision (R104) -/

section Decision

variable {s : State} {T : Nat} (hT : s.activeSet = some T)

include hT

theorem execPlacementDecision_settled (hd : s.decisionDue (s.slotSet T) = false) : execPlacementDecision s = .next s := by
  simp only [execPlacementDecision, hT, hd, Bool.not_false, if_true]

/-- A decision that is due, by what the run over the queues makes of it. -/
theorem execPlacementDecision_due (hd : (s.slotSet T).placeDue = true) {u : State} {b : Bool}
    (h : (s.putSet T (s.slotSet T).openDecision).decideFrom T (s.slotSet T).order = (u, b)) :
    execPlacementDecision s = .next (u.putSet T { (u.slotSet T).closeDecision (s.slotSet T) with placeDue := b }) := by
  have hdue : s.decisionDue (s.slotSet T) = true := by rw [State.decisionDue, hd, Bool.true_or]
  simp only [execPlacementDecision, hT, hdue, Bool.not_true, Bool.false_eq_true, if_false, h]

end Decision

/-- Nothing is due without a freed slot or a kernel that stayed for its launcher's writes and need stay no longer. -/
theorem State.decisionDue_false (s : State) {S : SlotSet} (hd : S.placeDue = false) (h : ∀ k ∈ S.kernels, k.stays = true → s.launchSeen k = false) :
    s.decisionDue S = false := by
  rw [State.decisionDue, hd, Bool.false_or]
  refine List.any_eq_false.mpr fun k hk hs => ?_
  obtain ⟨hst, hseen⟩ := Bool.and_eq_true_iff.mp hs
  exact absurd hseen (by rw [h k hk hst]; decide)

/-- A decision without a candidate places nothing. -/
theorem State.decideFrom_none (s : State) (T : Nat) (h : ∀ k ∈ (s.slotSet T).kernels, ¬ k.Waits) :
    (s.putSet T (s.slotSet T).openDecision).decideFrom T (s.slotSet T).order = (s.putSet T (s.slotSet T).openDecision, false) := by
  have hnone : ∀ q ∈ (s.slotSet T).order, ((s.putSet T (s.slotSet T).openDecision).slotSet T).candidate q = none := fun q _ => by
    rw [State.slotSet_putSet, SlotSet.candidate_openDecision]
    cases hc : (s.slotSet T).candidate q with
    | none => rfl
    | some k =>
      obtain ⟨hk, -, hw⟩ := SlotSet.candidate_mem hc
      exact absurd hw (h k hk)
  have hskip := State.decideFrom_skip _ T (s.slotSet T).order [] hnone
  rw [List.append_nil] at hskip
  exact hskip

/-- Kernels that no decision has passed over, when each number names one record. -/
theorem SlotSet.closeDecision_openDecision (S : SlotSet) (h : ∀ i ∈ S.kernels, ∀ j ∈ S.kernels, i.num = j.num → i = j) :
    S.openDecision.closeDecision S = { S with kernels := S.kernels.map fun k => { k with stays := false, passed := 0 } } := by
  have hmap : (S.openDecision.closeDecision S).kernels = S.kernels.map fun k => { k with stays := false, passed := 0 } := by
    rw [SlotSet.closeDecision, SlotSet.openDecision, List.map_map]
    refine List.map_congr_left fun k hk => ?_
    have hfind : S.kernel? k.num = some k := SlotSet.kernel?_of_mem hk fun j hj he => h j hj k hk he
    simp only [Function.comp, hfind, Option.map_some, if_true]
  rw [← hmap]
  rfl

/-! ## The one candidate (R104, R116) -/

section One

variable {s : State} {T : Nat} {k : Kernel} {q c slot : Nat} {Q : Queue} {im : Image} {free : List Nat}

/-- Only the queue of the one candidate has one. -/
theorem SlotSet.candidate_one {S : SlotSet} (hk : k ∈ S.kernels) (hw : k.Waits) (hone : ∀ j ∈ S.kernels, j.Waits → j = k) (hq : k.queue = some q) :
    S.candidate q = some k ∧ ∀ p, p ≠ q → S.candidate p = none := by
  refine ⟨?_, fun p hp => ?_⟩
  · obtain ⟨j, hj⟩ := Option.isSome_iff_exists.mp (SlotSet.candidate_isSome hk hq hw)
    obtain ⟨hmem, -, hjw⟩ := SlotSet.candidate_mem hj
    rw [hj, hone j hmem hjw]
  · cases hc : S.candidate p with
    | none => rfl
    | some j =>
      obtain ⟨hmem, hjq, hjw⟩ := SlotSet.candidate_mem hc
      rw [hone j hmem hjw, hq] at hjq
      exact absurd (Option.some.inj hjq).symm hp

/-- The state in which a decision has put the next group of the kernel into its slot. -/
def State.withNext (s : State) (T : Nat) (k : Kernel) (c slot : Nat) (im : Image) : State :=
  (s.putSet T (s.slotSet T).openDecision).putGroup (groupCode c T slot)
    (Group.start im k.desc k.args k.placed k.num k.ngrp (s.holdingFor T c im k.desc))

@[simp] theorem State.withNext_slotSet : (s.withNext T k c slot im).slotSet T = (s.slotSet T).openDecision := by
  rw [State.withNext, State.slotSet_putGroup, State.slotSet_putSet]

@[simp] theorem State.withNext_mem : (s.withNext T k c slot im).mem = s.mem := State.putSet_mem _ _ _

@[simp] theorem State.withNext_hostMem : (s.withNext T k c slot im).hostMem = s.hostMem := State.putSet_hostMem _ _ _

@[simp] theorem State.withNext_out : (s.withNext T k c slot im).out = s.out := State.putSet_out _ _ _

theorem State.readAt_putSet (s : State) (T : Nat) (A : SlotSet) (pa n : Nat) : (s.putSet T A).readAt pa n = s.readAt pa n := by
  simp only [State.readAt, State.putSet_mem, State.putSet_hostMem]

@[simp] theorem State.withNext_readAt (pa n : Nat) : (s.withNext T k c slot im).readAt pa n = s.readAt pa n := by
  simp only [State.readAt, State.withNext_mem, State.withNext_hostMem]

theorem State.withNext_group : (s.withNext T k c slot im).group (groupCode c T slot) =
    Group.start im k.desc k.args k.placed k.num k.ngrp (s.holdingFor T c im k.desc) := State.group_putGroup _ _ _

theorem State.withNext_group_ne {h : Nat} (hne : h ≠ groupCode c T slot) : (s.withNext T k c slot im).group h = s.group h :=
  (State.group_putGroup_ne _ _ hne).trans (State.group_putSet _ _ _ _)

theorem State.placeNext_opened (hco : k.cohort = false) (him : (s.slotSet T).img = some im) (hc : s.chooseCell T k.desc (s.mayUse k) = some c)
    (hf : s.freeSlots T c = slot :: free) :
    (s.putSet T (s.slotSet T).openDecision).placeNext T k.opened = some ((s.withNext T k c slot im).recordNext T k.opened) := by
  have himg : (s.slotSet T).openDecision.img = (s.slotSet T).img := rfl
  have hmay : (s.putSet T (s.slotSet T).openDecision).mayUse k.opened = s.mayUse k := by
    funext x
    simp only [State.mayUse, State.launchSeen_putSet]
    rfl
  have hcell : (s.putSet T (s.slotSet T).openDecision).chooseCell T k.opened.desc ((s.putSet T (s.slotSet T).openDecision).mayUse k.opened) = some c := by
    have hdesc : k.opened.desc = k.desc := rfl
    rw [hmay, hdesc, s.chooseCell_putSet T _ himg, hc]
  rw [State.placeNext_one _ T c k.opened hco hcell, s.placeOn_putSet T _ himg c k.opened him hf]
  rfl

/-- The decision places a group of the one candidate, and is followed by another. -/
theorem State.decideFrom_one (hk : k ∈ (s.slotSet T).kernels) (hw : k.Waits) (hone : ∀ j ∈ (s.slotSet T).kernels, j.Waits → j = k)
    (hres : ∀ j ∈ (s.slotSet T).kernels, j.reserving = false) (hq : k.queue = some q) (hq15 : q ≤ 15) (hQ : (s.slotSet T).queues.find q = some Q)
    (hprio : Q.prio ≤ 7) (hco : k.cohort = false) (him : (s.slotSet T).img = some im) (hc : s.chooseCell T k.desc (s.mayUse k) = some c)
    (hf : s.freeSlots T c = slot :: free) : ∃ L, (s.putSet T (s.slotSet T).openDecision).decideFrom T (s.slotSet T).order =
      (((s.withNext T k c slot im).recordNext T k.opened).putSet T { ((s.withNext T k c slot im).recordNext T k.opened).slotSet T with lastServed := L }, true) := by
  obtain ⟨hcand, hothers⟩ := SlotSet.candidate_one hk hw hone hq
  obtain ⟨before, rest, horder, hnot⟩ := List.eq_append_cons_of_mem (SlotSet.mem_order hq15 hQ hprio)
  have hskip : ∀ p ∈ before, ((s.putSet T (s.slotSet T).openDecision).slotSet T).candidate p = none := fun p hp => by
    rw [State.slotSet_putSet, SlotSet.candidate_openDecision, hothers p fun he => hnot (he ▸ hp)]
    rfl
  have hhere : ((s.putSet T (s.slotSet T).openDecision).slotSet T).candidate q = some k.opened := by
    rw [State.slotSet_putSet, SlotSet.candidate_openDecision, hcand]
    rfl
  have hheld : ((s.putSet T (s.slotSet T).openDecision).slotSet T).heldBack k.opened = false := SlotSet.heldBack_none _ fun j hj => by
    rw [State.slotSet_putSet] at hj
    obtain ⟨i, hi, rfl⟩ := List.mem_map.mp hj
    exact hres i hi
  exact ⟨_, by rw [horder, State.decideFrom_skip _ T before (q :: rest) hskip,
    State.decideFrom_places _ _ T q rest k.opened hhere hheld (State.placeNext_opened hco him hc hf)]⟩

/-- A kernel as a decision leaves it (R105). -/
def Kernel.closed (old : SlotSet) (k : Kernel) : Kernel :=
  if (old.kernel? k.num).map Kernel.passed = some k.passed then { k with passed := 0 } else k

theorem Kernel.closed_fields (old : SlotSet) (k : Kernel) : (k.closed old).num = k.num ∧ (k.closed old).placed = k.placed ∧ (k.closed old).st = k.st := by
  unfold Kernel.closed
  split <;> exact ⟨rfl, rfl, rfl⟩

/-- The kernel's record after the decision that placed its next group. -/
theorem State.kernel?_recordNext (hk : (s.slotSet T).kernel? k.num = some k) {A B old : SlotSet}
    (hA : A.kernels = (((s.withNext T k c slot im).recordNext T k.opened).slotSet T).kernels)
    (hB : B.kernels = (A.closeDecision old).kernels) :
    ∃ j, B.kernel? k.num = some j ∧ j.placed = k.placed + 1 ∧ j.st = if k.placed + 1 = k.ngrp then .placed else .placing := by
  obtain ⟨w, hw⟩ := State.slotSet_recordNext (s.withNext T k c slot im) T k.opened
  have hopen : ((s.withNext T k c slot im).slotSet T).kernel? k.num = some k.opened := by
    rw [State.withNext_slotSet, SlotSet.kernel?_map Kernel.opened (fun _ => rfl) rfl, hk]
    rfl
  have hput : A.kernel? k.num = some { k.opened.next with word := w } := by
    rw [SlotSet.kernel?, hA, hw]
    exact SlotSet.kernel?_putKernel _ k.opened _ _ hopen rfl
  have hclose := SlotSet.kernel?_map (Kernel.closed old) (fun j => (j.closed_fields old).1) hB k.num
  rw [hput] at hclose
  obtain ⟨-, hplaced, hst⟩ := Kernel.closed_fields old { k.opened.next with word := w }
  exact ⟨_, hclose, hplaced, hst⟩

end One

/-! ## What a placement leaves of memory and of the other groups -/

section Word

variable {s : State} {T : Nat} {k : Kernel} {c slot : Nat} {im : Image}

/-- The code of the state that the placement brings (R115). -/
theorem Kernel.next_code (k : Kernel) : k.next.st.code = if k.placed + 1 = k.ngrp then 3 else 2 := by
  unfold Kernel.next
  simp only
  split <;> rfl

theorem Kernel.next_changes (hst : k.st = .queued ∨ k.st = .placing) (h : k.placed + 1 = k.ngrp ∨ k.st = .queued) : k.opened.next.st ≠ k.opened.st := by
  simp only [Kernel.next, Kernel.opened]
  by_cases he : k.placed + 1 = k.ngrp
  · rcases hst with h | h <;> simp [he, h]
  · simp [he, h.resolve_left he]

theorem State.recordNext_keeps (hne : k.placed + 1 ≠ k.ngrp) (hst : k.st = .placing) {t : State} {A : SlotSet}
    (ht : t = ((s.withNext T k c slot im).recordNext T k.opened).putSet T A) :
    t.mem = s.mem ∧ t.hostMem = s.hostMem ∧ t.out = s.out ∧ ∀ h, h ≠ groupCode c T slot → t.group h = s.group h := by
  have hsame : k.opened.next.st = k.opened.st := (if_neg hne).trans hst.symm
  rw [State.recordNext_same _ T _ hsame, State.putSet_putSet] at ht
  subst ht
  exact ⟨by simp, by simp, by simp, fun h hh => (State.group_putSet _ _ _ _).trans (State.withNext_group_ne hh)⟩

/-- The word in this module or in the host: STATE is set there, and nothing else but the marks of waits on its line. -/
theorem State.recordNext_writes (hch : k.opened.next.st ≠ k.opened.st) {pa : Nat} (hc : k.cword = some pa) (hm : s.MemCanonical)
    (hp : paHost pa = true ∨ paModule pa = false) {t : State} {A : SlotSet} (ht : t = ((s.withNext T k c slot im).recordNext T k.opened).putSet T A) :
    t.readAt pa 8 = toBytes 8 (wordState (BitVec.ofNat 64 (natOfBytes (s.readAt pa 8))) k.next.st).toNat ∧ s.OnlyWord t pa ∧ t.out = s.out ∧
    ∀ h, h ≠ groupCode c T slot → t.group h = touchGroup none pa 8 h (s.group h) := by
  have hm' : (s.withNext T k c slot im).MemCanonical := by rw [State.MemCanonical, State.withNext_mem, State.withNext_hostMem]; exact hm
  obtain ⟨honly, hread, hmem, hhost, hgroup⟩ := State.recordNext_stores _ T _ hch hc hm' hp
  rw [toBytes_length] at hread hmem hhost hgroup
  simp only [State.withNext_readAt, State.putSet_mem, State.putSet_hostMem, State.withNext_mem, State.withNext_hostMem] at hread hmem hhost
  have hout : ((s.withNext T k c slot im).recordNext T k.opened).out = s.out := by
    rw [honly]
    exact (State.putSet_out _ _ _).trans State.withNext_out
  subst ht
  refine ⟨?_, ⟨fun a ha => ?_, fun a ha => ?_⟩, ?_, fun h hh => ?_⟩
  · rw [State.readAt_putSet]
    exact hread
  · rw [State.putSet_mem]
    exact hmem a ha
  · rw [State.putSet_hostMem]
    exact hhost a ha
  · rw [State.putSet_out]
    exact hout
  · rw [State.group_putSet, hgroup h, State.group_putSet, State.withNext_group_ne hh]

/-- The word in another module: the update goes there. -/
theorem State.recordNext_asks (hch : k.opened.next.st ≠ k.opened.st) {pa : Nat} (hc : k.cword = some pa) (hh : paHost pa = false) (hp : paModule pa = true)
    {t : State} {A : SlotSet} (ht : t = ((s.withNext T k c slot im).recordNext T k.opened).putSet T A) :
    t.mem = s.mem ∧ t.hostMem = s.hostMem ∧ t.out = s.out ++ [.request pa (updateKind fun w => wordState w k.next.st) (groupCode 0 T 0)] ∧
    ∀ h, h ≠ groupCode c T slot → t.group h = s.group h := by
  rw [State.recordNext_sends _ T _ hch hc hh hp] at ht
  generalize hr : OutPacket.request pa (updateKind fun w => wordState w k.opened.next.st) (groupCode 0 T 0) = r at ht
  generalize { k.opened.next with word := wordState k.opened.word k.opened.next.st } = j at ht
  have hr' : r = OutPacket.request pa (updateKind fun w => wordState w k.next.st) (groupCode 0 T 0) := hr.symm
  rw [← hr']
  subst ht
  refine ⟨?_, ?_, ?_, fun h hne => ?_⟩
  · exact (State.putSet_mem _ _ _).trans ((State.putSet_mem _ _ _).trans State.withNext_mem)
  · exact (State.putSet_hostMem _ _ _).trans ((State.putSet_hostMem _ _ _).trans State.withNext_hostMem)
  · rw [State.putSet_out, State.withNext_out]
  · exact (State.group_putSet _ _ _ _).trans ((State.group_putSet _ _ _ _).trans (State.withNext_group_ne hne))

end Word

/-! ## The group placed (R121) -/

/-- A group that no write is told to. -/
theorem State.group_writeAs_same (s : State) (by_ : Option Nat) (tag : Option Tag) (poison : Option Bool) (pa : Nat) (data : List Byte) (h : Nat)
    (hG : ∀ lo n, touchGroup by_ lo n h (s.group h) = s.group h) : (s.writeAs by_ tag poison pa data).group h = s.group h := by
  unfold State.writeAs
  split
  · rfl
  · split
    · exact (State.group_touch _ _ _ _ _).trans (hG _ _)
    · simp only [State.group_touch]
      rw [State.retile_bdir]
      exact hG _ _

theorem State.group_putWord_same (s : State) (T : Nat) (k : Kernel) (f : Word → Word) (h : Nat)
    (hG : ∀ lo n, touchGroup none lo n h (s.group h) = s.group h) : (s.putWord T k f).group h = s.group h := by
  unfold State.putWord
  simp only
  split
  · unfold State.unitUpdate
    split
    · exact State.group_putSet _ _ _ _
    · rw [← State.group_putSet s T ((s.slotSet T).putKernel { k with word := f k.word }) h] at hG ⊢
      exact State.group_writeAs_same _ _ _ _ _ _ _ hG
  · exact State.group_putSet _ _ _ _

/-- The group of the slot stands in its start state. -/
theorem State.group_recordNext (s : State) (T : Nat) (k : Kernel) (c slot : Nat) (im : Image) (A : SlotSet) :
    (((s.withNext T k c slot im).recordNext T k.opened).putSet T A).group (groupCode c T slot) =
      Group.start im k.desc k.args k.placed k.num k.ngrp (s.holdingFor T c im k.desc) := by
  rw [State.group_putSet, ← State.withNext_group]
  unfold State.recordNext
  split
  · exact State.group_putSet _ _ _ _
  · refine State.group_putWord_same _ _ _ _ _ fun lo n => ?_
    rw [State.withNext_group]
    rfl

/-- Settles O40: the conditions of R102 by the equations of KERNEL_LAUNCHABLE; a decision without a candidate by passing every
queue; one with a single candidate by passing the queues before its own and placing one group of it. -/
theorem placementResults : Obligations.PlacementResults := by
  rintro kn far s T S hT rfl
  refine ⟨fun k hk => ⟨fun hst hl hmeets => ?_, fun h => ?_⟩, fun hnone => ?_, fun hd hstay => ?_, fun hd hno hnum => ?_, ?_⟩
  · rw [exec_kernelLaunchable, execKernelLaunchable_some kn far hT hk, if_pos ⟨hst, by simp [hl, hmeets]⟩]
  · rw [exec_kernelLaunchable, execKernelLaunchable_some kn far hT hk, if_neg]
    rintro ⟨hst, hboth⟩
    rcases h with h | h
    · exact h hst
    · simp [h] at hboth
  · exact execKernelLaunchable_none kn far hT hnone
  · exact execPlacementDecision_settled hT (s.decisionDue_false hd hstay)
  · have hwait : ∀ k ∈ (s.slotSet T).kernels, ¬ k.Waits := fun k hk ⟨hl, hst⟩ => hst.elim (hno k hk hl).1 (hno k hk hl).2
    rw [exec_placementDecision, execPlacementDecision_due hT hd (s.decideFrom_none T hwait), State.slotSet_putSet, State.putSet_putSet,
      SlotSet.closeDecision_openDecision _ hnum]
  · intro k q c slot Q im free hd hk hl hst hone hnum hres hq hq15 hQ hprio hco hseen him hc hf hplaced
    obtain ⟨L, hdec⟩ := State.decideFrom_one hk ⟨hl, hst⟩ (fun j hj ⟨hjl, hjst⟩ => hone j hj hjl hjst) hres hq hq15 hQ hprio hco him hc hf
    refine ⟨_, (exec_placementDecision s).trans (execPlacementDecision_due hT hd hdec), ?_⟩
    rw [State.putSet_putSet]
    refine ⟨s.group_recordNext T k c slot im _, by rw [State.slotSet_putSet], ?_, ?_, fun hne hpl => State.recordNext_keeps hne hpl rfl,
      fun pa n M hcw hn hchange => ?_⟩
    · rw [State.slotSet_putSet_partner _ _ _ (State.activeSet_lt hT), State.slotSet_recordNext_partner _ _ _ (State.activeSet_lt hT)]
      exact State.slotSet_putSet_partner _ _ _ (State.activeSet_lt hT)
    · rw [State.slotSet_putSet, State.slotSet_putSet]
      exact State.kernel?_recordNext (SlotSet.kernel?_of_mem hk hnum) rfl rfl
    · have hcode : k.next.st.code = n := (Kernel.next_code k).trans hn.symm
      have hch := Kernel.next_changes hst hchange
      refine ⟨fun hp hm hM => ?_, fun hh hp => ?_⟩
      · subst hM
        rw [← hcode]
        exact State.recordNext_writes hch hcw hm hp rfl
      · have hkind : updateKind (fun w => wordState w k.next.st) = .update (BitVec.ofNat 64 (7 - n)) (BitVec.ofNat 64 n) 0 := by
          refine updateKind_state n _ ?_
          subst hcode
          unfold Kernel.next
          simp only
          split
          · exact .inr ⟨rfl, rfl⟩
          · exact .inl ⟨rfl, rfl⟩
        rw [← hkind]
        exact State.recordNext_asks hch hcw hh hp rfl

end Sys2Proof.Machine
end

section
namespace Sys2Proof.Machine

theorem exec_kvFetchStart (cl : BitVec 6) (far : FarData) (lost : Bool) (s : State) : exec (.kvFetchStart cl far lost) s = execKvFetchStart cl far lost s := rfl
theorem exec_kvCatchupStart (cl : BitVec 6) (s : State) : exec (.kvCatchupStart cl) s = execKvCatchupStart cl s := rfl
theorem exec_kvPageMulticast (cl : BitVec 6) (far : FarData) (lost : Bool) (s : State) :
    exec (.kvPageMulticast cl far lost) s = execKvPageMulticast cl far lost s := rfl
theorem exec_remoteRequestArrival (rq : RemoteRequest) (s : State) : exec (.remoteRequestArrival rq) s = execRemoteRequestArrival rq s := rfl
theorem exec_remoteReplyArrival (g : BitVec 12) (data : List Host.Cell) (bad : Bool) (s : State) :
    exec (.remoteReplyArrival g data bad) s = execRemoteReplyArrival g data bad s := rfl
theorem exec_remoteDeadline (g : BitVec 12) (reached : Bool) (why : BitVec 2) (s : State) :
    exec (.remoteDeadline g reached why) s = execRemoteDeadline g reached why s := rfl
theorem exec_flitReplay (lk : BitVec 6) (s : State) : exec (.flitReplay lk) s = execFlitReplay lk s := rfl
theorem exec_linkCrcFail (lk : BitVec 6) (s : State) : exec (.linkCrcFail lk) s = execLinkCrcFail lk s := rfl
theorem exec_linkTrainingDone (lk : BitVec 6) (out : Lanes) (s : State) : exec (.linkTrainingDone lk out) s = execLinkTrainingDone lk out s := rfl
theorem exec_linkRetrainDone (lk : BitVec 6) (out : Lanes) (s : State) : exec (.linkRetrainDone lk out) s = execLinkRetrainDone lk out s := rfl
theorem exec_collectiveUnitAccept (cc : RemoteContribution) (s : State) : exec (.collectiveUnitAccept cc) s = execCollectiveUnitAccept cc s := rfl
theorem exec_collectiveResultDelivery (g : BitVec 12) (s : State) : exec (.collectiveResultDelivery g) s = execCollectiveResultDelivery g s := rfl

/-! ## The course of a pass (R374) -/

/-- What a sequencer's settling and its folds leave: how far the pass has come, its fetches, its failures, and catch-up begun. -/
def Sequencer.course (Q : Sequencer) : Nat × List Fetch × Nat × Bool := (Q.pos, Q.fetches, Q.nFailed, Q.catchBegun)

@[simp] theorem State.seqAt_putSeq (s : State) (k : Nat) (Q : Sequencer) : (s.putSeq k Q).seqAt k = Q := Table.findD_put_self _ _ _ _

/-- A write changes no sequencer. -/
theorem State.writeAs_seqs (s : State) (by_ : Option Nat) (tag : Option Tag) (poison : Option Bool) (pa : Nat) (data : List Byte) :
    (s.writeAs by_ tag poison pa data).seqs = s.seqs := by
  unfold State.writeAs
  split
  · rfl
  · split
    · rfl
    · simp only
      rw [State.retile_bdir]
      rfl

theorem State.unitWriteRuns_seqs (s : State) (T : Nat) (runs : List (Nat × Nat)) (b : List Byte) : (s.unitWriteRuns T runs b).seqs = s.seqs := by
  induction runs generalizing s b with
  | nil => rfl
  | cons r runs ih =>
    obtain ⟨pa, n⟩ := r
    rw [State.unitWriteRuns, ih, State.unitWrite]
    split
    · rfl
    · exact State.writeAs_seqs _ _ _ _ _ _

/-- Results written change the folds alone. -/
theorem State.writeResults_course (s : State) (k : Nat) (l : List Fold) : ((s.writeResults k l).seqAt k).course = (s.seqAt k).course := by
  induction l generalizing s with
  | nil => rfl
  | cons F l ih =>
    rw [State.writeResults]
    split
    · rw [ih, State.seqAt_putSeq]
      exact congrArg (fun q : Table Sequencer => (q.findD k Sequencer.fresh).course) (s.unitWriteRuns_seqs _ _ _)
    · exact ih s

/-- Nothing is written while no fold of the pass is newly complete. -/
theorem State.writeResults_none (s : State) (k : Nat) (l : List Fold) (h : ∀ F ∈ l, F.inPass = true → F.left ≠ [] ∨ F.written = true) :
    s.writeResults k l = s := by
  induction l with
  | nil => rfl
  | cons F l ih =>
    rw [List.forall_mem_cons] at h
    have hF : (F.inPass && F.left.isEmpty && !F.written) = false := by
      cases hp : F.inPass with
      | false => rfl
      | true => rcases h.1 hp with h | h <;> simp [h]
    rw [State.writeResults, hF]
    exact ih h.2

/-- Settling changes the phase, the folds and what the pass's end clears. -/
theorem State.kvSettle_course (s : State) (k : Nat) : ((s.kvSettle k).seqAt k).course = (s.seqAt k).course := by
  rw [← s.writeResults_course k (s.seqAt k).folds]
  unfold State.kvSettle
  simp only
  generalize s.writeResults k (s.seqAt k).folds = u
  split
  · split
    · rw [State.seqAt_putSeq]; rfl
    · rfl
  · split
    · split
      · rw [State.seqAt_putSeq]; rfl
      · rw [State.seqAt_putSeq]; rfl
    · split
      · split
        · rw [State.seqAt_putSeq]; rfl
        · rw [State.seqAt_putSeq]; rfl
      · rfl

/-- A page merged as empty changes the folds and the subscriptions. -/
theorem Sequencer.emptyPage_course (Q : Sequencer) (page : Nat) (failed : Bool) (who : Sub → Bool) : (Q.emptyPage page failed who).course = Q.course := by
  have hfold : ∀ (qs : List Nat) (R : Sequencer),
      (qs.foldl (fun R q => R.onFold q fun F => F.take page none failed) R).course = R.course := fun qs => by
    induction qs with
    | nil => exact fun _ => rfl
    | cons q qs ih => exact fun R => ih (R.onFold q fun F => F.take page none failed)
  exact hfold _ Q

/-! ## The events of a pass (R376 to R381) -/

section Pass

variable (s : State) (k page : Nat) (cu : Bool) (far : FarData) (lost : Bool)

/-- A table entry read where it stands. -/
theorem State.tableEntry_here {s1 : State} {runs : List (Nat × Nat)} {leaf : Nat} {b : List Byte}
    (hl : s.kvLook k .load ((s.seqAt k).table + BitVec.ofNat 64 (8 * page)).toNat 8 = (s1, .here runs leaf)) (hp : s1.kvPoor runs far = false)
    (hlost : s1.kvLost (k / 16) (k % 2) runs lost = false) (hb : s1.kvBytes far runs = some b) :
    s.tableEntry k page far lost = (s1, some (.ok (natOfBytes b))) := by
  simp only [State.tableEntry, hl, hp, hlost, hb, Bool.or_self, Bool.false_eq_true, if_false]

/-- The page of an entry of 0 is passed as empty. -/
theorem State.beginFetch_empty {s1 : State} (h : s.tableEntry k page far lost = (s1, some (.ok 0))) :
    ((s.beginFetch k page cu far lost).seqAt k).course = ((s1.seqAt k).begun page cu).course := by
  simp only [State.beginFetch, h]
  rw [State.kvSettle_course, State.seqAt_putSeq, Sequencer.emptyPage_course]

/-- A page that fails counts once. -/
theorem State.failPage_course (sub : Nat) (addr : Word) : ((s.failPage k page cu sub addr).seqAt k).course =
    ((s.seqAt k).pos, (s.seqAt k).fetches, (s.seqAt k).nFailed + 1, (s.seqAt k).catchBegun) := by
  have hfault : ∀ u : State, (u.kvFault k sub addr).seqs = u.seqs := fun u => by
    unfold State.kvFault
    split
    · unfold State.deliver
      split <;> rfl
    · rfl
  have hempty : ∀ R Q : Sequencer, R.course = Q.course → ({ R with nFailed := R.nFailed + 1 } : Sequencer).course = (Q.pos, Q.fetches, Q.nFailed + 1, Q.catchBegun) := by
    intro R Q h
    simp only [Sequencer.course, Prod.mk.injEq] at h ⊢
    obtain ⟨hpos, hfetch, hfail, hcatch⟩ := h
    exact ⟨hpos, hfetch, congrArg (· + 1) hfail, hcatch⟩
  unfold State.failPage
  simp only
  rw [State.kvSettle_course]
  refine (congrArg (fun q : Table Sequencer => (q.findD k Sequencer.fresh).course) (hfault _)).trans ?_
  refine (congrArg Sequencer.course (State.seqAt_putSeq _ _ _)).trans (hempty _ _ (Sequencer.emptyPage_course _ _ _ _))

/-- The oldest fetch without data, lost on its way, ends as a page that fails. -/
theorem State.kvLand_lost {f : Fetch} (hf : ((s.seqAt k).fetches.find? fun f => f.data.isNone) = some f) (hr : (s.seqAt k).recipients f ≠ [])
    (hl : s.kvLost (k / 16) (k % 2) f.runs lost = true) : s.kvLand k far lost =
      (s.putSeq k { s.seqAt k with fetches := (s.seqAt k).fetches.erase f }).failPage k f.page f.catchUp 3 f.va := by
  have hr' : ((s.seqAt k).recipients f).isEmpty = false := by rw [List.isEmpty_eq_false_iff]; exact hr
  simp only [State.kvLand, hf, hr', hl, Bool.false_eq_true, if_false, if_true]

theorem State.kvDeliver_none (h : (s.seqAt k).fetches = []) : s.kvDeliver k = s := by
  simp only [State.kvDeliver, h]

/-- While a page of catch-up is still wanted, settling leaves the sequencer in it. -/
theorem State.kvSettle_catching (hp : (s.seqAt k).phase = .catchup) (hw : ∀ F ∈ (s.seqAt k).folds, F.inPass = true → F.left ≠ [] ∨ F.written = true)
    (hl : ((s.seqAt k).catchList.any fun p => (s.seqAt k).subs.any fun u => u.wantsLate p) = true) : s.kvSettle k = s := by
  have hrun : (s.seqAt k).running = true := by rw [Sequencer.running, hp]; decide
  simp only [State.kvSettle, s.writeResults_none k _ hw, hrun, hp, hl]
  simp

end Pass

theorem mem_setAdd (l : List Nat) (n m : Nat) : m ∈ setAdd l n ↔ m = n ∨ m ∈ l := by
  induction l with
  | nil => simp [setAdd]
  | cons k t ih =>
    rw [setAdd]
    split
    · exact List.mem_cons
    · split
      · next h => simp [h]
      · rw [List.mem_cons, ih, List.mem_cons, or_left_comm]

theorem mem_foldl_setAdd (l acc : List Nat) (m : Nat) : m ∈ l.foldl setAdd acc ↔ m ∈ l ∨ m ∈ acc := by
  induction l generalizing acc with
  | nil => simp
  | cons n l ih => rw [List.foldl_cons, ih, mem_setAdd, List.mem_cons, or_left_comm, or_assoc]

section KvEvents

variable {s : State} {cl : BitVec 6} {far : FarData} {lost : Bool} {T k : Nat} {Q : Sequencer} (hT : s.activeSet = some T) (hk : k = seqKey cl.toNat T)
  (hQ : Q = s.seqAt k)

include hT hk hQ

/-- KV_FETCH_START of a page of the main pass whose table entry is 0. -/
theorem execKvFetchStart_empty (hu : s.kvUnasked cl.toNat = none) (hp : Q.phase = .main) (hlen : Q.fetches.length < 4) {page : Nat}
    (hn : Q.nextMain = some page) (hfree : 0 < s.kvFree (k / 16) T) {s0 s1 : State} (h0 : s0 = s.putSeq k { Q with phase := .main })
    (hte : s0.tableEntry k page far lost = (s1, some (.ok 0))) :
    ∃ t, execKvFetchStart cl far lost s = .next t ∧ (t.seqAt k).pos = page + 1 := by
  have hx : execKvFetchStart cl far lost s = .next (s0.beginFetch k page false far lost) := by
    have hfree' : ¬ (s.kvFree (k / 16) T = 0 ∧ Q.askedEntry = none) := fun h => hfree.ne' h.1
    subst hk hQ h0
    simp only [execKvFetchStart, hu, hT, hp, hn, ge_iff_le, Nat.not_le.mpr hlen, if_neg hfree', if_false]
  exact ⟨_, hx, congrArg Prod.fst (s0.beginFetch_empty k page false far lost hte)⟩

/-- KV_CATCHUP_START of a pass that has stopped with pages left for it. -/
theorem execKvCatchupStart_begins (hb : Q.catchBegun = false) (hp : Q.phase = .stopped) (hs : ∃ u ∈ Q.subs, u.inPass = true ∧ u.late ≠ [])
    (hf : ∀ F ∈ Q.folds, F.inPass = true → F.left ≠ [] ∨ F.written = true) :
    ∃ t, execKvCatchupStart cl s = .next t ∧ (t.seqAt k).catchBegun = true ∧ (t.seqAt k).phase = .catchup := by
  obtain ⟨l, hl⟩ : ∃ l, l = (Q.subs.map fun u => if u.inPass then u.late else []).flatten.foldl setAdd [] := ⟨_, rfl⟩
  have hx : execKvCatchupStart cl s = .next ((s.putSeq k { Q with catchBegun := true, catchList := l, phase := .catchup }).kvSettle k) := by
    subst hk hQ hl
    simp only [execKvCatchupStart, hT, hb, hp, decide_true, Bool.not_false, Bool.true_or, Bool.and_self, if_true]
  have hwanted : (l.any fun p => Q.subs.any fun u => u.wantsLate p) = true := by
    obtain ⟨u, hu, hin, hlate⟩ := hs
    obtain ⟨p, hmem⟩ := List.exists_mem_of_ne_nil _ hlate
    refine List.any_eq_true.mpr ⟨p, ?_, List.any_eq_true.mpr ⟨u, hu, by simp [Sub.wantsLate, hin, hmem]⟩⟩
    rw [hl, mem_foldl_setAdd]
    exact .inl (List.mem_flatten.mpr ⟨u.late, List.mem_map.mpr ⟨u, hu, by rw [if_pos hin]⟩, hmem⟩)
  rw [State.kvSettle_catching _ k (by rw [State.seqAt_putSeq]) (by rw [State.seqAt_putSeq]; exact hf) (by rw [State.seqAt_putSeq]; exact hwanted)] at hx
  exact ⟨_, hx, by rw [State.seqAt_putSeq], by rw [State.seqAt_putSeq]⟩

/-- KV_PAGE_MULTICAST of the one fetch, whose data are lost. -/
theorem execKvPageMulticast_lost (hu : s.kvUnlanded cl.toNat = none) {f : Fetch} {g : Nat} (hf : Q.fetches = [f]) (hr : Q.recipients f = [g])
    (hd : f.data = none) (hl : s.kvLost (k / 16) (k % 2) f.runs lost = true) :
    ∃ t, execKvPageMulticast cl far lost s = .next t ∧ (t.seqAt k).fetches = [] ∧ (t.seqAt k).nFailed = Q.nFailed + 1 := by
  subst hQ
  have hfind : ((s.seqAt k).fetches.find? fun f => f.data.isNone) = some f := by rw [hf]; simp [hd]
  have hland := s.kvLand_lost k far lost hfind (by simp [hr]) hl
  have hcourse := (s.putSeq k { s.seqAt k with fetches := (s.seqAt k).fetches.erase f }).failPage_course k f.page f.catchUp 3 f.va
  rw [← hland, State.seqAt_putSeq] at hcourse
  simp only [Sequencer.course, hf, List.erase_cons_head, Prod.mk.injEq] at hcourse
  obtain ⟨-, hfetches, hfailed, -⟩ := hcourse
  have hx : execKvPageMulticast cl far lost s = .next ((s.kvLand k far lost).kvDeliver k) := by
    subst hk
    simp only [execKvPageMulticast, hu, hT]
  rw [State.kvDeliver_none _ k hfetches] at hx
  exact ⟨_, hx, hfetches, hfailed⟩

end KvEvents

end Sys2Proof.Machine
end

section
namespace Sys2Proof.Machine

/-! ## Remote requests, their replies and deadlines (R408, R409) -/

section Remote

variable {s : State} {b : BitVec 12} {w : DataWait} (hl : (s.group b.toNat).late = none) (hw : (s.group b.toNat).dataWait = some w)

include hl hw

/-- REMOTE_REPLY_ARRIVAL of good data that an instruction waits for. -/
theorem execRemoteReplyArrival_data (data : List Host.Cell) (hlost : s.lostRuns b.toNat w.asked = false) (hheld : s.heldRuns b.toNat w.asked = false) :
    execRemoteReplyArrival b data false s = .next (s.putGroup b.toNat { s.group b.toNat with
      dataWait := some { w with arrived := true, inbox := w.inbox ++ data } }) := by
  simp only [execRemoteReplyArrival, hl, hw, Option.filter_none, hlost, hheld, Bool.false_eq_true, if_false]

/-- REMOTE_DEADLINE of a read that has not been answered. -/
theorem execRemoteDeadline_read (reached : Bool) (why : BitVec 2) (ha : w.arrived = false) (hact : w.act = none) (hh : s.Handling b.toNat) :
    execRemoteDeadline b reached why s = .next (s.putGroup b.toNat ((s.group b.toNat).linkFails (if why = 2 then 2 else 1) w.va w.pc)) := by
  have hfail := s.linkFail_handled b.toNat { s.group b.toNat with dataWait := none } (if why = 2 then 2 else 1) w.pc w.va hh rfl rfl rfl
  have hsame : Group.linkFails { s.group b.toNat with dataWait := none } (if why = 2 then 2 else 1) w.va w.pc =
      (s.group b.toNat).linkFails (if why = 2 then 2 else 1) w.va w.pc := rfl
  rw [hsame] at hfail
  rw [← hfail]
  simp only [execRemoteDeadline, hl, hw, Option.filter_none, ha, hact, Bool.false_eq_true, if_false]

end Remote

/-! ## Link events (R403, R404) -/

section LinkEvents

variable {s : State} {lk : BitVec 6} {l : Link} (hk : linkKnown lk.toNat = true) (hl : l = s.link lk.toNat)

theorem State.link_put (s : State) (k : Nat) (l : Link) (u : State) (hu : u.links = s.links.put k l) : u.link k = l := by
  rw [State.link, hu]
  exact Table.findD_put_self _ _ _ _

include hk hl

theorem execFlitReplay_up (hup : l.st = .up) :
    execFlitReplay lk s = .next { s with links := s.links.put lk.toNat { l with replays := min 8 (l.replays + 1) } } := by
  subst hl
  simp only [execFlitReplay, hk, hup, true_or, decide_true, Bool.and_self, if_true]

/-- LINK_CRC_FAIL after the eighth replay in a row. -/
theorem execLinkCrcFail_up (hup : l.st = .up) (h8 : 8 ≤ l.replays) : ∃ t, execLinkCrcFail lk s = .next t ∧
    t.links = s.links.put lk.toNat { st := .retraining, replays := 0, held := true } := by
  subst hl
  simp only [execLinkCrcFail, hk, hup, ge_iff_le, h8, true_or, decide_true, Bool.and_self, if_true]
  refine ⟨_, rfl, ?_⟩
  split
  · exact State.post_links _ _
  · rfl

theorem execLinkTrainingDone_training (out : Lanes) (ht : l.st = .training) : ∃ t, execLinkTrainingDone lk out s = .next t ∧
    t.links = s.links.put lk.toNat { st := trained s.reduced lk.toNat out, replays := 0, held := false } := by
  subst hl
  simp only [execLinkTrainingDone, hk, ht, decide_true, Bool.and_self, if_true]
  refine ⟨_, rfl, ?_⟩
  unfold State.endTraining
  simp only
  split <;> rfl

theorem execLinkRetrainDone_retraining (out : Lanes) (hr : l.st = .retraining) (hh : s.hostRetrain = false) :
    execLinkRetrainDone lk out s = .next { s with links := s.links.put lk.toNat { st := trained s.reduced lk.toNat out, replays := 0, held := false } } := by
  subst hl
  simp only [execLinkRetrainDone, hk, hr, hh, decide_true, Bool.not_false, Bool.and_self, if_true]

end LinkEvents

/-! ## A collective's result (R422) -/

/-- A result on one run of places: its bytes and its end on the asynchronous path. -/
theorem Group.sendResult_one (G : Group) (pa : Nat) (data : List Byte) (fl : BitVec 6) (of : Bool) : (G.sendResult [(pa, data.length)] data fl of).async =
    G.async ++ [AsyncWrite.mk (.phys pa) data false none none G.pc 0 false (some (fl, of))] := by
  simp [Group.sendResult, Group.sendAsync, Group.sendWrites, takeBytes_all, Group.asyncWrite]

theorem State.group_purgeColl (s : State) (c : Contribution) (g : Nat) : (s.purgeColl c).group g = s.group g := by
  unfold State.purgeColl
  simp only
  split <;> rfl

/-- COLLECTIVE_RESULT_DELIVERY of a result, when no link holds it. -/
theorem execCollectiveResultDelivery_result {s : State} {b : BitVec 12} {c : Contribution} {data : List Byte} {fl : BitVec 6} {of : Bool}
    (hf : s.colls.find? (fun c => c.group == some b.toNat && !c.done && (s.collFate c).isSome) = some c)
    (hc : s.collFate c = some (.result data fl of)) (hh : s.collHeld b.toNat c = false) :
    ∃ t, execCollectiveResultDelivery b s = .next t ∧ t.group b.toNat = (s.group b.toNat).sendResult c.runs data fl of := by
  simp only [execCollectiveResultDelivery, hf, hc, hh, Bool.and_false, Bool.false_eq_true, if_false]
  exact ⟨_, rfl, (State.group_purgeColl _ _ _).trans (State.group_putGroup _ _ _)⟩

/-! ## A message of no bytes (R431) -/

/-- A receive of another module's message, or of a group that is gone: its record alone is written. -/
theorem State.completeRecv_writes (s u : State) (die t : Nat) (r : Recv) (first flag : Word) (fa : Nat) (h : s.landingAt die t r.flaga = (u, .ok fa))
    (hg : r.group = none) : s.completeRecv die t r first flag = (u.write none fa (toBytes 8 first.toNat ++ toBytes 8 flag.toNat), true) := by
  simp only [State.completeRecv, h, hg]

theorem State.land_empty (s : State) (k : Nat) (r : Recv) (m : Msg) (hm : m.spilled = false) (hp : m.payload = []) (w : State)
    (hw : s.completeRecv (k / 2) (k % 2) r m.firstWord (BitVec.ofNat 64 (2 ^ 63)) = (w, true)) :
    s.land k r m false = { w.putReceiver k { w.receiver k with landing := (w.receiver k).landing.erase (r, m) } with fresh := w.fresh + 1 } := by
  have hpay : ∀ n, s.payloadOf k m n = (s, some ([], none)) := fun n => by simp [State.payloadOf, hm, hp]
  have hpieces : (r.esz - 1) / r.esz = 0 := by
    rcases Nat.eq_zero_or_pos r.esz with h | h
    · rw [h]
    · exact Nat.div_eq_of_lt (by omega)
  have hflag : flagWord 0 0 0 = BitVec.ofNat 64 (2 ^ 63) := rfl
  simp only [State.land, Bool.false_and, Bool.false_eq_true, if_false, hpay, hp, List.length_nil, Nat.zero_add, hpieces, State.landingRuns, List.map_nil,
    List.sum_nil, State.writeRuns, Option.or_none, Option.isSome_none, gt_iff_lt, Nat.not_lt_zero, hflag, hw]

/-- A store beside other values of the receive engines is that store. -/
theorem State.StoresAt.receives {s u : State} {pa : Nat} {data : List Byte} (h : s.StoresAt u none pa data) (rs : Table Receiver) (n : Nat) :
    ({ s with receivers := rs, fresh := n } : State).StoresAt { u with receivers := rs, fresh := n } none pa data := by
  obtain ⟨honly, hread, hmem, hhost, hgroup⟩ := h
  exact ⟨by rw [honly], hread, hmem, hhost, hgroup⟩

/-- A message of no bytes lands as its record alone. -/
theorem messageLanded_empty (e : BitVec 3) (T : BitVec 1) (s : State) (k fa : Nat) (r : Recv) (m : Msg) (s3 : State) (hk : k = recvKey e.toNat T.toNat)
    (hl : (s.receiver k).landing = [(r, m)]) (hm : m.spilled = false) (hp : m.payload = []) (h3 : s.landingAt e.toNat T.toNat r.flaga = (s3, .ok fa))
    (hg : r.group = none) (hc : s.MemCanonical) :
    ∃ t, exec (.messageLandingComplete e T 0 false) s = .next t ∧ (t.receiver k).landing = [] ∧
      ({ s with tr := s3.tr, receivers := t.receivers, fresh := t.fresh } : State).StoresAt t none fa
        (toBytes 8 (m.src.toNat + m.tag.toNat * 2 ^ 32) ++ toBytes 8 (2 ^ 63)) := by
  obtain ⟨x, rfl⟩ : ∃ x, s3 = { s with tr := x } := ⟨_, by
    have h := s.landingAt_tr e.toNat T.toNat r.flaga
    rwa [h3] at h⟩
  have hdie : k / 2 = e.toNat := hk ▸ recvKey_div e T
  have hset : k % 2 = T.toNat := hk ▸ recvKey_mod e T
  have hrec := s.completeRecv_writes _ (k / 2) (k % 2) r m.firstWord (BitVec.ofNat 64 (2 ^ 63)) fa (by rw [hdie, hset]; exact h3) hg
  rw [m.firstWord_toNat] at hrec
  obtain ⟨w, hw⟩ : ∃ w, w = ({ s with tr := x } : State).write none fa
      (toBytes 8 (m.src.toNat + m.tag.toNat * 2 ^ 32) ++ toBytes 8 (BitVec.ofNat 64 (2 ^ 63)).toNat) := ⟨_, rfl⟩
  rw [← hw] at hrec
  have hst : ({ s with tr := x } : State).StoresAt w none fa (toBytes 8 (m.src.toNat + m.tag.toNat * 2 ^ 32) ++ toBytes 8 (2 ^ 63)) :=
    hw ▸ State.writeAs_stores _ none none none fa _ hc (by simp [toBytes])
  have hrs : w.receiver k = s.receiver k := by rw [hst.1]; rfl
  have hhead : (s.receiver k).landing[0]? = some (r, m) := by rw [hl]; rfl
  have hx := (exec_messageLandingComplete e T 0 false s).trans ((execMessageLandingComplete_eq e T 0 false s k hk).1 r m hhead)
  rw [s.land_empty k r m hm hp w hrec] at hx
  refine ⟨_, hx, ?_, hst.receives _ _⟩
  refine (congrArg Receiver.landing (State.receiver_putReceiver w k _)).trans ?_
  rw [hrs, hl, List.erase_cons_head]

/-! ## A message that a receive takes (R434, R435) -/

/-- The engine after a receive has taken a message. -/
theorem State.receiver_takeMessage (s : State) (k : Nat) (r : Recv) (m : Msg) (Q : Receiver) :
    ((s.putReceiver k Q).takeMessage k r m).receiver k = { Q with landing := Q.landing ++ [(r, m)] } := by
  rw [State.takeMessage_put, State.receiver_putReceiver]

/-- MESSAGE_ARRIVAL of the only message on its way, for which a receive stands posted. -/
theorem messageArrival_matches (s : State) (f : FlyMsg) (k : Nat) (r : Recv) (hf : s.flying = [f]) (hset : f.set < 2) (hk : k = recvKey f.die f.set)
    (hl : s.messageLost f.msg f.die = false) (hh : s.messageHeld f.msg f.die = false) (ha : s.acceptsCtx f.set f.msg.ctx = true)
    (hr : (s.receiver k).refused = []) (hp : ((s.receiver k).posts.find? fun p => p.takes f.msg) = some r) :
    ∃ t, exec (.messageArrival 0 none) s = .next t ∧ t.flying = [] ∧ (t.receiver k).landing = (s.receiver k).landing ++ [(r, f.msg)] ∧
      (t.receiver k).posts = (s.receiver k).posts.erase r := by
  have hmod : k % 2 = f.set := by subst hk; unfold recvKey; omega
  have hhead : s.flying[0]? = some f := by rw [hf]; rfl
  have hfirst : firstOfSource s.flying 0 f = true := (firstOfSource_iff _ _ _).mpr fun j q hj => absurd hj (Nat.not_lt_zero j)
  have hent := s.enter_takes k f.msg _ rfl (by rw [hmod]; exact ha) (by rw [hr]; simp) r hp
  have harr := s.arriveMessage_enters 0 f hhead hl hh hfirst _ (hk ▸ hent)
  have hrecv := s.receiver_takeMessage k r f.msg { s.receiver k with posts := (s.receiver k).posts.erase r }
  have hfly : ((s.putReceiver k { s.receiver k with posts := (s.receiver k).posts.erase r }).takeMessage k r f.msg).flying = [f] := by
    rw [State.takeMessage_put, ← hf]
    cases r.group <;> rfl
  rw [← hk] at harr
  refine ⟨_, (exec_messageArrival 0 none s).trans (congrArg Host.Outcome.next harr), ?_, congrArg Receiver.landing hrecv, congrArg Receiver.posts hrecv⟩
  exact congrArg (List.eraseIdx · 0) hfly

/-- DRIPFULL changes no receive engine. -/
theorem State.dripFull_receivers (s : State) (T sub : Nat) (addr : Word) : (s.dripFull T sub addr).receivers = s.receivers := by
  unfold State.dripFull
  split
  · unfold State.deliver
    split <;> rfl
  · rfl

/-! ## The events of placement, transforms and streams -/

/-- PLACEMENT_DECISION of the only kernel of a slot set. -/
theorem State.placementDecision_places (s : State) (T : Nat) (S : SlotSet) (k : Kernel) (q c slot : Nat) (Q : Queue) (im : Image) (free : List Nat)
    (hT : s.activeSet = some T) (hS : S = s.slotSet T) (hdue : S.placeDue = true) (hk : S.kernels = [k]) (hl : k.launchable = true) (hst : k.st = .queued)
    (hres : k.reserving = false) (hq : k.queue = some q) (hq15 : q ≤ 15) (hQ : S.queues.find q = some Q) (hprio : Q.prio ≤ 7) (hco : k.cohort = false)
    (hseen : s.launchSeen k = true) (him : S.img = some im) (hc : s.chooseCell T k.desc (s.mayUse k) = some c) (hf : s.freeSlots T c = slot :: free)
    (hp : k.placed < k.ngrp) : ∃ t, exec .placementDecision s = .next t ∧
      t.group (groupCode c T slot) = Group.start im k.desc k.args k.placed k.num k.ngrp (s.holdingFor T c im k.desc) := by
  have honly : ∀ j ∈ S.kernels, j = k := fun j hj => by rw [hk] at hj; exact List.mem_singleton.mp hj
  obtain ⟨-, -, -, -, hplaces⟩ := placementResults 0 [] s T S hT hS
  obtain ⟨t, hx, hgroup, -⟩ := hplaces k q c slot Q im free hdue (by rw [hk]; exact List.mem_singleton_self k) hl (.inl hst) (fun j hj _ _ => honly j hj)
    (fun j hj _ => honly j hj) (fun j hj => by rw [honly j hj]; exact hres) hq hq15 hQ hprio hco hseen him hc hf hp
  exact ⟨t, hx, hgroup⟩

@[simp] theorem CellState.tq_putTq (C : CellState) (T : Nat) (l : List TransformEntry) : (C.putTq T l).tq T = l := by
  unfold CellState.putTq CellState.tq
  split <;> rfl

/-- An entry that pushes no token changes no FIFO. -/
theorem Group.pushesTo_none (G : Group) : G.PushesTo none G.fifos := fun K hK => ⟨rfl, by rw [← hK]; rfl⟩

/-- Settles O60: that each event answers, by its definition; its effect, by the rules of its event. -/
theorem eventsComplete : Obligations.EventsComplete := by
  intro s
  refine ⟨?_, ?_, s.placementDecision_places, ?_, ?_, ?_, ?_, ?_, ?_, ?_, ?_, ?_, ?_, ?_, ?_, ?_, ?_, ?_, ?_, ?_, ?_⟩
  · intro b c cl lk e T ch kn id cells far lost reached why out rq cc ix ext
    simp only [List.forall_mem_cons]
    exact ⟨⟨_, rfl⟩, ⟨_, rfl⟩, ⟨_, rfl⟩, ⟨_, rfl⟩, ⟨_, rfl⟩, ⟨_, rfl⟩, ⟨_, rfl⟩, ⟨_, rfl⟩, ⟨_, rfl⟩, ⟨_, rfl⟩, ⟨_, rfl⟩, ⟨_, rfl⟩, ⟨_, rfl⟩, ⟨_, rfl⟩,
      ⟨_, rfl⟩, ⟨_, rfl⟩, ⟨_, rfl⟩, ⟨_, rfl⟩, ⟨_, rfl⟩, ⟨_, rfl⟩, ⟨_, rfl⟩, ⟨_, rfl⟩, ⟨_, rfl⟩, fun i hi => absurd hi List.not_mem_nil⟩
  · intro kn far T k hT hk hst hl hmeets
    have hx := execKernelLaunchable_some kn far hT hk
    rw [if_pos ⟨hst, by simp [hl, hmeets]⟩] at hx
    refine ⟨_, hx, by rw [State.slotSet_putSet], { k with launchable := true }, ?_, rfl⟩
    rw [State.slotSet_putSet]
    exact SlotSet.kernel?_putKernel _ k _ _ hk rfl
  · rintro c T e rest _ hT hserves hq hnot hidle rfl hs hw ha hc hp
    have hx := execTransformEntryStart_head c s T hT e rest hserves hq hnot hidle hs hw ha hc (by simp [hp])
    exact ⟨_, hx, by rw [State.cell_putCell, CellState.tq_putTq]⟩
  · intro c e rest hq he hb h0 ho hf hp
    have hx := execTransformEntryRetire_started c s e rest (s.group e.group).fifos _ hq he hb h0 ho hf rfl
      (by rw [hp]; exact Group.pushesTo_none _) _ rfl _ rfl
    exact ⟨_, hx, by rw [State.cell_putCell, CellState.tq_putTq], congrArg Group.async (State.group_putGroup _ _ _)⟩
  · rintro b ch far lost _ c runs leaf rfl hc ho ha hsl hsent - hent hcl hst ht hahead hline hl hloc hb
    obtain ⟨x, hx⟩ := s.fetchElem_here b.toNat ch.toNat c runs leaf ⟨hsl, hsent, hent⟩ hcl ht hahead hline hl hloc hb
    exact ⟨_, ((execStreamFetchArrival_active b ch far lost s c hc ho ha).1 hst).trans (congrArg _ hx), State.group_putGroup _ _ _⟩
  · rintro b ch _ c x rest pa rfl hc hg ho hst ha hw ht hd hwin
    have hoff : c.nextOff = c.filled := if_pos hd
    have hx := execStripCommit_line b ch s c x rest hc hg ho pa hst ha hw ht (by rw [hoff]; exact hwin)
    exact ⟨_, hx, congrArg Group.async (State.group_putGroup _ _ _)⟩
  · intro b h q key hb hl hh hlive
    have hx : execBarrierRequestArrival b s = .next (s.arrivePending b.toNat) := by
      simp only [execBarrierRequestArrival, hb, hl, hh, Bool.false_eq_true, if_false]
    rw [s.arrivePending_entry b.toNat h q key hb hlive] at hx
    exact ⟨_, hx, congrArg Group.barPending (State.group_putGroup _ _ _)⟩
  · intro cl far lost T k page Q s0 s1 runs leaf entry hT hu hk hQ hp hlen hn hfree h0 hl hpoor hlost hb hzero
    have hseq : s0.seqAt k = { Q with phase := .main } := by rw [h0, State.seqAt_putSeq]
    have hte := s0.tableEntry_here k page far lost (by rw [hseq]; exact hl) hpoor hlost hb
    rw [hzero] at hte
    exact execKvFetchStart_empty hT hk hQ hu hp hlen hn hfree h0 hte
  · intro cl T k Q hT hk hQ hb hp hs hf
    exact execKvCatchupStart_begins hT hk hQ hb hp hs hf
  · intro cl far T k g Q f hT hu hk hQ hf hr hd hl
    exact execKvPageMulticast_lost hT hk hQ hu hf hr hd hl
  · intro rq n hn
    have hx : execRemoteRequestArrival rq s = .next (s.emit (.answer rq.src (s.readAt (rq.pa % 2 ^ 41) n) (s.badData (rq.pa % 2 ^ 41) n))) := by
      rw [execRemoteRequestArrival, hn]
      rfl
    exact ⟨_, hx, rfl⟩
  · intro b data w hl hw hlost hheld
    exact ⟨_, execRemoteReplyArrival_data hl hw data hlost hheld, congrArg Group.dataWait (State.group_putGroup _ _ _)⟩
  · intro b reached why w hl hw ha hact hh
    exact ⟨_, execRemoteDeadline_read hl hw reached why ha hact hh, State.group_putGroup _ _ _⟩
  · rintro lk _ l out rfl hk hl
    have hknown : linkKnown lk.toNat = true := (linkKnown_eq _).mpr (hk.imp_right fun h => ⟨h, lk.isLt⟩)
    refine ⟨fun hup => ⟨_, execFlitReplay_up hknown hl hup, State.link_put s _ _ _ rfl⟩, fun hup h8 => ?_, fun ht => ?_,
      fun hr hh => ⟨_, execLinkRetrainDone_retraining hknown hl out hr hh, State.link_put s _ _ _ rfl⟩⟩
    · obtain ⟨t, hx, hlinks⟩ := execLinkCrcFail_up hknown hl hup h8
      exact ⟨t, hx, State.link_put s _ _ t hlinks⟩
    · obtain ⟨t, hx, hlinks⟩ := execLinkTrainingDone_training hknown hl out ht
      exact ⟨t, hx, State.link_put s _ _ t hlinks⟩
  · exact fun cc => ⟨_, rfl, rfl⟩
  · intro b c data fl of pa hf hc hruns hh
    obtain ⟨t, hx, hgroup⟩ := execCollectiveResultDelivery_result hf hc hh
    exact ⟨t, hx, by rw [hgroup, hruns, Group.sendResult_one]⟩
  · intro f k r hf _ hset hk hl hh ha hr hp
    exact messageArrival_matches s f k r hf hset hk hl hh ha hr hp
  · intro e T k fa r m s3 hk hl hm hp h3 hg hc
    exact messageLanded_empty e T s k fa r m s3 hk hl hm hp h3 hg hc
  · intro e T k m rest r hk hm ha hh hr
    have hx := execRetryTicketCall_takes e T s k _ hk rfl m rest hm ha hh r hr
    have hrecv := s.receiver_takeMessage k r m { s.receiver k with refused := rest, posts := (s.receiver k).posts.erase r }
    exact ⟨_, hx, congrArg Receiver.refused hrecv, congrArg Receiver.landing hrecv⟩
  · intro id e T k w hk hq hw
    have hx := s.spillAnswer_refused id.toNat e T k _ hk rfl w hq hw
    refine ⟨_, congrArg (fun r : State × Bool => Host.Outcome.next r.1) hx, ?_⟩
    rw [State.receiver, State.dripFull_receivers]
    exact congrArg Receiver.paused (State.receiver_putReceiver _ k _)

end Sys2Proof.Machine
end

section
namespace Sys2Proof.Machine

/-! ## Entries of a table -/

theorem Table.eq_or_mem_of_mem_put {α : Type} {t : Table α} {n : Nat} {a : α} {q : Nat × α} (h : q ∈ Table.put t n a) : q = (n, a) ∨ q ∈ t := by
  induction t with
  | nil => exact .inl (List.mem_singleton.mp h)
  | cons e t ih =>
    rw [Table.put] at h
    split at h
    · exact List.mem_cons.mp h
    · split at h
      · exact (List.mem_cons.mp h).imp_right (List.mem_cons_of_mem _)
      · rcases List.mem_cons.mp h with rfl | h
        · exact .inr (List.mem_cons_self ..)
        · exact (ih h).imp_right (List.mem_cons_of_mem _)

theorem Table.mem_of_find {α : Type} {t : Table α} {n : Nat} {a : α} (h : Table.find t n = some a) : (n, a) ∈ t := by
  induction t with
  | nil => exact nomatch h
  | cons e t ih =>
    rw [Table.find] at h
    split at h
    · next hn =>
      obtain rfl := Option.some.inj h
      exact hn ▸ List.mem_cons_self ..
    · exact List.mem_cons_of_mem _ (ih h)

theorem Table.mem_of_mem_drop {α : Type} {t : Table α} {n : Nat} {q : Nat × α} (h : q ∈ Table.drop t n) : q ∈ t ∧ q.1 ≠ n := by
  induction t with
  | nil => exact nomatch h
  | cons e t ih =>
    rw [Table.drop] at h
    split at h
    · exact (ih h).imp_left (List.mem_cons_of_mem _)
    · next hn =>
      rcases List.mem_cons.mp h with rfl | h
      · exact ⟨List.mem_cons_self .., fun he => hn he.symm⟩
      · exact (ih h).imp_left (List.mem_cons_of_mem _)

/-! ## The groups of a kernel that stand (R116, R130) -/

/-- No group of a kernel of the slot set stands but the one of a slot. -/
def State.Sole (s : State) (g num : Nat) : Prop := ∀ q ∈ s.groups, setOf q.1 = setOf g → q.2.kernid = num → q.1 = g

theorem State.Sole.putGroup {s : State} {g num : Nat} (h : s.Sole g num) (G : Group) : (s.putGroup g G).Sole g num := by
  intro q hq
  rcases Table.eq_or_mem_of_mem_put hq with rfl | hq
  · exact fun _ _ => rfl
  · exact h q hq

/-- A write's word to the waiting groups keeps every group's kernel. -/
theorem touchGroup_kernid (by_ : Option Nat) (lo n g : Nat) (G : Group) : (touchGroup by_ lo n g G).kernid = G.kernid := by
  obtain ⟨p, hp⟩ := touchGroup_phase by_ lo n g G
  rw [hp]

/-- A write on the line of a waiting group ends its wait; every other group stays as it is. -/
theorem touchGroup_eq (by_ : Option Nat) (lo n g : Nat) (G : Group) :
    touchGroup by_ lo n g G = G ∨ ∃ line, touchGroup by_ lo n g G = { G with phase := .waiting (.event line true) } := by
  unfold touchGroup
  split
  · split
    · exact .inr ⟨_, rfl⟩
    · exact .inl rfl
  · exact .inl rfl

/-- A wait that a write has ended is told nothing by the next write. -/
theorem touchGroup_touchGroup (by_ : Option Nat) (lo n g : Nat) (G : Group) :
    touchGroup by_ lo n g (touchGroup by_ lo n g G) = touchGroup by_ lo n g G := by
  rcases touchGroup_eq by_ lo n g G with h | ⟨line, h⟩
  · exact congrArg _ h
  · rw [h]
    rfl

/-- A group that stands is one of its kernel's. -/
theorem State.kernelStands_of_find (s : State) (g num : Nat) (hs : (s.groups.find g).isSome = true) (hn : (s.group g).kernid = num) :
    s.kernelStands (setOf g) num = true := by
  obtain ⟨G, hG⟩ := Option.isSome_iff_exists.mp hs
  have hg : s.group g = G := by rw [State.group, Table.findD, hG, Option.getD_some]
  rw [hg] at hn
  exact List.any_eq_true.mpr ⟨(g, G), Table.mem_of_find hG, by simp [hn]⟩

/-- Once the sole group of a kernel has left its slot, none of the kernel stands. -/
theorem State.Sole.dropped {s u : State} {g num : Nat} (h : s.Sole g num) (hu : u.groups = s.groups.drop g) : u.kernelStands (setOf g) num = false := by
  rw [State.kernelStands, hu, List.any_eq_false]
  intro q hq hboth
  obtain ⟨hmem, hne⟩ := Table.mem_of_mem_drop hq
  rw [Bool.and_eq_true, decide_eq_true_eq, beq_iff_eq] at hboth
  exact hne (h q hmem hboth.1 hboth.2)

/-! ## A group that gives up what it holds (R126, R141) -/

/-- The flags of a group as its end ORs them into a completion word. -/
def Group.endFlags (G : Group) (w : Word) : Word := wordFlags w G.vfl G.mfl G.xfl G.collOf

/-- On the way from `s` to `t` a group without receives and subscriptions has given up some of what it holds, and nothing
else has changed: no other group, no byte of memory, no kernel of its slot set, neither its kernel's number nor its flags. -/
structure State.Parting (s t : State) (g : Nat) : Prop where
  others : ∀ h, h ≠ g → t.group h = s.group h
  stands : (t.groups.find g).isSome = true
  sole : ∀ num, s.Sole g num → t.Sole g num
  kernid : (t.group g).kernid = (s.group g).kernid
  flags : (t.group g).endFlags = (s.group g).endFlags
  mem : t.mem = s.mem
  hostMem : t.hostMem = s.hostMem
  kernels : (t.slotSet (setOf g)).kernels = (s.slotSet (setOf g)).kernels
  posts : ∀ r ∈ (t.receiver (recvKey (dieOf g) (setOf g))).posts, r.group ≠ some g
  subs : ∀ u ∈ (t.seqAt (seqOf g)).subs, u.group ≠ g

theorem State.Parting.refl {s : State} {g : Nat} (hs : (s.groups.find g).isSome = true)
    (hp : ∀ r ∈ (s.receiver (recvKey (dieOf g) (setOf g))).posts, r.group ≠ some g) (hu : ∀ u ∈ (s.seqAt (seqOf g)).subs, u.group ≠ g) :
    s.Parting s g := ⟨fun _ _ => rfl, hs, fun _ h => h, rfl, rfl, rfl, rfl, rfl, hp, hu⟩

/-- A step that changes no group, no memory and no kernel, no posted receive and no subscription. -/
theorem State.Parting.step {s t u : State} {g : Nat} (h : s.Parting t g) (hg : u.groups = t.groups) (hm : u.mem = t.mem) (hh : u.hostMem = t.hostMem)
    (hk : (u.slotSet (setOf g)).kernels = (t.slotSet (setOf g)).kernels)
    (hp : (u.receiver (recvKey (dieOf g) (setOf g))).posts = (t.receiver (recvKey (dieOf g) (setOf g))).posts)
    (hs : (u.seqAt (seqOf g)).subs = (t.seqAt (seqOf g)).subs) : s.Parting u g := by
  have hgroup : ∀ n, u.group n = t.group n := fun n => by rw [State.group, State.group, hg]
  exact ⟨fun n hn => (hgroup n).trans (h.others n hn), hg ▸ h.stands, fun num hn => show ∀ q ∈ u.groups, _ from hg ▸ h.sole num hn,
    (hgroup g).symm ▸ h.kernid, (hgroup g).symm ▸ h.flags, hm.trans h.mem, hh.trans h.hostMem, hk.trans h.kernels, hp ▸ h.posts, hs ▸ h.subs⟩

section
variable {s t : State} {g : Nat} (h : s.Parting t g)
include h

/-- A step that changes the group itself. -/
theorem State.Parting.putGroup (G : Group) (hk : G.kernid = (t.group g).kernid) (hf : G.endFlags = (t.group g).endFlags) : s.Parting (t.putGroup g G) g where
  others n hn := (t.group_putGroup_ne G hn).trans (h.others n hn)
  stands := by rw [State.putGroup, Table.find_put_self]; rfl
  sole num hn := (h.sole num hn).putGroup G
  kernid := by rw [State.group_putGroup, hk, h.kernid]
  flags := by rw [State.group_putGroup, hf, h.flags]
  mem := h.mem
  hostMem := h.hostMem
  kernels := h.kernels
  posts := h.posts
  subs := h.subs

theorem State.Parting.emit (p : OutPacket) : s.Parting (t.emit p) g := h.step rfl rfl rfl rfl rfl rfl

theorem State.Parting.leaveMisses : s.Parting (t.leaveMisses g) g := h.step rfl rfl rfl rfl rfl rfl

theorem State.Parting.failContributions : s.Parting (t.failContributions g) g := by
  have hfold := List.foldlRecOn (motive := fun u => s.Parting u g) (t.colls.filter fun q => q.group == some g && !q.done)
    (fun st q => st.tellFar g q 0) h fun _ hu q _ => List.foldlRecOn (motive := fun v => s.Parting v g) _ _ hu fun _ hv _ _ => hv.emit _
  exact hfold.step rfl rfl rfl rfl rfl rfl

theorem State.Parting.returnTickets : s.Parting (t.returnTickets g) g := by
  refine State.Parting.putGroup (List.foldlRecOn (motive := fun u => s.Parting u g) _ _ h fun u hu q _ => ?_) _ rfl rfl
  show s.Parting (if ticketHere q.1 then _ else _) g
  split
  · exact hu.step rfl rfl rfl rfl rfl rfl
  · exact hu.emit _

theorem State.Parting.releaseKv : s.Parting (t.releaseKv g) g := by
  have hq : ((t.seqAt (seqOf g)).subs.filter fun u => u.group == g) = [] := List.filter_eq_nil_iff.mpr fun u hu => by simpa using h.subs u hu
  simp only [State.releaseKv, hq, List.map_nil, List.foldl_nil]
  refine State.Parting.putGroup ?_ _ rfl rfl
  split
  · exact h
  · exact h.step rfl rfl rfl rfl rfl (by rw [State.putSeq, State.seqAt, Table.findD_put_self])

theorem State.Parting.forgetSender : s.Parting (t.forgetSender g) g := h.step rfl rfl rfl rfl (t.posts_forgetSender g _) rfl

/-- A slot set written with its kernels kept. -/
theorem State.Parting.putSet (S : SlotSet) (hk : S.kernels = (t.slotSet (setOf g)).kernels) : s.Parting (t.putSet (setOf g) S) g := by
  refine h.step (by simp) (by simp) (by simp) (by rw [State.slotSet_putSet, hk]) ?_ ?_
  · rw [State.receiver, State.receiver, State.putSet_receivers]
  · rw [State.seqAt, State.seqAt, State.putSet_seqs]

theorem State.Parting.releaseHoldings : s.Parting (t.releaseHoldings g) g :=
  h.failContributions.returnTickets.releaseKv.forgetSender.putSet _ rfl

theorem State.Parting.releaseRecvs : ∃ u, t.releaseRecvs g = (u, true) ∧ s.Parting u g := by
  have hq : ((t.receiver (recvKey (dieOf g) (setOf g))).posts.filter fun r => r.group == some g) = [] :=
    List.filter_eq_nil_iff.mpr fun r hr => by simpa using h.posts r hr
  simp only [State.releaseRecvs, hq, List.map_nil, List.foldl_nil, Bool.not_true, Bool.false_eq_true, if_false]
  refine ⟨_, rfl, State.Parting.putGroup ?_ _ rfl rfl⟩
  exact h.step rfl rfl rfl rfl (by rw [State.receiver_putReceiver]) rfl

theorem State.Parting.discardEntries : s.Parting (t.discardEntries g) g := by
  rw [State.discardEntries]
  split
  · exact h.step rfl rfl rfl rfl rfl rfl
  · exact h

theorem State.Parting.forsaken : s.Parting (t.forsaken g) g := (h.putGroup (t.group g).terminated rfl rfl).discardEntries.releaseHoldings

theorem State.Parting.kernel? (num : Nat) : (t.slotSet (setOf g)).kernel? num = (s.slotSet (setOf g)).kernel? num := by
  rw [SlotSet.kernel?, SlotSet.kernel?, h.kernels]

theorem State.Parting.memCanonical (hm : s.MemCanonical) : t.MemCanonical := by
  rw [State.MemCanonical, h.mem, h.hostMem]
  exact hm

theorem State.Parting.readAt (pa n : Nat) : t.readAt pa n = s.readAt pa n := by rw [State.readAt, State.readAt, h.mem, h.hostMem]

end

/-! ## A kernel told of a group's end (R116, R117, R118) -/

/-- A write tells every entry of the groups. -/
theorem State.groups_writeAs (s : State) (by_ : Option Nat) (tag : Option Tag) (poison : Option Bool) (pa : Nat) (data : List Byte) (hd : data ≠ []) :
    (s.writeAs by_ tag poison pa data).groups = s.groups.map fun e => (e.1, touchGroup by_ pa data.length e.1 e.2) := by
  have he : data.isEmpty = false := by simpa using hd
  simp only [State.writeAs, he, Bool.false_eq_true, if_false]
  split
  · rfl
  · rw [State.retile_bdir]
    rfl

section
variable (s : State) (T : Nat) (k : Kernel) (f : Word → Word) {pa : Nat} (hc : k.cword = some pa) (hp : paHost pa = true ∨ paModule pa = false)
include hc hp

/-- A completion word that this module or the host holds is written where it stands. -/
theorem State.putWord_here : s.putWord T k f = (s.putSet T ((s.slotSet T).putKernel { k with word := f k.word })).write none pa
    (toBytes 8 (f (BitVec.ofNat 64 (natOfBytes (s.readAt pa 8)))).toNat) := by
  have hfar : (paModule pa && !paHost pa) = false := by rcases hp with h | h <;> simp [h]
  simp only [State.putWord, hc, State.unitUpdate, hfar, Bool.false_eq_true, if_false, State.readAt_putSet]

theorem State.groups_putWord : (s.putWord T k f).groups = s.groups.map fun e => (e.1, touchGroup none pa 8 e.1 e.2) := by
  rw [s.putWord_here T k f hc hp, State.write, State.groups_writeAs _ _ _ _ _ _ (List.ne_nil_of_length_eq_add_one (toBytes_length 8 _)),
    State.putSet_groups, toBytes_length]

theorem State.memCanonical_putWord (hm : s.MemCanonical) : (s.putWord T k f).MemCanonical := by
  rw [s.putWord_here T k f hc hp]
  refine State.writeAs_canonical _ _ _ _ _ _ ?_
  rw [State.MemCanonical, State.putSet_mem, State.putSet_hostMem]
  exact hm

end

/-- Two changes of one word leave every other byte as it was. -/
theorem State.OnlyWord.trans {s t u : State} {pa : Nat} (h : s.OnlyWord t pa) (h' : t.OnlyWord u pa) : s.OnlyWord u pa :=
  ⟨fun a ha => (h'.1 a ha).trans (h.1 a ha), fun a ha => (h'.2 a ha).trans (h.2 a ha)⟩

/-- On the way from `s` to `t` a group has given up what it holds, and its kernel has counted its end with a change of the
completion word; the group still stands. -/
structure State.Told (s t : State) (g pa : Nat) (k : Kernel) (f : Word → Word) : Prop where
  others : ∀ h, h ≠ g → t.group h = touchGroup none pa 8 h (s.group h)
  stands : (t.groups.find g).isSome = true
  sole : ∀ num, s.Sole g num → t.Sole g num
  kernid : (t.group g).kernid = (s.group g).kernid
  canonical : t.MemCanonical
  word : t.readAt pa 8 = toBytes 8 (f (BitVec.ofNat 64 (natOfBytes (s.readAt pa 8)))).toNat
  only : s.OnlyWord t pa
  kernel : (t.slotSet (setOf g)).kernel? (s.group g).kernid = some { k with ended := k.ended + 1, word := f k.word }

theorem State.Told.kernelStands {s t : State} {g pa : Nat} {k : Kernel} {f : Word → Word} (h : s.Told t g pa k f) :
    t.kernelStands (setOf g) (s.group g).kernid = true := t.kernelStands_of_find g _ h.stands h.kernid

/-- What a group gives up after its kernel has been told. -/
theorem State.Told.parting {s t u : State} {g pa : Nat} {k : Kernel} {f : Word → Word} (h : s.Told t g pa k f) (hu : t.Parting u g) :
    s.Told u g pa k f where
  others n hn := (hu.others n hn).trans (h.others n hn)
  stands := hu.stands
  sole num hn := hu.sole num (h.sole num hn)
  kernid := hu.kernid.trans h.kernid
  canonical := hu.memCanonical h.canonical
  word := (hu.readAt pa 8).trans h.word
  only := h.only.trans ⟨fun a _ => by rw [hu.mem], fun a _ => by rw [hu.hostMem]⟩
  kernel := (hu.kernel? _).trans h.kernel

/-- A kernel with a group that stands is not finished. -/
theorem State.finishKernel_stands (s : State) (t num : Nat) (h : s.kernelStands t num = true) : s.finishKernel t num = s := by
  rw [State.finishKernel]
  split
  · rfl
  · rw [if_neg]
    simp [h]

section
variable {s t : State} {g pa : Nat} {k : Kernel} (h : s.Parting t g) (hm : s.MemCanonical)
  (hk : (s.slotSet (setOf g)).kernel? (s.group g).kernid = some k) (hc : k.cword = some pa) (hp : paHost pa = true ∨ paModule pa = false)
include h hm hk hc hp

theorem State.Parting.putWord (f : Word → Word) : s.Told (t.putWord (setOf g) { k with ended := k.ended + 1 } f) g pa k f := by
  have hst := t.putWord_stores (setOf g) pa { k with ended := k.ended + 1 } f (h.memCanonical hm) hc hp
  have hgroups := t.groups_putWord (setOf g) { k with ended := k.ended + 1 } f hc hp
  have hcan := t.memCanonical_putWord (setOf g) { k with ended := k.ended + 1 } f hc hp (h.memCanonical hm)
  generalize t.putWord (setOf g) { k with ended := k.ended + 1 } f = w at hst hgroups hcan ⊢
  obtain ⟨honly, hword, hmem, hhost, hgroup⟩ := hst
  simp only [toBytes_length, State.putSet_mem, State.putSet_hostMem, State.group_putSet, h.mem, h.hostMem, h.readAt] at hword hmem hhost hgroup
  refine ⟨fun n hn => ?_, ?_, fun num hn => ?_, ?_, hcan, hword, ⟨hmem, hhost⟩, ?_⟩
  · rw [hgroup, h.others n hn]
  · rw [hgroups, Table.find_map, Option.isSome_map]
    exact h.stands
  · intro q hq
    rw [hgroups] at hq
    obtain ⟨e, he, rfl⟩ := List.mem_map.mp hq
    intro hset hnum
    exact h.sole num hn e he hset ((touchGroup_kernid _ _ _ _ _).symm.trans hnum)
  · rw [hgroup, touchGroup_kernid, h.kernid]
  · have hset : w.slotSet (setOf g) = _ := (congrArg (fun v : State => v.slotSet (setOf g)) honly).trans (t.slotSet_putSet (setOf g) _)
    rw [hset]
    exact SlotSet.kernel?_putKernel _ k _ _ ((h.kernel? _).trans hk) rfl

/-- While the group stands, its kernel told of its end has its word changed and is not finished. -/
theorem State.Parting.groupGone (f : Word → Word) :
    t.groupGone (setOf g) (s.group g).kernid f = t.putWord (setOf g) { k with ended := k.ended + 1 } f := by
  simp only [State.groupGone, h.kernel?, hk]
  exact State.finishKernel_stands _ _ _ (h.putWord hm hk hc hp f).kernelStands

/-- The end of a group by KEND: it gives up what it holds, its kernel is told with its flags, and its slot is freed. -/
theorem State.Parting.endGroup (hco : k.cohort = false) : ∃ u, t.endGroup g = u.freeSlot g ∧ s.Told u g pa k (s.group g).endFlags := by
  have hr := h.releaseHoldings
  have hb : (t.releaseHoldings g).barDepart g (t.group g).kernid = t.releaseHoldings g :=
    State.barDepart_plain _ g _ k (by rw [h.kernid, hr.kernel?, hk]) hco
  have hended := hr.putGroup { (t.releaseHoldings g).group g with phase := .ended } rfl rfl
  refine ⟨_, ?_, hended.putWord hm hk hc hp _⟩
  rw [← hended.groupGone hm hk hc hp, ← h.kernid, ← h.flags]
  simp only [State.endGroup, hb]
  rfl

end

/-- A spent group's slot is freed once its receives are given up. -/
theorem State.Leaving.tryFree_eq {s t u : State} {g : Nat} (h : s.Leaving t g)
    (hu : (t.putGroup g { t.group g with chan := (t.group g).chan.map Channel.cut }).releaseRecvs g = (u, true)) : t.tryFree g = u.freeSlot g := by
  have hcut : s.Leaving (t.putGroup g { t.group g with chan := (t.group g).chan.map Channel.cut }) g := by
    refine h.putGroup _ ⟨rfl, rfl, rfl, rfl, rfl, rfl, rfl, ?_⟩
    refine Vector.ext fun i hi => ?_
    rw [Vector.getElem_map, h.spent.chan (t.group g).chan[i] (by simp), Channel.cut_free]
  obtain ⟨v, hv, hl⟩ := hcut.releaseRecvs
  obtain ⟨rfl, -⟩ := Prod.mk.inj (hu.symm.trans hv)
  rw [State.tryFree, if_neg (by simp [h.spent.phase])]
  simp only [hu, hl.lingers, Bool.false_eq_true, if_false]

/-- The end of a group at rest by termination: it gives up what it holds, its kernel counts it as failed, and its slot is freed. -/
theorem State.Parting.terminate {s t : State} {g pa : Nat} {k : Kernel} (h : s.Parting t g) (hr : ({ t with cur := g } : State).Rests) (hm : s.MemCanonical)
    (hk : (s.slotSet (setOf g)).kernel? (s.group g).kernid = some k) (hc : k.cword = some pa) (hp : paHost pa = true ∨ paModule pa = false)
    (hco : k.cohort = false) : ∃ u, t.terminate g = u.freeSlot g ∧ s.Told u g pa k fun w => wordFail w 1 := by
  have hf := h.forsaken
  have hkt : (t.slotSet (setOf g)).kernel? (t.group g).kernid = some k := by rw [h.kernid, h.kernel?, hk]
  have htold := hf.putWord hm hk hc hp fun w => wordFail w 1
  have hgone := hf.groupGone hm hk hc hp fun w => wordFail w 1
  obtain ⟨w, hw, hleave, -⟩ := (State.Leaving.forsaken t g hr).putWord (h.memCanonical hm) hc hp hkt
  rw [← hw] at htold hgone
  have hmiss := (State.Parting.refl htold.stands hleave.posts hleave.subs).leaveMisses
  obtain ⟨u, hu, hpart⟩ := (hmiss.putGroup { (w.leaveMisses g).group g with chan := ((w.leaveMisses g).group g).chan.map Channel.cut } rfl rfl).releaseRecvs
  refine ⟨u, ?_, htold.parting hpart⟩
  obtain ⟨-, -, -, -, -, -, -, -, hb, ho, hs, -, -⟩ := hr
  rw [t.terminate_eq g hs ho hb, h.kernid, State.barDepart_plain _ g _ k (by rw [hf.kernel?, hk]) hco, hgone]
  exact hleave.leaveMisses.tryFree_eq hu

/-! ## The slot freed (R116, R130) -/

/-- The slot of a told group freed while its kernel has groups to end. -/
theorem State.Told.freeSlot_goesOn {s t : State} {g pa : Nat} {k : Kernel} {f : Word → Word} (h : s.Told t g pa k f) (he : k.ended + 1 < k.ngrp) :
    (t.freeSlot g).groups.find g = none ∧ (∀ n, n ≠ g → (t.freeSlot g).group n = touchGroup none pa 8 n (s.group n)) ∧
    (t.freeSlot g).readAt pa 8 = toBytes 8 (f (BitVec.ofNat 64 (natOfBytes (s.readAt pa 8)))).toNat ∧ s.OnlyWord (t.freeSlot g) pa ∧
    ∃ j, ((t.freeSlot g).slotSet (setOf g)).kernel? (s.group g).kernid = some j ∧ j.ended = k.ended + 1 ∧ j.word = f k.word ∧ j.st = k.st ∧
      j.placed = k.placed := by
  obtain ⟨hgroups, hmem, hhost, hker⟩ := t.freeSlot_plain g _ (h.kernid.symm ▸ h.kernel) (Nat.ne_of_lt he)
  refine ⟨?_, fun n hn => ?_, ?_, ?_, _, h.kernid ▸ hker, ?_⟩
  · rw [hgroups, Table.find_drop_self]
  · rw [State.group, hgroups, Table.findD, Table.find_drop_ne _ hn]
    exact h.others n hn
  · rw [State.readAt, hmem, hhost]
    exact h.word
  · rw [State.OnlyWord, hmem, hhost]
    exact h.only
  · unfold Kernel.settled
    split <;> exact ⟨rfl, rfl, rfl, rfl⟩

/-- A launch that waits no more for a group's writes keeps its completion word. -/
theorem Kernel.settled_cword (g : Nat) (k : Kernel) : (k.settled g).cword = k.cword := by
  unfold Kernel.settled
  split <;> rfl

/-- The state with a group gone from its slot, its kernel still to be looked at. -/
def State.unseated (s : State) (g : Nat) : State :=
  ({ s.dropAsked g with groups := s.groups.drop g } : State).putSet (setOf g) { (s.slotSet (setOf g)).settleLaunches g with placeDue := true }

theorem State.freeSlot_eq (s : State) (g : Nat) : s.freeSlot g = (s.unseated g).finishKernel (setOf g) (s.group g).kernid := rfl

theorem State.groups_unseated (s : State) (g : Nat) : (s.unseated g).groups = s.groups.drop g := State.putSet_groups _ _ _

theorem State.mem_unseated (s : State) (g : Nat) : (s.unseated g).mem = s.mem := State.putSet_mem _ _ _

theorem State.hostMem_unseated (s : State) (g : Nat) : (s.unseated g).hostMem = s.hostMem := State.putSet_hostMem _ _ _

theorem State.kernel?_unseated (s : State) (g num : Nat) :
    ((s.unseated g).slotSet (setOf g)).kernel? num = ((s.slotSet (setOf g)).kernel? num).map (Kernel.settled g) := by
  rw [State.unseated, State.slotSet_putSet]
  exact SlotSet.kernel?_settleLaunches _ g num

theorem SlotSet.kernel?_dropDep (S : SlotSet) (gone : Nat → Bool) (num : Nat) :
    (S.dropDep gone).kernel? num = (S.kernel? num).map fun k => { k with deps := k.deps.filter fun d => !gone d } :=
  SlotSet.kernel?_map (A := S.dropDep gone) (fun k => { k with deps := k.deps.filter fun d => !gone d }) (fun _ => rfl) rfl num

/-- Dependences met change no group and no memory, and bring no kernel. -/
theorem State.meetDeps_keeps (s : State) (t : Nat) (c : Option Nat) : (s.meetDeps t c).groups = s.groups ∧ (s.meetDeps t c).mem = s.mem ∧
    (s.meetDeps t c).hostMem = s.hostMem ∧ ∀ T num, (s.slotSet T).kernel? num = none → ((s.meetDeps t c).slotSet T).kernel? num = none := by
  unfold State.meetDeps
  split
  · simp only
    split
    · exact ⟨rfl, rfl, rfl, fun _ _ hn => hn⟩
    · refine ⟨rfl, rfl, rfl, fun T num hn => ?_⟩
      by_cases hT : T = 0
      · simp only [State.slotSet, hT, if_true] at hn ⊢
        rw [SlotSet.kernel?_dropDep, hn, Option.map_none]
      · simp only [State.slotSet, hT, if_false] at hn ⊢
        rw [SlotSet.kernel?_dropDep, hn, Option.map_none]
  · exact ⟨rfl, rfl, rfl, fun _ _ hn => hn⟩

/-- A placed kernel whose groups have all ended, none of which stands, leaves the unit. -/
theorem State.finishKernel_leaves (s : State) (t num : Nat) (k : Kernel) (hk : (s.slotSet t).kernel? num = some k) (hst : k.st = .placed)
    (he : k.ended = k.ngrp) (hno : s.kernelStands t num = false) :
    (s.finishKernel t num).groups = (s.putWord t k fun w => wordState w .done).groups ∧
    (s.finishKernel t num).mem = (s.putWord t k fun w => wordState w .done).mem ∧
    (s.finishKernel t num).hostMem = (s.putWord t k fun w => wordState w .done).hostMem ∧ ((s.finishKernel t num).slotSet t).kernel? num = none := by
  simp only [State.finishKernel, hk, hst, he, hno, Bool.not_false, and_self, if_true]
  generalize s.putWord t k (fun w => wordState w .done) = w
  generalize hu : w.putSet t _ = u
  obtain ⟨hgroups, hmem, hhost, hker⟩ := u.meetDeps_keeps t k.cword
  refine ⟨?_, ?_, ?_, hker t num ?_⟩
  · rw [hgroups, ← hu, State.putSet_groups]
  · rw [hmem, ← hu, State.putSet_mem]
  · rw [hhost, ← hu, State.putSet_hostMem]
  · rw [← hu, State.slotSet_putSet, SlotSet.kernel?, List.find?_eq_none]
    intro q hq
    simpa using (List.mem_filter.mp hq).2

/-- The word of a kernel that leaves the unit shows Done. -/
theorem State.finishKernel_writes (s : State) (t num pa : Nat) (k : Kernel) (hk : (s.slotSet t).kernel? num = some k) (hst : k.st = .placed)
    (he : k.ended = k.ngrp) (hno : s.kernelStands t num = false) (hm : s.MemCanonical) (hc : k.cword = some pa)
    (hp : paHost pa = true ∨ paModule pa = false) :
    (s.finishKernel t num).groups = (s.touch none pa 8).groups ∧
    (s.finishKernel t num).readAt pa 8 = toBytes 8 (wordState (BitVec.ofNat 64 (natOfBytes (s.readAt pa 8))) .done).toNat ∧
    s.OnlyWord (s.finishKernel t num) pa := by
  obtain ⟨hgroups, hmem, hhost, -⟩ := s.finishKernel_leaves t num k hk hst he hno
  obtain ⟨-, hword, hbytes, hhostBytes, -⟩ := s.putWord_stores t pa k (fun w => wordState w .done) hm hc hp
  simp only [toBytes_length, State.putSet_mem, State.putSet_hostMem] at hword hbytes hhostBytes
  rw [State.OnlyWord, State.readAt, hgroups, hmem, hhost, s.groups_putWord t k _ hc hp]
  exact ⟨rfl, hword, hbytes, hhostBytes⟩

theorem ofNat_natOfBytes_toBytes (w : Word) : BitVec.ofNat 64 (natOfBytes (toBytes 8 w.toNat)) = w := by
  rw [natOfBytes_toBytes, show (256 : Nat) ^ 8 = 2 ^ 64 by decide, Nat.mod_eq_of_lt w.isLt, BitVec.ofNat_toNat, BitVec.setWidth_eq]

/-- The slot of the last group of a placed kernel freed. -/
theorem State.Told.freeSlot_finishes {s t : State} {g pa : Nat} {k : Kernel} {f : Word → Word} (h : s.Told t g pa k f) (he : k.ended + 1 = k.ngrp)
    (hst : k.st = .placed) (hc : k.cword = some pa) (hp : paHost pa = true ∨ paModule pa = false) (hsole : s.Sole g (s.group g).kernid) :
    (t.freeSlot g).groups.find g = none ∧ (∀ n, n ≠ g → (t.freeSlot g).group n = touchGroup none pa 8 n (s.group n)) ∧
    (t.freeSlot g).readAt pa 8 = toBytes 8 (wordState (f (BitVec.ofNat 64 (natOfBytes (s.readAt pa 8)))) .done).toNat ∧ s.OnlyWord (t.freeSlot g) pa ∧
    ((t.freeSlot g).slotSet (setOf g)).kernel? (s.group g).kernid = none := by
  have hcounts := Kernel.settled_counts g { k with ended := k.ended + 1, word := f k.word }
  have hcword := Kernel.settled_cword g { k with ended := k.ended + 1, word := f k.word }
  have hker := (t.kernel?_unseated g _).trans (congrArg (Option.map (Kernel.settled g)) h.kernel)
  rw [Option.map_some] at hker
  generalize Kernel.settled g { k with ended := k.ended + 1, word := f k.word } = j at hcounts hcword hker
  obtain ⟨hended, hngrp, hjst⟩ := hcounts
  have hcan : (t.unseated g).MemCanonical := by
    rw [State.MemCanonical, t.mem_unseated, t.hostMem_unseated]
    exact h.canonical
  have hall : j.ended = j.ngrp := hended.trans (he.trans hngrp.symm)
  have hgone := (h.sole _ hsole).dropped (t.groups_unseated g)
  obtain ⟨-, -, -, hnone⟩ := (t.unseated g).finishKernel_leaves (setOf g) _ j hker (hjst.trans hst) hall hgone
  obtain ⟨hgroups, hword, hmem, hhost⟩ :=
    (t.unseated g).finishKernel_writes (setOf g) _ pa j hker (hjst.trans hst) hall hgone hcan (hcword.trans hc) hp
  rw [t.freeSlot_eq, h.kernid]
  have hread : (t.unseated g).readAt pa 8 = t.readAt pa 8 := by rw [State.readAt, State.readAt, t.mem_unseated, t.hostMem_unseated]
  rw [t.mem_unseated] at hmem
  rw [t.hostMem_unseated] at hhost
  rw [hread, h.word, ofNat_natOfBytes_toBytes] at hword
  refine ⟨?_, fun n hn => ?_, hword, h.only.trans ⟨hmem, hhost⟩, hnone⟩
  · rw [hgroups, State.touch, Table.find_map, t.groups_unseated, Table.find_drop_self, Option.map_none]
  · have hseat : (t.unseated g).group n = t.group n := by rw [State.group, t.groups_unseated, Table.findD, Table.find_drop_ne _ hn]; rfl
    rw [State.group, hgroups]
    exact (State.group_touch _ _ _ _ _).trans (by rw [hseat, h.others n hn, touchGroup_touchGroup])

/-! ## KEND and GTERM (R126, R143) -/

theorem Group.convoys_closeConvoy (G : Group) (h : G.convoys = []) : G.closeConvoy.convoys = [] := by
  rw [Group.closeConvoy, h]
  rfl

/-- The close of the convoy keeps a group at rest. -/
theorem State.Rests.close {s : State} (h : s.Rests) : s.close.Rests := by
  obtain ⟨hquiet, hsent, hconv, hsfrq, hasync, htr, hch, hcoll, hbar, hover, -, hposts, hsubs⟩ := h
  have hfind : (s.close.groups.find s.cur).isSome = true := by rw [State.close, State.putOwn, State.putGroup, Table.find_put_self]; rfl
  rw [State.Rests, State.Quiet, State.Unhindered, s.own_close]
  exact ⟨hquiet, hsent, s.own.convoys_closeConvoy hconv, hsfrq, hasync, htr, hch, hcoll, hbar, hover, hfind, hposts, hsubs⟩

section
variable {s : State} (h : s.Rests)
include h

theorem State.Rests.parting_close : s.Parting s.close s.cur := by
  obtain ⟨-, -, -, -, -, -, -, -, -, -, hs, hposts, hsubs⟩ := h
  exact (State.Parting.refl hs hposts hsubs).putGroup _ rfl rfl

/-- KEND of a group at rest stalls at nothing: the group has given up its channels and its receives when it ends. -/
theorem execKend_ends : ∃ u, execKend s = .next (u.endGroup s.cur) ∧ s.Parting u s.cur := by
  have hpart := h.parting_close
  obtain ⟨hquiet, hsent, hconv, hsfrq, hasync, htr, hch, hcoll, -⟩ := h
  have hd := hquiet.close_drain hasync
  obtain ⟨⟨he, -, -⟩, -, hs, hlate, -⟩ := hquiet
  have hq : s.own.closeConvoy.queued = false := List.any_eq_false.mpr fun l hl => by rw [hs l hl]; decide
  have hee : s.close.entriesOf s.cur = [] := he
  have htt : s.close.transformsOf s.cur = [] := htr
  have hall : s.own.closeConvoy.chan.toList.all Channel.settled = true := List.all_eq_true.mpr hch
  obtain ⟨u, hu, hpu⟩ := (hpart.putGroup { s.close.own with chan := s.close.own.chan.map Channel.leave } rfl rfl).releaseRecvs
  refine ⟨u, ?_, hpu⟩
  have hu' : (s.close.putOwn { s.close.own with chan := s.close.own.chan.map Channel.leave }).releaseRecvs s.cur = (u, true) := hu
  simp only [execKend, hd]
  rw [if_neg, if_neg, if_neg, if_neg, if_neg, hu']
  · rw [s.own_close, hall]
    decide
  · simp [hcoll]
  · simp [hee, htt, hasync]
  · simp [hsfrq]
  · simp [s.own.convoys_closeConvoy hconv, hq, hsent, hlate, hee, hasync]

end

/-- Settles O31: either instruction frees the slot of a group whose kernel has been told of its end (`State.Told`), by KEND with the group's
flags and by GTERM as a failure; the slot's freeing leaves a kernel with groups to end, and finishes one that has none. -/
theorem groupEndResults : Obligations.GroupEndResults := by
  unfold Obligations.GroupEndResults
  rintro s _ _ pa k rfl rfl hm hr hk hco hc hp _ rfl e he hsup
  obtain ⟨x, hx, htold⟩ : ∃ x, exec e.1 s = .next (x.freeSlot s.cur) ∧ s.Told x s.cur pa k e.2 := by
    rcases List.mem_cons.mp he with rfl | he
    · obtain ⟨u, hu, hpart⟩ := execKend_ends hr
      obtain ⟨x, hx, htold⟩ := hpart.endGroup hm hk hc hp hco
      exact ⟨x, by rw [exec_kend, hu, hx], htold⟩
    · obtain rfl := List.mem_singleton.mp he
      obtain ⟨x, hx, htold⟩ := hr.parting_close.terminate hr.close hm hk hc hp hco
      exact ⟨x, by rw [exec_gterm, execGterm, s.isSupervisor_of_supervisor (hsup rfl), if_pos rfl, hx], htold⟩
  exact ⟨fun hlt => ⟨_, hx, htold.freeSlot_goesOn hlt⟩, fun hlast hst hsole => ⟨_, hx, htold.freeSlot_finishes hlast hst hc hp hsole⟩⟩

end Sys2Proof.Machine
end
